-- ==== Sys2Proof/Word.lean ====
section
/-! DEFINITION. The word types of the WY16 and the identifiers of its units. -/

namespace Sys2Proof

abbrev Byte := BitVec 8
abbrev W16 := BitVec 16
abbrev W32 := BitVec 32
abbrev W64 := BitVec 64

/-- Bays 0 to 15 (R15). -/
abbrev BayId := Fin 16
/-- Cores 0 to 49 of a bay (R16). -/
abbrev CoreIx := Fin 50
/-- SerDes ports, Zaled ports, and the input or output ports of a station (port 8 + n is output n). -/
abbrev PortId := Fin 8
/-- Partitions 0 to 15 are tenants, 16 is the management partition (R331). -/
abbrev PartId := Fin 17
/-- A tenant partition. -/
abbrev TenantId := Fin 16

/-- The management partition (R331). -/
abbrev mgmt : PartId := 16

end Sys2Proof
end

