-- ==== Sys2Proof/Syntax.lean ====
section
/-! DEFINITION. The commands of the WY16: one constructor of `Instr` for each row of spec/opcode_table.json, with its operands. -/

namespace Sys2Proof

/-- One bay core (R16). -/
structure CoreId where
  bay : BayId
  core : CoreIx
  deriving DecidableEq, Repr

/-- Who issues a register access (R315, R417): the PF, VF n + 1 (tenant n), the DBG or JTAG path, or the root-of-trust processor. -/
inductive Fn where
  | pf
  | vf (n : TenantId)
  | dbg
  | rot
  deriving DecidableEq, Repr

/-- The stations of a bay other than its cores (Table 01.3). -/
inductive StKind where
  | bin | msk | shr | lat | nse | rls
  deriving DecidableEq, Repr

/-- One controlled station instance (R77): a bay station, a core, Intake (TRN page) or Reduce (RED page). -/
inductive StationRef where
  | bay (b : BayId) (k : StKind)
  | core (c : CoreId)
  | trn
  | red
  deriving DecidableEq, Repr

/-- The register pages (Tables 15.2 and 15.3). -/
inductive Page where
  | dev | pwr | clk | alm | sch | rtp | rng | nvm | part
  | qm (p : PartId)
  | eth (p : PortId)
  | lane (p : PortId)
  | trn | win | zld | red | cxl
  | dbk (p : PartId)
  | dbg | thm | lvl
  | view (n : TenantId)
  | bay (b : BayId)
  | mem (b : BayId)
  | st (b : BayId) (k : StKind)
  | core (c : CoreId)
  deriving DecidableEq, Repr

/-- The queue entry that a command came from (R323, R324): where its completion goes. -/
structure CmdHdr where
  part : PartId
  sq : Nat
  tag : W32
  sqHead : Nat
  deriving DecidableEq, Repr

/-- What the device's read of host memory returned (R320). -/
inductive HostRead where
  | ok (bytes : List Byte)
  | failed
  deriving DecidableEq, Repr

/-- The lines of bay memory that an operation newly finds uncorrectable, by line address (a multiple of 64), and the
errors it corrects (R124, R125). What the DRAM cells do is outside the device's rules, so it is an operand. -/
structure LineFaults where
  ue : List Nat
  ce : Nat
  deriving DecidableEq, Repr

/-- An operand that makes the command read memory, with what that read finds (R124, R125). -/
structure Reads (α : Type) where
  arg : α
  lf : LineFaults
  deriving DecidableEq, Repr

/-- Where an aligned register access goes (R8, R315): an offset of the function's BAR4, or of its BAR0. -/
structure BarAddr where
  bar4 : Bool
  addr : Nat
  deriving DecidableEq, Repr

/-- What it writes: 4 bytes, or 8 with `hi` the upper 4 (R8). -/
structure BarData where
  lo : W32
  hi : Option W32 := none
  deriving DecidableEq, Repr

/-- CHAN_PIN's argument (R103), with whether a context that is not on chip authenticates when it is read back (R101). -/
structure PinReq where
  pin : Nat
  authentic : Bool
  deriving DecidableEq, Repr

/-- A coolant inlet temperature in 1/16 °C, and whether it has stayed above the limit for R368's second. -/
structure InletReading where
  inlet : Nat
  long : Bool
  deriving DecidableEq, Repr

/-- What patrol scrub finds in one line (R127). -/
inductive LineRead where
  | clean | corrected | uncorrectable
  deriving DecidableEq, Repr

/-- A noise claim (R326): a bay and a range of global indices. -/
structure Claim where
  bay : Nat
  lo : Nat
  hi : Nat
  deriving DecidableEq, Repr

/-- The sink of a release (R226). -/
inductive Sink where
  | host (data record : W64)
  | wrd (chan : Nat) (shelfmark : W32) (off : Nat)
  deriving DecidableEq, Repr

/-- The arguments of RLS_OPEN (R226, Table 11.10). -/
structure RlsArgs where
  bay : Nat
  source : Nat
  level : Nat
  job : W32
  round : W32
  seed : Nat
  presBin : W32
  lo : Nat
  hi : Nat
  region : Nat
  sink : Sink
  deriving DecidableEq, Repr

/-- The request of LINK_ESTABLISH (R347). -/
structure LinkReq where
  chan : Nat
  kind : Nat
  ownerKey : List Byte
  ownerSig : List Byte
  rank : Nat
  peerKey : List Byte
  ek : List Byte
  ekSig : List Byte
  deriving DecidableEq, Repr

/-- The request of MODEL_LOAD (R354): a DATA slot, a source region and length, and a target region in a bay. -/
structure ModelReq where
  slot : Nat
  srcBay : Nat
  src : Nat
  srcLen : Nat
  dstBay : Nat
  dst : Nat
  dstLen : Nat
  deriving DecidableEq, Repr

/-- A firmware image offered to FW_UPDATE (R341): the bytes Seltone signed, the signature and the SVN it carries. -/
structure FwImage where
  body : List Byte
  sig : List Byte
  svn : Nat
  deriving DecidableEq, Repr

/-- The device-reset causes of Table 13.7. -/
inductive ResetCause where
  | pwrgdLow | sysRstLow | bayRail (b : BayId) | otherRail (r : Fin 7) | ref25Lost
  deriving DecidableEq, Repr

/-- What the root-of-trust start of Table 12.4 reads: the PUF response with its helper data, the firmware image of the
processor, and whether each stored component image verifies. -/
structure RotStart where
  rootOk : Bool
  identityOk : Bool
  rotFwOk : Bool
  microcodeOk : Bool
  nvmOk : Bool
  deriving DecidableEq, Repr

/-- Which of the device's own host reads failed (R320): the ring read of a queue, or the argument block or host buffer
of a dispatched command. -/
inductive HostReadTarget where
  | ring (q : Nat)
  | command (h : CmdHdr)
  deriving DecidableEq, Repr

/-- How the I3C controller assigns an address (R403). -/
inductive I3cAssign where
  | setdasa (static dyn : BitVec 7)
  | entdaa (dyn : BitVec 7)
  deriving DecidableEq, Repr

/-- Fields of format VR (Table 09.4); fn is the row's own. -/
structure VrFields where
  vd : BitVec 5
  va : BitVec 5
  vb : BitVec 5
  mr : BitVec 3
  pr : BitVec 3
  w : Bool
  deriving DecidableEq, Repr

/-- Fields of format VS (Table 09.4). -/
structure VsFields where
  vd : BitVec 5
  va : BitVec 5
  sa : BitVec 6
  pr : BitVec 3
  w : Bool
  deriving DecidableEq, Repr

/-- The commands: one constructor for each row of spec/opcode_table.json, those first that the device itself makes of an entry
or a mailbox request. -/
inductive Instr where
  /-- Q_CREATE (R321) -/
  | qCreate (h : CmdHdr) (args : List Byte)
  /-- Q_DELETE (R327) -/
  | qDelete (h : CmdHdr) (q : Nat)
  /-- IDENTITY_GET (R343) -/
  | identityGet
  /-- ATTEST (R355) -/
  | attest (part : Nat) (nonce : List Byte)
  /-- PART_CREATE (R333) -/
  | partCreate (part : Nat) (layout : List Byte)
  /-- PART_DESTROY (R335) -/
  | partDestroy (part : Nat)
  /-- DEBUG_ENABLE (R342) -/
  | debugEnable (part : Nat)
  /-- JOB_CREATE (R344) -/
  | jobCreate (part : Nat) (record : List Byte)
  /-- JOB_DESTROY (R349) -/
  | jobDestroy (part : Nat)
  /-- JOB_KEY_WRAP (R346) -/
  | jobKeyWrap (part : Nat) (req : List Byte)
  /-- JOB_KEY_ACCEPT (R346) -/
  | jobKeyAccept (part : Nat) (req : List Byte)
  /-- LINK_ESTABLISH (R347) -/
  | linkEstablish (part : Nat) (r : LinkReq)
  /-- KEY_LOAD (R351) -/
  | keyLoad (part : Nat) (blob : List Byte)
  /-- KEY_EXPORT (R351) -/
  | keyExport (part slot : Nat)
  /-- KEY_UNLOAD (R352) -/
  | keyUnload (part slot : Nat)
  /-- OWNER_KEY_LOAD (R353) -/
  | ownerKeyLoad (part : Nat) (pkg ownerKey : List Byte)
  /-- MODEL_LOAD (R354) -/
  | modelLoad (part : Nat) (r : Reads ModelReq)
  /-- FW_UPDATE (R341) -/
  | fwUpdate (comp : Nat) (img : FwImage)
  /-- FW_SVN_COMMIT (R341) -/
  | fwSvnCommit (comp : Nat)
  /-- REGISTER_WRITE (R10) -/
  | registerWrite (fn : Fn) (addr : BarAddr) (val : BarData)
  /-- PG_UNLOCK (R11) -/
  | pgUnlock (fn : Fn) (page : Page) (val : W32)
  /-- BAR_ACCESS_MALFORMED (R315) -/
  | barAccessMalformed (fn : Fn) (bar2 : Bool) (isRead : Bool) (addr size : Nat)
  /-- STATION_EN (R78) -/
  | stationEn (fn : Fn) (st : StationRef) (on : Bool)
  /-- STATION_ABORT (R79) -/
  | stationAbort (fn : Fn) (st : StationRef) (on : Bool)
  /-- STATION_DRAIN_REQ (R78) -/
  | stationDrainReq (fn : Fn) (st : StationRef) (on : Bool)
  /-- STATION_CONTROL_ARRIVE (R78) -/
  | stationControlArrive (st : StationRef)
  /-- STALL (R77) -/
  | stall (st : StationRef) (out : PortId)
  /-- STATION_FAULT (R78) -/
  | stationFault (st : StationRef)
  /-- TOKEN_ARRIVE (R83) -/
  | tokenArrive (st : StationRef) (port : PortId)
  /-- CREDIT_ARRIVE (R83) -/
  | creditArrive (st : StationRef) (port : PortId)
  /-- FIRING_END (R65) -/
  | firingEnd (st : StationRef)
  /-- SELF_REFRESH_ENTER (R72) -/
  | selfRefreshEnter (b : BayId)
  /-- FRAME_RECEIVE (R86) -/
  | frameReceive (p : PortId) (half : Bool) (frame : List Byte)
  /-- ETH_LINK_UP (R85) -/
  | ethLinkUp (p : PortId) (half : Bool)
  /-- ETH_LINK_DOWN (R85) -/
  | ethLinkDown (p : PortId) (half : Bool)
  /-- WRD_PACKET_RECEIVE (R447) -/
  | wrdPacketReceive
  /-- CONTEXT_FETCH_COMPLETE (R101) -/
  | contextFetchComplete (chan : Nat) (authentic : Bool)
  /-- OLD_EPOCH_EXPIRY (R95) -/
  | oldEpochExpiry (chan : Nat)
  /-- MESSAGE_TIMEOUT (R109) -/
  | messageTimeout (chan : Nat) (shelfmark msgId : W32)
  /-- PUT_WRITE_COMPLETE (R108) -/
  | putWriteComplete (chan : Nat) (shelfmark msgId : W32)
  /-- CHAN_CREATE (R103) -/
  | chanCreate (h : CmdHdr) (chan vlan portMask paths : Nat) (mac peer : List Byte)
  /-- CHAN_KEY (R96) -/
  | chanKey (h : CmdHdr) (chan : Nat) (job : W32) (epoch : Nat)
  /-- CHAN_PIN (R103) -/
  | chanPin (h : CmdHdr) (chan : Nat) (pin : PinReq)
  /-- CHAN_RESET (R104) -/
  | chanReset (h : CmdHdr) (chan : Nat)
  /-- CHAN_FREE (R103) -/
  | chanFree (h : CmdHdr) (chan : Nat)
  /-- WIN_OPEN (R112) -/
  | winOpen (h : CmdHdr) (desc : List Byte)
  /-- WIN_CLOSE (R114) -/
  | winClose (h : CmdHdr) (shelfmark : W32)
  /-- WIN_REVOKE (R115) -/
  | winRevoke (h : CmdHdr) (shelfmark : W32)
  /-- WINDOW_EXPIRY (R114) -/
  | windowExpiry (index : W16)
  /-- INTAKE_SHARE_EN (R111) -/
  | intakeShareEn (fn : Fn) (p : TenantId) (on : Bool)
  /-- INTAKE_SHARE_ABORT (R111) -/
  | intakeShareAbort (fn : Fn) (p : TenantId) (on : Bool)
  /-- INTAKE_SHARE_DRAIN_REQ (R111) -/
  | intakeShareDrainReq (fn : Fn) (p : TenantId) (on : Bool)
  /-- BIN_ADD_TILE (R135) -/
  | binAddTile (b : BayId) (port : PortId)
  /-- TILE_ADD_COMPLETE (R135) -/
  | tileAddComplete (b : BayId) (index entry : Nat) (lf : LineFaults)
  /-- BIN_STREAM_APPLY (R446) -/
  | binStreamApply (b : BayId) (port : PortId) (lf : LineFaults)
  /-- BIN_READ_EMIT (R446) -/
  | binReadEmit (b : BayId) (out : PortId) (lf : LineFaults)
  /-- PATROL_SCRUB_READ (R127) -/
  | patrolScrubRead (b : BayId) (line : Nat) (found : LineRead)
  /-- PSEUDO_CHANNEL_FENCE (R126) -/
  | pseudoChannelFence (b : BayId) (pc : Fin 64) (trainingFailed : Bool)
  /-- BIN_ALLOC (R131) -/
  | binAlloc (h : CmdHdr) (desc : List Byte)
  /-- BIN_SEAL (R138) -/
  | binSeal (h : CmdHdr) (handle : W32) (buffer : W64) (lf : LineFaults)
  /-- BIN_COMBINE (R139) -/
  | binCombine (h : CmdHdr) (target : W32) (sources : List W32) (lf : LineFaults)
  /-- BIN_COMBINE_COMPLETE (R139) -/
  | binCombineComplete (h : CmdHdr)
  /-- BIN_DISCARD (R141) -/
  | binDiscard (h : CmdHdr) (handle : W32)
  /-- BIN_FREE (R142) -/
  | binFree (h : CmdHdr) (handle : W32)
  /-- BIN_IN_FLIGHT_DRAINED (R141) -/
  | binInFlightDrained (b : BayId) (index : Nat)
  /-- SCRUB_ZERO_COMPLETE (R147) -/
  | scrubZeroComplete (b : BayId)
  /-- GLEAN_OPEN (R166); the graph region comes with what the reads of the command find -/
  | gleanOpen (h : CmdHdr) (job round : W32) (lead : Nat) (graphRegion : Reads Nat) (graphLen workRegion workLen : Nat) (digest : List Byte) (handles : List W32)
  /-- GLEAN_SHARES (R158) -/
  | gleanShares (h : CmdHdr) (job round : W32) (lead : Nat) (region : Reads Nat) (len : Nat)
  /-- GLEAN_EXCLUDE (R162) -/
  | gleanExclude (h : CmdHdr) (job round : W32) (lead count : Nat) (buf : HostRead)
  /-- GLEAN_FINISH (R169) -/
  | gleanFinish (h : CmdHdr) (job round : W32) (lead : Nat) (buffer : W64)
  /-- GLEAN_ABORT (R169) -/
  | gleanAbort (h : CmdHdr) (job round : W32) (lead : Nat)
  /-- RECONSTRUCTION_COMPLETE (R169) -/
  | reconstructionComplete (lead : BayId)
  /-- MASK_POSITION_EMIT (R171) -/
  | maskPositionEmit (b : BayId)
  /-- MASKING_COMPLETE (R169) -/
  | maskingComplete (lead : BayId)
  /-- LAT_PARAM_LOAD (R176) -/
  | latParamLoad (h : CmdHdr) (mask : W16) (len : Nat) (buf : HostRead)
  /-- PARAM_CONSTANTS_COMPLETE (R177) -/
  | paramConstantsComplete (b : BayId)
  /-- LAT_PARAM_UNLOAD (R178) -/
  | latParamUnload (h : CmdHdr) (mask : W16) (paramSet : Nat)
  /-- LAT_KEY_BIND (R197) -/
  | latKeyBind (h : CmdHdr) (bay index kind level paramSet : Nat) (src dst : W32) (region len : Nat) (digest : List Byte)
  /-- KEY_CHECK_COMPLETE (R197) -/
  | keyCheckComplete (b : BayId) (index : Reads PortId)
  /-- LAT_KEY_UNBIND (R198) -/
  | latKeyUnbind (h : CmdHdr) (bay index : Nat)
  /-- LATTICE_GATHER (R186) -/
  | latticeGather (b : BayId) (port : PortId)
  /-- LATTICE_COMPUTE (R186) -/
  | latticeCompute (b : BayId) (pipe : Fin 4)
  /-- LATTICE_SAMPLES_READY (R186) -/
  | latticeSamplesReady (b : BayId) (pipe : Fin 4)
  /-- LATTICE_EMIT (R186) -/
  | latticeEmit (b : BayId) (pipe : Fin 4)
  /-- CONDITIONED_BLOCK (R203) -/
  | conditionedBlock (raw : List Bool)
  /-- STARTUP_TEST_COMPLETE (R205) -/
  | startupTestComplete (raw : List Bool)
  /-- SRC_EN (R205) -/
  | srcEn (fn : Fn) (on : Bool)
  /-- RESTART (R206) -/
  | restart (fn : Fn) (on : Bool)
  /-- RNG_DATA_READ (R207) -/
  | rngDataRead
  /-- DRBG_RESUME (R209) -/
  | drbgResume (p : PartId)
  /-- NSE_PARAM_LOAD (R213) -/
  | nseParamLoad (h : CmdHdr) (mask : W16) (len : Nat) (buf : HostRead)
  /-- NOISE_DRAW (R215) -/
  | noiseDraw (h : CmdHdr) (job round : W32) (claims : List Claim)
  /-- NOISE_EXPORT (R216) -/
  | noiseExport (h : CmdHdr) (seed lo hi : Nat) (buffer : W64) (target : List Byte)
  /-- NOISE_IMPORT (R217) -/
  | noiseImport (h : CmdHdr) (blob : List Byte) (claims : List Claim)
  /-- NOISE_CLOSE (R234) -/
  | noiseClose (h : CmdHdr) (seed : Nat)
  /-- NOISE_ADD_TILE (R221) -/
  | noiseAddTile (b : BayId) (port : PortId)
  /-- NOISE_SAMPLE_TILE (R222) -/
  | noiseSampleTile (b : BayId) (out : PortId)
  /-- RLS_OPEN (R226) -/
  | rlsOpen (h : CmdHdr) (a : RlsArgs)
  /-- RLS_RESEND (R230) -/
  | rlsResend (h : CmdHdr) (bay region : Nat)
  /-- RLS_ABORT (R231) -/
  | rlsAbort (h : CmdHdr) (bay : Nat)
  /-- RELEASE_ADMIT (R227) -/
  | releaseAdmit (b : BayId) (port : PortId)
  /-- RELEASE_SIGNED (R229) -/
  | releaseSigned (b : BayId)
  /-- RELEASE_EMIT_COMPLETE (R230) -/
  | releaseEmitComplete (b : BayId)
  /-- RELEASE_SINK_FAIL (R230) -/
  | releaseSinkFail (b : BayId)
  /-- ILLEGAL_INSTRUCTION (R244) -/
  | illegalInstruction (c : CoreId) (word : W32)
  /-- ADD (R245) -/
  | add (c : CoreId) (sd sa sb : BitVec 6)
  /-- SUB (R245) -/
  | sub (c : CoreId) (sd sa sb : BitVec 6)
  /-- AND (R245) -/
  | and (c : CoreId) (sd sa sb : BitVec 6)
  /-- OR (R245) -/
  | or (c : CoreId) (sd sa sb : BitVec 6)
  /-- XOR (R245) -/
  | xor (c : CoreId) (sd sa sb : BitVec 6)
  /-- SLL (R245) -/
  | sll (c : CoreId) (sd sa sb : BitVec 6)
  /-- SRL (R245) -/
  | srl (c : CoreId) (sd sa sb : BitVec 6)
  /-- SRA (R245) -/
  | sra (c : CoreId) (sd sa sb : BitVec 6)
  /-- MUL (R245) -/
  | mul (c : CoreId) (sd sa sb : BitVec 6)
  /-- MULHU (R245) -/
  | mulhu (c : CoreId) (sd sa sb : BitVec 6)
  /-- SLTU (R245) -/
  | sltu (c : CoreId) (sd sa sb : BitVec 6)
  /-- SLT (R245) -/
  | slt (c : CoreId) (sd sa sb : BitVec 6)
  /-- CMOVNZ (R245) -/
  | cmovnz (c : CoreId) (sd sa sb : BitVec 6)
  /-- MINU (R245) -/
  | minu (c : CoreId) (sd sa sb : BitVec 6)
  /-- MAXU (R245) -/
  | maxu (c : CoreId) (sd sa sb : BitVec 6)
  /-- ADDI (R245) -/
  | addi (c : CoreId) (sd sa : BitVec 6) (imm : BitVec 14)
  /-- ANDI (R245) -/
  | andi (c : CoreId) (sd sa : BitVec 6) (imm : BitVec 14)
  /-- ORI (R245) -/
  | ori (c : CoreId) (sd sa : BitVec 6) (imm : BitVec 14)
  /-- XORI (R245) -/
  | xori (c : CoreId) (sd sa : BitVec 6) (imm : BitVec 14)
  /-- SLLI (R245) -/
  | slli (c : CoreId) (sd sa : BitVec 6) (sh : BitVec 6)
  /-- SRLI (R245) -/
  | srli (c : CoreId) (sd sa : BitVec 6) (sh : BitVec 6)
  /-- SRAI (R245) -/
  | srai (c : CoreId) (sd sa : BitVec 6) (sh : BitVec 6)
  /-- LUI (R245) -/
  | lui (c : CoreId) (sd : BitVec 6) (imm : BitVec 20)
  /-- LD (R245) -/
  | ld (c : CoreId) (sd sa : BitVec 6) (imm : BitVec 14)
  /-- LW (R245) -/
  | lw (c : CoreId) (sd sa : BitVec 6) (imm : BitVec 14)
  /-- SD (R245) -/
  | sd (c : CoreId) (sv sa : BitVec 6) (imm : BitVec 14)
  /-- SW (R245) -/
  | sw (c : CoreId) (sv sa : BitVec 6) (imm : BitVec 14)
  /-- BEQ (R245) -/
  | beq (c : CoreId) (sa sb : BitVec 6) (off : BitVec 14)
  /-- BNE (R245) -/
  | bne (c : CoreId) (sa sb : BitVec 6) (off : BitVec 14)
  /-- BLTU (R245) -/
  | bltu (c : CoreId) (sa sb : BitVec 6) (off : BitVec 14)
  /-- BGEU (R245) -/
  | bgeu (c : CoreId) (sa sb : BitVec 6) (off : BitVec 14)
  /-- BLT (R245) -/
  | blt (c : CoreId) (sa sb : BitVec 6) (off : BitVec 14)
  /-- BGE (R245) -/
  | bge (c : CoreId) (sa sb : BitVec 6) (off : BitVec 14)
  /-- JAL (R245) -/
  | jal (c : CoreId) (sd : BitVec 6) (imm : BitVec 20)
  /-- JALR (R245) -/
  | jalr (c : CoreId) (sd sa : BitVec 6) (imm : BitVec 14)
  /-- CSRR (R245) -/
  | csrr (c : CoreId) (sd : BitVec 6) (csr : BitVec 14)
  /-- CSRW (R248) -/
  | csrw (c : CoreId) (sv : BitVec 6) (csr : BitVec 14)
  /-- VMADD (R246) -/
  | vmadd (c : CoreId) (f : VrFields)
  /-- VMSUB (R246) -/
  | vmsub (c : CoreId) (f : VrFields)
  /-- VMNEG (R246) -/
  | vmneg (c : CoreId) (f : VrFields)
  /-- VMMUL (R246) -/
  | vmmul (c : CoreId) (f : VrFields)
  /-- VMMAC (R246) -/
  | vmmac (c : CoreId) (f : VrFields)
  /-- VMONT (R246) -/
  | vmont (c : CoreId) (f : VrFields)
  /-- VMMACM (R246) -/
  | vmmacm (c : CoreId) (f : VrFields)
  /-- VTOM (R246) -/
  | vtom (c : CoreId) (f : VrFields)
  /-- VFROMM (R246) -/
  | vfromm (c : CoreId) (f : VrFields)
  /-- VADD (R245) -/
  | vadd (c : CoreId) (f : VrFields)
  /-- VSUB (R245) -/
  | vsub (c : CoreId) (f : VrFields)
  /-- VMUL (R245) -/
  | vmul (c : CoreId) (f : VrFields)
  /-- VMULHU (R245) -/
  | vmulhu (c : CoreId) (f : VrFields)
  /-- VAND (R245) -/
  | vand (c : CoreId) (f : VrFields)
  /-- VOR (R245) -/
  | vor (c : CoreId) (f : VrFields)
  /-- VXOR (R245) -/
  | vxor (c : CoreId) (f : VrFields)
  /-- VSEL (R245) -/
  | vsel (c : CoreId) (f : VrFields)
  /-- VSLL (R245) -/
  | vsll (c : CoreId) (f : VrFields)
  /-- VSRL (R245) -/
  | vsrl (c : CoreId) (f : VrFields)
  /-- VSRA (R245) -/
  | vsra (c : CoreId) (f : VrFields)
  /-- VCMP_EQ (R245) -/
  | vcmpEq (c : CoreId) (f : VrFields)
  /-- VCMP_NE (R245) -/
  | vcmpNe (c : CoreId) (f : VrFields)
  /-- VCMP_LTU (R245) -/
  | vcmpLtu (c : CoreId) (f : VrFields)
  /-- VCMP_GEU (R245) -/
  | vcmpGeu (c : CoreId) (f : VrFields)
  /-- VCMP_LT (R245) -/
  | vcmpLt (c : CoreId) (f : VrFields)
  /-- VCMP_GE (R245) -/
  | vcmpGe (c : CoreId) (f : VrFields)
  /-- VCMP_FLT (R245) -/
  | vcmpFlt (c : CoreId) (f : VrFields)
  /-- VCMP_FEQ (R245) -/
  | vcmpFeq (c : CoreId) (f : VrFields)
  /-- VCMP_FUN (R245) -/
  | vcmpFun (c : CoreId) (f : VrFields)
  /-- VBCAST (R245) -/
  | vbcast (c : CoreId) (f : VsFields)
  /-- VADDS (R245) -/
  | vadds (c : CoreId) (f : VsFields)
  /-- VSLLS (R245) -/
  | vslls (c : CoreId) (f : VsFields)
  /-- VSRLS (R245) -/
  | vsrls (c : CoreId) (f : VsFields)
  /-- VSRAS (R245) -/
  | vsras (c : CoreId) (f : VsFields)
  /-- VIOTA (R245) -/
  | viota (c : CoreId) (f : VsFields)
  /-- VLD (R245) -/
  | vld (c : CoreId) (v : BitVec 5) (sa : BitVec 6) (imm : BitVec 10) (pr : BitVec 3)
  /-- VST (R245) -/
  | vst (c : CoreId) (v : BitVec 5) (sa : BitVec 6) (imm : BitVec 10) (pr : BitVec 3)
  /-- FTOR (R248) -/
  | ftor (c : CoreId) (f : VrFields)
  /-- BTOR (R248) -/
  | btor (c : CoreId) (f : VrFields)
  /-- RTOF (R248) -/
  | rtof (c : CoreId) (f : VrFields)
  /-- RTOB (R248) -/
  | rtob (c : CoreId) (f : VrFields)
  /-- RTOS (R248) -/
  | rtos (c : CoreId) (f : VrFields)
  /-- STOR (R248) -/
  | stor (c : CoreId) (f : VrFields)
  /-- VFADD (R249) -/
  | vfadd (c : CoreId) (f : VrFields)
  /-- VFSUB (R249) -/
  | vfsub (c : CoreId) (f : VrFields)
  /-- VFMUL (R249) -/
  | vfmul (c : CoreId) (f : VrFields)
  /-- VFFMA (R249) -/
  | vffma (c : CoreId) (f : VrFields)
  /-- VFDIV (R249) -/
  | vfdiv (c : CoreId) (f : VrFields)
  /-- VFSQRT (R249) -/
  | vfsqrt (c : CoreId) (f : VrFields)
  /-- VFMIN (R249) -/
  | vfmin (c : CoreId) (f : VrFields)
  /-- VFMAX (R249) -/
  | vfmax (c : CoreId) (f : VrFields)
  /-- VFABS (R249) -/
  | vfabs (c : CoreId) (f : VrFields)
  /-- VFNEG (R249) -/
  | vfneg (c : CoreId) (f : VrFields)
  /-- PAND (R245) -/
  | pand (c : CoreId) (pd pa pb : BitVec 3)
  /-- POR (R245) -/
  | por (c : CoreId) (pd pa pb : BitVec 3)
  /-- PXOR (R245) -/
  | pxor (c : CoreId) (pd pa pb : BitVec 3)
  /-- PNOT (R245) -/
  | pnot (c : CoreId) (pd pa pb : BitVec 3)
  /-- PSET (R245) -/
  | pset (c : CoreId) (pd pa pb : BitVec 3)
  /-- PCLR (R245) -/
  | pclr (c : CoreId) (pd pa pb : BitVec 3)
  /-- MLD (R247) -/
  | mld (c : CoreId) (md : BitVec 3) (w : Bool) (sa : BitVec 6) (imm : BitVec 14)
  /-- FIRE (R255) -/
  | fire (c : CoreId) (masks : W16)
  /-- FIRE_CLAIM (R255) -/
  | fireClaim (c : CoreId)
  /-- TSLOT (R245) -/
  | tslot (c : CoreId) (sd : BitVec 6) (port : BitVec 4)
  /-- TEND (R256) -/
  | tend (c : CoreId)
  /-- TEND_COMPLETE (R256) -/
  | tendComplete (c : CoreId)
  /-- TPOIS (R245) -/
  | tpois (c : CoreId)
  /-- DCOPY (R251) -/
  | dcopy (c : CoreId) (sdst ssrc slen : BitVec 6) (ch : BitVec 2)
  /-- DADD (R251) -/
  | dadd (c : CoreId) (sdst ssrc slen : BitVec 6) (ch : BitVec 2)
  /-- DSUB (R251) -/
  | dsub (c : CoreId) (sdst ssrc slen : BitVec 6) (ch : BitVec 2)
  /-- DWAIT (R251) -/
  | dwait (c : CoreId) (sdst ssrc slen : BitVec 6) (ch : BitVec 2)
  /-- DFENCE (R251) -/
  | dfence (c : CoreId) (sdst ssrc slen : BitVec 6) (ch : BitVec 2)
  /-- BRK (R245) -/
  | brk (c : CoreId)
  /-- DMA_COMPLETE (R251) -/
  | dmaComplete (c : CoreId) (ch : Fin 4) (lf : LineFaults)
  /-- WATCHDOG (R258) -/
  | watchdog (c : CoreId)
  /-- CORE_FAULT (R259) -/
  | coreFault (c : CoreId) (kind : Fin 5)
  /-- CORE_REMAP (R260) -/
  | coreRemap (b : BayId)
  /-- PPS_EDGE (R264) -/
  | ppsEdge
  /-- PPS_WINDOW_MISSED (R265) -/
  | ppsWindowMissed
  /-- ALM_MODE (R265) -/
  | almMode (fn : Fn) (mode : BitVec 2)
  /-- ALM_SET (R269) -/
  | almSet (fn : Fn) (on : Bool)
  /-- ALM_TIME_READ (R299) -/
  | almTimeRead
  /-- ALM_CAP_READ (R299) -/
  | almCapRead
  /-- SLOT_START (R271) -/
  | slotStart (p : TenantId)
  /-- SCH_LOAD (R285) -/
  | schLoad (h : CmdHdr) (bay len region : Nat) (digest : List Byte)
  /-- SCH_LOAD_COMPLETE (R285) -/
  | schLoadComplete (p : Reads TenantId)
  /-- SCH_SWAP (R287) -/
  | schSwap (h : CmdHdr) (t0 : W64)
  /-- SCH_DISCARD (R284) -/
  | schDiscard (h : CmdHdr)
  /-- SCH_PHASE (R281) -/
  | schPhase (h : CmdHdr) (mask : W16) (set : Nat)
  /-- SCH_HALT (R284) -/
  | schHalt (h : CmdHdr)
  /-- SWAP_DRAIN_START (R287) -/
  | swapDrainStart (p : TenantId)
  /-- SWAP_CHECK (R287) -/
  | swapCheck (p : TenantId)
  /-- SWAP_BOUNDARY (R287) -/
  | swapBoundary (p : TenantId)
  /-- REDUCE_SEND_TILE (R289) -/
  | reduceSendTile (p : TenantId) (xfer : Nat) (lf : LineFaults)
  /-- REDUCE_INGRESS_TILE (R290) -/
  | reduceIngressTile (lf : LineFaults)
  /-- XFER_RECV_END (R293) -/
  | xferRecvEnd (p : TenantId) (xfer : Nat)
  /-- REDUCE_SHARE_EN (R294) -/
  | reduceShareEn (fn : Fn) (p : TenantId) (on : Bool)
  /-- REDUCE_SHARE_ABORT (R294) -/
  | reduceShareAbort (fn : Fn) (p : TenantId) (on : Bool)
  /-- REDUCE_SHARE_DRAIN_REQ (R294) -/
  | reduceShareDrainReq (fn : Fn) (p : TenantId) (on : Bool)
  /-- ZLD_EN (R304) -/
  | zldEn (fn : Fn) (port : PortId) (on : Bool)
  /-- RETRAIN (R304) -/
  | retrain (fn : Fn) (port : PortId) (on : Bool)
  /-- ZLD_SIGNAL_PRESENT (R304) -/
  | zldSignalPresent (port : PortId)
  /-- ZLD_TRAINING_DONE (R304) -/
  | zldTrainingDone (port : PortId)
  /-- ZLD_TRAINING_TIMEOUT (R304) -/
  | zldTrainingTimeout (port : PortId)
  /-- ZLD_TRAIN_RETRY (R304) -/
  | zldTrainRetry (port : PortId)
  /-- ALIGNMENT_LOST (R304) -/
  | alignmentLost (port : PortId)
  /-- HELLO (R312) -/
  | hello (port : PortId)
  /-- HELLO_TIMEOUT (R304) -/
  | helloTimeout (port : PortId)
  /-- IDENT (R349) -/
  | ident (port : PortId)
  /-- NONCE (R349) -/
  | nonce (port : PortId)
  /-- PROOF (R349) -/
  | proof (port : PortId)
  /-- RETRAIN_TIMEOUT (R304) -/
  | retrainTimeout (port : PortId)
  /-- FLIT_RECEIVE (R306) -/
  | flitReceive (port : PortId) (flit : List Byte)
  /-- REPLAY_TIMEOUT (R306) -/
  | replayTimeout (port : PortId)
  /-- ZALED_FRAME (R310) -/
  | zaledFrame (port : PortId)
  /-- PERST_ASSERT (R385) -/
  | perstAssert
  /-- PERST_DEASSERT (R386) -/
  | perstDeassert (width rate : Nat)
  /-- VF_FLR (R318) -/
  | vfFlr (n : TenantId)
  /-- PF_FLR (R318) -/
  | pfFlr
  /-- TLP_MALFORMED (R320) -/
  | tlpMalformed (requester : W16)
  /-- HOST_READ_FAIL (R320) -/
  | hostReadFail (target : HostReadTarget)
  /-- CXL_LINK_DOWN (R320) -/
  | cxlLinkDown
  /-- CXL_MEM_READ (R317) -/
  | cxlMemRead (dpa : Nat) (lf : LineFaults)
  /-- CXL_MEM_WRITE (R317) -/
  | cxlMemWrite (dpa : Nat) (data : List Byte) (lf : LineFaults)
  /-- HDM_DECODER_COMMIT (R317) -/
  | hdmDecoderCommit (dec : Bool) (base size : Nat)
  /-- DOORBELL (R322) -/
  | doorbell (fn : Fn) (off : Nat) (val : W32)
  /-- SQ_DISPATCH (R325) -/
  | sqDispatch (sq : Nat) (entry args buf : HostRead)
  /-- COMPLETION_POST (R324) -/
  | completionPost (cq : Nat) (written : Bool)
  /-- IRQ_TIMER (R324) -/
  | irqTimer (cq : Nat)
  /-- QM_ADM_CFG_EN (R327) -/
  | qmAdmCfgEn (fn : Fn) (val : W32)
  /-- ATTEST_HELD_RELEASE (R356) -/
  | attestHeldRelease
  /-- PART_CREATE_COMPLETE (R334) -/
  | partCreateComplete (p : TenantId)
  /-- PART_DESTROY_COMPLETE (R334) -/
  | partDestroyComplete (p : TenantId)
  /-- FW_ACTIVATE (R389) -/
  | fwActivate (comp : Fin 12)
  /-- FW_ACTIVATION_COMPLETE (R356) -/
  | fwActivationComplete (comp : Fin 12)
  /-- DEVICE_RESET (R385) -/
  | deviceReset (cause : ResetCause)
  /-- RESET_RELEASE (R386) -/
  | resetRelease (r : RotStart)
  /-- STACK_TRAINING_COMPLETE (R386) -/
  | stackTrainingComplete (group : Fin 4) (passed : W16)
  /-- RAIL_WARN (R362) -/
  | railWarn (rail : Fin 7) (mv : Nat)
  /-- BUDGET_THROTTLE (R365) -/
  | budgetThrottle (b : BayId)
  /-- BUDGET_RECOVER (R365) -/
  | budgetRecover (b : BayId)
  /-- PWR_CAP_WRITE (R366) -/
  | pwrCapWrite (fn : Fn) (val : W32)
  /-- COOLANT_HIGH (R368) -/
  | coolantHigh (inlet : InletReading)
  /-- GOVERNOR_EVALUATE (R369) -/
  | governorEvaluate (tj : List Nat)
  /-- THERMAL_TRIP (R372) -/
  | thermalTrip (unit tj : Nat)
  /-- THERMAL_TRIP_END (R372) -/
  | thermalTripEnd
  /-- THERMTRIP_ASSERT (R372) -/
  | thermtripAssert (unit tj : Nat)
  /-- LEVELLER_ADJUST (R373) -/
  | levellerAdjust (work : List Nat)
  /-- SHED_STAGE_ENTER (R378) -/
  | shedStageEnter (b : BayId) (mv : Nat)
  /-- SHED_ESCALATE (R378) -/
  | shedEscalate (b : BayId) (mv : Nat)
  /-- SHED_RECOVER_HOLD (R379) -/
  | shedRecoverHold
  /-- SHED_STAGE_UNDO (R379) -/
  | shedStageUndo
  /-- REF_LOST (R384) -/
  | refLost (ref : Fin 3)
  /-- REF_RESTORED (R384) -/
  | refRestored (ref : Fin 3)
  /-- PRST_CORE (R390) -/
  | prstCore (fn : Fn) (c : CoreId)
  /-- PRST_STATION (R390) -/
  | prstStation (fn : Fn) (b : BayId) (k : StKind)
  /-- PRST_BAY (R390) -/
  | prstBay (fn : Fn) (b : BayId)
  /-- PRST_COMPLETE (R390) -/
  | prstComplete (passed : Bool)
  /-- NVM_STORE (R392) -/
  | nvmStore (fn : Fn)
  /-- NVM_DEFAULTS (R392) -/
  | nvmDefaults (fn : Fn)
  /-- NVM_STORE_COMPLETE (R392) -/
  | nvmStoreComplete (verified : Bool)
  /-- LANE_RECAL (R425) -/
  | laneRecal (fn : Fn) (p lane : PortId)
  /-- LANE_RECAL_COMPLETE (R391) -/
  | laneRecalComplete (p lane : PortId)
  /-- DBK_E0_READ (R427) -/
  | dbkE0Read (fn : Fn)
  /-- DBK_TAKE (R427) -/
  | dbkTake (fn : Fn) (seq : W32)
  /-- DAYBOOK_ENTRY_WRITE (R434) -/
  | daybookEntryWrite (inTime : Bool)
  /-- DBG_READ (R428) -/
  | dbgRead
  /-- DBG_HALT (R428) -/
  | dbgHalt
  /-- DBG_RESUME (R428) -/
  | dbgResume
  /-- DBG_STEP (R428) -/
  | dbgStep
  /-- XFER_SEND_CUTOFF (R272) -/
  | xferSendCutoff (p : TenantId) (xfer : Nat)
  /-- BAY_RAIL_BELOW_WARNING (R378) -/
  | bayRailBelowWarning (b : BayId) (mv : Nat)
  /-- BAY_RAIL_ABOVE_RECOVERY (R379) -/
  | bayRailAboveRecovery
  /-- RAIL_IN_TOLERANCE (R362) -/
  | railInTolerance (rail : Fin 7)
  /-- CXL_LINK_UP (R314) -/
  | cxlLinkUp (width rate : Nat)
  /-- RETRANSMISSION_TIMEOUT (R108) -/
  | retransmissionTimeout (chan : Nat) (msgId : W32)
  /-- RATE_UPDATE (R118) -/
  | rateUpdate (chan rttNs ce acked : Nat)
  /-- I3C_DYNAMIC_ADDRESS (R403) -/
  | i3cDynamicAddress (r : I3cAssign)
  deriving DecidableEq, Repr

end Sys2Proof
end

