-- ==== Sys2Proof/Decode.lean ====
section
/-! DEFINITION. Reading a command from the table's bits (no row has any), and the kernel instruction words of R244: decoder and encoder. -/

namespace Sys2Proof

/-- The command a word spells by the table's bits. No row of spec/opcode_table.json gives bits, so there is none. -/
def decodeTableWord (_nbits _w : Nat) : Option Instr := none

/-- Bits [31:26], the opcode (Table 09.4). -/
def kOp (w : W32) : BitVec 6 := w.extractLsb' 26 6
/-- Bits [25:20]. -/
def kA (w : W32) : BitVec 6 := w.extractLsb' 20 6
/-- Bits [19:14]. -/
def kB (w : W32) : BitVec 6 := w.extractLsb' 14 6
/-- Bits [13:8]. -/
def kC (w : W32) : BitVec 6 := w.extractLsb' 8 6
/-- Bits [5:0]. -/
def kFn6 (w : W32) : BitVec 6 := w.extractLsb' 0 6
/-- Bits [3:0]. -/
def kFn4 (w : W32) : BitVec 4 := w.extractLsb' 0 4
/-- Bits [13:0]. -/
def kImm14 (w : W32) : BitVec 14 := w.extractLsb' 0 14
/-- Bits [19:0]. -/
def kImm20 (w : W32) : BitVec 20 := w.extractLsb' 0 20

/-- Format VR (Table 09.4). -/
def kVr (w : W32) : VrFields where
  vd := w.extractLsb' 21 5
  va := w.extractLsb' 16 5
  vb := w.extractLsb' 11 5
  mr := w.extractLsb' 8 3
  pr := w.extractLsb' 5 3
  w := w.getLsbD 4

/-- Format VS (Table 09.4). -/
def kVs (w : W32) : VsFields where
  vd := w.extractLsb' 21 5
  va := w.extractLsb' 16 5
  sa := w.extractLsb' 10 6
  pr := w.extractLsb' 7 3
  w := w.getLsbD 6

/-- The word of format SR. -/
def encSr (op : BitVec 6) (sd sa sb : BitVec 6) (fn : BitVec 6) : W32 := op ++ sd ++ sa ++ sb ++ (0 : BitVec 2) ++ fn
/-- The word of formats SI, SS and SB. -/
def encSi (op : BitVec 6) (sd sa : BitVec 6) (imm : BitVec 14) : W32 := op ++ sd ++ sa ++ imm
/-- The word of format SU. -/
def encSu (op : BitVec 6) (sd : BitVec 6) (imm : BitVec 20) : W32 := op ++ sd ++ imm
/-- The word of format VR. -/
def encVr (op : BitVec 6) (f : VrFields) (fn : BitVec 4) : W32 :=
  op ++ f.vd ++ f.va ++ f.vb ++ f.mr ++ f.pr ++ BitVec.ofBool f.w ++ fn
/-- The word of format VS. -/
def encVs (op : BitVec 6) (f : VsFields) (fn : BitVec 6) : W32 :=
  op ++ f.vd ++ f.va ++ f.sa ++ f.pr ++ BitVec.ofBool f.w ++ fn
/-- The word of format VM. -/
def encVm (op : BitVec 6) (v : BitVec 5) (sa : BitVec 6) (imm : BitVec 10) (pr : BitVec 3) : W32 :=
  op ++ v ++ sa ++ imm ++ pr ++ (0 : BitVec 2)
/-- The word of format PR. -/
def encPr (op : BitVec 6) (pd pa pb : BitVec 3) (fn : BitVec 4) : W32 := op ++ pd ++ pa ++ pb ++ (0 : BitVec 13) ++ fn
/-- The word of format MD. -/
def encMd (op : BitVec 6) (md : BitVec 3) (w : Bool) (sa : BitVec 6) (imm : BitVec 14) : W32 :=
  op ++ md ++ BitVec.ofBool w ++ (0 : BitVec 2) ++ sa ++ imm
/-- The word of format T. -/
def encT (op : BitVec 6) (sd : BitVec 6) (port : BitVec 4) (imm : BitVec 16) : W32 := op ++ sd ++ port ++ imm
/-- The word of format D. -/
def encD (op : BitVec 6) (sdst ssrc slen : BitVec 6) (ch : BitVec 2) (fn : BitVec 6) : W32 :=
  op ++ sdst ++ ssrc ++ slen ++ ch ++ fn

/-- Opcode 0x01 by fn (Table 09.5). -/
def decSr (c : CoreId) (sd sa sb : BitVec 6) (fn : Nat) : Option Instr :=
  match fn with
  | 0 => some (.add c sd sa sb)
  | 1 => some (.sub c sd sa sb)
  | 2 => some (.and c sd sa sb)
  | 3 => some (.or c sd sa sb)
  | 4 => some (.xor c sd sa sb)
  | 5 => some (.sll c sd sa sb)
  | 6 => some (.srl c sd sa sb)
  | 7 => some (.sra c sd sa sb)
  | 8 => some (.mul c sd sa sb)
  | 9 => some (.mulhu c sd sa sb)
  | 10 => some (.sltu c sd sa sb)
  | 11 => some (.slt c sd sa sb)
  | 12 => some (.cmovnz c sd sa sb)
  | 13 => some (.minu c sd sa sb)
  | 14 => some (.maxu c sd sa sb)
  | _ => none

/-- Opcode 0x20 by fn. -/
def decVmod (c : CoreId) (f : VrFields) (fn : Nat) : Option Instr :=
  match fn with
  | 0 => some (.vmadd c f)
  | 1 => some (.vmsub c f)
  | 2 => some (.vmneg c f)
  | 3 => some (.vmmul c f)
  | 4 => some (.vmmac c f)
  | 5 => some (.vmont c f)
  | 6 => some (.vmmacm c f)
  | 7 => some (.vtom c f)
  | 8 => some (.vfromm c f)
  | _ => none

/-- Opcode 0x21 by fn. -/
def decVint (c : CoreId) (f : VrFields) (fn : Nat) : Option Instr :=
  match fn with
  | 0 => some (.vadd c f)
  | 1 => some (.vsub c f)
  | 2 => some (.vmul c f)
  | 3 => some (.vmulhu c f)
  | 4 => some (.vand c f)
  | 5 => some (.vor c f)
  | 6 => some (.vxor c f)
  | 7 => some (.vsel c f)
  | 8 => some (.vsll c f)
  | 9 => some (.vsrl c f)
  | 10 => some (.vsra c f)
  | _ => none

/-- FLT, FEQ and FUN are fp32 comparisons and need w = 1 (Table 09.5); DEDUCED that w = 0 is ILLEGAL. -/
def cmpFnOk (f : VrFields) (fn : Nat) : Bool := fn < 6 || f.w

/-- Opcode 0x22 by fn; vd[4:3] must be zero (R244). -/
def decVcmp (c : CoreId) (f : VrFields) (fn : Nat) : Option Instr :=
  match fn with
  | 0 => some (.vcmpEq c f)
  | 1 => some (.vcmpNe c f)
  | 2 => some (.vcmpLtu c f)
  | 3 => some (.vcmpGeu c f)
  | 4 => some (.vcmpLt c f)
  | 5 => some (.vcmpGe c f)
  | 6 => some (.vcmpFlt c f)
  | 7 => some (.vcmpFeq c f)
  | 8 => some (.vcmpFun c f)
  | _ => none

/-- Opcode 0x23 by fn. -/
def decVs (c : CoreId) (f : VsFields) (fn : Nat) : Option Instr :=
  match fn with
  | 0 => some (.vbcast c f)
  | 1 => some (.vadds c f)
  | 2 => some (.vslls c f)
  | 3 => some (.vsrls c f)
  | 4 => some (.vsras c f)
  | 5 => some (.viota c f)
  | _ => none

/-- Opcode 0x28 by fn; vb[4:2] must be zero (R244). -/
def decVcvt (c : CoreId) (f : VrFields) (fn : Nat) : Option Instr :=
  match fn with
  | 0 => some (.ftor c f)
  | 1 => some (.btor c f)
  | 2 => some (.rtof c f)
  | 3 => some (.rtob c f)
  | 4 => some (.rtos c f)
  | 5 => some (.stor c f)
  | _ => none

/-- Opcode 0x2A by fn. -/
def decVf (c : CoreId) (f : VrFields) (fn : Nat) : Option Instr :=
  match fn with
  | 0 => some (.vfadd c f)
  | 1 => some (.vfsub c f)
  | 2 => some (.vfmul c f)
  | 3 => some (.vffma c f)
  | 4 => some (.vfdiv c f)
  | 5 => some (.vfsqrt c f)
  | 6 => some (.vfmin c f)
  | 7 => some (.vfmax c f)
  | 8 => some (.vfabs c f)
  | 9 => some (.vfneg c f)
  | _ => none

/-- Opcode 0x2C by fn. -/
def decPr (c : CoreId) (pd pa pb : BitVec 3) (fn : Nat) : Option Instr :=
  match fn with
  | 0 => some (.pand c pd pa pb)
  | 1 => some (.por c pd pa pb)
  | 2 => some (.pxor c pd pa pb)
  | 3 => some (.pnot c pd pa pb)
  | 4 => some (.pset c pd pa pb)
  | 5 => some (.pclr c pd pa pb)
  | _ => none

/-- Opcode 0x38 by fn. -/
def decD (c : CoreId) (sdst ssrc slen : BitVec 6) (ch : BitVec 2) (fn : Nat) : Option Instr :=
  match fn with
  | 0 => some (.dcopy c sdst ssrc slen ch)
  | 1 => some (.dadd c sdst ssrc slen ch)
  | 2 => some (.dsub c sdst ssrc slen ch)
  | 3 => some (.dwait c sdst ssrc slen ch)
  | 4 => some (.dfence c sdst ssrc slen ch)
  | _ => none

/-- `some i` where the condition holds. -/
def whenOk (b : Bool) (i : Instr) : Option Instr := if b then some i else none

/-- The instruction that a word spells on a core, none where R244 makes it ILLEGAL. -/
def decodeKernel (c : CoreId) (w : W32) : Option Instr :=
  match (kOp w).toNat with
  | 0x01 => if w.extractLsb' 6 2 = 0 then decSr c (kA w) (kB w) (kC w) (kFn6 w).toNat else none
  | 0x02 => some (.addi c (kA w) (kB w) (kImm14 w))
  | 0x03 => some (.andi c (kA w) (kB w) (kImm14 w))
  | 0x04 => some (.ori c (kA w) (kB w) (kImm14 w))
  | 0x05 => some (.xori c (kA w) (kB w) (kImm14 w))
  | 0x06 => whenOk (w.extractLsb' 6 8 == 0) (.slli c (kA w) (kB w) (kFn6 w))
  | 0x07 => whenOk (w.extractLsb' 6 8 == 0) (.srli c (kA w) (kB w) (kFn6 w))
  | 0x08 => whenOk (w.extractLsb' 6 8 == 0) (.srai c (kA w) (kB w) (kFn6 w))
  | 0x09 => some (.lui c (kA w) (kImm20 w))
  | 0x0A => some (.ld c (kA w) (kB w) (kImm14 w))
  | 0x0B => some (.lw c (kA w) (kB w) (kImm14 w))
  | 0x0C => some (.sd c (kA w) (kB w) (kImm14 w))
  | 0x0D => some (.sw c (kA w) (kB w) (kImm14 w))
  | 0x10 => some (.beq c (kA w) (kB w) (kImm14 w))
  | 0x11 => some (.bne c (kA w) (kB w) (kImm14 w))
  | 0x12 => some (.bltu c (kA w) (kB w) (kImm14 w))
  | 0x13 => some (.bgeu c (kA w) (kB w) (kImm14 w))
  | 0x14 => some (.blt c (kA w) (kB w) (kImm14 w))
  | 0x15 => some (.bge c (kA w) (kB w) (kImm14 w))
  | 0x16 => some (.jal c (kA w) (kImm20 w))
  | 0x17 => some (.jalr c (kA w) (kB w) (kImm14 w))
  | 0x18 => whenOk (kB w == 0) (.csrr c (kA w) (kImm14 w))
  | 0x19 => whenOk (kB w == 0) (.csrw c (kA w) (kImm14 w))
  | 0x20 => decVmod c (kVr w) (kFn4 w).toNat
  | 0x21 => decVint c (kVr w) (kFn4 w).toNat
  | 0x22 => if (kVr w).vd.toNat < 8 ∧ cmpFnOk (kVr w) (kFn4 w).toNat then decVcmp c (kVr w) (kFn4 w).toNat else none
  | 0x23 => decVs c (kVs w) (kFn6 w).toNat
  | 0x24 => whenOk (w.extractLsb' 0 2 == 0) (.vld c (w.extractLsb' 21 5) (w.extractLsb' 15 6) (w.extractLsb' 5 10) (w.extractLsb' 2 3))
  | 0x25 => whenOk (w.extractLsb' 0 2 == 0) (.vst c (w.extractLsb' 21 5) (w.extractLsb' 15 6) (w.extractLsb' 5 10) (w.extractLsb' 2 3))
  | 0x28 => if (kVr w).vb.toNat < 4 then decVcvt c (kVr w) (kFn4 w).toNat else none
  | 0x2A => decVf c (kVr w) (kFn4 w).toNat
  | 0x2C => if w.extractLsb' 4 13 = 0 then decPr c (w.extractLsb' 23 3) (w.extractLsb' 20 3) (w.extractLsb' 17 3) (kFn4 w).toNat else none
  | 0x2E => whenOk (w.extractLsb' 20 2 == 0) (.mld c (w.extractLsb' 23 3) (w.getLsbD 22) (kB w) (kImm14 w))
  | 0x30 => whenOk (w.extractLsb' 16 10 == 0) (.fire c (w.extractLsb' 0 16))
  | 0x31 => whenOk (w.extractLsb' 0 16 == 0) (.tslot c (kA w) (w.extractLsb' 16 4))
  | 0x32 => whenOk (w.extractLsb' 0 26 == 0) (.tend c)
  | 0x33 => whenOk (w.extractLsb' 0 26 == 0) (.tpois c)
  | 0x38 => decD c (kA w) (kB w) (kC w) (w.extractLsb' 6 2) (kFn6 w).toNat
  | 0x3E => whenOk (w.extractLsb' 0 26 == 0) (.brk c)
  | _ => none

/-- The word of a kernel instruction (Tables 09.4 and 09.5); none for every other command. -/
def encodeKernel (i : Instr) : Option W32 :=
  match i with
  | .add _ sd sa sb => some (encSr 0x01 sd sa sb 0x00)
  | .sub _ sd sa sb => some (encSr 0x01 sd sa sb 0x01)
  | .and _ sd sa sb => some (encSr 0x01 sd sa sb 0x02)
  | .or _ sd sa sb => some (encSr 0x01 sd sa sb 0x03)
  | .xor _ sd sa sb => some (encSr 0x01 sd sa sb 0x04)
  | .sll _ sd sa sb => some (encSr 0x01 sd sa sb 0x05)
  | .srl _ sd sa sb => some (encSr 0x01 sd sa sb 0x06)
  | .sra _ sd sa sb => some (encSr 0x01 sd sa sb 0x07)
  | .mul _ sd sa sb => some (encSr 0x01 sd sa sb 0x08)
  | .mulhu _ sd sa sb => some (encSr 0x01 sd sa sb 0x09)
  | .sltu _ sd sa sb => some (encSr 0x01 sd sa sb 0x0A)
  | .slt _ sd sa sb => some (encSr 0x01 sd sa sb 0x0B)
  | .cmovnz _ sd sa sb => some (encSr 0x01 sd sa sb 0x0C)
  | .minu _ sd sa sb => some (encSr 0x01 sd sa sb 0x0D)
  | .maxu _ sd sa sb => some (encSr 0x01 sd sa sb 0x0E)
  | .addi _ sd sa imm => some (encSi 0x02 sd sa imm)
  | .andi _ sd sa imm => some (encSi 0x03 sd sa imm)
  | .ori _ sd sa imm => some (encSi 0x04 sd sa imm)
  | .xori _ sd sa imm => some (encSi 0x05 sd sa imm)
  | .ld _ sd sa imm => some (encSi 0x0A sd sa imm)
  | .lw _ sd sa imm => some (encSi 0x0B sd sa imm)
  | .jalr _ sd sa imm => some (encSi 0x17 sd sa imm)
  | .slli _ sd sa sh => some (encSi 0x06 sd sa ((0 : BitVec 8) ++ sh))
  | .srli _ sd sa sh => some (encSi 0x07 sd sa ((0 : BitVec 8) ++ sh))
  | .srai _ sd sa sh => some (encSi 0x08 sd sa ((0 : BitVec 8) ++ sh))
  | .lui _ sd imm => some (encSu 0x09 sd imm)
  | .jal _ sd imm => some (encSu 0x16 sd imm)
  | .sd _ sv sa imm => some (encSi 0x0C sv sa imm)
  | .sw _ sv sa imm => some (encSi 0x0D sv sa imm)
  | .beq _ sa sb off => some (encSi 0x10 sa sb off)
  | .bne _ sa sb off => some (encSi 0x11 sa sb off)
  | .bltu _ sa sb off => some (encSi 0x12 sa sb off)
  | .bgeu _ sa sb off => some (encSi 0x13 sa sb off)
  | .blt _ sa sb off => some (encSi 0x14 sa sb off)
  | .bge _ sa sb off => some (encSi 0x15 sa sb off)
  | .csrr _ sd csr => some (encSi 0x18 sd 0 csr)
  | .csrw _ sv csr => some (encSi 0x19 sv 0 csr)
  | .vmadd _ f => some (encVr 0x20 f 0x00)
  | .vmsub _ f => some (encVr 0x20 f 0x01)
  | .vmneg _ f => some (encVr 0x20 f 0x02)
  | .vmmul _ f => some (encVr 0x20 f 0x03)
  | .vmmac _ f => some (encVr 0x20 f 0x04)
  | .vmont _ f => some (encVr 0x20 f 0x05)
  | .vmmacm _ f => some (encVr 0x20 f 0x06)
  | .vtom _ f => some (encVr 0x20 f 0x07)
  | .vfromm _ f => some (encVr 0x20 f 0x08)
  | .vadd _ f => some (encVr 0x21 f 0x00)
  | .vsub _ f => some (encVr 0x21 f 0x01)
  | .vmul _ f => some (encVr 0x21 f 0x02)
  | .vmulhu _ f => some (encVr 0x21 f 0x03)
  | .vand _ f => some (encVr 0x21 f 0x04)
  | .vor _ f => some (encVr 0x21 f 0x05)
  | .vxor _ f => some (encVr 0x21 f 0x06)
  | .vsel _ f => some (encVr 0x21 f 0x07)
  | .vsll _ f => some (encVr 0x21 f 0x08)
  | .vsrl _ f => some (encVr 0x21 f 0x09)
  | .vsra _ f => some (encVr 0x21 f 0x0A)
  | .vcmpEq _ f => some (encVr 0x22 f 0x00)
  | .vcmpNe _ f => some (encVr 0x22 f 0x01)
  | .vcmpLtu _ f => some (encVr 0x22 f 0x02)
  | .vcmpGeu _ f => some (encVr 0x22 f 0x03)
  | .vcmpLt _ f => some (encVr 0x22 f 0x04)
  | .vcmpGe _ f => some (encVr 0x22 f 0x05)
  | .vcmpFlt _ f => some (encVr 0x22 f 0x06)
  | .vcmpFeq _ f => some (encVr 0x22 f 0x07)
  | .vcmpFun _ f => some (encVr 0x22 f 0x08)
  | .ftor _ f => some (encVr 0x28 f 0x00)
  | .btor _ f => some (encVr 0x28 f 0x01)
  | .rtof _ f => some (encVr 0x28 f 0x02)
  | .rtob _ f => some (encVr 0x28 f 0x03)
  | .rtos _ f => some (encVr 0x28 f 0x04)
  | .stor _ f => some (encVr 0x28 f 0x05)
  | .vfadd _ f => some (encVr 0x2A f 0x00)
  | .vfsub _ f => some (encVr 0x2A f 0x01)
  | .vfmul _ f => some (encVr 0x2A f 0x02)
  | .vffma _ f => some (encVr 0x2A f 0x03)
  | .vfdiv _ f => some (encVr 0x2A f 0x04)
  | .vfsqrt _ f => some (encVr 0x2A f 0x05)
  | .vfmin _ f => some (encVr 0x2A f 0x06)
  | .vfmax _ f => some (encVr 0x2A f 0x07)
  | .vfabs _ f => some (encVr 0x2A f 0x08)
  | .vfneg _ f => some (encVr 0x2A f 0x09)
  | .vbcast _ f => some (encVs 0x23 f 0x00)
  | .vadds _ f => some (encVs 0x23 f 0x01)
  | .vslls _ f => some (encVs 0x23 f 0x02)
  | .vsrls _ f => some (encVs 0x23 f 0x03)
  | .vsras _ f => some (encVs 0x23 f 0x04)
  | .viota _ f => some (encVs 0x23 f 0x05)
  | .vld _ v sa imm pr => some (encVm 0x24 v sa imm pr)
  | .vst _ v sa imm pr => some (encVm 0x25 v sa imm pr)
  | .pand _ pd pa pb => some (encPr 0x2C pd pa pb 0x00)
  | .por _ pd pa pb => some (encPr 0x2C pd pa pb 0x01)
  | .pxor _ pd pa pb => some (encPr 0x2C pd pa pb 0x02)
  | .pnot _ pd pa pb => some (encPr 0x2C pd pa pb 0x03)
  | .pset _ pd pa pb => some (encPr 0x2C pd pa pb 0x04)
  | .pclr _ pd pa pb => some (encPr 0x2C pd pa pb 0x05)
  | .mld _ md w sa imm => some (encMd 0x2E md w sa imm)
  | .fire _ masks => some (encT 0x30 0 0 masks)
  | .tslot _ sd port => some (encT 0x31 sd port 0)
  | .tend _ => some (encT 0x32 0 0 0)
  | .tpois _ => some (encT 0x33 0 0 0)
  | .brk _ => some (encT 0x3E 0 0 0)
  | .dcopy _ sdst ssrc slen ch => some (encD 0x38 sdst ssrc slen ch 0x00)
  | .dadd _ sdst ssrc slen ch => some (encD 0x38 sdst ssrc slen ch 0x01)
  | .dsub _ sdst ssrc slen ch => some (encD 0x38 sdst ssrc slen ch 0x02)
  | .dwait _ sdst ssrc slen ch => some (encD 0x38 sdst ssrc slen ch 0x03)
  | .dfence _ sdst ssrc slen ch => some (encD 0x38 sdst ssrc slen ch 0x04)
  | _ => none

/-- The fields of a kernel instruction lie where R244 lets them: VCMP's vd[4:3] and VCVT's vb[4:2] are zero, and an fp32
comparison has w = 1. -/
def kernelFieldsOk (i : Instr) : Bool :=
  match i with
  | .vcmpEq _ f => f.vd.toNat < 8
  | .vcmpNe _ f => f.vd.toNat < 8
  | .vcmpLtu _ f => f.vd.toNat < 8
  | .vcmpGeu _ f => f.vd.toNat < 8
  | .vcmpLt _ f => f.vd.toNat < 8
  | .vcmpGe _ f => f.vd.toNat < 8
  | .vcmpFlt _ f => f.vd.toNat < 8 && f.w
  | .vcmpFeq _ f => f.vd.toNat < 8 && f.w
  | .vcmpFun _ f => f.vd.toNat < 8 && f.w
  | .ftor _ f => f.vb.toNat < 4
  | .btor _ f => f.vb.toNat < 4
  | .rtof _ f => f.vb.toNat < 4
  | .rtob _ f => f.vb.toNat < 4
  | .rtos _ f => f.vb.toNat < 4
  | .stor _ f => f.vb.toNat < 4
  | _ => true

/-- The core on which a kernel instruction stands (none for every other command). -/
def kernelCore (i : Instr) : Option CoreId :=
  match i with
  | .add c _ _ _ => some c
  | .sub c _ _ _ => some c
  | .and c _ _ _ => some c
  | .or c _ _ _ => some c
  | .xor c _ _ _ => some c
  | .sll c _ _ _ => some c
  | .srl c _ _ _ => some c
  | .sra c _ _ _ => some c
  | .mul c _ _ _ => some c
  | .mulhu c _ _ _ => some c
  | .sltu c _ _ _ => some c
  | .slt c _ _ _ => some c
  | .cmovnz c _ _ _ => some c
  | .minu c _ _ _ => some c
  | .maxu c _ _ _ => some c
  | .addi c _ _ _ => some c
  | .andi c _ _ _ => some c
  | .ori c _ _ _ => some c
  | .xori c _ _ _ => some c
  | .ld c _ _ _ => some c
  | .lw c _ _ _ => some c
  | .jalr c _ _ _ => some c
  | .slli c _ _ _ => some c
  | .srli c _ _ _ => some c
  | .srai c _ _ _ => some c
  | .sd c _ _ _ => some c
  | .sw c _ _ _ => some c
  | .beq c _ _ _ => some c
  | .bne c _ _ _ => some c
  | .bltu c _ _ _ => some c
  | .bgeu c _ _ _ => some c
  | .blt c _ _ _ => some c
  | .bge c _ _ _ => some c
  | .lui c _ _ => some c
  | .jal c _ _ => some c
  | .csrr c _ _ => some c
  | .csrw c _ _ => some c
  | .vmadd c _ => some c
  | .vmsub c _ => some c
  | .vmneg c _ => some c
  | .vmmul c _ => some c
  | .vmmac c _ => some c
  | .vmont c _ => some c
  | .vmmacm c _ => some c
  | .vtom c _ => some c
  | .vfromm c _ => some c
  | .vadd c _ => some c
  | .vsub c _ => some c
  | .vmul c _ => some c
  | .vmulhu c _ => some c
  | .vand c _ => some c
  | .vor c _ => some c
  | .vxor c _ => some c
  | .vsel c _ => some c
  | .vsll c _ => some c
  | .vsrl c _ => some c
  | .vsra c _ => some c
  | .vcmpEq c _ => some c
  | .vcmpNe c _ => some c
  | .vcmpLtu c _ => some c
  | .vcmpGeu c _ => some c
  | .vcmpLt c _ => some c
  | .vcmpGe c _ => some c
  | .vcmpFlt c _ => some c
  | .vcmpFeq c _ => some c
  | .vcmpFun c _ => some c
  | .ftor c _ => some c
  | .btor c _ => some c
  | .rtof c _ => some c
  | .rtob c _ => some c
  | .rtos c _ => some c
  | .stor c _ => some c
  | .vfadd c _ => some c
  | .vfsub c _ => some c
  | .vfmul c _ => some c
  | .vffma c _ => some c
  | .vfdiv c _ => some c
  | .vfsqrt c _ => some c
  | .vfmin c _ => some c
  | .vfmax c _ => some c
  | .vfabs c _ => some c
  | .vfneg c _ => some c
  | .vbcast c _ => some c
  | .vadds c _ => some c
  | .vslls c _ => some c
  | .vsrls c _ => some c
  | .vsras c _ => some c
  | .viota c _ => some c
  | .vld c _ _ _ _ => some c
  | .vst c _ _ _ _ => some c
  | .pand c _ _ _ => some c
  | .por c _ _ _ => some c
  | .pxor c _ _ _ => some c
  | .pnot c _ _ _ => some c
  | .pset c _ _ _ => some c
  | .pclr c _ _ _ => some c
  | .mld c _ _ _ _ => some c
  | .fire c _ => some c
  | .tslot c _ _ => some c
  | .tend c => some c
  | .tpois c => some c
  | .brk c => some c
  | .dcopy c _ _ _ _ => some c
  | .dadd c _ _ _ _ => some c
  | .dsub c _ _ _ _ => some c
  | .dwait c _ _ _ _ => some c
  | .dfence c _ _ _ _ => some c
  | _ => none

end Sys2Proof
end

