-- ==== Sys2Proof/Config.lean ====
section
/-! DEFINITION. What one device or one implementation fixes, and the values the spec leaves open: constants without a body. -/

namespace Sys2Proof.Config

/-- Free values in the order they are drawn (State.free counts them): notes/assumptions/8.md. -/
opaque freeNat : Nat → Nat

/-- The product that a modular multiplier of the Lattice station gives for a limb whose r2 is not R² mod m (R39 says only that
it is wrong): m, mprime, r2, the operands. Notes/assumptions/17.md. -/
opaque wrongProduct : Nat → Nat → Nat → Nat → Nat → Nat

/-- What stands for an inverse modulo a modulus where the device's exponentiation gives none (a composite entry, R31). -/
opaque noInverse : Nat → Nat → Nat

/-- ML-KEM-1024 key generation, encapsulation and decapsulation (FIPS 203), outside the spec: notes/assumptions/9.md.
Arguments: d, z; ek, m; dk, ciphertext. -/
opaque kemKeyGen : List Byte → List Byte → List Byte × List Byte
opaque kemEncaps : List Byte → List Byte → List Byte × List Byte
opaque kemDecaps : List Byte → List Byte → List Byte

/-- Falcon-1024 with SHAKE256, outside the spec: notes/assumptions/9.md. Arguments: seed; key, message, randomness; key,
message, signature. -/
opaque falconKeyGen : List Byte → List Byte × List Byte
opaque falconSign : List Byte → List Byte → List Byte → List Byte
opaque falconVerify : List Byte → List Byte → List Byte → Bool

/-- The root secret RS of this device, 32 bytes recovered from its PUF (Table 12.4): notes/assumptions/12.md. -/
opaque rootSecret : List Byte

/-- Seltone's manufacturing public key, and the public key under which it signs firmware (R339, R341): notes/assumptions/12.md. -/
opaque makerKey : List Byte
opaque firmwareKey : List Byte

/-- This device's certificate as Seltone wrote it (Table 12.6), its serial number, the bytes of every fuse that holds no secret
(Table 12.14; arguments: the lifecycle state and the fused minimum of each component, R340, R341), and the stores of its NVM since manufacture (Table 13.12): notes/assumptions/12.md. -/
opaque certificate : List Byte
opaque serial : Nat
opaque fuses : Nat → List Nat → List Byte
opaque nvmStores : Nat

/-- For each firmware component, by its place in Table 12.8: the SVN of the image in NVM, its fused minimum and the SHAKE256 of the
image: notes/assumptions/12.md. -/
opaque fwSvn : Nat → Nat
opaque fwMin : Nat → Nat
opaque fwDigest : Nat → List Byte

/-- What a noise sample is when the record holds no such distribution (R222 gives none): distribution, sample number; a
64-bit word. Notes/assumptions/18.md. -/
opaque noDistSample : Nat → Nat → Nat

/-- What stands for the noise record digest of a bay that holds no record (Table 08.9 gives none): notes/assumptions/18.md. -/
opaque noRecordDigest : List Byte

/-- What CSRR of a number that Table 09.2 does not list gives: notes/assumptions/20.md. -/
opaque csrUnlisted : Nat → Nat

/-- An element of an fp32 instruction (R249) whose w bit is 0: fn, operands, old element. Notes/assumptions/21.md. -/
opaque fpWide : Nat → Nat → Nat → Nat → Nat

/-- The working regions of R187 that a schedule image gives a pipeline, which no table of the spec places: image bytes, bay, pipeline
of the bay; each region in the bay store or not, with base and length. Notes/assumptions/27.md. -/
opaque pipeRegions : List Byte → Nat → Nat → List (Bool × Nat × Nat)

/-- A channel context as it lies in the spill area, of which the spec publishes no layout (R100): context key, channel, a free value.
Notes/assumptions/48.md. -/
opaque sealedContext : List Byte → Nat → Nat → List Byte

/-- The channel index by which a channel's peer knows its end (Table 04.2), which no command names: notes/assumptions/49.md. -/
opaque peerChannel : Nat → Nat

/-- What the device's own sensors and monitors read that no command reports: which one (0 MEM_BA_UTIL, 1 ETH_STAT.FEC_HIGH,
2 LANEl_CORR, 3 PWR PG_ERR.SENSE, 4 THM_OUTLET, 5 THM PG_ERR.SENSOR, 6 MEM_SCRUB's progress), its bay, port or lane, and T. Notes/assumptions/22.md. -/
opaque sensed : Nat → Nat → Nat → Nat

end Sys2Proof.Config
end

