-- ==== Sys2Proof/Machine/TypesFlow.lean ====
section
/-! DEFINITION. The data of the tile flow: tile headers, tokens, ports, stations (03_tiles_stations.md) and what leaves the package. -/

namespace Sys2Proof.Machine

/-- A memory: (address, byte) cells, addresses strictly rising, no listed byte 0. An unlisted byte reads 0: no stack is
opened to a partition before it has been zeroed for it (R147), and an unwritten SRAM line reads zero (R62, R240). -/
abbrev Mem := List Host.Cell

/-- A tile header (Tables 03.1 to 03.3). `resv` is the OR of every reserved bit, so that a malformed header can be held. -/
structure TileHdr where
  format : Nat := 1
  ring : Nat := 0
  etype : Nat := 0
  noised : Bool := false
  marker : Bool := false
  sparse : Bool := false
  last : Bool := false
  poison : Bool := false
  resv : Nat := 0
  job : W32 := 0
  contributor : Nat := 0xFFFFFFFF
  tileIndex : Nat := 0
  sliceOffset : Nat := 0
  count : Nat := 0
  noiseBound : Nat := 0
  paramSet : Nat := 0
  poisonCause : Nat := 0
  keyTag : W32 := 0
  stream : Nat := 0
  ordinal : Nat := 0
  deriving DecidableEq, Repr

/-- A tile: header and payload; payload bytes from the end of the list to byte 65,535 are zero. -/
structure Tile where
  hdr : TileHdr := {}
  payload : List Byte := []
  deriving DecidableEq, Repr

/-- The WRD message that a tile came in, for its reply (R92, R108): the segment that caused the reply, the way back to its sender
(port, half-port, VLAN, address row, source address and UDP source port), the segment bitmap `segs`, and `msgLen` and `hdr`, which a
later segment of the message may not contradict (R105). -/
structure MsgRef where
  chan : Nat
  shelfmark : W32
  msgId : W32
  seq : W32
  port : PortId
  replyChan : W32
  segs : Nat := 1
  half : Bool := false
  vlan : Option Nat := none
  row : TenantId := 0
  src : List Byte := []
  udp : Nat := 0
  msgLen : Nat := 0
  hdr : List Byte := []
  deriving DecidableEq, Repr

/-- A token: one slot of the consumer's pool holding a complete tile (R65). `target` is the bin (bay, index, generation) of a
tile that Intake hands on, from its window (R107, R142). -/
structure Token where
  tile : Tile
  slot : Nat := 0
  origin : Option MsgRef := none
  target : Option (BayId × Nat × Nat) := none
  deriving DecidableEq, Repr

/-- One input port with its pool (R65, R81). `avail` is the credits its producer holds, `busy` the slots in use; `sent`
counts the ordinals Intake has written for a connection it feeds (R59); `owed` counts the tiles of a core's port whose firing already
left as a marker (R79, notes/assumptions/31.md). -/
structure InPort where
  conn : Bool := false
  unord : Bool := false
  cls : Nat := 0
  stream : Nat := 0
  weight : Nat := 0
  pool : Nat := 0
  poolBase : Nat := 0
  job : W32 := 0
  prod : Option (StationRef × PortId) := none
  avail : Nat := 0
  busy : List Nat := []
  held : List Token := []
  nextOrd : Nat := 0
  sent : Nat := 0
  seqBad : Bool := false
  logged : List Nat := []
  owed : Nat := 0
  tiles : W32 := 0
  poisons : W32 := 0
  deriving DecidableEq, Repr

/-- One output port (R65, R81). `logged` lists the causes that have their entry on the stream in progress, `ended` those of the stream
that ended last (R73). -/
structure OutPort where
  conn : Bool := false
  unord : Bool := false
  cls : Nat := 0
  stream : Nat := 0
  cons : Option (StationRef × PortId) := none
  nextOrd : Nat := 0
  logged : List Nat := []
  ended : List Nat := []
  waitSince : Option W64 := none
  tiles : W32 := 0
  poisons : W32 := 0
  deriving DecidableEq, Repr

/-- The states of Table 03.8. -/
inductive StState where
  | off | idle | busy | paused | draining | aborting | fenced
  deriving DecidableEq, Repr

/-- A firing in progress: the tokens it consumed and the tiles it will pass, each with the slot whose credit it spent (R66). -/
structure Firing where
  ins : List (PortId × Token) := []
  outs : List (PortId × Token) := []
  deriving DecidableEq, Repr

/-- The control and port state of one station instance (Tables 03.6 to 03.10). `en`, `abort`, `drain` are PG_CTRL;
`enA`, `abortA`, `drainA` are what has arrived at the station (R78). `turns` lists, for each input port that waits, the ports served
since it could first be served (R66): pairs of the port that waits and the port served. -/
structure Station where
  en : Bool := false
  abort : Bool := false
  drain : Bool := false
  enA : Bool := false
  abortA : Bool := false
  drainA : Bool := false
  st : StState := .off
  ready : Bool := false
  fault : Bool := false
  config : Bool := false
  stall : Bool := false
  firing : Option Firing := none
  turns : List (Nat × Nat) := []
  ins : Vector InPort 8 := Vector.replicate 8 {}
  outs : Vector OutPort 8 := Vector.replicate 8 {}
  deriving DecidableEq, Repr

/-- The replies of the WRD transport (Tables 04.4 and 04.8). -/
inductive Reply where
  | ack (status ce : Nat) (pressure : Bool) (bitmap : Nat)
  | nak (code detail : Nat)
  | hold (reason retryUs : Nat)
  deriving DecidableEq, Repr

/-- A WRD datagram that the device sends (R86, R92, R118): the port and half-port, the next-hop MAC, the VLAN tag, the IP addresses
(IPv4 as the mapped IPv6 address), the ECN field, which of the channel's UDP source ports, the UDP destination port and the UDP
payload, that is, WRD header, ciphertext and GCM tag (R93). -/
structure Datagram where
  port : PortId
  half : Bool
  mac : List Byte
  vlan : Option Nat
  src : List Byte
  dst : List Byte
  ecn : Nat
  srcPort : Nat
  dstPort : Nat
  payload : List Byte
  deriving DecidableEq, Repr

/-- What the device puts on its interfaces. -/
inductive Output where
  /-- a WRD packet: a reply (R92) or a segment of a TILE or PUT message that the device sends (R230, R292) -/
  | wrdPacket (d : Datagram)
  /-- an ARP or Neighbor Advertisement answer on a port (R86) -/
  | arpReply (port : PortId) (bytes : List Byte)
  /-- a write to host memory by a CXL.io memory request that carries the requester ID of the partition's function (R316) -/
  | hostWrite (part : PartId) (addr : W64) (bytes : List Byte)
  /-- a write to host memory through CXL.cache: the spill area (R100) and the PF's rings (R316) -/
  | cacheWrite (addr : W64) (bytes : List Byte)
  /-- a read of host memory through CXL.cache: a context fetched from the spill area (R101) -/
  | cacheRead (addr : W64) (len : Nat)
  /-- the message of an MSI-X vector of a partition's function: its address and data (R324, R358) -/
  | msix (part : PartId) (vector : Nat) (addr : W64) (data : W32)
  /-- a read completion for a register read or a CXL.mem read: data and the CXL poison mark (R317) -/
  | readData (bytes : List Byte) (poison : Bool)
  /-- an Unsupported Request completion (R315) -/
  | unsupported
  /-- the AER answer to a malformed TLP (R320) -/
  | aer (requester : W16)
  /-- a flit sent on a Zaled port (R305) -/
  | flit (port : PortId) (bytes : List Byte)
  /-- the response of a mailbox command written to host memory (R343) -/
  | mailbox (addr : W64) (bytes : List Byte)
  deriving DecidableEq, Repr

end Sys2Proof.Machine
end

