-- ==== Sys2Proof/Machine/TypesBay.lean ====
section
/-! DEFINITION. The data of a bay: memory, bins, Mask, Share, Lattice, Noise and Release stations, cores (05 to 09). -/

namespace Sys2Proof.Machine

/-- A bin handle's target: index and generation (Table 05.3), with the bay implied by where it is held. -/
structure BinRef where
  bay : BayId
  index : Nat
  gen : Nat
  deriving DecidableEq, Repr

/-- The states of Table 05.6 other than FREE. -/
inductive BinState where
  | zeroing | opened | sealed | combined | sum | failed | discarded
  deriving DecidableEq, Repr

/-- What a bin command is waiting for (R134, R141, R142). -/
inductive BinWait where
  | discard (h : CmdHdr)
  | free (h : CmdHdr)
  | combine (h : CmdHdr)
  | zero (h : CmdHdr)
  deriving DecidableEq, Repr

/-- A bin that is not FREE: the fields of its descriptor (Table 05.4) and its state; `freeing` while BIN_FREE zeroes its region. -/
structure Bin where
  index : Nat
  part : PartId
  kind : Nat
  state : BinState
  mirror : Bool
  sram : Bool
  mirrorBay : Nat
  ring : Nat
  etype : Nat
  job : W32
  lastCount : Nat
  base : Nat
  t : Nat
  firstTile : Nat
  clo : Nat
  chi : Nat
  region : Nat
  mirrorRegion : Nat
  regionSize : Nat
  wait : Option BinWait := none
  freeing : Bool := false
  frozen : Bool := false
  metaUe : Bool := false
  usingMirror : Bool := false
  mirrorLost : Bool := false
  deriving DecidableEq, Repr

/-- One tile of the in-flight table (R135): its bin (`home` is the bay of the bin's handle), entry, position and tile, and the
duplicates to answer (R136). -/
structure InFlight where
  home : BayId
  index : Nat
  entry : Nat
  contributor : Nat
  pos : Nat
  tile : Tile
  port : PortId
  slot : Nat
  origin : Option MsgRef
  dups : List MsgRef := []
  deriving DecidableEq, Repr

/-- A Bin stream of the image with its progress (Table 10.6, R446). `bound` holds, in the order of emission, each bound bin as
it was at binding, with its generation; `misfit` is the READ stream that binds nothing; `gone` the cause of the markers it now emits, or 0;
`nb` the noise bound last written; `done` counts the tiles emitted. -/
structure BinStream where
  mode : Nat
  port : Nat
  cls : Nat
  firstPos : Nat
  positions : Nat
  bins : List Nat
  job : W32 := 0
  bound : List (Nat × Bin) := []
  misfit : Bool := false
  gone : Nat := 0
  nb : Nat := 0
  done : Nat := 0
  ended : Bool := false
  deriving DecidableEq, Repr

/-- What a zeroing is for (R147). -/
inductive ScrubFor where
  | binAlloc (home : BayId) (index : Nat) (h : CmdHdr)
  | binFree (home : BayId) (index : Nat) (h : CmdHdr)
  | partCreate (p : TenantId)
  | partDestroy (p : TenantId)
  | trained
  | prst
  deriving DecidableEq, Repr

/-- One zeroing request: a span of the stack (R147). -/
structure ScrubReq where
  base : Nat
  len : Nat
  why : ScrubFor
  deriving DecidableEq, Repr

/-- The stack, the bay store and the Bin controller of a bay. -/
structure BayMem where
  dram : Mem := []
  store : Mem := []
  storeWritten : List Nat := []
  poisoned : List Nat := []
  pcFenced : List (Fin 64) := []
  recentUe : List (Nat × W64) := []
  trained : Bool := false
  training : Bool := false
  trainFail : Bool := false
  failed : Bool := false
  selfRefresh : Bool := false
  selfRefreshWanted : Bool := false
  ce : W32 := 0
  ue : W32 := 0
  ueAddr : Nat := 0
  patrolEn : Bool := true
  patrolHours : W16 := 0x18
  storeCe : W32 := 0
  storeUe : W32 := 0
  scrub : List ScrubReq := []
  bins : List (Nat × Bin) := []
  binGen : List (Nat × Nat) := []
  inFlight : List InFlight := []
  streams : List BinStream := []
  added : W32 := 0
  dups : W32 := 0
  poisonSet : W32 := 0
  shareSet : Nat := 0
  deriving DecidableEq, Repr

/-- A seed entry (Table 06.11). -/
structure SeedEntry where
  seed : List Byte
  a : Nat
  b : Nat
  kind : Nat
  sign : Nat
  deriving DecidableEq, Repr

/-- The Mask station (R171): entries gathered for the next batch and the batch in expansion, each with the poison cause of its
tiles; `last` and `gatherLast` tell the batch that ends with LAST; `finished` that it is done. -/
structure MaskSt where
  gather : List SeedEntry := []
  gatherPois : Nat := 0
  gatherLast : Bool := false
  batch : List SeedEntry := []
  pois : Nat := 0
  last : Bool := false
  running : Bool := false
  finished : Bool := false
  pos : Nat := 0
  ord : Nat := 0
  bin : Option BinRef := none
  job : W32 := 0
  round : W32 := 0
  batches : W32 := 0
  stream : W64 := 0
  deriving DecidableEq, Repr

/-- The states of Table 06.10. -/
inductive RoundState where
  | idle | collecting | reconstructing | masking | gleaned
  deriving DecidableEq, Repr

/-- A masking-graph record (Table 06.5). -/
structure GraphRec where
  u : Nat
  neighbours : List Nat
  holders : List Nat
  envelopes : List (List Byte)
  commitSelf : List Byte
  commitPair : List Byte
  deriving DecidableEq, Repr

/-- A kept share (R159): owner, kind, holder and the five values. -/
structure Share where
  owner : Nat
  kind : Nat
  holder : Nat
  ys : List Nat
  deriving DecidableEq, Repr

/-- The round that a bay's Share station serves as lead (R166). `presence` lists the present contributors; `sendQ` the seed
tiles not yet passed (R170). -/
structure Round where
  part : PartId
  job : W32
  round : W32
  state : RoundState
  bins : List BinRef
  clo : Nat
  chi : Nat
  presence : List Nat
  floor : Nat
  graph : List GraphRec
  graphDigest : List Byte
  accepted : List Nat := []
  excluded : List Nat := []
  shares : List Share := []
  secrets : List (Nat × List Byte) := []
  rejected : W32 := 0
  seeds : W32 := 0
  finish : Option (CmdHdr × W64) := none
  sendQ : List (PortId × Tile) := []
  deriving DecidableEq, Repr

/-- One limb of a parameter set (Table 07.2). -/
structure Limb where
  m : Nat
  mprime : Nat
  mu : Nat
  r2 : Nat
  psi : Nat
  delta : Nat
  limit : Nat
  deriving DecidableEq, Repr

/-- A parameter set in a bay (Table 07.1), `ready` once its constants are computed (R177). -/
structure ParamSet where
  id : Nat
  job : W32
  logn : Nat
  l : Nat
  k : Nat
  alpha : Nat
  conv : Nat
  ingestTag : W32
  fresh : Nat
  msBound : Nat
  ksBound : Nat
  flood : Nat
  noiseLevel : Nat
  limbs : List Limb
  digest : List Byte
  ready : Bool
  h : CmdHdr
  deriving DecidableEq, Repr

/-- A bound Lattice key (R197): CHECKING until its digest is checked. -/
structure LatKey where
  checking : Bool
  kind : Nat
  level : Nat
  paramSet : Nat
  src : W32
  dst : W32
  region : Nat
  len : Nat
  digest : List Byte
  h : CmdHdr
  deriving DecidableEq, Repr

/-- A pipeline descriptor (Table 07.4). Operations are (opcode, key, arg). -/
structure PipeDesc where
  inA : Nat
  inB : Nat
  inS : Nat
  out : Nat
  ops : List (Nat × Nat × Nat)
  paramSet : Nat
  levelIn : Nat
  deriving DecidableEq, Repr

/-- One ciphertext as polynomials: for each component (0, 1) and limb, N coefficients. -/
abbrev Poly := List Nat
structure Ct where
  c0 : List Poly
  c1 : List Poly
  deriving DecidableEq, Repr

/-- One position of a ciphertext stream: slice offset, count and the elements of each limb gathered. -/
structure LatPos where
  off : Nat
  count : Nat
  limbs : List (List Nat)
  deriving DecidableEq, Repr

/-- The tiles of one or more whole ciphertexts, gathered: positions, the first copied cause, the causes created, the largest
noise bound, NOISED, LAST, the stream's tag and the tag of its outputs. -/
structure LatGroup where
  poss : List LatPos := []
  copied : Nat := 0
  made : List Nat := []
  bound : Nat := 0
  noised : Bool := false
  last : Bool := false
  job : W32 := 0
  tag : W32 := 0
  outTag : W32 := 0
  deriving DecidableEq, Repr

/-- A ciphertext input of a pipeline: tiles taken of the stream, the cause that its failing gives every later ciphertext, its
tags, its first slice offset, and the group being gathered. -/
structure LatIn where
  k : Nat := 0
  fail : List Nat := []
  tag : W32 := 0
  outTag : W32 := 0
  base : Nat := 0
  cur : LatGroup := {}
  deriving DecidableEq, Repr

/-- A ciphertext in computation: the operations left, its level and bound, exhausted or not. -/
structure LatRun where
  ct : Ct
  other : Option Ct
  ops : List (Nat × Nat × Nat)
  level : Nat
  bound : Nat
  spent : Bool
  deriving DecidableEq, Repr

/-- A group in computation: causes copied by port, ciphertexts to do, the one in hand, those done. -/
structure LatWork where
  g : LatGroup
  copied : List (Nat × Nat)
  made : List Nat
  bound : Nat
  last : Bool
  noised : Bool
  todo : List (Ct × Option Ct)
  now : Option LatRun := none
  done : List LatRun := []
  deriving DecidableEq, Repr

/-- A pipeline with the ciphertexts in its scratch region (R186). Samples are (value, cause), a cause that the station created counted
from 65,536; `tags` the tags of the streams begun on in_a and not yet on in_b; `outCts` the ciphertexts in the output queue. -/
structure Pipe where
  d : PipeDesc
  a : LatIn := {}
  b : LatIn := {}
  samples : List (Nat × Nat) := []
  readyA : List LatGroup := []
  readyB : List LatGroup := []
  tags : List W32 := []
  outCts : Nat := 0
  cur : Option LatWork := none
  outQ : List (Tile × Nat) := []
  outIdx : Nat := 0
  deriving DecidableEq, Repr

/-- The Lattice station of a bay. -/
structure LatSt where
  psets : List ParamSet := []
  keys : Vector (Option LatKey) 8 := Vector.replicate 8 none
  pipes : List Pipe := []
  cts : W32 := 0
  muls : W64 := 0
  nbPoison : W32 := 0
  mismatch : W32 := 0
  deriving DecidableEq, Repr

/-- One noise distribution (Table 08.3, R212). -/
structure Dist where
  kind : Nat
  k : Nat
  t0 : List Nat
  t1 : List Nat
  deriving DecidableEq, Repr

/-- A job's noise parameter record in a bay (R211). -/
structure NoiseRec where
  job : W32
  addDist : Nat
  dists : List Dist
  digest : List Byte
  deriving DecidableEq, Repr

/-- The open seed of a job in a bay (R214, R215). -/
structure OpenSeed where
  slot : Nat
  job : W32
  round : W32
  attempt : Nat
  lo : Nat
  hi : Nat
  mark : Nat
  deriving DecidableEq, Repr

/-- A Noise stream (Table 08.6) with its progress. -/
structure NoiseStream where
  mode : Nat
  inPort : Nat
  out : Nat
  job : W32
  p : Nat
  logn : Nat
  pattern : Nat
  base : Nat
  length : Nat
  next : Nat := 0
  aborted : Bool := false
  ended : Bool := false
  waitSeed : Bool := false
  deriving DecidableEq, Repr

/-- The Noise station of a bay. -/
structure NoiseSt where
  recs : List NoiseRec := []
  seeds : List OpenSeed := []
  streams : List NoiseStream := []
  samples : W64 := 0
  deriving DecidableEq, Repr

/-- The states of Table 08.7. -/
inductive RlsState where
  | idle | collecting | signing | emitting | discarding
  deriving DecidableEq, Repr

/-- A release and its region (R226 to R232): `clo`, `chi` and `pres` are those of the presence bin, `attempt` and `seed` those of
the noise seed, `ends` where each limb's next tile starts, `k` the tiles admitted, `rand` the signature's draws, `resend` tells a RLS_RESEND, `lost` that the sink's channel was freed before every message was acknowledged. -/
structure Release where
  h : CmdHdr
  args : RlsArgs
  region : Nat
  regionLen : Nat
  inStore : Bool := false
  attempt : Nat
  seed : List Byte
  clo : Nat
  chi : Nat
  pres : List Byte
  ends : List Nat
  k : Nat := 0
  etype : Option Nat := none
  tiles : W32 := 0
  out : List Byte := []
  failed : Nat := 0
  aborted : Bool := false
  record : List Byte := []
  rand : Option (List Byte) := none
  resend : Bool := false
  lost : Bool := false
  deriving DecidableEq, Repr

/-- The Release station of a bay: `closed` is the region kept for RLS_RESEND (in the bay store or not, base, length; R226, R230, R387). -/
structure RlsSt where
  state : RlsState := .idle
  cur : Option Release := none
  last : Option Release := none
  closed : Option (Bool × Nat × Nat) := none
  records : W32 := 0
  refused : W32 := 0
  lastCode : Nat := 0
  deriving DecidableEq, Repr

/-- A modulus register (Table 09.1, R247). -/
structure MReg where
  m : W64 := 0
  mprime : W64 := 0
  mu : W64 := 0
  r2 : W64 := 0
  valid : Bool := false
  w32 : Bool := false
  deriving DecidableEq, Repr

/-- A grant (Table 09.8). -/
structure Grant where
  base : Nat
  lines : Nat
  rights : Nat
  deriving DecidableEq, Repr

/-- A kernel binding record (Table 09.7), with its code. -/
structure Binding where
  core : Nat
  clearLs : Bool
  cls : Nat
  job : W32
  inMask : Nat
  outMask : Nat
  entry : Nat
  codeLen : Nat
  loadAt : Nat
  watchdog : Nat
  fmt : W64
  grants : List Grant
  code : List Byte
  raw : List Byte
  deriving DecidableEq, Repr

/-- A slot that the open firing of a core holds: its port (0 to 15), bay-store byte address and token (R255). Its lines lie in the
bay store. -/
structure HeldSlot where
  port : Nat
  addr : Nat
  token : Token
  deriving DecidableEq, Repr

/-- The open firing of a core (R255, R256): the causes found on its inputs, its flags, the uncorrectable line a DMA met. -/
structure CoreFiring where
  slots : List HeldSlot
  made : List Nat := []
  tpois : Bool := false
  nan : Bool := false
  nonCanon : Bool := false
  ue : Option Nat := none
  closedLogged : Bool := false
  deriving DecidableEq, Repr

/-- One queued DMA operation (R251). -/
structure DmaOp where
  op : Nat
  dst : Nat
  src : Nat
  len : Nat
  ring : Nat
  deriving DecidableEq, Repr

/-- What a core is doing. -/
inductive CoreRun where
  | stopped
  | running
  | waitFire (inMask outMask : Nat)
  | waitTend
  deriving DecidableEq, Repr

/-- The architectural state of a bay core (Tables 09.1 and 09.2) and its control. -/
structure Core where
  s : Vector W64 64 := Vector.replicate 64 0
  v : Vector (Vector W64 32) 32 := Vector.replicate 32 (Vector.replicate 32 0)
  m : Vector MReg 8 := Vector.replicate 8 {}
  p : Vector W64 8 := Vector.replicate 8 0
  pc : Nat := 0
  fmt : W64 := 0
  firings : W64 := 0
  cycles : Nat := 0
  ls : Mem := []
  lsWritten : List Nat := []
  bind : Option Binding := none
  run : CoreRun := .stopped
  firing : Option CoreFiring := none
  dma : Vector (List DmaOp) 4 := Vector.replicate 4 []
  waitDma : Bool := false
  halted : Bool := false
  stepping : Bool := false
  faultBits : BitVec 5 := 0
  moved : Bool := false
  kerr : W32 := 0
  kerrLast : Nat := 0
  lsCe : W32 := 0
  busy : W64 := 0
  imgFirings : W32 := 0
  ctl : Station := {}
  deriving DecidableEq, Repr

/-- Power, thermal and clock data of a bay (13). Temperatures are in 1/16 °C, rail in mV, power in mW;
`budgetCode` and `govCode` are the clock codes that budget throttling and the governor ask for, 0 for none; `fselW` is FSEL as written. -/
structure BayPower where
  fix : Bool := false
  fsel : BitVec 3 := 0
  fselW : BitVec 3 := 0
  budgetCode : Nat := 0
  govCode : Nat := 0
  govFallowOff : Bool := false
  episode : Bool := false
  coolSince : Option W64 := none
  tj : Nat := 0
  mv : Nat := 0
  work : Nat := 0
  fallow : Nat := 0
  deriving DecidableEq, Repr

/-- One bay (R16). `remapping` is the fenced core whose re-map is under way, `remapQ` those fenced since (R260). -/
structure Bay where
  owner : PartId := mgmt
  mem : BayMem := {}
  bin : Station := {}
  msk : Station := {}
  shr : Station := {}
  lat : Station := {}
  nse : Station := {}
  rls : Station := {}
  mask : MaskSt := {}
  round : Option Round := none
  lattice : LatSt := {}
  noise : NoiseSt := {}
  release : RlsSt := {}
  cores : Vector Core 50 := Vector.replicate 50 {}
  pow : BayPower := {}
  remapping : Option Nat := none
  remapQ : List Nat := []
  slots : Nat := 0
  deriving DecidableEq, Repr

end Sys2Proof.Machine
end

