-- ==== Sys2Proof/Machine/TypesHub.lean ====
section
/-! DEFINITION. The data of the hub: Intake, windows, almanac, schedules, Reduce, Zaled, queue manager, root of trust, power, daybooks (04, 08, 10 to 16). -/

namespace Sys2Proof.Machine

/-- The states of Table 04.5 other than FREE. -/
inductive ChanState where
  | unkeyed | opened | reset
  deriving DecidableEq, Repr

/-- A channel context that is not FREE (R99, R100, R102). -/
structure Chan where
  part : PartId
  state : ChanState := .unkeyed
  vlan : Nat := 0
  portMask : Nat := 0
  paths : Nat := 1
  mac : List Byte := []
  peer : List Byte := []
  linkKey : Option (List Byte) := none
  linkJob : W32 := 0
  epoch : Nat := 0
  nextInst : Bool := false
  old : Option (Nat × W64) := none
  rxHigh : Nat := 0
  txEpoch : Nat := 0
  txSeq : Nat := 0
  cached : Bool := true
  pinned : Bool := false
  lastUse : Nat := 0
  nakMs : Nat := 0
  nakCount : Nat := 0
  ceCount : Nat := 0
  alpha : Rat := 1
  rate : Rat := 0
  holdUntil : W64 := 0
  pressed : Bool := false
  txMsg : Nat := 0
  deriving DecidableEq, Repr

/-- A WRD packet whose frame passed R86: where it came from, its CE mark and its UDP payload. -/
structure RxPacket where
  port : PortId
  row : TenantId
  vlan : Option Nat
  src : List Byte
  ce : Bool
  bytes : List Byte
  half : Bool := false
  udp : Nat := 0
  deriving DecidableEq, Repr

/-- A message being assembled (R105 to R109). `segs` is the segment bitmap; a PUT keeps no data. -/
structure Msg where
  part : PartId
  chan : Nat
  shelfmark : W32
  msgId : W32
  put : Bool
  reduce : Bool := false
  msgLen : Nat
  segs : Nat := 0
  hdr : Option (List Byte) := none
  data : List (Nat × List Byte) := []
  lastT : W64
  ref : MsgRef
  deriving DecidableEq, Repr

/-- A message that the device itself sends and that is not yet answered ACK COMMITTED (R108, R230): `put` for a PUT, else a TILE
with its 64-byte header `hdr`; `bytes` is the payload, `bay` that of the release it belongs to, `sent` and `acked` the segments sent
once and acknowledged, as bitmaps, `refused` that the peer answered NAK. -/
structure TxMsg where
  chan : Nat
  shelfmark : W32
  msgId : W32
  put : Bool := true
  winOff : Nat
  hdr : List Byte := []
  bytes : List Byte
  bay : Option BayId
  sent : Nat := 0
  acked : Nat := 0
  refused : Bool := false
  deriving DecidableEq, Repr

/-- A partition's share of Intake (R99, R111). -/
structure IntakeShare where
  en : Bool := false
  abort : Bool := false
  drain : Bool := false
  contexts : Nat := 0
  staging : Nat := 0
  trackers : Nat := 0
  missKib : Nat := 0
  chBase : Nat := 0
  chCount : Nat := 0
  deriving DecidableEq, Repr

/-- Intake: the TRN page, the channels and the messages (Table 04.14). -/
structure Trn where
  ctl : Station := {}
  shares : Vector IntakeShare 16 := Vector.replicate 16 {}
  msgTmo : BitVec 24 := 0x2710
  holdMin : W16 := 0x14
  violLim : W16 := 0x100
  ctxBase : W64 := 0
  ctxValid : Bool := false
  holds : W32 := 0
  noReply : W32 := 0
  suppressed : W32 := 0
  chans : List (Nat × Chan) := []
  rx : List RxPacket := []
  miss : List (Nat × RxPacket) := []
  fetching : List Nat := []
  msgs : List Msg := []
  tx : List TxMsg := []
  useCount : Nat := 0
  deriving DecidableEq, Repr

/-- The states of Table 04.10 other than FREE. -/
inductive WinState where
  | opened | closing | closed
  deriving DecidableEq, Repr

/-- A window that is not FREE (Table 04.9). -/
structure Window where
  part : PartId
  state : WinState
  gen : Nat
  place : Bool
  bay : Nat
  sparseOk : Bool
  stream : Nat
  job : W32
  chan : Nat
  bin : W32
  ring : Nat
  etype : Nat
  base : Nat
  span : Nat
  firstTile : Nat
  lastTile : Nat
  clo : Nat
  chi : Nat
  expiry : Nat
  deriving DecidableEq, Repr

/-- The window table (R113, R122). -/
structure Wins where
  tab : List (Nat × Window) := []
  gen : List (Nat × Nat) := []
  base : Vector Nat 16 := Vector.replicate 16 0
  count : Vector Nat 16 := Vector.replicate 16 0
  pend : Vector Bool 16 := Vector.replicate 16 false
  deriving DecidableEq, Repr

/-- An address row (Table 04.13). -/
structure AddrRow where
  valid : Bool := false
  v6 : Bool := false
  v4 : Bool := false
  untagged : Bool := false
  weight : Nat := 0
  vlan : Nat := 0
  ip4 : W32 := 0
  ip6 : Vector W32 4 := Vector.replicate 4 0
  deriving DecidableEq, Repr

/-- The configuration registers of a port (Table 04.12) as last written. -/
structure EthCfg where
  mode : BitVec 3 := 0
  mtu : BitVec 14 := 0x2400
  udp : W16 := 0x2F6E
  macLo : W32 := 0
  macHi : W16 := 0
  rows : Vector AddrRow 16 := Vector.replicate 16 {}
  deriving DecidableEq, Repr

/-- An Ethernet port (Table 04.12). `wr` is the configuration as written; the other fields are the one in force (R120). -/
structure Eth where
  wr : EthCfg := {}
  modeV : BitVec 3 := 0
  mtuV : BitVec 14 := 0x2400
  udp : W16 := 0x2F6E
  macLo : W32 := 0
  macHi : W16 := 0
  training : Bool := false
  training1 : Bool := false
  link0 : Bool := false
  link1 : Bool := false
  rxRow : TenantId := 0
  rxLeft : Nat := 0
  rxFrames : W32 := 0
  rxDiscard : W32 := 0
  txFrames : W32 := 0
  pauseRx : W32 := 0
  rows : Vector AddrRow 16 := Vector.replicate 16 {}
  deriving DecidableEq, Repr

/-- One SerDes lane (Tables 15.12 and 15.13). -/
structure Lane where
  pin : Bool := false
  recal : Bool := false
  eq : W32 := 0x08000F80
  eqCur : W32 := 0x08000F80
  lock : Bool := false
  adapting : Bool := false
  recalBusy : Bool := false
  eye : Byte := 0
  deriving DecidableEq, Repr

/-- The states of Table 10.1. -/
inductive AlmState where
  | free | acquire | locked | holdover
  deriving DecidableEq, Repr

/-- The almanac (Tables 10.13 and 10.14). -/
structure Alm where
  t : W64 := 0
  mode : BitVec 2 := 1
  set : Bool := false
  setSec : W32 := 0
  ppsOff : Int := 0
  holdPpb : BitVec 20 := 0x3E8
  state : AlmState := .acquire
  missed : Nat := 0
  outliers : Nat := 0
  good : Nat := 0
  integ : Int := 0
  trim : Int := 0
  trimAcc : Int := 0
  phase : Int := 0
  uLast : Option Nat := none
  holdSince : W64 := 0
  lastAcc : Option W64 := none
  lastPulseC : Option W64 := none
  cap : W64 := 0
  timeLatch : W64 := 0
  capLatch : W64 := 0
  pulses : W32 := 0
  deriving DecidableEq, Repr

/-- Whose request waits for a DRBG instance (Table 08.2). -/
inductive DrbgWait where
  | draw (h : CmdHdr) (job round : W32) (claims : List Claim)
  | sign (b : BayId)
  | mailbox (i : Instr)
  | boot
  | zldNonce (p : PortId)
  | zldProof (p : PortId)
  deriving DecidableEq, Repr

/-- Requests that wait: the sizes still to be generated, and what has been generated (R208). -/
structure DrbgReq where
  sizes : List Nat
  got : List (List Byte) := []
  who : DrbgWait
  deriving DecidableEq, Repr

/-- One CTR_DRBG instance (R208, R209): `live` while its partition exists, `seeded` once instantiated. -/
structure Drbg where
  live : Bool := false
  key : List Byte := []
  v : List Byte := []
  seeded : Bool := false
  stalled : Bool := false
  reqs : Nat := 0
  waiting : List DrbgReq := []
  deriving DecidableEq, Repr

/-- The entropy source (Tables 08.11 and 08.12): `turn` is the instance next in the rotation of R209. -/
structure Rng where
  srcEn : Bool := true
  restart : Bool := false
  startup : Bool := true
  latched : Bool := false
  rctFail : Bool := false
  aptFail : Bool := false
  valid : Bool := false
  runBit : Bool := false
  runLen : Nat := 0
  fifo : List Byte := []
  pool : List (List Byte) := []
  empty : Bool := false
  emptyCnt : W16 := 0
  fails : W32 := 0
  blocks : W32 := 0
  turn : Nat := 0
  drbg : Vector Drbg 17 := Vector.replicate 17 {}
  deriving DecidableEq, Repr

/-- An end of a connection as the image writes it: station code, bay, instance, port (Table 10.5). -/
structure ConnEnd where
  code : Nat
  bay : Nat
  inst : Nat
  port : Nat
  deriving DecidableEq, Repr

/-- A CONN record (Table 10.5). -/
structure Conn where
  unord : Bool
  stream : Nat
  prod : ConnEnd
  cons : ConnEnd
  pool : Nat
  weight : Nat
  poolBase : Nat
  prodClass : Nat
  consClass : Nat
  deriving DecidableEq, Repr

/-- An XFER record (Table 10.8). -/
structure Xfer where
  send : Bool
  presence : Bool
  eth : Bool
  port : Nat
  start : Nat
  nslots : Nat
  peer : Nat
  bay : Nat
  presBay : Nat
  presMask : Nat
  bin : Nat
  firstPos : Nat
  tiles : Nat
  chan : Nat
  deriving DecidableEq, Repr

/-- A FALLBACK record (Table 10.9) of a bay. -/
structure Fallback where
  bay : Nat
  fenced : Nat
  binds : List Binding
  conns : List Conn
  deriving DecidableEq, Repr

/-- A schedule image: its bytes and the sections read from them (R275 to R283). Sets hold the eight shares of Table 10.7. -/
structure Image where
  raw : List Byte := []
  digest : List Byte := []
  job : W32 := 0
  planId : W64 := 0
  domain : Nat := 1
  rank : Nat := 0
  period : Nat := 0
  guardNs : Nat := 0
  bays : Nat := 0
  conns : List Conn := []
  streams : List (Nat × BinStream) := []
  pipes : List (Nat × PipeDesc) := []
  noise : List (Nat × NoiseStream) := []
  binds : List (Nat × Binding) := []
  shares : List (Nat × List (List Nat)) := []
  fallbacks : List Fallback := []
  xfers : List Xfer := []
  plan : List (Nat × Nat × Nat) := []
  hasPlan : Bool := false
  deriving DecidableEq, Repr

/-- The state field of SCHp_STAT (Table 10.15). -/
inductive SchState where
  | none | running | swapPending | halted
  deriving DecidableEq, Repr

/-- A load in progress (R285): the region it closed and the bytes it reads there. -/
structure SchLoadReq where
  h : CmdHdr
  bay : BayId
  region : Nat
  len : Nat
  digest : List Byte
  deriving DecidableEq, Repr

/-- A swap in progress (R287): `saved` keeps DRAIN_REQ of every station and share before the command. -/
structure SwapReq where
  h : CmdHdr
  t0 : W64
  draining : Bool := false
  saved : List (StationRef × Bool) := []
  savedTrn : Bool := false
  savedRed : Bool := false
  deriving DecidableEq, Repr

/-- The schedule state of a tenant partition (R284, Table 10.15). -/
structure SchPart where
  state : SchState := .none
  running : Option Image := none
  staged : Option Image := none
  runRegion : Option (BayId × Nat × Nat) := none
  stagedRegion : Option (BayId × Nat × Nat) := none
  load : Option SchLoadReq := none
  swap : Option SwapReq := none
  t0 : W64 := 0
  step : W32 := 0
  slot : Nat := 0
  started : Bool := false
  stepping : Bool := false
  timeHold : Bool := false
  haltPending : Bool := false
  halted : Bool := false
  remapped : Bool := false
  last : Nat := 0
  deriving DecidableEq, Repr

/-- The schedule unit. -/
structure Sch where
  parts : Vector SchPart 16 := Vector.replicate 16 {}
  config : Bool := false
  deriving DecidableEq, Repr

/-- One transfer of the step in progress (R290, R293). -/
structure XferRun where
  part : TenantId
  idx : Nat
  step : W32
  got : List Nat := []
  sent : Nat := 0
  ended : Bool := false
  rejected : Bool := false
  deriving DecidableEq, Repr

/-- A transfer tile handed to Reduce ingress (R292, R310). -/
structure RedTile where
  port : PortId
  part : TenantId
  planId : W64
  step : Nat
  xfer : Nat
  tile : Tile
  origin : Option MsgRef
  deriving DecidableEq, Repr

/-- A partition's share of Reduce (Table 10.16). -/
structure RedShare where
  en : Bool := false
  abort : Bool := false
  drain : Bool := false
  ports : Nat := 0
  tx : W32 := 0
  rx : W32 := 0
  fail : W32 := 0
  late : W32 := 0
  rejects : List (W64 × Nat) := []
  deriving DecidableEq, Repr

/-- The Reduce engine. -/
structure Red where
  ctl : Station := {}
  shares : Vector RedShare 16 := Vector.replicate 16 {}
  runs : List XferRun := []
  inq : List RedTile := []
  deriving DecidableEq, Repr

/-- The states of Table 11.1. -/
inductive ZldState where
  | down | training | hello | auth | up | retrain
  deriving DecidableEq, Repr

/-- A Zaled port (R304 to R312). `fromRetrain`: trained again in RETRAIN, the HELLO awaited; `refused`: DOWN until EN changes from 0
to 1; `replayBuf` holds each unacknowledged flit as type, flags and used payload; `freed`, `credit`, `peerFreed`, `dataSent` and
`rxHeld` are the counts of R307; `sb`, `sbAsm` and `sbIn` are sideband messages to send, in assembly and received; `since` is when
ACK last moved, `entered` when the state was entered; `late` that RETRAIN trained after more than 5 ms (log 36), `helloSeq` the SEQ of
its HELLO (R306). -/
structure Zld where
  en : Bool := false
  retrain : Bool := false
  state : ZldState := .down
  refused : Bool := false
  fromRetrain : Bool := false
  late : Bool := false
  helloSeq : Nat := 0
  peerId : List Byte := []
  peerPort : Nat := 0
  verified : List Byte := []
  certPk : Option (List Byte) := none
  certOk : Bool := false
  ownNonce : Option (List Byte) := none
  peerNonce : Option (List Byte) := none
  txSeq : Nat := 0
  ackRx : Option Nat := none
  replayBuf : List (Nat × List Byte) := []
  replays : Nat := 0
  rxNext : Nat := 0
  rxAny : Bool := false
  rplyDue : Bool := false
  freed : Nat := 0
  credit : Nat := 0
  peerFreed : Nat := 0
  dataSent : Nat := 0
  rxHeld : Nat := 0
  frame : List (List Byte × Bool) := []
  inFrame : Bool := false
  frames : List (List (List Byte × Bool)) := []
  sb : List (List Byte) := []
  sbId : Nat := 0
  sbAsm : Option (List Byte) := none
  sbIn : List (Nat × List Byte) := []
  replayCount : W32 := 0
  crcFails : W32 := 0
  fec : W32 := 0
  disc : W32 := 0
  since : W64 := 0
  entered : W64 := 0
  deriving DecidableEq, Repr

/-- The frame sequence kept for one port, job (by partition and identifier) and source rank in reception, or one port and job in sending (R309, R310). -/
structure ZSeq where
  port : PortId
  part : TenantId
  job : W32
  rank : Nat
  epoch : Nat
  seq : Option Nat
  deriving DecidableEq, Repr

/-- The states of Table 11.11 other than DISABLED. -/
inductive QState where
  | active | error | deleting (h : CmdHdr)
  deriving DecidableEq, Repr

/-- A queue that is not DISABLED (R321, R322, R326); `fenced` that the entry at the head was read and waits under FENCE (R325). -/
structure Queue where
  part : PartId
  state : QState := .active
  isSq : Bool
  k : Nat
  cq : Nat := 0
  ring : W64
  head : Nat := 0
  tail : Nat := 0
  phase : Bool := true
  vector : Nat := 0xFFFF
  irqCount : Nat := 0
  irqTime : Nat := 0
  weight : Nat := 1
  unreported : Nat := 0
  firstUnreported : Option W64 := none
  fenced : Bool := false
  deriving DecidableEq, Repr

/-- The admin registers of a partition's QM page (Table 11.13). -/
structure AdmCfg where
  sqAddr : W64 := 0
  cqAddr : W64 := 0
  cfg : W32 := 0
  deriving DecidableEq, Repr

/-- A completion that waits to be written to its CQ (R324, R325). -/
structure Completion where
  h : CmdHdr
  status : Nat
  result : List Byte
  deriving DecidableEq, Repr

/-- The queue manager. `turns` lists, for each SQ that waits, the SQs of its partition served since (R325): pairs of the SQ that waits and the
one served. `dead` holds the commands in flight whose queue an FLR took away: their completions are discarded (R318). -/
structure Qm where
  queues : List (Nat × Queue) := []
  adm : Vector AdmCfg 17 := Vector.replicate 17 {}
  base : Vector Nat 17 := Vector.replicate 17 0
  count : Vector Nat 17 := Vector.replicate 17 0
  share : Vector Nat 17 := Vector.replicate 17 0
  cmds : Vector W32 17 := Vector.replicate 17 0
  inFlight : List CmdHdr := []
  dispatched : List Instr := []
  held : List Completion := []
  dead : List CmdHdr := []
  turns : List (Nat × Nat) := []
  stopped : Bool := true
  deriving DecidableEq, Repr

/-- The masking parameter record (Table 06.1). -/
structure MaskRec where
  mode : Nat
  ring : Nat
  t : Nat
  d : Nat
  h : Nat
  n : Nat
  f : Nat
  raw : List Byte
  deriving DecidableEq, Repr

/-- A job (R344). -/
structure Job where
  job : W32
  lead : Bool
  domain : Nat
  rank : Nat
  format : W64
  mask : MaskRec
  moduli : List Nat
  region : Nat
  ownerKey : List Byte
  members : List (List Byte)
  digest : List Byte
  moduliDigest : List Byte
  ek : List Byte := []
  working : Option (BayId × Nat × Nat) := none
  graphDigest : List (W32 × List Byte) := []
  prevRecord : List Byte := []
  deriving DecidableEq, Repr

/-- The states of Table 12.2. -/
inductive PartState where
  | free | creating | active | destroying
  deriving DecidableEq, Repr

/-- A tenant partition (Table 12.1, R334). -/
structure Partition where
  state : PartState := .free
  layout : List Byte := []
  conf : Bool := false
  debug : Bool := false
  bays : W16 := 0
  ethPorts : Nat := 0
  reducePorts : Nat := 0
  slotQuota : Nat := 0
  powerW : Nat := 0
  gen : W32 := 0
  job : Option Job := none
  pekDk : List Byte := []
  pekEk : List Byte := []
  deriving DecidableEq, Repr

/-- A key slot in use (R350, Table 12.15); a NOISE slot also keeps its claims and exports (R215, R216). -/
structure KeySlot where
  kind : Nat
  secret : List Byte
  part : TenantId
  gen : W32
  job : W32
  round : W32 := 0
  attempt : Nat := 0
  claims : List (Nat × Nat) := []
  exports : List (Nat × Nat) := []
  deriving DecidableEq, Repr

/-- A firmware component (Tables 12.8 and 12.17): `switched` lists the instances that already run the image being activated
(Table 13.9). -/
structure FwComp where
  svn : Nat := 0
  minSvn : Nat := 0
  digest : List Byte := []
  accepted : Option (Nat × List Byte) := none
  active : Bool := false
  raises : Nat := 0
  switched : List Nat := []
  deriving DecidableEq, Repr

/-- The mailbox registers (Tables 12.19 and 12.20). -/
structure Mbx where
  op : W32 := 0
  curOp : W32 := 0
  curLen : Nat := 0
  go : Bool := false
  imm : Bool := false
  req : W64 := 0
  reqLen : Nat := 0
  rsp : W64 := 0
  rspLen : Nat := 0
  status : Nat := 0
  isHeld : Bool := false
  busy : Bool := false
  done : Bool := false
  used : Nat := 0
  vector : W32 := 0
  running : Option Instr := none
  deriving DecidableEq, Repr

/-- The reveal bitmap of one round of a job (R163): two bits for each contributor, unlisted 0b00. -/
structure Reveal where
  part : TenantId
  job : W32
  round : W32
  bits : List (Nat × Nat) := []
  deriving DecidableEq, Repr

/-- The highest attempt used for a round (R214). -/
structure Attempt where
  part : TenantId
  job : W32
  round : W32
  attempt : Nat
  deriving DecidableEq, Repr

/-- The root-of-trust processor, its fuses and the partitions (12). -/
structure Rot where
  parts : Vector Partition 16 := Vector.replicate 16 {}
  slots : Vector (Option KeySlot) 64 := Vector.replicate 64 none
  comps : Vector FwComp 12 := Vector.replicate 12 {}
  mbx : Mbx := {}
  ready : Bool := false
  identityErr : Bool := false
  firmwareErr : Bool := false
  lifecycle : Nat := 2
  bootNonce : List Byte := []
  signQ : List (PartId × BayId) := []
  reveals : List Reveal := []
  attempts : List Attempt := []
  deferred : List (Fn × Page × Nat × W32) := []
  deriving DecidableEq, Repr

/-- What a bring-up has reached and the device-wide power state (13). `dips` are the bay-rail readings of the last second with the
time, mV and bay of each (PWR_MINMV); `tripCool` is since when every junction has been below 95 °C in trip (R372); `adjusted` when the
leveller last moved the fallow load (R375). -/
structure Power where
  inReset : Bool := true
  settingsApplied : Bool := false
  running : Bool := false
  refs : BitVec 3 := 0
  thermtrip : Bool := false
  cap : Nat := 0x578
  pkg : Nat := 0
  dips : List (W64 × Nat × Nat) := []
  prstGo : Bool := false
  prst : W16 := 0
  prstKind : Nat := 0
  prstBay : Nat := 0
  prstUnit : Nat := 0
  prstFail : Bool := false
  prstLast : W16 := 0
  stage : Nat := 0
  below : Bool := false
  shedTimer : W64 := 0
  holdSince : Option W64 := none
  undoing : Bool := false
  lastUndo : W64 := 0
  fallowBack : Bool := false
  railWarn : List (Fin 7) := []
  tgt : BitVec 7 := 0x5F
  inlet : Nat := 0
  hubTj : Nat := 0
  hubW : Nat := 0
  hubFallow : Nat := 0
  coolant : Bool := false
  trip : Bool := false
  tripCool : Option W64 := none
  govActive : Bool := false
  floor : BitVec 11 := 0
  slew : Byte := 0x32
  cls : BitVec 4 := 0xF
  levelShort : Bool := false
  causes : BitVec 6 := 1
  floorSince : W64 := 0
  adjusted : Option W64 := none
  deriving DecidableEq, Repr

/-- The settings of Table 13.11. -/
structure Settings where
  cap : Nat := 0x578
  floor : BitVec 11 := 0
  slew : Byte := 0x32
  cls : BitVec 4 := 0xF
  tgt : BitVec 7 := 0x5F
  clk : Vector (Bool × BitVec 3) 16 := Vector.replicate 16 (false, 0)
  almMode : BitVec 2 := 1
  ppsOff : Int := 0
  holdPpb : BitVec 20 := 0x3E8
  patrol : Vector (Bool × W16) 16 := Vector.replicate 16 (true, 0x18)
  ethMode : Vector (BitVec 3) 8 := Vector.replicate 8 0
  ethMtu : Vector (BitVec 14) 8 := Vector.replicate 8 0x2400
  ethUdp : Vector W16 8 := Vector.replicate 8 0x2F6E
  ethMac : Vector (W32 × W16) 8 := Vector.replicate 8 (0, 0)
  msgTmo : BitVec 24 := 0x2710
  holdMin : W16 := 0x14
  violLim : W16 := 0x100
  deriving DecidableEq, Repr

/-- The settings record in NVM, kept as an A/B pair (R392). -/
structure Nvm where
  a : Option Settings := some {}
  b : Option Settings := some {}
  useB : Bool := false
  store : Bool := false
  defaults : Bool := false
  writing : Settings := {}
  settingsBad : Bool := false
  storeFail : Bool := false
  stores : Nat := 0
  deriving DecidableEq, Repr

/-- A daybook entry (Table 16.1). -/
structure Entry where
  time : W64
  source : W32
  code : Nat
  part : Nat
  sev : Nat
  d0 : W32 := 0
  d1 : W32 := 0
  d2 : W32 := 0
  d3 : W32 := 0
  deriving DecidableEq, Repr

/-- A daybook queue with its DBK page (R427, R433). -/
structure Dbk where
  entries : List (W32 × Entry) := []
  next : W32 := 0
  lost : W32 := 0
  snap : Option (W32 × Entry) := none
  take : W32 := 0
  deriving DecidableEq, Repr

/-- The debug unit (Table 15.16). -/
structure Dbg where
  target : W32 := 0
  addr : W64 := 0
  cmd : BitVec 3 := 0
  data : W64 := 0
  done : Bool := false
  refused : Bool := false
  haltedBit : Bool := false
  deriving DecidableEq, Repr

/-- An HDM decoder (R317). -/
structure Hdm where
  base : Nat := 0
  size : Nat := 0
  committed : Bool := false
  error : Bool := false
  deriving DecidableEq, Repr

/-- An entry of an MSI-X table, with its bit of the PBA (Table 11.7). The layout, and MASK = 1 at reset, are those of PCIe (PRESUMED:
notes/assumptions/50.md). -/
structure MsixEntry where
  addr : W64 := 0
  data : W32 := 0
  mask : Bool := true
  pending : Bool := false
  deriving DecidableEq, Repr

/-- The host link (R314, `msix` the MSI-X entries written since reset, under 128 times the partition plus the vector, Table 15.11; `memQ` holds the CXL.mem requests that wait on self-refresh, R317) and the I3C target (R403). -/
structure Link where
  perst : Bool := true
  up : Bool := false
  cachemem : Bool := false
  width : Nat := 0
  rate : Nat := 0
  urSent : W32 := 0
  badTlp : W32 := 0
  rdFail : W32 := 0
  memQ : List (Nat × Option (List Byte)) := []
  hdm0 : Hdm := {}
  hdm1 : Hdm := {}
  vfEnable : Bool := false
  msixOff : List PartId := []
  msix : List (Nat × MsixEntry) := []
  i3cDyn : Option (BitVec 7) := none
  i3cSa : BitVec 2 := 0
  deriving DecidableEq, Repr

/-- The lock of a page (R11, R12, R418). -/
structure Lock where
  page : Page
  unlocked : Bool := false
  discards : Nat := 0
  deriving DecidableEq, Repr

/-- Events that a rule lets write at most one entry or reply in an interval. -/
inductive RateKey where
  | grd (page : Page)
  | authFail (chan : Nat)
  | unauth (chan : Nat)
  | doorbell (fn : Fn)
  | zldFrame (port : PortId)
  deriving DecidableEq, Repr

end Sys2Proof.Machine
end

