-- ==== Sys2Proof/Machine/State.lean ====
section
/-! DEFINITION. The state of the WY16, the reasons a step can stop, and the state after reset. -/

namespace Sys2Proof.Machine

/-- Everything the spec gives the device, the queue of waiting commands, and the model's own `out` and `free`. -/
structure State where
  /-- the commands that wait, first in, first out -/
  pending : List Instr
  /-- the 16 bays (R15) -/
  bays : Vector Bay 16
  /-- tokens on their way to an input port (R83) -/
  tokFlight : List (StationRef × PortId × Token)
  /-- credits on their way back from an input port, with the slot freed (R83) -/
  credFlight : List (StationRef × PortId × Nat)
  /-- page locks that differ from locked with no discards (R11) -/
  locks : List Lock
  /-- when each rate-limited event last happened -/
  rates : List (RateKey × W64)
  scratch : W32
  trn : Trn
  wins : Wins
  eth : Vector Eth 8
  lane : Vector (Vector Lane 8) 8
  alm : Alm
  rng : Rng
  sch : Sch
  red : Red
  zld : Vector Zld 8
  zrx : List ZSeq
  ztx : List ZSeq
  qm : Qm
  rot : Rot
  pow : Power
  nvm : Nvm
  dbk : Vector Dbk 17
  /-- the daybook unit's input buffer (R434) -/
  dbkIn : List (PartId × Entry)
  dbg : Dbg
  coreSel : Vector (BitVec 4) 16
  link : Link
  /-- the model's own: what left the package, newest last -/
  out : List Output
  /-- the model's own: how many free values have been drawn -/
  free : Nat
  deriving DecidableEq, Repr

/-- Why the machine can stop with a fault. -/
inductive Fault where
  /-- Raised by no rule of this model: every failure the spec names is a state, poison, a status or a daybook entry.
  Kept so that the type is not empty; safe. -/
  | stopped
  deriving DecidableEq, Repr

/-- Why a step can be refused. -/
inductive Refusal where
  /-- An arm of `exec` without its meaning; safe. No arm of this model raises it. -/
  | notModelled (mnemonic : String)
  deriving DecidableEq, Repr

abbrev Res := Host.Outcome State Fault Refusal

/-- The device held in reset, before RESET_RELEASE: every field at the value the spec states, or at the value that
notes/assumptions/4.md and 5.md name. -/
def State.reset : State where
  pending := []
  bays := Vector.replicate 16 {}
  tokFlight := []
  credFlight := []
  locks := []
  rates := []
  scratch := 0
  trn := {}
  wins := {}
  eth := Vector.replicate 8 {}
  lane := Vector.replicate 8 (Vector.replicate 8 {})
  alm := {}
  rng := {}
  sch := {}
  red := {}
  zld := Vector.replicate 8 {}
  zrx := []
  ztx := []
  qm := {}
  rot := {}
  pow := {}
  nvm := {}
  dbk := Vector.replicate 17 {}
  dbkIn := []
  dbg := {}
  coreSel := Vector.replicate 16 0
  link := {}
  out := []
  free := 0

end Sys2Proof.Machine
end

