-- ==== Sys2Proof/Machine/Bits.lean ====
section
/-! DEFINITION. Bytes, words, bit lists, vectors and memories: the helpers every family uses. -/

namespace Sys2Proof.Machine

/-- Update one place of a vector. -/
def vmod (v : Vector α n) (i : Fin n) (f : α → α) : Vector α n := v.set i.1 (f v[i]) i.2

/-- Map over a vector, through its list so that the kernel can evaluate it. -/
def vmap (v : Vector α n) (f : α → β) : Vector β n := ⟨⟨v.toArray.toList.map f⟩, by simp⟩

/-- Map over a vector with the place. -/
def vmapIdx (v : Vector α n) (f : Nat → α → β) : Vector β n := ⟨⟨v.toArray.toList.mapIdx f⟩, by simp⟩

/-- The low byte of a number. -/
def byteOf (x : Nat) : Byte := BitVec.ofNat 8 x

/-- `n` little-endian bytes of `x`. -/
def leBytes : Nat → Nat → List Byte
  | 0, _ => []
  | n + 1, x => byteOf x :: leBytes n (x / 256)

/-- The number that little-endian bytes spell. -/
def ofLe : List Byte → Nat
  | [] => 0
  | b :: bs => b.toNat + 256 * ofLe bs

/-- `n` big-endian bytes of `x`. -/
def beBytes (n x : Nat) : List Byte := (leBytes n x).reverse

/-- The number that big-endian bytes spell. -/
def ofBe (bs : List Byte) : Nat := ofLe bs.reverse

/-- `n` bytes at offset `off`. -/
def bslice (bs : List Byte) (off n : Nat) : List Byte := (bs.drop off).take n

/-- A field of `n` little-endian bytes at offset `off`; bytes beyond the end read 0. -/
def fieldN (bs : List Byte) (off n : Nat) : Nat := ofLe (bslice bs off n)

def u8 (bs : List Byte) (off : Nat) : Nat := fieldN bs off 1
def u16 (bs : List Byte) (off : Nat) : Nat := fieldN bs off 2
def u32 (bs : List Byte) (off : Nat) : Nat := fieldN bs off 4
def u48 (bs : List Byte) (off : Nat) : Nat := fieldN bs off 6
def u64 (bs : List Byte) (off : Nat) : Nat := fieldN bs off 8
def be16 (bs : List Byte) (off : Nat) : Nat := ofBe (bslice bs off 2)
def be32 (bs : List Byte) (off : Nat) : Nat := ofBe (bslice bs off 4)
def w32 (bs : List Byte) (off : Nat) : W32 := BitVec.ofNat 32 (u32 bs off)

/-- Every byte is zero (R9). -/
def allZero (bs : List Byte) : Bool := bs.all (· == 0)

/-- The `n` reserved bytes at `off` are zero (R9). -/
def resvZero (bs : List Byte) (off n : Nat) : Bool := allZero (bslice bs off n)

/-- Exactly `n` bytes, cut or filled with zeros. -/
def padTo (n : Nat) (bs : List Byte) : List Byte := bs.take n ++ List.replicate (n - bs.length) 0

/-- Bits [hi:lo] of a number. -/
def bitsOf (x hi lo : Nat) : Nat := x / 2 ^ lo % 2 ^ (hi + 1 - lo)

/-- Bit i of a number. -/
def bitOf (x i : Nat) : Bool := x / 2 ^ i % 2 == 1

/-- 1 or 0. -/
def b2n (b : Bool) : Nat := if b then 1 else 0

/-- A register word from a number, modulo 2^32. -/
def word32 (x : Nat) : W32 := BitVec.ofNat 32 x
def word64 (x : Nat) : W64 := BitVec.ofNat 64 x

/-- The places below `n` whose bit is set. -/
def bitsSet (n x : Nat) : List Nat := (List.range n).filter (bitOf x)

/-- How many of the low `n` bits are set. -/
def popcount (n x : Nat) : Nat := (bitsSet n x).length

/-- The number whose set bits are the listed places, each below `n`. -/
def maskOf (n : Nat) (l : List Nat) : Nat :=
  (List.range n).foldr (fun i acc => 2 * acc + b2n (l.contains i)) 0

/-- The value of the two's-complement reading of the low `w` bits. -/
def signed (w x : Nat) : Int := if x % 2 ^ w < 2 ^ (w - 1) then (x % 2 ^ w : Int) else (x % 2 ^ w : Int) - 2 ^ w

/-- An integer as a `w`-bit word. -/
def wrapInt (w : Nat) (i : Int) : Nat := (i % (2 ^ w : Int)).toNat

/-- `a` divided by `b`, rounded up. -/
def ceilDiv (a b : Nat) : Nat := (a + b - 1) / b

/-- b^e modulo m by squaring (fuel: the bits of e). -/
def powMod (m b : Nat) : Nat → Nat → Nat
  | 0, _ => 1 % m
  | f + 1, e =>
    let h := powMod m b f (e / 2)
    if e % 2 = 1 then h * h % m * b % m else h * h % m

/-- Cut a list into pieces of `n` (fuel: its length). -/
def chunksAux (n : Nat) : Nat → List α → List (List α)
  | 0, _ => []
  | _, [] => []
  | fuel + 1, l => l.take n :: chunksAux n fuel (l.drop n)
def chunks (n : Nat) (l : List α) : List (List α) := chunksAux n l.length l

/-- Find the value of a key. -/
def lookup [BEq κ] (k : κ) (l : List (κ × α)) : Option α := (l.find? (fun p => p.1 == k)).map (·.2)

/-- Put a value at a key of a list kept in rising order of keys, in place of an earlier one. -/
def insertKey (k : Nat) (a : α) : List (Nat × α) → List (Nat × α)
  | [] => [(k, a)]
  | (j, b) :: t => if k < j then (k, a) :: (j, b) :: t else if k = j then (k, a) :: t else (j, b) :: insertKey k a t

/-- Take a key out. -/
def eraseKey (k : Nat) (l : List (Nat × α)) : List (Nat × α) := l.filter (fun p => p.1 != k)

/-- Add a number to a set kept as a rising list. -/
def insertNat (k : Nat) : List Nat → List Nat
  | [] => [k]
  | j :: t => if k < j then k :: j :: t else if k = j then j :: t else j :: insertNat k t

/-- A byte string as a number of lines of 64 bytes, rounded up. -/
def linesOf (n : Nat) : Nat := ceilDiv n 64

/-- The memory's canonical form: addresses strictly rising, no byte 0 listed. -/
abbrev Memory.wf (m : Mem) : Prop := m.Pairwise (fun a b => a.1 < b.1) ∧ ∀ c ∈ m, c.2 ≠ 0

/-- One byte; an unlisted one reads 0 (R62, R147, R240). -/
def memGet (m : Mem) (a : Nat) : Byte := (lookup a m).getD 0

/-- `n` bytes from `a` of the cells that lie at `a` or above, in rising order. -/
def memWalk : Mem → Nat → Nat → List Byte
  | _, _, 0 => []
  | [], a, n + 1 => 0 :: memWalk [] (a + 1) n
  | (k, b) :: t, a, n + 1 => if k = a then b :: memWalk t (a + 1) n else 0 :: memWalk ((k, b) :: t) (a + 1) n

/-- `n` bytes from `a`. -/
def memRead (m : Mem) (a n : Nat) : List Byte := memWalk (m.filter (fun c => a ≤ c.1)) a n

/-- The cells of a byte string placed at `a`, zeros left out. -/
def cellsOf : Nat → List Byte → Mem
  | _, [] => []
  | a, b :: bs => if b = 0 then cellsOf (a + 1) bs else (a, b) :: cellsOf (a + 1) bs

/-- Write a byte string at `a`: the cells below, the new ones, the cells above. -/
def memWrite (m : Mem) (a : Nat) (bs : List Byte) : Mem :=
  m.filter (fun c => c.1 < a) ++ cellsOf a bs ++ m.filter (fun c => a + bs.length ≤ c.1)

/-- Set `n` bytes from `a` to zero. -/
def memZero (m : Mem) (a n : Nat) : Mem := m.filter (fun c => c.1 < a || a + n ≤ c.1)

/-- The cells of a span, their addresses counted from `a`. -/
def memCut (m : Mem) (a n : Nat) : Mem :=
  (m.filter (fun c => a ≤ c.1 && c.1 < a + n)).map (fun c => (c.1 - a, c.2))

/-- Place a memory's cells (addresses below `n`) over the span [a, a + n). -/
def memPaste (m : Mem) (a n : Nat) (c : Mem) : Mem :=
  m.filter (fun x => x.1 < a) ++ (c.filter (fun x => x.1 < n)).map (fun x => (a + x.1, x.2)) ++
    m.filter (fun x => a + n ≤ x.1)

end Sys2Proof.Machine
end

