-- ==== Sys2Proof/Machine/Codes.lean ====
section
/-! DEFINITION. The condition codes of the device (R439; tables 03.4, 04.8, 05.11, 06.14, 07.13, 08.14, 09.13, 10.17, 11.14,
12.22, 13.14, 16.5) and their severities (Table 16.2). -/

namespace Sys2Proof.Machine

abbrev codeStationStall : Nat := 0x1001
abbrev codeWindowRevoked : Nat := 0x1002
abbrev codeGrdLocked : Nat := 0x2001
abbrev codeDbgRefused : Nat := 0x2002
abbrev codeUncorrectableMemory : Nat := 0x3001
abbrev codeNonCanonical : Nat := 0x3002
abbrev codeFloatInRing : Nat := 0x3003
abbrev codeNanInput : Nat := 0x3004
abbrev codeNoiseBudget : Nat := 0x3005
abbrev codeKeyMismatch : Nat := 0x3006
abbrev codeParamMismatch : Nat := 0x3007
abbrev codeAborted : Nat := 0x3008
abbrev codeStationFault : Nat := 0x3009
abbrev codeMalformedHeader : Nat := 0x300A
abbrev codeJobMismatch : Nat := 0x300B
abbrev codeKernel : Nat := 0x300C
abbrev causeCoreFenced : Nat := 0x300D
abbrev codeSequence : Nat := 0x300E
abbrev codeMisfit : Nat := 0x300F
abbrev codeMalformedSegment : Nat := 0x4001
abbrev codeMalformedTile : Nat := 0x4002
abbrev codeUnknownChannel : Nat := 0x4003
abbrev codeChannelReset : Nat := 0x4004
abbrev codeStaleShelfmark : Nat := 0x4005
abbrev codeWindowViolation : Nat := 0x4006
abbrev codeAccessionRejected : Nat := 0x4007
abbrev codeMessageConflict : Nat := 0x4008
abbrev codeIncomplete : Nat := 0x4009
abbrev codeWindowClosed : Nat := 0x400A
abbrev codeEpochUnknown : Nat := 0x400B
abbrev codeChanEpoch : Nat := 0x400C
abbrev codeChanBad : Nat := 0x400D
abbrev codeChanState : Nat := 0x400E
abbrev codeAuthFail : Nat := 0x4010
abbrev codePeerMismatch : Nat := 0x4011
abbrev codeContextIntegrity : Nat := 0x4012
abbrev codeViolationLimit : Nat := 0x4013
abbrev codeMissFull : Nat := 0x4014
abbrev codeStagingFull : Nat := 0x4015
abbrev codeTrackersFull : Nat := 0x4016
abbrev codePaused : Nat := 0x4017
abbrev codeShed : Nat := 0x4018
abbrev codeUeData : Nat := 0x5001
abbrev codeUeMetadata : Nat := 0x5002
abbrev codePcFenced : Nat := 0x5003
abbrev codeMirrorLost : Nat := 0x5004
abbrev codeMirrorTakeover : Nat := 0x5005
abbrev codeBinBusy : Nat := 0x5010
abbrev codeBinPartial : Nat := 0x5011
abbrev codeBinMismatch : Nat := 0x5012
abbrev codeBinBadDesc : Nat := 0x5013
abbrev codeBinState : Nat := 0x5014
abbrev codeBinOverlap : Nat := 0x5015
abbrev codeGleanState : Nat := 0x6001
abbrev codeGleanMismatch : Nat := 0x6002
abbrev codeBelowFloor : Nat := 0x6003
abbrev codeGraphDigest : Nat := 0x6004
abbrev codeGraphMalformed : Nat := 0x6005
abbrev codeGleanRegion : Nat := 0x6006
abbrev codeRoundStale : Nat := 0x6007
abbrev codeGleanShort : Nat := 0x6008
abbrev codeBatchAuth : Nat := 0x6010
abbrev codeBatchMalformed : Nat := 0x6011
abbrev codeBatchDup : Nat := 0x6012
abbrev codeShareRejected : Nat := 0x6013
abbrev codeCommitFail : Nat := 0x6014
abbrev codeRevealConflict : Nat := 0x6015
abbrev codeParamBad : Nat := 0x7001
abbrev codeParamFull : Nat := 0x7002
abbrev codeParamInUse : Nat := 0x7003
abbrev codeParamExists : Nat := 0x7004
abbrev codeKeyBad : Nat := 0x7005
abbrev codeKeyRegion : Nat := 0x7006
abbrev codeKeyDigest : Nat := 0x7007
abbrev codeKeyState : Nat := 0x7008
abbrev codeNoiseBad : Nat := 0x8001
abbrev codeNoiseInUse : Nat := 0x8002
abbrev codeNoiseRange : Nat := 0x8003
abbrev codeNoiseStale : Nat := 0x8004
abbrev codeNoiseBlob : Nat := 0x8005
abbrev codeNoiseState : Nat := 0x8006
abbrev codeNoiseReuse : Nat := 0x8007
abbrev codeRlsBad : Nat := 0x8008
abbrev codeRlsState : Nat := 0x8009
abbrev codeRlsRegion : Nat := 0x800A
abbrev codeRlsRefused : Nat := 0x800B
abbrev codeRlsSink : Nat := 0x800C
abbrev codeHealthFail : Nat := 0x8010
abbrev codeDrbgStall : Nat := 0x8011
abbrev codeDrbgResume : Nat := 0x8012
abbrev codeKernelFault : Nat := 0x9001
abbrev codeCoreFenced : Nat := 0x9002
abbrev codeClosedAccess : Nat := 0x9003
abbrev codeCoreRemap : Nat := 0x9004
abbrev codeRemapNone : Nat := 0x9005
abbrev codeImageMalformed : Nat := 0xA001
abbrev codeImageDigest : Nat := 0xA002
abbrev codeImageClass : Nat := 0xA003
abbrev codeImageShare : Nat := 0xA004
abbrev codeImageRule : Nat := 0xA005
abbrev codeImageResource : Nat := 0xA006
abbrev codeSwapState : Nat := 0xA007
abbrev codeSwapLate : Nat := 0xA008
abbrev codePpsLost : Nat := 0xA010
abbrev codePpsOutlier : Nat := 0xA011
abbrev codePpsRestored : Nat := 0xA012
abbrev codeAlmStep : Nat := 0xA013
abbrev codeAlmGuard : Nat := 0xA014
abbrev codeXferFail : Nat := 0xA015
abbrev codeXferReject : Nat := 0xA016
abbrev codeBayFailed : Nat := 0xA017
abbrev codeZldTrain : Nat := 0xB001
abbrev codeZldPeer : Nat := 0xB002
abbrev codeZldRetrain : Nat := 0xB003
abbrev codeZldProto : Nat := 0xB004
abbrev codeZldAuth : Nat := 0xB005
abbrev codeCxlAccess : Nat := 0xB010
abbrev codeCxlProto : Nat := 0xB011
abbrev codeFuncReset : Nat := 0xB012
abbrev codeQmEntry : Nat := 0xB020
abbrev codeQmOpcode : Nat := 0xB021
abbrev codeQmQstate : Nat := 0xB022
abbrev codeQmAborted : Nat := 0xB023
abbrev codeQmHostErr : Nat := 0xB024
abbrev codeQmDoorbell : Nat := 0xB025
abbrev codeQmNoSpill : Nat := 0xB026
abbrev codePartBad : Nat := 0xC001
abbrev codePartState : Nat := 0xC002
abbrev codePartConflict : Nat := 0xC003
abbrev codeJobBad : Nat := 0xC004
abbrev codeJobState : Nat := 0xC005
abbrev codeJobBusy : Nat := 0xC006
abbrev codeMemberMismatch : Nat := 0xC007
abbrev codeSigFail : Nat := 0xC008
abbrev codeLinkState : Nat := 0xC009
abbrev codeLinkAbsent : Nat := 0xC00A
abbrev codeSlotFull : Nat := 0xC00B
abbrev codeSlotInUse : Nat := 0xC00C
abbrev codeSlotAbsent : Nat := 0xC00D
abbrev codeBlobBad : Nat := 0xC00E
abbrev codeDeliverAuth : Nat := 0xC00F
abbrev codeFwBad : Nat := 0xC010
abbrev codeFwRollback : Nat := 0xC011
abbrev codeIdentityFail : Nat := 0xC012
abbrev codeMbxBusy : Nat := 0xC013
abbrev codeRspShort : Nat := 0xC014
abbrev codeShedEnter : Nat := 0xD001
abbrev codeShedExit : Nat := 0xD002
abbrev codeRailWarn : Nat := 0xD003
abbrev codeBudgetThrottle : Nat := 0xD004
abbrev codeCapRefused : Nat := 0xD005
abbrev codeThermalGov : Nat := 0xD006
abbrev codeThermalTrip : Nat := 0xD007
abbrev codeCoolantHigh : Nat := 0xD008
abbrev codeLevelShort : Nat := 0xD009
abbrev codeRefLost : Nat := 0xD00A
abbrev codeRefRestored : Nat := 0xD00B
abbrev codeBayReady : Nat := 0xD00C
abbrev codePrstDone : Nat := 0xD00D
abbrev codePrstFail : Nat := 0xD00E
abbrev codeStoreFail : Nat := 0xD00F

/-- Codes of severity ERROR beside class 0x3 (Table 16.2). -/
def errorCodes : List Nat := [0x5001, 0x5002, 0x5003, 0x5004, 0x6003, 0x6014, 0x6015, 0x7007, 0x8007, 0x800B, 0x800C, 0x8011, 0x9001, 0x9002, 0x9005, 0xA015, 0xA017, 0x4012, 0x4013, 0xB024, 0xC00F, 0xC010, 0xD00E, 0xD00F]

/-- Codes of severity WARNING beside classes 0x4, 0x6 and 0xB (Table 16.2). -/
def warningCodes : List Nat := [0x1001, 0x2001, 0x2002, 0x9003, 0x5005, 0x8005, 0xA008, 0xA010, 0xA011, 0xA014, 0xA016, 0xC013, 0xD003, 0xD004, 0xD005, 0xD006, 0xD008, 0xD009, 0xD00A]

/-- The severity of a code; `d0` names the stage of SHED_ENTER and SHED_EXIT (Table 16.2). -/
def severityOf (code d0 : Nat) : Nat :=
  if code = codeThermalTrip ∨ code = codeHealthFail ∨ code = codeIdentityFail then 5
  else if code = codeShedEnter ∨ code = codeShedExit then (if d0 = 3 ∨ d0 = 4 then 5 else 3)
  else if code / 0x1000 = 3 ∨ errorCodes.contains code then 4
  else if code / 0x1000 = 4 ∨ code / 0x1000 = 6 ∨ code / 0x1000 = 0xB ∨ warningCodes.contains code then 3
  else 1

end Sys2Proof.Machine
end

