-- ==== Sys2Proof/Machine/Operands.lean ====
section
/-! DEFINITION. Reading operands: rings and elements (02), tile headers and payload rules (03), handles and addresses. -/

namespace Sys2Proof.Machine

/-- A number as a place below `n`. -/
def finOpt (n x : Nat) : Option (Fin n) := if h : x < n then some ⟨x, h⟩ else none

/-- All places below `n`, in rising order. -/
def places (n : Nat) : List (Fin n) := (List.range n).filterMap (finOpt n)

def allBays : List BayId := places 16
def allCores : List CoreIx := places 50
def allTenants : List TenantId := places 16
def allPorts : List PortId := places 8
/-- A tenant as a partition. -/
def tenantPart (p : TenantId) : PartId := ⟨p.1, by omega⟩
/-- A partition as a tenant, none for the management partition. -/
def partTenant (p : PartId) : Option TenantId := finOpt 16 p.1

/-- A ring of Table 02.1: its modulus and its container's bytes. -/
structure Ring where
  m : Nat
  size : Nat
  deriving DecidableEq, Repr

/-- GF(2^61 − 1)'s modulus (Table 02.1). -/
abbrev gfP : Nat := 0x1FFFFFFFFFFFFFFF

/-- The ring an identifier names under a modulus table (R29, Table 02.1); none for reserved values and ring 0x00. -/
def ringOf (mods : List Nat) (id : Nat) : Option Ring :=
  if id = 1 then some ⟨2 ^ 32, 4⟩
  else if id = 2 then some ⟨2 ^ 64, 8⟩
  else if id = 3 then some ⟨gfP, 8⟩
  else if 0x40 ≤ id then (mods[id - 0x40]?).map (fun q => ⟨q, if q < 2 ^ 31 then 4 else 8⟩)
  else none

/-- The element size of a ring and element type, none for a combination R30 does not permit. -/
def elemSize (mods : List Nat) (ring etype : Nat) : Option Nat :=
  if ring = 0 then (if etype = 2 then some 4 else if etype = 3 then some 2 else none)
  else match ringOf mods ring with
    | some r => if etype = (if r.size = 4 then 0 else 1) then some r.size else none
    | none => none

/-- Ring operations of Table 02.3 on canonical operands; for another operand the same formulas (R246 speaks of them). -/
def ringAdd (r : Ring) (a b : Nat) : Nat := if a + b < r.m then a + b else a + b - r.m
def ringSub (r : Ring) (a b : Nat) : Nat := if b ≤ a then a - b else a + r.m - b
def ringMul (r : Ring) (a b : Nat) : Nat := a * b % r.m

/-- Table 03.2's hdr_word. `resv` of a header holds its reserved bits and fields. -/
def hdrWord (h : TileHdr) : Nat :=
  h.format + h.ring * 2 ^ 8 + h.etype * 2 ^ 16 + b2n h.poison * 2 ^ 24 + b2n h.last * 2 ^ 25 + b2n h.sparse * 2 ^ 26 +
    b2n h.marker * 2 ^ 27 + b2n h.noised * 2 ^ 28

/-- The 64 bytes of a header (Table 03.1), reserved fields zero. -/
def hdrBytes (h : TileHdr) : List Byte :=
  leBytes 4 (hdrWord h) ++ leBytes 4 h.job.toNat ++ leBytes 4 h.tileIndex ++ leBytes 4 h.contributor ++
    leBytes 8 h.sliceOffset ++ leBytes 2 h.count ++ leBytes 2 h.noiseBound ++ leBytes 2 h.paramSet ++
    leBytes 2 h.poisonCause ++ leBytes 4 h.keyTag.toNat ++ leBytes 2 h.stream ++ leBytes 2 0 ++ leBytes 4 h.ordinal ++
    List.replicate 20 0

/-- Read a header (R56). -/
def parseHdr (b : List Byte) : TileHdr :=
  let w := u32 b 0
  { format := bitsOf w 7 0, ring := bitsOf w 15 8, etype := bitsOf w 19 16, poison := bitOf w 24, last := bitOf w 25,
    sparse := bitOf w 26, marker := bitOf w 27, noised := bitOf w 28,
    resv := bitsOf w 23 20 + bitsOf w 31 29 + u16 b 0x16 + u16 b 0x26 + (if resvZero b 0x2C 20 then 0 else 1),
    job := w32 b 4, tileIndex := u32 b 8, contributor := u32 b 0xC, sliceOffset := u48 b 0x10, count := u16 b 0x18,
    noiseBound := u16 b 0x1A, paramSet := u16 b 0x1C, poisonCause := u16 b 0x1E, keyTag := w32 b 0x20,
    stream := u16 b 0x24, ordinal := u32 b 0x28 }

/-- The contributor of a tile that is no contribution (Table 03.3). -/
abbrev noContributor : Nat := 0xFFFFFFFF

/-- The dense capacity of an element size (Table 02.2). -/
def denseCap (size : Nat) : Nat := 65536 / size
/-- The sparse maximum of a container (Table 02.7). -/
def sparseMax (size : Nat) : Nat := if size = 4 then 8192 else 5440

/-- A header is well-formed (R57) under its job's modulus table. -/
def hdrOk (mods : List Nat) (h : TileHdr) : Bool :=
  h.format == 1 && h.resv == 0 && h.job != 0 && (h.contributor < 1048576 || h.contributor == noContributor) &&
  (h.poison || h.poisonCause == 0) && (!h.marker || h.poison) &&
  (3 < h.ring || (h.paramSet == 0 && h.keyTag == 0 && h.noiseBound == 0)) &&
  (match elemSize mods h.ring h.etype with
   | none => false
   | some sz => (!h.sparse || (1 ≤ h.ring && h.ring ≤ 3)) &&
     (h.marker || (1 ≤ h.count && h.count ≤ (if h.sparse then sparseMax sz else denseCap sz))))

/-- The elements a span of payload holds: `n` numbers of `size` bytes from `off`. -/
def readElems (p : List Byte) (off size n : Nat) : List Nat :=
  (chunks size (padTo (size * n) (p.drop off))).map ofLe

/-- The bytes of elements. -/
def writeElems (size : Nat) (xs : List Nat) : List Byte := xs.flatMap (leBytes size)

/-- Strictly ascending. -/
def ascending (l : List Nat) : Bool := (l.zip (l.drop 1)).all (fun p => p.1 < p.2)

/-- The indices and values of a sparse payload (Table 02.7). -/
def sparsePairs (size count : Nat) (p : List Byte) : List (Nat × Nat) :=
  (readElems p 0 4 count).zip (readElems p (4 * sparseMax size) size count)

/-- The elements of a tile of ring elements as (place in the position, value) (R33, R50). -/
def tileElems (size : Nat) (t : Tile) : List (Nat × Nat) :=
  if t.hdr.sparse then sparsePairs size t.hdr.count t.payload
  else (readElems t.payload 0 size t.hdr.count).zipIdx.map (fun p => (p.2, p.1))

/-- The payload bytes beyond count, or beyond the sparse arrays in use, are zero and sparse indices are right (R33, R51). -/
def payloadShapeOk (size : Nat) (t : Tile) : Bool :=
  if t.hdr.sparse then
    let n := t.hdr.count
    let mx := sparseMax size
    ascending (readElems t.payload 0 4 n) && (readElems t.payload 0 4 n).all (· < denseCap size) &&
      resvZero t.payload (4 * n) (4 * mx - 4 * n) && allZero (t.payload.drop (4 * mx + size * n))
  else allZero (t.payload.drop (size * t.hdr.count))

/-- Every element is canonical (R34). -/
def canonicalOk (r : Ring) (t : Tile) : Bool := (tileElems r.size t).all (fun p => p.2 < r.m)

/-- The dense elements of a position that the tile stands for: zero where it lists none (R52). -/
def denseElems (size : Nat) (t : Tile) : List Nat :=
  if t.hdr.sparse then
    let ps := tileElems size t
    (List.range (denseCap size)).map (fun j => (lookup j ps).getD 0)
  else (tileElems size t).map (·.2)

/-- A marker standing in for a tile (R79): same header, MARKER and POISON set, the cause, no payload. -/
def markerOf (h : TileHdr) (cause : Nat) : Tile :=
  { hdr := { h with marker := true, poison := true, poisonCause := cause }, payload := [] }

/-- Poison a tile: POISON, the cause and a zero payload (R73). -/
def poisonTile (t : Tile) (cause : Nat) : Tile :=
  { hdr := { t.hdr with poison := true, poisonCause := cause }, payload := [] }

/-- A tile as its 65,600 bytes (R56, R63). -/
def tileBytes (t : Tile) : List Byte := hdrBytes t.hdr ++ padTo 65536 t.payload

/-- A signed integer from a ring element of Z/2^w or GF(p) (R44). -/
def ringSigned (r : Ring) (e : Nat) : Int := if 2 * e < r.m then (e : Int) else (e : Int) - r.m

/-- A bin handle (Table 05.3): owning tenant, bay, index, generation. -/
structure Handle where
  part : Nat
  bay : BayId
  index : Nat
  gen : Nat
  deriving DecidableEq, Repr

/-- Read a handle. -/
def parseHandle (w : W32) : Handle where
  part := bitsOf w.toNat 31 28
  bay := ⟨bitsOf w.toNat 27 24 % 16, Nat.mod_lt _ (by decide)⟩
  index := bitsOf w.toNat 23 12
  gen := bitsOf w.toNat 11 0

/-- Write a handle. -/
def handleWord (part : Nat) (bay : BayId) (index gen : Nat) : W32 :=
  word32 (part * 2 ^ 28 + bay.1 * 2 ^ 24 + index * 2 ^ 12 + gen)

/-- The generation after `g`: 4,095 is followed by 1 (R113, R130). -/
def nextGen (g : Nat) : Nat := if g = 4095 then 1 else g + 1

end Sys2Proof.Machine
end

