-- ==== Sys2Proof/Machine/Ops.lean ====
section
/-! DEFINITION. The named operations over State that the families share: places, daybook events, credits and tokens, completions. -/

namespace Sys2Proof.Machine

/-! ## Places -/

def getBay (s : State) (b : BayId) : Bay := s.bays[b]
def modBay (s : State) (b : BayId) (f : Bay → Bay) : State := { s with bays := vmod s.bays b f }
def modMem (s : State) (b : BayId) (f : BayMem → BayMem) : State := modBay s b (fun y => { y with mem := f y.mem })
def getCore (s : State) (c : CoreId) : Core := s.bays[c.bay].cores[c.core]
def modCore (s : State) (c : CoreId) (f : Core → Core) : State :=
  modBay s c.bay (fun y => { y with cores := vmod y.cores c.core f })

/-- The control state of one station instance (R77). -/
def getSt (s : State) : StationRef → Station
  | .bay b .bin => s.bays[b].bin
  | .bay b .msk => s.bays[b].msk
  | .bay b .shr => s.bays[b].shr
  | .bay b .lat => s.bays[b].lat
  | .bay b .nse => s.bays[b].nse
  | .bay b .rls => s.bays[b].rls
  | .core c => (getCore s c).ctl
  | .trn => s.trn.ctl
  | .red => s.red.ctl

def modSt (s : State) (r : StationRef) (f : Station → Station) : State :=
  match r with
  | .bay b .bin => modBay s b (fun y => { y with bin := f y.bin })
  | .bay b .msk => modBay s b (fun y => { y with msk := f y.msk })
  | .bay b .shr => modBay s b (fun y => { y with shr := f y.shr })
  | .bay b .lat => modBay s b (fun y => { y with lat := f y.lat })
  | .bay b .nse => modBay s b (fun y => { y with nse := f y.nse })
  | .bay b .rls => modBay s b (fun y => { y with rls := f y.rls })
  | .core c => modCore s c (fun k => { k with ctl := f k.ctl })
  | .trn => { s with trn := { s.trn with ctl := f s.trn.ctl } }
  | .red => { s with red := { s.red with ctl := f s.red.ctl } }

def getPart (s : State) (p : TenantId) : Partition := s.rot.parts[p]
def modPart (s : State) (p : TenantId) (f : Partition → Partition) : State :=
  { s with rot := { s.rot with parts := vmod s.rot.parts p f } }

/-- The bay of a station, none for Intake and Reduce. -/
def stBay : StationRef → Option BayId
  | .bay b _ => some b
  | .core c => some c.bay
  | .trn => none
  | .red => none

/-- The page of a station (Tables 15.2 and 15.3). -/
def stPage : StationRef → Page
  | .bay b k => .st b k
  | .core c => .core c
  | .trn => .trn
  | .red => .red

/-- The partition a station serves (R19): its bay's owner, management for the hub pages. -/
def stOwner (s : State) (r : StationRef) : PartId :=
  match stBay r with
  | some b => s.bays[b].owner
  | none => mgmt

/-- All stations of a bay. -/
def bayStations (b : BayId) : List StationRef :=
  [.bay b .bin, .bay b .msk, .bay b .shr, .bay b .lat, .bay b .nse, .bay b .rls] ++ allCores.map (fun c => .core ⟨b, c⟩)

/-- Does the partition exist: the management partition does, a tenant does while it is not FREE (R334)? -/
def partExists (s : State) (p : PartId) : Bool :=
  match partTenant p with
  | none => true
  | some t => s.rot.parts[t].state != .free

/-- The bays a partition holds. -/
def baysOf (s : State) (p : PartId) : List BayId := allBays.filter (fun b => s.bays[b].owner == p)

def holdsBay (s : State) (p : PartId) (b : BayId) : Bool := s.bays[b].owner == p

/-- The job of a partition. -/
def jobOfPart (s : State) (p : PartId) : Option Job := (partTenant p).bind (fun t => s.rot.parts[t].job)

/-- The modulus table of the job that a structure names, empty when the partition has no such job (R29). -/
def modsOf (s : State) (p : PartId) (job : W32) : List Nat :=
  match jobOfPart s p with
  | some j => if j.job = job then j.moduli else []
  | none => []

/-- The page's owner (Table 15.6). -/
def pageOwner (s : State) : Page → PartId
  | .qm p => p
  | .dbk p => p
  | .view n => tenantPart n
  | .bay b => s.bays[b].owner
  | .mem b => s.bays[b].owner
  | .st b _ => s.bays[b].owner
  | .core c => s.bays[c.bay].owner
  | _ => mgmt

/-- The block type and instance of a page (Tables 15.2 and 15.3). -/
def pageType : Page → Nat × Nat
  | .dev => (1, 0) | .pwr => (2, 0) | .clk => (3, 0) | .alm => (4, 0) | .sch => (5, 0) | .rtp => (6, 0)
  | .rng => (7, 0) | .nvm => (8, 0) | .part => (9, 0) | .qm _ => (0xA, 0) | .eth p => (0xB, p.1)
  | .lane p => (0xC, p.1) | .trn => (0xD, 0) | .win => (0xE, 0) | .zld => (0xF, 0) | .red => (0x10, 0)
  | .cxl => (0x11, 0) | .dbk _ => (0x12, 0) | .dbg => (0x13, 0) | .thm => (0x14, 0) | .lvl => (0x15, 0)
  | .view _ => (0x16, 0)
  | .bay b => (0x8000 + b.1 * 0x100, 0)
  | .mem b => (0x8001 + b.1 * 0x100, 0)
  | .st b .bin => (0x8002 + b.1 * 0x100, 0)
  | .st b .msk => (0x8003 + b.1 * 0x100, 0)
  | .st b .shr => (0x8004 + b.1 * 0x100, 0)
  | .st b .lat => (0x8005 + b.1 * 0x100, 0)
  | .st b .nse => (0x8006 + b.1 * 0x100, 0)
  | .st b .rls => (0x8007 + b.1 * 0x100, 0)
  | .core c => (0x8010 + c.bay.1 * 0x100, c.core.1)

/-- PG_ID (Table 15.5). -/
def pgId (p : Page) : W32 := word32 ((pageType p).1 * 0x10000 + (pageType p).2 * 0x100 + 1)

/-- The tenant's running image. -/
def runningImage (s : State) (p : PartId) : Option Image := (partTenant p).bind (fun t => s.sch.parts[t].running)

/-- The pipelines of the running image in a bay. -/
def imagePipes (s : State) (b : BayId) : List PipeDesc :=
  match runningImage s s.bays[b].owner with
  | some i => (i.pipes.filter (fun p => p.1 == b.1)).map (·.2)
  | none => []

/-! ## The bay store: SRAM with written-since-assignment bits (R62) -/

abbrev storeSize : Nat := 48234496
abbrev localSize : Nat := 1048576

def lineAddr (a : Nat) : Nat := a / 64 * 64

/-- Put the `n` line numbers from `l` into a rising list of them. -/
def markLines (w : List Nat) (l n : Nat) : List Nat := w.filter (· < l) ++ List.range' l n ++ w.filter (l + n ≤ ·)

/-- How many lines a span touches. -/
def lineCount (a n : Nat) : Nat := if n = 0 then 0 else (a + n - 1) / 64 - a / 64 + 1

/-- Write bytes to the bay store: the lines' written bits are set. -/
def storeWrite (m : BayMem) (a : Nat) (bs : List Byte) : BayMem :=
  { m with store := memWrite m.store a bs, storeWritten := markLines m.storeWritten (a / 64) (lineCount a bs.length) }

/-- Clear the written bits of the lines of a span, so that they read zero. -/
def storeClear (m : BayMem) (a n : Nat) : BayMem :=
  { m with store := memZero m.store a n, storeWritten := m.storeWritten.filter (fun l => 64 * l < a || a + n ≤ 64 * l) }

/-- The bay-store byte address of a slot of a pool (R63). -/
def slotAddr (ip : InPort) (slot : Nat) : Nat := ip.poolBase * 64 + slot * 65600

/-- The lines of a slot as the tile's producer leaves them: for a data tile all 1,025, for a marker the header line alone (R64). -/
def slotWrite (m : BayMem) (a : Nat) (t : Tile) : BayMem :=
  if t.hdr.marker then storeWrite m a (hdrBytes t.hdr)
  else { m with store := memWrite (memZero m.store a 65600) a (hdrBytes t.hdr ++ t.payload.take 65536),
                storeWritten := markLines m.storeWritten (a / 64) 1025 }

/-! ## Time and free values -/

/-- The almanac count T (R263). -/
def now (s : State) : W64 := s.alm.t

/-- Has at least `ns` passed since `since`? -/
def elapsed (s : State) (since : W64) (ns : Nat) : Bool := ns ≤ (s.alm.t - since).toNat

/-- The next free value, below `n` (0 when n is 0): notes/assumptions/8.md. -/
def drawFree (s : State) (n : Nat) : Nat × State := (Config.freeNat s.free % n, { s with free := s.free + 1 })

/-- May an event limited to one each `ns` happen now? -/
def rateOk (s : State) (k : RateKey) (ns : Nat) : Bool :=
  match lookup k s.rates with
  | some t => elapsed s t ns
  | none => true

def rateMark (s : State) (k : RateKey) : State :=
  { s with rates := (k, s.alm.t) :: s.rates.filter (fun p => p.1 != k) }

/-- What leaves the package. -/
def emitOut (s : State) (o : Output) : State := { s with out := s.out ++ [o] }

/-! ## Daybook events (16) -/

/-- The daybook an event goes to: the management one for a partition that does not exist (R437). -/
def dbkOf (s : State) (p : PartId) : PartId := if partExists s p then p else mgmt

/-- Raise an event for one partition's daybook (R429 to R432, R434): it enters the daybook unit's input buffer. -/
def logEv (s : State) (p : PartId) (src : Page) (code : Nat) (d0 d1 d2 d3 : Nat) : State :=
  { s with dbkIn := s.dbkIn ++ [(dbkOf s p,
      { time := s.alm.t, source := pgId src, code := code, part := (dbkOf s p).1, sev := severityOf code d0,
        d0 := word32 d0, d1 := word32 d1, d2 := word32 d2, d3 := word32 d3 })] }

/-- Raise one device-wide event in several daybooks, partition 0xFF (R431). -/
def logWide (s : State) (ps : List PartId) (src : Page) (code : Nat) (d0 d1 d2 d3 : Nat) : State :=
  { s with dbkIn := s.dbkIn ++ ps.map (fun p => (p,
      { time := s.alm.t, source := pgId src, code := code, part := 0xFF, sev := severityOf code d0,
        d0 := word32 d0, d1 := word32 d1, d2 := word32 d2, d3 := word32 d3 })) }

/-- An event of a station, form S (Table 16.3): port 0 to 15, stream, first ordinal affected, job, d3. -/
def logStream (s : State) (r : StationRef) (code port stream ordinal job d3 : Nat) : State :=
  logEv s (stOwner s r) (stPage r) code (port * 0x10000 + stream % 0x10000) ordinal job d3

/-- The tenant partitions that exist. -/
def tenantsLive (s : State) : List PartId :=
  (allTenants.filter (fun p => s.rot.parts[p].state != .free)).map tenantPart

/-! ## Slots, credits and tokens (R65) -/

def getIn (s : State) (r : StationRef) (p : PortId) : InPort := (getSt s r).ins[p]
def getOut (s : State) (r : StationRef) (p : PortId) : OutPort := (getSt s r).outs[p]
def modIn (s : State) (r : StationRef) (p : PortId) (f : InPort → InPort) : State :=
  modSt s r (fun x => { x with ins := vmod x.ins p f })
def modOut (s : State) (r : StationRef) (p : PortId) (f : OutPort → OutPort) : State :=
  modSt s r (fun x => { x with outs := vmod x.outs p f })

/-- The credits an output port holds: those of its consumer's pool that its producer has (R65). -/
def outCredits (s : State) (r : StationRef) (n : PortId) : Nat :=
  match (getOut s r n).cons with
  | some (c, p) => (getIn s c p).avail
  | none => 0

/-- Spend one credit of a pool: a free slot of it becomes busy. Which one is a free value (R65 names none). -/
def spendSlot (s : State) (c : StationRef) (p : PortId) : Nat × State :=
  let ip := getIn s c p
  let fr := (List.range ip.pool).filter (fun k => !ip.busy.contains k)
  let d := drawFree s fr.length
  let slot := fr.getD d.1 0
  (slot, modIn d.2 c p (fun x => { x with avail := x.avail - 1, busy := x.busy ++ [slot] }))

/-- Spend a credit of an output port; none where it has none. -/
def spendCredit (s : State) (r : StationRef) (n : PortId) : Option (Nat × State) :=
  match (getOut s r n).cons with
  | some (c, p) => if (getIn s c p).avail = 0 then none else some (spendSlot s c p)
  | none => none

/-- Write the stream and ordinal of an output connection into a tile (R59) and step its ordinal. -/
def stampOut (s : State) (r : StationRef) (n : PortId) (t : Tile) : Tile × State :=
  let o := getOut s r n
  ({ t with hdr := { t.hdr with stream := o.stream, ordinal := o.nextOrd } },
   modOut s r n (fun x => { x with nextOrd := if t.hdr.last then 0 else x.nextOrd + 1,
                                   ended := if t.hdr.last then x.logged else x.ended,
                                   logged := if t.hdr.last then [] else x.logged }))

/-- Write a tile into its slot of the pool at port `p` of station `c`: in the consumer's bay; the pools of Intake's connections and of
the hub's ports lie in hub staging (R63, R64). -/
def fillSlot (s : State) (r c : StationRef) (p : PortId) (t : Token) : State :=
  match stBay c with
  | some b => if r = .trn then s else modMem s b (fun m => slotWrite m (slotAddr (getIn s c p) t.slot) t.tile)
  | none => s

/-- Pass a token: its slot is written, it crosses to the consumer, and the port counts it (R64, R65, R81). -/
def passTok (s : State) (r : StationRef) (n : PortId) (t : Token) : State :=
  let s1 := modOut s r n (fun x => { x with tiles := x.tiles + 1, poisons := if t.tile.hdr.poison then x.poisons + 1 else x.poisons })
  match (getOut s r n).cons with
  | some (c, p) =>
    let s2 := fillSlot s1 r c p t
    { s2 with tokFlight := s2.tokFlight ++ [(c, p, t)] }
  | none => s1

/-- Is the station under DRAIN_REQ, so that it grants no new credit (Table 03.8)? -/
def withholds (x : Station) : Bool := x.st == .draining

/-- Return the credit of a consumed slot; while the station drains the slot only becomes free (R65, Table 03.8). -/
def returnSlot (s : State) (r : StationRef) (p : PortId) (slot : Nat) : State :=
  if withholds (getSt s r) then modIn s r p (fun x => { x with busy := x.busy.erase slot })
  else { s with credFlight := s.credFlight ++ [(r, p, slot)] }

/-- Grant every free slot of every connected input pool to its producer (Table 03.8). -/
def grantPools (s : State) (r : StationRef) : State :=
  modSt s r (fun x => { x with ins := vmap x.ins (fun ip =>
    if ip.conn then { ip with avail := ip.pool - ip.busy.length } else ip) })

/-- Are tokens held on any input port? -/
def anyHeld (x : Station) : Bool := x.ins.toList.any (fun ip => !ip.held.isEmpty)

/-- Does a held token of the station leave by output port `n`, so that it may wait for its credit (R66, R77)? A Noise tile that waits
for its seed does not wait for a credit; a core's tokens leave by the ports that its FIRE names; Bin and Release pass no held
token on. -/
def leavesBy (s : State) (r : StationRef) (n : PortId) : Bool :=
  let x := getSt s r
  let held (p : Nat) : Bool := match finOpt 8 p with
    | some q => !(x.ins[q]).held.isEmpty
    | none => false
  match r with
  | .bay b .nse => s.bays[b].noise.streams.any (fun y => y.mode == 1 && y.out == 8 + n.1 && held y.inPort &&
      s.bays[b].noise.seeds.any (fun o => o.job == y.job))
  | .bay b .lat => s.bays[b].lattice.pipes.any (fun p => p.d.out == 8 + n.1 && (held p.d.inA || held p.d.inB || held p.d.inS))
  | .bay _ .msk => anyHeld x
  | .core c => (match (getCore s c).run with
      | .waitFire i o => bitOf o n.1 && allPorts.all (fun p => !bitOf i p.1 || !(x.ins[p]).held.isEmpty)
      | _ => false)
  | _ => false

/-- Note since when a held token waits for the credit of each output port (R77, STALL). -/
def updWait (s : State) (r : StationRef) : State :=
  let x := getSt s r
  let waits := allPorts.map (fun n => x.firing.isNone && (x.outs[n]).conn && outCredits s r n == 0 && leavesBy s r n)
  modSt s r (fun y => { y with
    stall := y.stall && anyHeld x && x.firing.isNone,
    outs := vmapIdx y.outs (fun i o => { o with waitSince := if waits.getD i false then some (o.waitSince.getD s.alm.t) else none }) })

/-! ## Checks on a tile that a station takes (R57, R59, R67, R443) -/

/-- The causes, in the order of R443, that the header and the port give a tile: MALFORMED_HEADER, JOB_MISMATCH, SEQUENCE. -/
def portCauses (s : State) (r : StationRef) (p : PortId) (t : Tile) : List Nat :=
  let ip := getIn s r p
  let mods := modsOf s (stOwner s r) t.hdr.job
  (if hdrOk mods t.hdr then [] else [codeMalformedHeader]) ++
  (if ip.job = t.hdr.job then [] else [codeJobMismatch]) ++
  (if ip.unord || (t.hdr.ordinal == ip.nextOrd && !ip.seqBad) then [] else [codeSequence])

/-- Does the station process the payload of a tile: not of a poisoned one, nor of one whose header is not well-formed (R67, R74)? -/
def readsPayload (s : State) (r : StationRef) (t : Tile) : Bool := !t.hdr.poison && hdrOk (modsOf s (stOwner s r) t.hdr.job) t.hdr

/-- Choose poison_cause (R443): the copied cause, else MALFORMED_HEADER, JOB_MISMATCH, SEQUENCE, MISFIT, else the first of
the remaining ones in the order given. -/
def pickCause (copied : Option Nat) (created : List Nat) : Option Nat :=
  match copied with
  | some c => some c
  | none =>
    match [codeMalformedHeader, codeJobMismatch, codeSequence, codeMisfit].find? (fun c => created.contains c) with
    | some c => some c
    | none => created.head?

/-- Take the front token of an input port: the port's ordinal moves on, and LAST ends the stream (R59). -/
def takeTok (s : State) (r : StationRef) (p : PortId) : Option (Token × State) :=
  match (getIn s r p).held with
  | [] => none
  | t :: rest =>
    some (t, modIn s r p (fun x => { x with
      held := rest,
      nextOrd := if t.tile.hdr.last then 0 else x.nextOrd + 1,
      seqBad := if t.tile.hdr.last then false else x.seqBad || (!x.unord && t.tile.hdr.ordinal != x.nextOrd) }))

/-- Write one entry for each created cause that has none yet on the stream of an input port (R73, R443). Call it before `takeTok`. -/
def logCauses (s : State) (r : StationRef) (p : PortId) (t : Tile) (causes : List Nat) : State :=
  let ip := getIn s r p
  let fresh := causes.dedup.filter (fun c => !ip.logged.contains c)
  let s1 := fresh.foldl (fun a c => logStream a r c p.1 ip.stream t.hdr.ordinal t.hdr.job.toNat 0) s
  modIn s1 r p (fun x => { x with logged := if t.hdr.last then [] else x.logged ++ fresh })

/-- The same for a cause found on an output stream. -/
def logOutCause (s : State) (r : StationRef) (n : PortId) (t : Tile) (cause d3 : Nat) : State :=
  let o := getOut s r n
  if o.logged.contains cause then s
  else modOut (logStream s r cause (8 + n.1) o.stream o.nextOrd t.hdr.job.toNat d3) r n (fun x => { x with logged := x.logged ++ [cause] })

/-- Entries for causes found on an input tile whose poison leaves by one output port: they name that output's stream (R73); without
an output they name the input's. -/
def logMade (s : State) (r : StationRef) (p : PortId) (out : Option PortId) (t : Tile) (causes : List Nat) : State :=
  match out with
  | some n => causes.dedup.foldl (fun a c => logOutCause a r n t c 0) s
  | none => logCauses s r p t causes

/-- Stamp a tile, spend the credit of an output port and hand the slot to the firing. None where there is no credit. -/
def reserveOut (s : State) (r : StationRef) (n : PortId) (t : Tile) (origin : Option MsgRef) : Option (PortId × Token × State) :=
  match spendCredit s r n with
  | none => none
  | some (slot, s1) =>
    let st := stampOut s1 r n t
    some (n, { tile := st.1, slot := slot, origin := origin }, st.2)

/-- Reserve several outputs; none unless each port has a credit. -/
def reserveOuts (s : State) (r : StationRef) : List (PortId × Tile) → Option (List (PortId × Token) × State)
  | [] => some ([], s)
  | (n, t) :: rest =>
    match reserveOut s r n t none with
    | none => none
    | some (k, tok, s1) =>
      match reserveOuts s1 r rest with
      | none => none
      | some (l, s2) => some ((k, tok) :: l, s2)

/-- May the instance start a firing (Table 03.8)? -/
def canFire (x : Station) : Bool :=
  x.ready && x.enA && x.firing.isNone && !x.abortA && (x.st == .idle || x.st == .busy || x.st == .draining)

/-- Is the stack of a bay in self-refresh, or about to enter it (R72)? -/
def stackAsleep (s : State) (b : BayId) : Bool := s.bays[b].mem.selfRefresh || s.bays[b].mem.selfRefreshWanted

/-- Do the shed stage and the trip in force let a station start work (Table 13.4, R372)? Mask stations pause in stage 2, cores in
stage 3; the stations that work on the stack wait while it is in self-refresh; a trip stops every bay clock. -/
def stageLets (s : State) : StationRef → Bool
  | .bay _ .msk => !s.pow.trip && decide (s.pow.stage < 2)
  | .bay b .bin => !s.pow.trip && !stackAsleep s b
  | .bay b .shr => !s.pow.trip && !stackAsleep s b
  | .bay b .rls => !s.pow.trip && !stackAsleep s b
  | .bay _ _ => !s.pow.trip
  | .core _ => !s.pow.trip && decide (s.pow.stage < 3)
  | .trn => true
  | .red => true

/-- May a station start work now? -/
def mayFire (s : State) (r : StationRef) : Bool := canFire (getSt s r) && stageLets s r

/-! ## The choice among input ports (R66) -/

/-- May the station serve port `p` next, beside the other ports that it could serve now? No port is passed over by another more than
twice that port's weight: notes/assumptions/7.md. -/
def inTurn (s : State) (r : StationRef) (p : PortId) (ready : List PortId) : Bool :=
  ready.all (fun q => q == p || decide (((getSt s r).turns.filter (· == (q.1, p.1))).length < 2 * max 1 (getIn s r p).weight))

/-- The input ports that hold a token. -/
def heldPorts (s : State) (r : StationRef) : List PortId := allPorts.filter (fun p => !(getIn s r p).held.isEmpty)

/-- Port `p` is served: it waits afresh, and every other port that could have been served has been passed over once more. -/
def noteTurn (s : State) (r : StationRef) (p : PortId) (ready : List PortId) : State :=
  let others := ready.filter (· != p)
  modSt s r (fun x =>
    { x with turns := x.turns.filter (fun t => others.any (fun q => q.1 == t.1)) ++ others.map (fun q => (q.1, p.1)) })

/-- Start a firing (R66): the state becomes BUSY unless the station drains; STALL clears. -/
def startFiring (s : State) (r : StationRef) (ins outs : List (PortId × Token)) : State :=
  modSt s r (fun x => { x with firing := some { ins := ins, outs := outs }, stall := false,
                               st := if x.st == .draining then .draining else .busy })

/-- The state after a firing ends: DRAINING stays, EN cleared gives PAUSED, else IDLE (Table 03.8). -/
def afterFiring (x : Station) : StState :=
  if x.st == .busy then (if x.enA then .idle else .paused) else x.st

/-- Write a marker into the slot of an output port and pass it, with the header given (R79). None without a credit. -/
def passMarker (s : State) (r : StationRef) (n : PortId) (h : TileHdr) (cause : Nat) : Option State :=
  match reserveOut s r n (markerOf h cause) none with
  | none => none
  | some (k, tok, s1) => some (passTok s1 r k tok)

/-! ## Command completions (R324, R325) -/

/-- A command completes: it leaves the list of commands in flight, and its completion waits to be written, unless an FLR has
taken its queue away (R318). -/
def complete (s : State) (h : CmdHdr) (status : Nat) (result : List Byte) : State :=
  let q := { s.qm with inFlight := s.qm.inFlight.erase h }
  if s.qm.dead.contains h then { s with qm := { q with dead := s.qm.dead.erase h } }
  else { s with qm := { q with held := s.qm.held ++ [{ h := h, status := status, result := result }] } }

/-- No line of a read is found faulty. A command that waits in the list of dispatched commands carries this in place of the reads'
outcome, which comes with the row that runs it (log 3). -/
def noFaults : LineFaults := { ue := [], ce := 0 }

/-- A queue command begins: it leaves the list of dispatched commands. -/
def begun (s : State) (i : Instr) : State := { s with qm := { s.qm with dispatched := s.qm.dispatched.erase i } }

/-- The tenant that issued a command, none for the management partition. -/
def issuer (h : CmdHdr) : Option TenantId := partTenant h.part

end Sys2Proof.Machine
end

