-- ==== Sys2Proof/Machine/Almanac.lean ====
section
/-! DEFINITION. The almanac: its tick, the 1PPS loop and its states (R263 to R269, R299). -/

namespace Sys2Proof.Machine

/-- Does the partition run a slot program (R271): a running image whose period is not zero? -/
def runsSlots (p : SchPart) : Bool :=
  (p.state == .running || p.state == .swapPending) && !p.halted &&
    (match p.running with
     | some i => i.period != 0
     | none => false)

/-- The tenants that run a slot program. -/
def slotTenants (s : State) : List PartId :=
  (allTenants.filter (fun p => runsSlots s.sch.parts[p])).map tenantPart

/-- One unit of the trim accumulator: 10^9 ticks of 1/256 ppb (R263, R266). -/
abbrev trimUnit : Int := 256000000000

/-- One tick of the almanac clock: T moves by 0, 1 or 2, single increments spread evenly by the trim (R263). -/
def almTick (a : Alm) : Alm :=
  let acc := a.trimAcc + a.trim
  if trimUnit ≤ acc then { a with t := a.t + 2, trimAcc := acc - trimUnit }
  else if acc ≤ -trimUnit then { a with trimAcc := acc + trimUnit }
  else { a with t := a.t + 1, trimAcc := acc }

/-- The state after one tick of an idle block: notes/assumptions/2.md. -/
def idle (s : State) : State := if s.pow.inReset then s else { s with alm := almTick s.alm }

def clampInt (lo hi x : Int) : Int := max lo (min hi x)

/-- The phase error of an edge at count `c` (R264). -/
def phaseError (ppsOff : Int) (c : W64) : Int := ((c.toNat : Int) - ppsOff + 500000000) % 1000000000 - 500000000

/-- The loop of R266. -/
def almLoop (a : Alm) (e : Int) : Alm :=
  let integ := clampInt (-12800000) 12800000 (a.integ + e)
  { a with integ := integ, trim := clampInt (-51200000) 51200000 (-64 * e - 4 * integ) }

/-- T jumps: what is kept of the last edge moves with it, so that the time since that edge stays what it was (R265). -/
def almJump (a : Alm) (t : W64) : Alm :=
  { a with t := t, lastAcc := a.lastAcc.map (fun x => x + (t - a.t)), lastPulseC := a.lastPulseC.map (fun x => x + (t - a.t)) }

/-- A step: T − e, integ 0, the trim unchanged (R267). -/
def almStep (a : Alm) (e : Int) : Alm := { almJump a (BitVec.ofInt 64 ((a.t.toNat : Int) - e)) with integ := 0 }

/-- The uncertainty bound u, saturating (R268). -/
def almUncert (a : Alm) : Nat :=
  let base := a.uLast.getD 0xFFFFFFFF
  match a.state with
  | .free => 0xFFFFFFFF
  | .holdover => min 0xFFFFFFFF (base + ceilDiv ((a.t - a.holdSince).toNat * a.holdPpb.toNat) 1000000000)
  | _ => min 0xFFFFFFFF base

/-- An armed set: T becomes ALM_SET_SEC seconds and ALM_PPS_OFF, and SET clears (R269). -/
def almSetApply (a : Alm) : Alm :=
  { almJump a (BitVec.ofInt 64 ((a.setSec.toNat : Int) * 1000000000 + a.ppsOff)) with set := false }

/-- What an accepted edge does to the clock: an armed set while no slot program runs, a step where the table says so, else the
loop. The bound u is |e| + 4 (R266 to R269). -/
def almAccept (a : Alm) (e : Int) (slots mayStep : Bool) : Alm :=
  let a := { a with pulses := a.pulses + 1, missed := 0, outliers := 0, uLast := some (e.natAbs + 4), lastAcc := some a.t,
                    lastPulseC := some a.t }
  if a.set && !slots then almSetApply a
  else if mayStep && !slots && 1000 < e.natAbs then almStep a e
  else almLoop a e

def satInc (n : Nat) : Nat := min 255 (n + 1)

/-- The daybooks of PPS_LOST and PPS_RESTORED: management and every partition running a slot program (Table 16.6). -/
def ppsBooks (s : State) : List PartId := mgmt :: slotTenants s

/-- Has the last accepted edge been at least 500 ms ago (R265)? -/
def edgeFar (a : Alm) : Bool :=
  match a.lastAcc with
  | some t => 500000000 ≤ (a.t - t).toNat
  | none => true

/-- One edge in each state of Table 10.1, the capture done. -/
def ppsStep (s : State) (e : Int) : State :=
  let slots := !(slotTenants s).isEmpty
  let a := s.alm
  match a.state with
  | .free => s
  | .locked =>
    if e.natAbs ≤ 1000 then { s with alm := almAccept a e slots false }
    else if a.outliers + 1 < 4 then { s with alm := { a with outliers := satInc a.outliers } }
    else logEv { s with alm := { a with outliers := satInc a.outliers, state := .acquire, good := 0 } } mgmt .alm codePpsOutlier 0 e.natAbs 0 0
  | .acquire =>
    if edgeFar a then
      let b := almAccept a e slots true
      let good := if e.natAbs ≤ 50 then a.good + 1 else 0
      { s with alm := if 4 ≤ good then { b with state := .locked, good := 0 } else { b with good := good } }
    else { s with alm := { a with outliers := satInc a.outliers } }
  | .holdover =>
    if edgeFar a then
      logWide { s with alm := { almAccept a e slots false with state := .acquire, good := 0 } } (ppsBooks s) .alm codePpsRestored 0 0 0 0
    else { s with alm := { a with outliers := satInc a.outliers } }

/-- Did an edge step the counter (R267)? -/
def didStep (a : Alm) (e : Int) (slots : Bool) : Bool :=
  a.state == .acquire && edgeFar a && !(a.set && !slots) && !slots && decide (1000 < e.natAbs)

/-- PPS_EDGE (R264): capture c = T − 8 and e, then Table 10.1. -/
def execPpsEdge (s : State) : Res :=
  .next (if s.pow.inReset then s else
    let c := s.alm.t - 8
    let e := phaseError s.alm.ppsOff c
    let s1 := { s with alm := { s.alm with cap := c, phase := e } }
    let s2 := ppsStep s1 e
    if didStep s.alm e (!(slotTenants s).isEmpty) then logEv s2 mgmt .alm codeAlmStep 0 (wrapInt 32 e) 0 0 else s2)

/-- The expected window has passed, and neither an edge nor a miss has closed it (R265). -/
def windowPassed (a : Alm) : Bool :=
  let ph := (((a.t.toNat : Int) - a.ppsOff) % 1000000000).toNat
  1000 < ph &&
    (match a.lastPulseC with
     | some t => ph + 1000 < (a.t - t).toNat
     | none => true)

/-- PPS_WINDOW_MISSED (R265): in LOCKED, a missed pulse; the third in a row enters HOLDOVER with the trim frozen. -/
def execPpsWindowMissed (s : State) : Res :=
  .next (if s.pow.inReset || s.alm.state != .locked || !windowPassed s.alm then s else
    let a := { s.alm with missed := satInc s.alm.missed, lastPulseC := some s.alm.t }
    if a.missed < 3 then { s with alm := a }
    else logWide { s with alm := { a with state := .holdover, holdSince := a.t } } (ppsBooks s) .alm codePpsLost 0 0 0 0)

/-- A write of MODE (Table 10.1); reserved values keep the mode (notes/assumptions/14.md). -/
def almModeEff (s : State) (mode : Nat) : State :=
  if mode = 0 then { s with alm := { s.alm with mode := 0, state := .free, trim := 0 } }
  else if mode = 1 then
    (if s.alm.mode = 1 then s
     else { s with alm := { s.alm with mode := 1, state := .acquire, integ := 0, good := 0, missed := 0, outliers := 0 } })
  else s

/-- A write of SET: 1 arms a set, 0 disarms it (R269). -/
def almSetEff (s : State) (on : Bool) : State := { s with alm := { s.alm with set := on } }

/-- ALM_TIME_READ (R299): latch T and return both halves (R417). -/
def execAlmTimeRead (s : State) : Res :=
  .next (emitOut { s with alm := { s.alm with timeLatch := s.alm.t } } (.readData (leBytes 8 s.alm.t.toNat) false))

/-- ALM_CAP_READ (R299): latch c of the last edge and return both halves. -/
def execAlmCapRead (s : State) : Res :=
  .next (emitOut { s with alm := { s.alm with capLatch := s.alm.cap } } (.readData (leBytes 8 s.alm.cap.toNat) false))

end Sys2Proof.Machine
end

