-- ==== Sys2Proof/Machine/Keccak.lean ====
section
/-! DEFINITION. Keccak and the functions built on it that the spec names: SHAKE256, SHA3-256, cSHAKE128 and KMAC256
(FIPS 202, SP 800-185; the spec names the standards, notes/assumptions/10.md). -/

namespace Sys2Proof.Machine

/-- A Keccak state: 25 lanes, lane x + 5y. -/
abbrev Lanes := List W64

def laneAt (a : Lanes) (i : Nat) : W64 := a.getD i 0

/-- Round constants. -/
def keccakRc : List W64 :=
  [0x1, 0x8082, 0x800000000000808A, 0x8000000080008000, 0x808B, 0x80000001, 0x8000000080008081, 0x8000000000008009, 0x8A, 0x88, 0x80008009, 0x8000000A] ++
  [0x8000808B, 0x800000000000008B, 0x8000000000008089, 0x8000000000008003, 0x8000000000008002, 0x8000000000000080, 0x800A, 0x800000008000000A, 0x8000000080008081, 0x8000000000008080, 0x80000001, 0x8000000080008008]

/-- Rotation offsets of lane x + 5y. -/
def keccakRot : List Nat := [0, 1, 62, 28, 27, 36, 44, 6, 55, 20, 3, 10, 43, 25, 39, 41, 45, 15, 21, 8, 18, 2, 61, 56, 14]

/-- One round: theta, rho and pi, chi, iota. -/
def keccakRound (a : Lanes) (rc : W64) : Lanes :=
  let c := (List.range 5).map (fun x => laneAt a x ^^^ laneAt a (x + 5) ^^^ laneAt a (x + 10) ^^^ laneAt a (x + 15) ^^^ laneAt a (x + 20))
  let d := (List.range 5).map (fun x => laneAt c ((x + 4) % 5) ^^^ (laneAt c ((x + 1) % 5)).rotateLeft 1)
  let t := a.mapIdx (fun i v => v ^^^ laneAt d (i % 5))
  let b := (List.range 25).map (fun i =>
    let x := i % 5
    let y := i / 5
    let src := (x + 3 * y) % 5 + 5 * x
    (laneAt t src).rotateLeft (keccakRot.getD src 0))
  (List.range 25).map (fun i =>
    let x := i % 5
    let y := i / 5
    let v := laneAt b i ^^^ (~~~(laneAt b ((x + 1) % 5 + 5 * y)) &&& laneAt b ((x + 2) % 5 + 5 * y))
    if i = 0 then v ^^^ rc else v)

/-- Keccak-f[1600]. -/
def keccakF (a : Lanes) : Lanes := keccakRc.foldl keccakRound a

/-- XOR one block of `rate` bytes into the state. -/
def absorbBlock (a : Lanes) (blk : List Byte) : Lanes :=
  keccakF (a.mapIdx (fun i v => v ^^^ word64 (fieldN blk (8 * i) 8)))

/-- The padded message: the suffix byte, zeros, and the final bit (pad10*1). -/
def keccakPad (rate : Nat) (suffix : Byte) (msg : List Byte) : List Byte :=
  let k := rate - 1 - msg.length % rate
  if k = 0 then msg ++ [suffix ||| 0x80] else msg ++ [suffix] ++ List.replicate (k - 1) 0 ++ [0x80]

/-- `n` bytes squeezed (fuel: the number of blocks). -/
def squeeze (rate : Nat) : Nat → Lanes → Nat → List Byte
  | 0, _, _ => []
  | f + 1, a, n =>
    let blk := (a.flatMap (fun v => leBytes 8 v.toNat)).take rate
    if n ≤ rate then blk.take n else blk ++ squeeze rate f (keccakF a) (n - rate)

/-- The sponge with rate in bytes and domain suffix. -/
def sponge (rate : Nat) (suffix : Byte) (msg : List Byte) (n : Nat) : List Byte :=
  squeeze rate (n / rate + 1) ((chunks rate (keccakPad rate suffix msg)).foldl absorbBlock (List.replicate 25 0)) n

def shake256 (msg : List Byte) (n : Nat) : List Byte := sponge 136 0x1F msg n
def sha3_256 (msg : List Byte) : List Byte := sponge 136 0x06 msg 32

/-- The bytes of a number, most significant first, at least one (fuel 8). -/
def natBytesBe : Nat → Nat → List Byte
  | 0, _ => []
  | f + 1, x => if x < 256 then [byteOf x] else natBytesBe f (x / 256) ++ [byteOf x]

def leftEncode (x : Nat) : List Byte := let b := natBytesBe 8 x; byteOf b.length :: b
def rightEncode (x : Nat) : List Byte := let b := natBytesBe 8 x; b ++ [byteOf b.length]
def encodeString (s : List Byte) : List Byte := leftEncode (8 * s.length) ++ s
def bytePad (x : List Byte) (w : Nat) : List Byte :=
  let z := leftEncode w ++ x
  z ++ List.replicate ((w - z.length % w) % w) 0

/-- ASCII bytes of a text. -/
def ascii (s : String) : List Byte := s.toList.map (fun c => byteOf c.toNat)

/-- cSHAKE128 with a function name and a customisation string, SHAKE128 when both are empty. -/
def cshake128 (msg : List Byte) (n : Nat) (fname cust : List Byte) : List Byte :=
  if fname = [] ∧ cust = [] then sponge 168 0x1F msg n
  else sponge 168 0x04 (bytePad (encodeString fname ++ encodeString cust) 168 ++ msg) n

/-- KMAC256(K, X, 8n, S): `n` bytes. -/
def kmac256 (key x : List Byte) (n : Nat) (cust : List Byte) : List Byte :=
  sponge 136 0x04 (bytePad (encodeString (ascii "KMAC") ++ encodeString cust) 136 ++
    (bytePad (encodeString key) 136 ++ x ++ rightEncode (8 * n))) n

end Sys2Proof.Machine
end

