-- ==== Sys2Proof/Machine/Aes.lean ====
section
/-! DEFINITION. AES-256, GCM with 12-byte nonces (SP 800-38D), key wrap with padding (RFC 5649) and CTR_DRBG with AES-256
(SP 800-90A): the spec names the standards, notes/assumptions/10.md. -/

namespace Sys2Proof.Machine

/-- Multiply by x in AES's field. -/
def xtime (b : Byte) : Byte := if b.msb then (b <<< 1) ^^^ 0x1B else b <<< 1

/-- Multiply in AES's field, bit by bit (8 rounds of fuel). -/
def gmulAux : Nat → Byte → Byte → Byte
  | 0, _, _ => 0
  | f + 1, a, b => (if b.getLsbD 0 then a else 0) ^^^ gmulAux f (xtime a) (b >>> 1)
def gmul (a b : Byte) : Byte := gmulAux 8 a b

/-- The inverse in AES's field, a^254, 0 for 0. -/
def ginv (a : Byte) : Byte :=
  let a2 := gmul a a
  let a4 := gmul a2 a2
  let a8 := gmul a4 a4
  let a16 := gmul a8 a8
  let a32 := gmul a16 a16
  let a64 := gmul a32 a32
  let a128 := gmul a64 a64
  gmul a2 (gmul a4 (gmul a8 (gmul a16 (gmul a32 (gmul a64 a128)))))

/-- The S-box: the inverse, then the affine map. -/
def sbox (a : Byte) : Byte :=
  let b := ginv a
  b ^^^ b.rotateLeft 1 ^^^ b.rotateLeft 2 ^^^ b.rotateLeft 3 ^^^ b.rotateLeft 4 ^^^ 0x63

/-- The inverse S-box. -/
def sboxInv (a : Byte) : Byte := ginv (a.rotateLeft 1 ^^^ a.rotateLeft 3 ^^^ a.rotateLeft 6 ^^^ 0x05)

def xorBytes (a b : List Byte) : List Byte := List.zipWith (· ^^^ ·) a b

/-- The words of the key schedule for a 32-byte key, newest first (fuel: words still to make). -/
def keyWords : Nat → Nat → Byte → List (List Byte) → List (List Byte)
  | 0, _, _, ws => ws
  | f + 1, i, rcon, ws =>
    let prev := ws.getD 0 []
    let t := if i % 8 = 0 then
        (match (prev.drop 1 ++ prev.take 1).map sbox with
         | b :: bs => (b ^^^ rcon) :: bs
         | [] => [])
      else if i % 8 = 4 then prev.map sbox else prev
    keyWords f (i + 1) (if i % 8 = 0 then xtime rcon else rcon) (xorBytes (ws.getD 7 []) t :: ws)

/-- The 15 round keys of AES-256. -/
def roundKeys (key : List Byte) : List (List Byte) :=
  chunks 16 ((keyWords 52 8 1 (chunks 4 (padTo 32 key)).reverse).reverse.flatten)

def shiftRows (s : List Byte) : List Byte := (List.range 16).map (fun i => s.getD ((i + 4 * (i % 4)) % 16) 0)
def unshiftRows (s : List Byte) : List Byte := (List.range 16).map (fun i => s.getD ((i + 12 * (i % 4)) % 16) 0)

def mixColumn (m : List Byte) (c : List Byte) : List Byte :=
  (List.range 4).map (fun r => (List.range 4).foldl (fun acc k => acc ^^^ gmul (m.getD ((k + 4 - r) % 4) 0) (c.getD k 0)) 0)
def mixColumns (m : List Byte) (s : List Byte) : List Byte := (chunks 4 s).flatMap (mixColumn m)

/-- AES-256 of one block under expanded keys. -/
def aesRounds (rks : List (List Byte)) (blk : List Byte) : List Byte :=
  let s := (rks.drop 1).dropLast.foldl (fun s rk => xorBytes (mixColumns [2, 3, 1, 1] (shiftRows (s.map sbox))) rk)
    (xorBytes blk (rks.getD 0 []))
  xorBytes (shiftRows (s.map sbox)) (rks.getD 14 [])

/-- The inverse cipher of one block. -/
def aesInvRounds (rks : List (List Byte)) (blk : List Byte) : List Byte :=
  let s := (rks.drop 1).dropLast.reverse.foldl
    (fun s rk => mixColumns [14, 11, 13, 9] (xorBytes ((unshiftRows s).map sboxInv) rk)) (xorBytes blk (rks.getD 14 []))
  xorBytes ((unshiftRows s).map sboxInv) (rks.getD 0 [])

def aes256 (key blk : List Byte) : List Byte := aesRounds (roundKeys key) (padTo 16 blk)

/-! ## GCM -/

/-- Multiply in GCM's field: numbers whose bit 127 is the first bit (fuel 128). -/
def ghMulAux : Nat → Nat → Nat → Nat → Nat
  | 0, _, _, z => z
  | f + 1, x, v, z =>
    ghMulAux f (x * 2 % 2 ^ 128) (if v % 2 = 1 then Nat.xor (v / 2) (0xE1 * 2 ^ 120) else v / 2)
      (if 2 ^ 127 ≤ x then Nat.xor z v else z)
def ghMul (x h : Nat) : Nat := ghMulAux 128 x h 0

def pad16 (b : List Byte) : List Byte := b ++ List.replicate ((16 - b.length % 16) % 16) 0

def ghash (h : Nat) (b : List Byte) : Nat := (chunks 16 b).foldl (fun y blk => ghMul (Nat.xor y (ofBe blk)) h) 0

/-- Counter mode from counter `n` of a 12-byte nonce. -/
def gcmCtr (rks : List (List Byte)) (nonce : List Byte) (n : Nat) (b : List Byte) : List Byte :=
  (chunks 16 b).zipIdx.flatMap (fun p => xorBytes p.1 (aesRounds rks (nonce ++ beBytes 4 (n + p.2))))

/-- The tag over additional data and ciphertext. -/
def gcmTag (rks : List (List Byte)) (nonce aad ct : List Byte) : List Byte :=
  let h := ofBe (aesRounds rks (List.replicate 16 0))
  xorBytes (beBytes 16 (ghash h (pad16 aad ++ pad16 ct ++ beBytes 8 (8 * aad.length) ++ beBytes 8 (8 * ct.length))))
    (aesRounds rks (nonce ++ beBytes 4 1))

/-- AES-256-GCM: ciphertext followed by the 16-byte tag. -/
def gcmSeal (key nonce aad pt : List Byte) : List Byte :=
  let rks := roundKeys key
  let ct := gcmCtr rks nonce 2 pt
  ct ++ gcmTag rks nonce aad ct

/-- Open ciphertext followed by its tag; none when the tag fails. -/
def gcmOpen (key nonce aad ctTag : List Byte) : Option (List Byte) :=
  let n := ctTag.length - 16
  let rks := roundKeys key
  if ctTag.length < 16 then none
  else if gcmTag rks nonce aad (ctTag.take n) = ctTag.drop n then some (gcmCtr rks nonce 2 (ctTag.take n)) else none

/-! ## Key wrap with padding (RFC 5649) -/

/-- One of the 6n steps of the wrap, with its step number from 1. -/
def kwSteps (rks : List (List Byte)) (n : Nat) : List Nat → List Byte → List (List Byte) → List Byte × List (List Byte)
  | [], a, r => (a, r)
  | t :: ts, a, r =>
    let i := (t - 1) % n
    let b := aesRounds rks (a ++ r.getD i [])
    kwSteps rks n ts (xorBytes (b.take 8) (beBytes 8 t)) (r.set i (b.drop 8))

def kwUnsteps (rks : List (List Byte)) (n : Nat) : List Nat → List Byte → List (List Byte) → List Byte × List (List Byte)
  | [], a, r => (a, r)
  | t :: ts, a, r =>
    let i := (t - 1) % n
    let b := aesInvRounds rks (xorBytes a (beBytes 8 t) ++ r.getD i [])
    kwUnsteps rks n ts (b.take 8) (r.set i (b.drop 8))

/-- The steps 1 to k. -/
def oneTo (k : Nat) : List Nat := (List.range k).map (· + 1)

/-- Wrap. -/
def kwWrap (kek pt : List Byte) : List Byte :=
  let rks := roundKeys kek
  let aiv := [0xA6, 0x59, 0x59, 0xA6] ++ beBytes 4 pt.length
  let p := pt ++ List.replicate ((8 - pt.length % 8) % 8) 0
  if p.length = 8 then aesRounds rks (aiv ++ p)
  else
    let n := p.length / 8
    let r := kwSteps rks n (oneTo (6 * n)) aiv (chunks 8 p)
    r.1 ++ r.2.flatten

/-- Unwrap; none when the integrity check fails. -/
def kwUnwrap (kek ct : List Byte) : Option (List Byte) :=
  let rks := roundKeys kek
  if ct.length < 16 ∨ ct.length % 8 ≠ 0 then none
  else
    let r := if ct.length = 16 then (let b := aesInvRounds rks ct; (b.take 8, [b.drop 8]))
      else
        let n := ct.length / 8 - 1
        kwUnsteps rks n (oneTo (6 * n)).reverse (ct.take 8) (chunks 8 (ct.drop 8))
    let p := r.2.flatten
    let mli := ofBe (r.1.drop 4)
    if r.1.take 4 = [0xA6, 0x59, 0x59, 0xA6] ∧ mli ≤ p.length ∧ p.length < mli + 8 ∧ allZero (p.drop mli) then some (p.take mli)
    else none

/-! ## CTR_DRBG with AES-256 and the derivation function -/

/-- V + 1 modulo 2^128. -/
def incBe (v : List Byte) : List Byte := beBytes 16 ((ofBe v + 1) % 2 ^ 128)

/-- `n` blocks of output and the V after them. -/
def drbgBlocks (rks : List (List Byte)) : Nat → List Byte → List Byte × List Byte
  | 0, v => ([], v)
  | n + 1, v =>
    let v1 := incBe v
    let r := drbgBlocks rks n v1
    (aesRounds rks v1 ++ r.1, r.2)

/-- CTR_DRBG_Update: the new key and V. -/
def drbgUpdate (key v provided : List Byte) : List Byte × List Byte :=
  let t := xorBytes (drbgBlocks (roundKeys key) 3 v).1 (padTo 48 provided)
  (t.take 32, t.drop 32)

/-- BCC of SP 800-90A: the chained encryption of whole blocks. -/
def drbgBcc (rks : List (List Byte)) (b : List Byte) : List Byte :=
  (chunks 16 b).foldl (fun c blk => aesRounds rks (xorBytes c blk)) (List.replicate 16 0)

/-- Block_Cipher_df to 48 bytes. -/
def drbgDf (input : List Byte) : List Byte :=
  let s := pad16 (beBytes 4 input.length ++ beBytes 4 48 ++ input ++ [0x80])
  let rks := roundKeys ((List.range 32).map byteOf)
  let t := (List.range 3).flatMap (fun i => drbgBcc rks (beBytes 4 i ++ List.replicate 12 0 ++ s))
  let rk := roundKeys (t.take 32)
  let x1 := aesRounds rk (bslice t 32 16)
  let x2 := aesRounds rk x1
  x1 ++ x2 ++ aesRounds rk x2

/-- Instantiate: entropy input, nonce, personalisation string. -/
def drbgInit (entropy nonce pers : List Byte) : List Byte × List Byte :=
  drbgUpdate (List.replicate 32 0) (List.replicate 16 0) (drbgDf (entropy ++ nonce ++ pers))

/-- Reseed with an entropy input. -/
def drbgReseed (key v entropy : List Byte) : List Byte × List Byte := drbgUpdate key v (drbgDf entropy)

/-- Generate `n` bytes: output, new key, new V. -/
def drbgGen (key v : List Byte) (n : Nat) : List Byte × List Byte × List Byte :=
  let r := drbgBlocks (roundKeys key) (ceilDiv n 16) v
  let u := drbgUpdate key r.2 []
  (r.1.take n, u.1, u.2)

end Sys2Proof.Machine
end

