-- ==== Sys2Proof/Machine/BayMem.lean ====
section
/-! DEFINITION. A bay's memory: lines, poison, fences, the bay store, closed regions, bin layouts and bank-adder operations
(R62, R123 to R129, R132, R137, R143, R145, R243). -/

namespace Sys2Proof.Machine

/-! ## Lines of the stack -/

abbrev stackSize : Nat := 2 ^ 37
/-- The bay's SRAM address space (R145). -/
abbrev sramSize : Nat := storeSize + 50 * localSize

/-- The pseudo-channel of an address (Table 05.1). -/
def pcOf (a : Nat) : Nat := a / 64 % 64
/-- The line addresses of a span. -/
def spanLines (a n : Nat) : List Nat :=
  if n = 0 then [] else (List.range ((a + n - 1) / 64 - a / 64 + 1)).map (fun i => (a / 64 + i) * 64)

/-- Is a line in a fenced pseudo-channel (R126)? -/
def lineFenced (m : BayMem) (a : Nat) : Bool := m.pcFenced.any (fun p => p.1 == pcOf a)
/-- Does a read of a line report it as uncorrectable (R125, R126)? -/
def lineUe (m : BayMem) (a : Nat) : Bool := m.poisoned.contains (lineAddr a) || lineFenced m a
/-- The uncorrectable lines of a span. -/
def spanUe (m : BayMem) (a n : Nat) : List Nat :=
  if m.poisoned = [] ∧ m.pcFenced = [] then [] else (spanLines a n).filter (lineUe m)

/-- Does the line at `x` lie in one of the spans (base, length)? -/
def inSpans (spans : List (Nat × Nat)) (x : Nat) : Bool := spans.any (fun p => p.1 < x + 64 && x < p.1 + p.2)

/-- A read over the spans finds the lines `lf.ue` uncorrectable for the first time, and corrects `lf.ce` errors (R124, R125). -/
def noteFaults (s : State) (b : BayId) (spans : List (Nat × Nat)) (lf : LineFaults) : State :=
  modMem s b (fun m =>
    let m := { m with ce := m.ce + word32 lf.ce }
    (lf.ue.map lineAddr).dedup.foldl (fun m x =>
      if inSpans spans x && !lineUe m x then
        { m with poisoned := insertNat x m.poisoned, ue := m.ue + 1, ueAddr := x, recentUe := (x, s.alm.t) :: m.recentUe }
      else m) m)

/-- Cut a byte string at line boundaries: (address, piece) (fuel: its length). -/
def linePieces : Nat → Nat → List Byte → List (Nat × List Byte)
  | 0, _, _ => []
  | f + 1, a, bs =>
    if bs = [] then [] else
      let k := 64 - a % 64
      (a, bs.take k) :: linePieces f (a + k) (bs.drop k)

/-- One piece inside a line: a fenced line takes no write, a poisoned one only a full line, which clears the poison
(R125, R126). -/
def writePiece (m : BayMem) (p : Nat × List Byte) : BayMem :=
  if lineFenced m p.1 then m
  else if m.poisoned.contains (lineAddr p.1) then
    (if p.2.length = 64 then { m with dram := memWrite m.dram p.1 p.2, poisoned := m.poisoned.erase (lineAddr p.1) } else m)
  else { m with dram := memWrite m.dram p.1 p.2 }

/-- Write bytes to the stack (WRITE of Table 05.2). -/
def dramWrite (m : BayMem) (a : Nat) (bs : List Byte) : BayMem :=
  if m.poisoned = [] ∧ m.pcFenced = [] then { m with dram := memWrite m.dram a bs }
  else (linePieces (bs.length + 1) a bs).foldl writePiece m

/-- ADD or SUB results, line by line: a line that is uncorrectable keeps its poison and the operand is lost (R129). -/
def dramModify (m : BayMem) (a : Nat) (bs : List Byte) : BayMem :=
  if m.poisoned = [] ∧ m.pcFenced = [] then { m with dram := memWrite m.dram a bs }
  else (linePieces (bs.length + 1) a bs).foldl (fun m p => if lineUe m p.1 then m else { m with dram := memWrite m.dram p.1 p.2 }) m

/-- Read the stack; an uncorrectable line's bytes are given as zero. -/
def dramRead (m : BayMem) (a n : Nat) : List Byte :=
  let raw := memRead m.dram a n
  if m.poisoned = [] ∧ m.pcFenced = [] then raw
  else raw.mapIdx (fun i b => if lineUe m (a + i) then 0 else b)

/-- ZERO a span of whole lines (Table 05.2): fenced lines keep their contents. -/
def dramZero (m : BayMem) (a n : Nat) : BayMem :=
  if m.pcFenced = [] then { m with dram := memZero m.dram a n, poisoned := m.poisoned.filter (fun x => x < a || a + n ≤ x) }
  else
    { m with dram := m.dram.filter (fun c => c.1 < a || a + n ≤ c.1 || lineFenced m c.1),
             poisoned := m.poisoned.filter (fun x => x < a || a + n ≤ x || lineFenced m x) }

/-! ## Local stores and the SRAM address space (R145, R240) -/

def localWrite (k : Core) (a : Nat) (bs : List Byte) : Core :=
  { k with ls := memWrite k.ls a bs, lsWritten := markLines k.lsWritten (a / 64) (lineCount a bs.length) }

def localClear (k : Core) (a n : Nat) : Core :=
  { k with ls := memZero k.ls a n, lsWritten := k.lsWritten.filter (fun l => 64 * l < a || a + n ≤ 64 * l) }

/-- The core whose local store holds an SRAM address, with the offset in it (R145). -/
def sramCore (a : Nat) : CoreIx × Nat :=
  (⟨(a - storeSize) / localSize % 50, Nat.mod_lt _ (by decide)⟩, (a - storeSize) % localSize)

/-- The bytes left in the part of the SRAM space that holds `a`. -/
def sramRoom (a : Nat) : Nat := if a < storeSize then storeSize - a else localSize - (a - storeSize) % localSize

/-- Read the SRAM address space of a bay (fuel: parts crossed). -/
def sramRead (y : Bay) : Nat → Nat → Nat → List Byte
  | 0, _, _ => []
  | f + 1, a, n =>
    let k := min n (sramRoom a)
    (if a < storeSize then memRead y.mem.store a k else memRead (y.cores[(sramCore a).1]).ls (sramCore a).2 k) ++
      (if n ≤ k then [] else sramRead y f (a + k) (n - k))

/-- Write the SRAM address space. -/
def sramWrite (y : Bay) : Nat → Nat → List Byte → Bay
  | 0, _, _ => y
  | f + 1, a, bs =>
    if bs = [] then y else
      let k := min bs.length (sramRoom a)
      let y1 := if a < storeSize then { y with mem := storeWrite y.mem a (bs.take k) }
        else { y with cores := vmod y.cores (sramCore a).1 (fun c => localWrite c (sramCore a).2 (bs.take k)) }
      sramWrite y1 f (a + k) (bs.drop k)

/-- Clear the written bits of a span of the SRAM address space (R146). -/
def sramClear (y : Bay) : Nat → Nat → Nat → Bay
  | 0, _, _ => y
  | f + 1, a, n =>
    if n = 0 then y else
      let k := min n (sramRoom a)
      let y1 := if a < storeSize then { y with mem := storeClear y.mem a k }
        else { y with cores := vmod y.cores (sramCore a).1 (fun c => localClear c (sramCore a).2 k) }
      sramClear y1 f (a + k) (n - k)

/-! ## A place that holds a copy of a bin -/

/-- A copy of a bin's region: its bay, whether it lies in SRAM, its base. -/
structure Loc where
  bay : BayId
  sram : Bool
  base : Nat
  deriving DecidableEq, Repr

def locRead (s : State) (l : Loc) (off n : Nat) : List Byte :=
  if l.sram then sramRead s.bays[l.bay] 52 (l.base + off) n else dramRead s.bays[l.bay].mem (l.base + off) n

/-- Does a span of the copy hold an uncorrectable line? -/
def locUe (s : State) (l : Loc) (off n : Nat) : Bool :=
  !l.sram && !(spanUe s.bays[l.bay].mem (l.base + off) n).isEmpty

def locWrite (s : State) (l : Loc) (off : Nat) (bs : List Byte) : State :=
  if l.sram then modBay s l.bay (fun y => sramWrite y 52 (l.base + off) bs)
  else modMem s l.bay (fun m => dramWrite m (l.base + off) bs)

/-- Write the result of a read-modify-write line operation (R129). -/
def locModify (s : State) (l : Loc) (off : Nat) (bs : List Byte) : State :=
  if l.sram then modBay s l.bay (fun y => sramWrite y 52 (l.base + off) bs)
  else modMem s l.bay (fun m => dramModify m (l.base + off) bs)

/-- Errors found while reading a span of a copy. -/
def locFaults (s : State) (l : Loc) (off n : Nat) (lf : LineFaults) : State :=
  if l.sram then s else noteFaults s l.bay [(l.base + off, n)] lf

/-! ## Bins (Tables 05.4 to 05.6) -/

def binContribs (x : Bin) : Nat := x.chi - x.clo
def isGatherer (x : Bin) : Bool := x.kind == 1

/-- The parts of a bin's region (Table 05.5). -/
def dataLen (x : Bin) : Nat := x.t * 65536
def bitmapLen (x : Bin) : Nat := if isGatherer x then ceilDiv (binContribs x * x.t) 512 * 64 else 0
def countsLen (x : Bin) : Nat := if isGatherer x then ceilDiv (2 * binContribs x) 64 * 64 else 0
def presenceLen (x : Bin) : Nat := ceilDiv (binContribs x) 512 * 64
def poisonLen (x : Bin) : Nat := ceilDiv (2 * x.t) 64 * 64
def bitmapOff (x : Bin) : Nat := dataLen x
def countsOff (x : Bin) : Nat := bitmapOff x + bitmapLen x
def presenceOff (x : Bin) : Nat := countsOff x + countsLen x
def poisonOff (x : Bin) : Nat := presenceOff x + presenceLen x
def layoutLen (x : Bin) : Nat := poisonOff x + poisonLen x

/-- The bytes of a bin's element. -/
def binElem (x : Bin) : Nat := if x.etype = 0 then 4 else 8
/-- The dense capacity cap of a bin's positions. -/
def binCap (x : Bin) : Nat := denseCap (binElem x)

/-- The copies in use: the region, and the mirror region; after a take-over the mirror alone (R143, R144). -/
def binLocs (b : BayId) (x : Bin) : List Loc :=
  let mb : BayId := ⟨x.mirrorBay % 16, Nat.mod_lt _ (by decide)⟩
  if x.usingMirror then [⟨mb, false, x.mirrorRegion⟩]
  else if x.mirror && !x.mirrorLost then [⟨b, x.sram, x.region⟩, ⟨mb, false, x.mirrorRegion⟩]
  else [⟨b, x.sram, x.region⟩]

/-- The bay whose Bin controller serves a bin: the mirror bay after a take-over (R144). -/
def serveBay (b : BayId) (x : Bin) : BayId :=
  if x.usingMirror then ⟨x.mirrorBay % 16, Nat.mod_lt _ (by decide)⟩ else b

/-- The copy that answers first. -/
def binLoc (b : BayId) (x : Bin) : Loc := (binLocs b x).headD ⟨b, x.sram, x.region⟩

def findBin (s : State) (b : BayId) (i : Nat) : Option Bin := lookup i s.bays[b].mem.bins
def putBin (s : State) (b : BayId) (x : Bin) : State := modMem s b (fun m => { m with bins := insertKey x.index x m.bins })
def modBin (s : State) (b : BayId) (i : Nat) (f : Bin → Bin) : State :=
  match findBin s b i with
  | some x => putBin s b { f x with index := i }
  | none => s
/-- The current generation of an index (R130). -/
def binGenOf (s : State) (b : BayId) (i : Nat) : Nat := (lookup i s.bays[b].mem.binGen).getD 1

/-- The bin leaves its index, whose generation goes up (R142). -/
def freeBin (s : State) (b : BayId) (i : Nat) : State :=
  modMem s b (fun m => { m with bins := eraseKey i m.bins, binGen := insertKey i (nextGen ((lookup i m.binGen).getD 1)) m.binGen })

def bitIn (bs : List Byte) (i : Nat) : Bool := (bs.getD (i / 8) 0).getLsbD (i % 8)

/-- One bit of a part at offset `off`. -/
def locBit (s : State) (l : Loc) (off i : Nat) : Bool := ((locRead s l (off + i / 8) 1).headD 0).getLsbD (i % 8)

/-- Set one bit of a part (the line operation OR). -/
def locSetBit (s : State) (l : Loc) (off i : Nat) : State :=
  locModify s l (off + i / 8) [((locRead s l (off + i / 8) 1).headD 0) ||| byteOf (2 ^ (i % 8))]

/-- The number of set bits of a part of `n` bits. -/
def locPop (s : State) (l : Loc) (off n : Nat) : Nat :=
  let bs := locRead s l off (ceilDiv n 8)
  ((List.range n).filter (bitIn bs)).length

/-- The contributors (absolute numbers) whose presence bit is set in a bin. -/
def presentIn (s : State) (b : BayId) (x : Bin) : List Nat :=
  let bs := locRead s (binLoc b x) (presenceOff x) (presenceLen x)
  ((List.range (binContribs x)).filter (bitIn bs)).map (· + x.clo)

/-- The present count of a bin. -/
def presentCount (s : State) (b : BayId) (x : Bin) : Nat := locPop s (binLoc b x) (presenceOff x) (binContribs x)

/-- The poison-map entry of a position in one copy; an uncorrectable line of the map counts as a cause (R137). -/
def locPoison (s : State) (l : Loc) (x : Bin) (k : Nat) : Nat :=
  if locUe s l (poisonOff x + 2 * k) 2 then codeUncorrectableMemory else fieldN (locRead s l (poisonOff x + 2 * k) 2) 0 2

/-- Set the poison-map entry of a position in one copy unless it holds a cause (R136). -/
def setLocPoison (s : State) (b : BayId) (l : Loc) (x : Bin) (k cause : Nat) : State :=
  if locPoison s l x k = 0 then
    modMem (locModify s l (poisonOff x + 2 * k) (leBytes 2 cause)) b (fun m => { m with poisonSet := m.poisonSet + 1 })
  else s

/-- Set a position's entry in every copy. -/
def setPoison (s : State) (b : BayId) (x : Bin) (k cause : Nat) : State :=
  (binLocs b x).foldl (fun s l => setLocPoison s b l x k cause) s

/-- A position counts as poisoned only if every copy's entry is set; the cause is the first copy's (R143). -/
def posPoison (s : State) (b : BayId) (x : Bin) (k : Nat) : Nat :=
  let cs := (binLocs b x).map (fun l => if locUe s l (k * 65536) 65536 then
    (if locPoison s l x k = 0 then codeUncorrectableMemory else locPoison s l x k) else locPoison s l x k)
  if cs.contains 0 then 0 else cs.headD 0

/-- The copy that a position is read from: the first whose entry and lines are clean, else the first (R143). -/
def posLoc (s : State) (b : BayId) (x : Bin) (k : Nat) : Loc :=
  ((binLocs b x).find? (fun l => locPoison s l x k == 0 && !locUe s l (k * 65536) 65536)).getD (binLoc b x)

/-- The bytes of a position. -/
def posRead (s : State) (b : BayId) (x : Bin) (k : Nat) : List Byte := locRead s (posLoc s b x k) (k * 65536) 65536

/-- The elements of a position after applying `f` with the operand's elements at their places (Table 05.2). -/
def applyElems (size : Nat) (f : Nat → Nat → Nat) (old : List Byte) (ops : List (Nat × Nat)) : List Byte :=
  ops.foldl (fun acc p => acc.take (p.1 * size) ++ leBytes size (f (fieldN acc (p.1 * size) size) p.2) ++ acc.drop ((p.1 + 1) * size)) old

/-- The same when the operand is dense from place 0: one pass over the bytes. -/
def applyDense (size : Nat) (f : Nat → Nat → Nat) (old : List Byte) (vals : List Nat) : List Byte :=
  ((chunks size (old.take (vals.length * size))).zip vals).flatMap (fun p => leBytes size (f (ofLe p.1) p.2)) ++
    old.drop (vals.length * size)

/-- Add (or subtract) a tile's elements into a position of one copy. -/
def addAtLoc (s : State) (l : Loc) (size : Nat) (f : Nat → Nat → Nat) (k : Nat) (t : Tile) : State :=
  let old := locRead s l (k * 65536) 65536
  let new := if t.hdr.sparse then applyElems size f old (tileElems size t) else applyDense size f old ((tileElems size t).map (·.2))
  locModify s l (k * 65536) new

/-- The ring of a bin under its job's modulus table (R128). -/
def binRing (s : State) (x : Bin) : Ring := (ringOf (modsOf s x.part x.job) x.ring).getD ⟨2 ^ 64, 8⟩

/-- A bin command's handle names an existing bin: the current generation, the issuer's partition, a bay it holds (R130). -/
def handleBin (s : State) (p : PartId) (w : W32) : Option (BayId × Bin) :=
  let h := parseHandle w
  if h.part = p.1 ∧ holdsBay s p h.bay ∧ h.gen = binGenOf s h.bay h.index then
    (findBin s h.bay h.index).map (fun x => (h.bay, x))
  else none

/-! ## Closed regions (R243) -/

/-- The working regions of the running image's pipelines in a bay, by pipeline (R187). -/
def pipeRegions (s : State) (b : BayId) : List (List (Bool × Nat × Nat)) :=
  match runningImage s s.bays[b].owner with
  | some g => (List.range (imagePipes s b).length).map (Config.pipeRegions g.raw b.1)
  | none => []

/-- Those in the stack, or those in the bay store, as (base, length). -/
def pipeSpans (s : State) (b : BayId) (inStore : Bool) : List (Nat × Nat) :=
  (pipeRegions s b).flatten.filterMap (fun r => if r.1 == inStore then some r.2 else none)

/-- The bay-store pools that carry seeds from a Share station to the bay's Mask station (R167). -/
def seedPools (s : State) (b : BayId) : List (Nat × Nat) :=
  s.bays[b].msk.ins.toList.filterMap (fun ip => match ip.prod with
    | some (.bay _ .shr, _) => if ip.conn then some (ip.poolBase * 64, ip.pool * 65600) else none
    | _ => none)

/-- The regions of the stack of a bay that are closed, as (base, length): bins not FREE (here and mirrors of other bays),
R167's working regions, R187's, R344's job regions, R197's keys, R226's release regions and R285's loads. -/
def closedSpans (s : State) (b : BayId) : List (Nat × Nat) :=
  let y := s.bays[b]
  (y.mem.bins.filter (fun p => !p.2.sram)).map (fun p => (p.2.region, p.2.regionSize)) ++
  allBays.flatMap (fun o => (s.bays[o].mem.bins.filter (fun p => p.2.mirror && p.2.mirrorBay == b.1)).map
    (fun p => (p.2.mirrorRegion, p.2.regionSize))) ++
  allTenants.flatMap (fun t => match s.rot.parts[t].job with
    | some j => (match j.working with
      | some (wb, base, len) => if wb = b then [(base, len)] else []
      | none => []) ++ (if bitsOf j.region 40 37 = b.1 then [(j.region % 2 ^ 37, 65536)] else [])
    | none => []) ++
  y.lattice.keys.toList.filterMap (fun k => k.map (fun x => (x.region, x.len))) ++
  (match y.release.cur with
   | some r => if r.inStore then [] else [(r.region, r.regionLen)]
   | none => []) ++
  (match y.release.closed with
   | some (st, base, len) => if st then [] else [(base, len)]
   | none => []) ++
  allTenants.flatMap (fun t =>
    let p := s.sch.parts[t]
    (match p.load with
     | some l => if l.bay = b then [(l.region, l.len)] else []
     | none => []) ++
    (match p.runRegion with
     | some (rb, base, len) => if rb = b then [(base, len)] else []
     | none => []) ++
    (match p.stagedRegion with
     | some (rb, base, len) => if rb = b then [(base, len)] else []
     | none => [])) ++
  pipeSpans s b false

/-- The closed spans of the SRAM address space: SRAM bins that are not FREE, release regions in the bay store (R387), the pools that
carry seeds (R167) and the pipelines' working regions (R187). -/
def closedSram (s : State) (b : BayId) : List (Nat × Nat) :=
  (s.bays[b].mem.bins.filter (fun p => p.2.sram)).map (fun p => (p.2.region, p.2.regionSize)) ++
  (match s.bays[b].release.cur with
   | some r => if r.inStore then [(r.region, r.regionLen)] else []
   | none => []) ++
  (match s.bays[b].release.closed with
   | some (st, base, len) => if st then [(base, len)] else []
   | none => []) ++ seedPools s b ++ pipeSpans s b true

/-- The closed spans of a core's local store: the parts of SRAM bins that lie in it (R27, R145). -/
def closedLocal (s : State) (c : CoreId) : List (Nat × Nat) :=
  let lo := storeSize + c.core.1 * localSize
  (closedSram s c.bay).filterMap (fun p =>
    if p.1 < lo + localSize ∧ lo < p.1 + p.2 then some (max lo p.1 - lo, min (lo + localSize) (p.1 + p.2) - max lo p.1) else none)

/-- Closed bytes read zero (R243). -/
def hideClosed (spans : List (Nat × Nat)) (a : Nat) (bs : List Byte) : List Byte :=
  if spans.any (fun p => p.1 < a + bs.length + 64 && lineAddr a < p.1 + p.2) then
    bs.mapIdx (fun i x => if inSpans spans (lineAddr (a + i)) then 0 else x)
  else bs

/-- Write pieces outside the closed lines (R243). -/
def openPieces (spans : List (Nat × Nat)) (a : Nat) (bs : List Byte) : List (Nat × List Byte) :=
  if spans.any (fun p => p.1 < a + bs.length + 64 && lineAddr a < p.1 + p.2) then
    (linePieces (bs.length + 1) a bs).filter (fun p => !inSpans spans (lineAddr p.1))
  else [(a, bs)]

/-- A kernel's write to its local store: closed lines take nothing. -/
def localPut (s : State) (c : CoreId) (k : Core) (a : Nat) (bs : List Byte) : Core :=
  (openPieces (closedLocal s c) a bs).foldl (fun k p => localWrite k p.1 p.2) k

/-- What a read of the local store gives: closed lines read zero. -/
def localGet (s : State) (c : CoreId) (k : Core) (a n : Nat) : List Byte := hideClosed (closedLocal s c) a (memRead k.ls a n)

/-- Is the line of an address of the stack closed? -/
def lineClosed (s : State) (b : BayId) (a : Nat) : Bool := inSpans (closedSpans s b) (lineAddr a)

/-- Do two spans overlap? -/
def overlaps (a an c cn : Nat) : Bool := a < c + cn && c < a + an && an != 0 && cn != 0

/-- Write to the stack, bytes on closed lines discarded (R106, R243). -/
def openWrite (s : State) (b : BayId) (a : Nat) (bs : List Byte) : State :=
  let cl := closedSpans s b
  (linePieces (bs.length + 1) a bs).foldl
    (fun s p => if inSpans cl (lineAddr p.1) then s else modMem s b (fun m => dramWrite m p.1 p.2)) s

/-- Read the stack, closed lines as zeros (R243, R428). -/
def openRead (s : State) (b : BayId) (a n : Nat) : List Byte :=
  let cl := closedSpans s b
  (dramRead s.bays[b].mem a n).mapIdx (fun i x => if inSpans cl (lineAddr (a + i)) then 0 else x)

/-- Is the stack in service: trained and the bay not failed (R126)? -/
def stackReady (m : BayMem) : Bool := m.trained && !m.failed

end Sys2Proof.Machine
end

