-- ==== Sys2Proof/Machine/Transport.lean ====
section
/-! DEFINITION. WRD channels, replies and windows: the shared operations of Intake (R92 to R119). -/

namespace Sys2Proof.Machine

/-! ## Shares and their control (R99, R111) -/

def getShare (s : State) (p : TenantId) : IntakeShare := s.trn.shares[p]
def modTrn (s : State) (f : Trn → Trn) : State := { s with trn := f s.trn }
def modShare (s : State) (p : TenantId) (f : IntakeShare → IntakeShare) : State :=
  modTrn s (fun t => { t with shares := vmod t.shares p f })

/-- A share's effective EN, ABORT and DRAIN_REQ (R77). -/
def shareEn (s : State) (p : TenantId) : Bool := s.trn.ctl.enA && (getShare s p).en && !(s.rot.comps[(3 : Fin 12)]).active
def shareAbort (s : State) (p : TenantId) : Bool := s.trn.ctl.abortA || (getShare s p).abort
def shareDrain (s : State) (p : TenantId) : Bool := s.trn.ctl.drainA || (getShare s p).drain

def getChan (s : State) (c : Nat) : Option Chan := lookup c s.trn.chans
def putChan (s : State) (c : Nat) (x : Chan) : State := modTrn s (fun t => { t with chans := insertKey c x t.chans })
def modChan (s : State) (c : Nat) (f : Chan → Chan) : State :=
  match getChan s c with
  | some x => putChan s c (f x)
  | none => s

/-- The tenant whose channel range holds an index (R99). -/
def chanOwner (s : State) (c : Nat) : Option TenantId :=
  allTenants.find? (fun p => (getShare s p).chBase ≤ c && c < (getShare s p).chBase + (getShare s p).chCount)

/-- Tokens anywhere between hand-off and commit: in a crossing, held, consumed or in flight at a Bin station. -/
def tokensOf (s : State) : List Token :=
  s.tokFlight.map (fun x => x.2.2) ++
  allBays.flatMap (fun b => (s.bays[b].bin.ins.toList.flatMap (fun ip => ip.held)))

/-- The messages whose tiles are handed on and not yet committed. -/
def handedMsgs (s : State) : List MsgRef :=
  (tokensOf s).filterMap (fun t => t.origin) ++ allBays.flatMap (fun b => s.bays[b].mem.inFlight.filterMap (fun f => f.origin)) ++
  s.red.inq.filterMap (fun t => t.origin)
/-- Their channels. -/
def handedChans (s : State) : List Nat := (handedMsgs s).map (fun r => r.chan)

/-- Staging slots in use by a tenant: staged TILE messages and tiles handed on but not committed (R28, R99). -/
def stagingUsed (s : State) (p : TenantId) : Nat :=
  (s.trn.msgs.filter (fun m => !m.put && m.part == tenantPart p)).length +
  ((handedChans s).filter (fun c => chanOwner s c == some p)).length

def trackersUsed (s : State) (p : TenantId) : Nat := (s.trn.msgs.filter (fun m => m.put && m.part == tenantPart p)).length

/-- The miss-buffer room a packet takes: its UDP payload rounded up to 64 bytes (R101). -/
def missRoom (p : RxPacket) : Nat := ceilDiv p.bytes.length 64 * 64
def missUsed (s : State) (p : TenantId) : Nat :=
  ((s.trn.miss.filter (fun x => chanOwner s x.1 == some p)).map (fun x => missRoom x.2)).foldl (· + ·) 0

/-- PRESSURE (R117). -/
def pressure (s : State) (p : TenantId) : Bool :=
  let sh := getShare s p
  decide (3 * sh.staging < 4 * stagingUsed s p) || decide (3 * (sh.missKib * 1024) < 4 * missUsed s p)

/-! ## Daybook form C (Table 16.3) -/

def logC (s : State) (p : PartId) (code chan : Nat) (shelf msg : W32) (epoch check : Nat) : State :=
  logEv s p .trn code chan shelf.toNat msg.toNat (check * 0x10000 + epoch % 0x10000)

/-! ## Windows (R112 to R116) -/

def winIndex (w : W32) : Nat := bitsOf w.toNat 27 12
def winGen (w : W32) : Nat := bitsOf w.toNat 11 0
def winPartField (w : W32) : Nat := bitsOf w.toNat 31 28
def getWin (s : State) (i : Nat) : Option Window := lookup i s.wins.tab
def modWin (s : State) (i : Nat) (f : Window → Window) : State :=
  match getWin s i with
  | some w => { s with wins := { s.wins with tab := insertKey i (f w) s.wins.tab } }
  | none => s
def winGenOf (s : State) (i : Nat) : Nat := (lookup i s.wins.gen).getD 1
/-- The tenant whose window range holds an index. -/
def winOwner (s : State) (i : Nat) : Option TenantId :=
  allTenants.find? (fun p => s.wins.base[p] ≤ i && i < s.wins.base[p] + s.wins.count[p])
/-- The shelfmark of a window (R113). -/
def shelfmarkOf (w : Window) (i : Nat) : W32 := word32 (w.part.1 * 2 ^ 28 + i * 2 ^ 12 + w.gen)
/-- The window that a shelfmark currently names (R113). -/
def winCurrent (s : State) (sm : W32) : Option Window :=
  match getWin s (winIndex sm) with
  | some w => if shelfmarkOf w (winIndex sm) = sm then some w else none
  | none => none

/-- The messages staged or tracked for a window. -/
def winMsgs (s : State) (sm : W32) : List Msg := s.trn.msgs.filter (fun m => m.shelfmark == sm && !m.reduce)

/-- A window returns to FREE, its generation one higher; its staged messages are discarded (R113 to R115). -/
def freeWin (s : State) (i : Nat) : State :=
  match getWin s i with
  | none => s
  | some w =>
    let s1 := modTrn s (fun t => { t with msgs := t.msgs.filter (fun m => m.reduce || m.shelfmark != shelfmarkOf w i) })
    { s1 with wins := { s1.wins with tab := eraseKey i s1.wins.tab, gen := insertKey i (nextGen w.gen) s1.wins.gen } }

/-- Revoke a window (R115): WINDOW_REVOKED goes to its owner, with the cause of detail form W. -/
def revokeWin (s : State) (i cause : Nat) : State :=
  match getWin s i with
  | none => s
  | some w => logEv (freeWin s i) w.part .win codeWindowRevoked (shelfmarkOf w i).toNat w.chan w.job.toNat cause

/-- A window in CLOSING with no staged message left: an accumulate one is CLOSED, a placement one FREE (Table 04.10). -/
def settleWin (s : State) (i : Nat) : State :=
  match getWin s i with
  | none => s
  | some w =>
    if w.state = .closing ∧ (winMsgs s (shelfmarkOf w i)).isEmpty then
      (if w.place then freeWin s i else modWin s i (fun w => { w with state := .closed }))
    else s

/-- Start to close a window (R114). -/
def closeWin (s : State) (i : Nat) : State :=
  match getWin s i with
  | none => s
  | some w => if w.state = .opened then settleWin (modWin s i (fun w => { w with state := .closing })) i else s

/-- The indices of the windows that name a bin. -/
def winsOfBin (s : State) (h : W32) : List Nat :=
  (s.wins.tab.filter (fun p => !p.2.place && p.2.bin == h)).map (·.1)

/-- The handle of a bin of a bay. -/
def binHandle (s : State) (b : BayId) (x : Bin) : W32 := handleWord x.part.1 b x.index (binGenOf s b x.index)

/-- Revoke every window that names a bin. -/
def revokeBinWins (s : State) (b : BayId) (x : Bin) (cause : Nat) : State :=
  (winsOfBin s (binHandle s b x)).foldl (fun s i => revokeWin s i cause) s

/-- Does a placement window in OPEN or CLOSING overlap a span of a bay? -/
def placeWinOver (s : State) (b : BayId) (a n : Nat) : Bool :=
  s.wins.tab.any (fun p => p.2.place && p.2.bay == b.1 && p.2.state != .closed && overlaps p.2.base p.2.span a n)

/-! ## Channel reset (R104) -/

/-- Did a message come in on the channel? -/
def ofChan (c : Nat) : Option MsgRef → Bool
  | some r => r.chan == c
  | none => false

/-- A token whose message is discarded: it is for no bin and no answer is due, so the Bin station only returns its slot. -/
def voidTok (c : Nat) (t : Token) : Token := if ofChan c t.origin then { t with origin := none, target := none } else t

/-- The channel's messages handed on and not yet committed are discarded (R104). An addition in progress that duplicates from another
channel wait for is kept, unanswered. -/
def discardHanded (s : State) (c : Nat) : State :=
  let s1 : State := { s with
    tokFlight := s.tokFlight.map (fun f => (f.1, f.2.1, voidTok c f.2.2)),
    red := { s.red with inq := s.red.inq.filter (fun q => !ofChan c q.origin) } }
  allBays.foldl (fun s b =>
    let s1 := modSt s (.bay b .bin) (fun x => { x with ins := vmap x.ins (fun ip => { ip with held := ip.held.map (voidTok c) }) })
    let mine := s1.bays[b].mem.inFlight.filter (fun f => ofChan c f.origin && f.dups.all (fun r => r.chan == c))
    let s2 := modMem s1 b (fun m => { m with inFlight := (m.inFlight.filter (fun f => !mine.contains f)).map (fun f =>
      { f with origin := if ofChan c f.origin then none else f.origin, dups := f.dups.filter (fun r => r.chan != c) }) })
    mine.foldl (fun s f => returnSlot s (.bay b .bin) f.port f.slot) s2) s1

/-- RESET: keys and the link key erased, the messages not yet committed discarded, one daybook entry of the given code. Packets that
wait for its context stay, and are answered CHANNEL_RESET (R101, R102). -/
def resetChan (s : State) (c code : Nat) : State :=
  match getChan s c with
  | none => s
  | some x =>
    let gone := s.trn.msgs.filter (fun m => m.chan == c)
    let s1 := discardHanded (modTrn s (fun t => { t with msgs := t.msgs.filter (fun m => m.chan != c) })) c
    let s2 := putChan s1 c { x with state := .reset, linkKey := none, linkJob := 0, epoch := 0, nextInst := false, old := none,
                                    rxHigh := 0, txEpoch := 0, txSeq := 0, nakCount := 0 }
    let s3 := (gone.filter (fun m => !m.reduce)).foldl (fun s m => settleWin s (winIndex m.shelfmark)) s2
    logC s3 x.part code c 0 0 x.epoch 0

/-! ## Packets that the device sends (R86, R89 to R95) -/

/-- Is the port in an Ethernet mode, and for the second half in a half-port mode (Table 04.1)? -/
def ethMode (e : Eth) (half : Bool) : Bool :=
  let m := e.modeV.toNat
  if half then m == 3 || m == 4 else 1 ≤ m && m ≤ 4

/-- Does a port or half-port carry Ethernet traffic (R84)? -/
def ethUp (e : Eth) (half : Bool) : Bool := ethMode e half && (if half then e.link1 else e.link0)

def modEth (s : State) (p : PortId) (f : Eth → Eth) : State := { s with eth := vmod s.eth p f }

/-- An IPv4 address as the mapped IPv6 address that contexts hold (Table 11.10). -/
def mapV4 (a : List Byte) : List Byte := List.replicate 10 0 ++ [0xFF, 0xFF] ++ a

/-- The device's own address in a row of a port, of the family of `dst`. -/
def rowAddr (e : Eth) (p : TenantId) (dst : List Byte) : List Byte :=
  if dst.take 12 = (mapV4 []) then mapV4 (beBytes 4 e.rows[p].ip4.toNat) else e.rows[p].ip6.toList.flatMap (fun w => beBytes 4 w.toNat)

/-- K's X: the channel index and the epoch, big-endian (R93). -/
def keyInput (c e : Nat) : List Byte := beBytes 4 c ++ beBytes 2 e
def chanKeyOf (k : List Byte) (c e : Nat) : List Byte := kmac256 k (keyInput c e) 32 (ascii "WRD-CK")
def chanSaltOf (k : List Byte) (c e : Nat) : List Byte := kmac256 k (keyInput c e) 4 (ascii "WRD-CS")
/-- The nonce: the salt of epoch `e`, the packet's epoch, direction, 0, seq (R93). -/
def chanNonce (k : List Byte) (c e pe : Nat) (fromDev : Bool) (seq : Nat) : List Byte :=
  chanSaltOf k c e ++ beBytes 2 pe ++ [if fromDev then 1 else 0, 0] ++ beBytes 4 seq

/-- The flags of a packet (Table 04.2). -/
structure WrdFlags where
  enc : Bool := true
  retx : Bool := false
  ackreq : Bool := false
  deriving DecidableEq, Repr

/-- The common header (Table 04.2). -/
def wrdHead (op : Nat) (f : WrdFlags) (epoch : Nat) (peer : W32) (chan seq : Nat) : List Byte :=
  [byteOf (0x10 + op), byteOf (b2n f.enc * 128 + b2n f.retx * 64 + b2n f.ackreq * 32)] ++ beBytes 2 epoch ++ beBytes 4 peer.toNat ++
  beBytes 4 chan ++ beBytes 4 seq

/-- A packet sealed under the channel's key of epoch `e` (R93). -/
def sealPacket (lk : List Byte) (c e seq : Nat) (hdr pt : List Byte) : List Byte :=
  hdr ++ gcmSeal (chanKeyOf lk c e) (chanNonce lk c e e true seq) hdr pt

/-- The seq of the next packet on a channel: it restarts at 0 with the first packet under a later epoch (R94). The epoch is the highest
under which an authenticated packet came (R95), and before any came the one that CHAN_KEY installed (notes/assumptions/24.md). -/
def nextSeq (x : Chan) : Nat := if x.txEpoch = x.rxHigh then x.txSeq else 0

/-- May a packet go out on a channel through a half-port: the channel open and keyed, the port in an Ethernet mode with its link (R84,
R98)? -/
def mayTransmit (s : State) (x : Chan) (p : PortId) (half : Bool) : Bool := x.state == .opened && x.linkKey.isSome && ethUp s.eth[p] half

/-- Put a datagram on its port. -/
def emitGram (s : State) (d : Datagram) : State :=
  emitOut (modEth s d.port (fun e => { e with txFrames := e.txFrames + 1 })) (.wrdPacket d)

/-- Send a packet on a channel whose context is `x`: its seq steps (R94); `way` is the datagram but for its payload. -/
def sendSealed (s : State) (c : Nat) (x : Chan) (way : Datagram) (op : Nat) (f : WrdFlags) (peer : W32) (body pt : List Byte) : State :=
  let q := nextSeq x
  let s1 := putChan s c { x with txEpoch := x.rxHigh, txSeq := q + 1 }
  emitGram s1 { way with payload := sealPacket (x.linkKey.getD []) c x.rxHigh q (wrdHead op f x.rxHigh peer c q ++ body) pt }

/-! ## Replies (R92, R94, R98, R117) -/

/-- The opcode of a reply (Table 04.2). -/
def replyOp : Reply → Nat
  | .ack _ _ _ _ => 3
  | .nak _ _ => 4
  | .hold _ _ => 5

/-- A reply header, +0x10 onward (Table 04.4). -/
def replyBody (r : MsgRef) (rep : Reply) : List Byte :=
  let head := beBytes 4 r.shelfmark.toNat ++ beBytes 4 r.msgId.toNat
  let echo := beBytes 4 r.seq.toNat
  let tail := List.replicate 8 0
  match rep with
  | .ack st ce pr bitmap => head ++ [byteOf st, byteOf ce, byteOf (b2n pr), 0] ++ echo ++ beBytes 8 bitmap ++ tail
  | .nak code detail => head ++ beBytes 2 code ++ [0, 0] ++ echo ++ beBytes 8 detail ++ tail
  | .hold reason us => head ++ beBytes 2 reason ++ [0, 0] ++ echo ++ beBytes 8 us ++ tail

/-- The way back of a reply: the source address and UDP source port of the segment that caused it (R92), to the next-hop MAC `mac`
(R86), marked ECT(0). -/
def replyWay (s : State) (r : MsgRef) (mac : List Byte) : Datagram where
  port := r.port
  half := r.half
  mac := mac
  vlan := r.vlan
  src := rowAddr s.eth[r.port] r.row r.src
  dst := r.src
  ecn := 2
  srcPort := 0
  dstPort := r.udp
  payload := []

/-- Count a packet that is discarded with no reply (R119). -/
def noReply (s : State) : State := modTrn s (fun t => { t with noReply := t.noReply + 1 })

def isHold : Reply → Bool
  | .hold _ _ => true
  | _ => false
def isNak : Reply → Bool
  | .nak _ _ => true
  | _ => false
def isAck : Reply → Bool
  | .ack _ _ _ _ => true
  | _ => false

/-- The context as a reply leaves it: an ACK carries and clears ce_count, an authenticated NAK counts toward TRN_VIOL_LIM (R104, R117). -/
def repliedChan (now : W64) (x : Chan) (rep : Reply) : Chan :=
  let ms := now.toNat / 1000000
  { x with ceCount := if isAck rep then 0 else x.ceCount, nakMs := if isNak rep then ms else x.nakMs,
           nakCount := if isNak rep then (if x.nakMs = ms then x.nakCount + 1 else 1) else x.nakCount }

/-- Send a reply under the channel's key: a HOLD is counted, and an authenticated NAK may reset the channel (R104). Where the channel is
no longer open or the port carries no Ethernet traffic, no reply can go out: the packet behind a NAK or HOLD is counted as without
reply (notes/assumptions/24.md). -/
def reply (s : State) (r : MsgRef) (rep : Reply) : State :=
  match getChan s r.chan with
  | none => s
  | some x =>
    if !mayTransmit s x r.port r.half then (if isAck rep then s else noReply s)
    else if 2 ^ 32 ≤ nextSeq x then resetChan s r.chan codeChannelReset
    else
      let y := repliedChan s.alm.t x rep
      let s1 := sendSealed s r.chan y (replyWay s r x.mac) (replyOp rep) {} r.replyChan (replyBody r rep) []
      let s2 := modTrn s1 (fun t => { t with holds := if isHold rep then t.holds + 1 else t.holds })
      if isNak rep && decide (s.trn.violLim.toNat < y.nakCount) then resetChan s2 r.chan codeViolationLimit else s2

/-- Answer ACK with a status (0 COMMITTED, 1 DUPLICATE, 2 PARTIAL), filling ce_count and PRESSURE (Table 04.4, R117). -/
def replyAck (s : State) (r : MsgRef) (status bitmap : Nat) : State :=
  match getChan s r.chan with
  | none => s
  | some x =>
    let pr := match partTenant x.part with
      | some p => pressure s p
      | none => false
    reply s r (.ack status x.ceCount pr bitmap)

/-- HOLD with TRN_HOLD_MIN, or 10,000 µs for SHED (Table 04.8). -/
def replyHold (s : State) (r : MsgRef) (reason : Nat) : State :=
  reply s r (.hold reason (if reason = codeShed then 10000 else s.trn.holdMin.toNat))

/-- The next-hop MAC that a channel's context holds; with no context it is a free value (notes/assumptions/49.md). -/
def replyMac (s : State) (chan : Nat) : List Byte × State :=
  match getChan s chan with
  | some x => (x.mac, s)
  | none => ((beBytes 6 (drawFree s (2 ^ 48)).1), (drawFree s (2 ^ 48)).2)

/-- An unauthenticated reply, ENC = 0 and no tag: at most one per channel per 100 µs, else the packet is counted (R98). -/
def replyUnauth (s : State) (r : MsgRef) (rep : Reply) : State :=
  if !ethUp s.eth[r.port] r.half then noReply s
  else if rateOk s (.unauth r.chan) 100000 then
    let m := replyMac (rateMark s (.unauth r.chan)) r.chan
    let s1 := modTrn m.2 (fun t => { t with holds := if isHold rep then t.holds + 1 else t.holds })
    emitGram s1 { replyWay s r m.1 with payload := wrdHead (replyOp rep) { enc := false } 0 r.replyChan r.chan 0 ++ replyBody r rep }
  else modTrn s (fun t => { t with suppressed := t.suppressed + 1 })

/-! ## Messages that the device sends (R90, R91, R118, R230, R292) -/

/-- Bits of a full segment bitmap. -/
def segCount (len : Nat) : Nat := ceilDiv len 8192

/-- msg_len of an own message: the bytes that hold data, in whole 64 bytes (notes/assumptions/49.md). -/
def txLen (m : TxMsg) : Nat := max 1 (ceilDiv m.bytes.length 64) * 64
def txSegs (m : TxMsg) : List Nat := List.range (segCount (txLen m))
def segLenAt (len k : Nat) : Nat := min 8192 (len - 8192 * k)

/-- The data header of segment `k`, +0x10 onward (Table 04.3). -/
def dataBody (m : TxMsg) (k : Nat) : List Byte :=
  beBytes 4 m.shelfmark.toNat ++ beBytes 4 m.msgId.toNat ++ beBytes 4 (txLen m) ++ beBytes 4 (8192 * k) ++
  beBytes 8 (if m.put then m.winOff else 0) ++ beBytes 2 (segLenAt (txLen m) k) ++ List.replicate 6 0

/-- The plaintext of segment `k`: the tile header before the payload of segment 0 (R91). -/
def segPlain (m : TxMsg) (k : Nat) : List Byte :=
  (if k = 0 then m.hdr else []) ++ padTo (segLenAt (txLen m) k) (bslice m.bytes (8192 * k) (segLenAt (txLen m) k))

/-- The half-ports, and the first of a channel's allowed ports that carries Ethernet traffic (notes/assumptions/49.md). -/
def halfPorts : List (PortId × Bool) := allPorts.flatMap (fun p => [(p, false), (p, true)])
def txPort (s : State) (x : Chan) : Option (PortId × Bool) := halfPorts.find? (fun h => bitOf x.portMask h.1.1 && ethUp s.eth[h.1] h.2)

/-- Send one segment of an own message; nothing goes out on a channel that cannot send, and a seq that would wrap resets it (R94). The
segments of a message take the channel's UDP source ports in turn, at most its path count (R118). -/
def sendSeg (s : State) (m : TxMsg) (k : Nat) (f : WrdFlags) : State :=
  match getChan s m.chan with
  | none => s
  | some x =>
    match txPort s x with
    | none => s
    | some (p, half) =>
      if !mayTransmit s x p half then s
      else if 2 ^ 32 ≤ nextSeq x then resetChan s m.chan codeChannelReset
      else
        let e := s.eth[p]
        let row : TenantId := (partTenant x.part).getD 0
        let way : Datagram := { port := p, half := half, mac := x.mac, vlan := if x.vlan = 0 then none else some x.vlan, src := rowAddr e row x.peer,
                                dst := x.peer, ecn := 2, srcPort := k % max 1 x.paths, dstPort := e.udp.toNat, payload := [] }
        let s1 := sendSealed s m.chan x way (if m.put then 2 else 1) f (word32 (Config.peerChannel m.chan % 2 ^ 18)) (dataBody m k) (segPlain m k)
        modTrn s1 (fun t => { t with tx := t.tx.map (fun y =>
          if y.chan = m.chan ∧ y.msgId = m.msgId ∧ y.shelfmark = m.shelfmark then { y with sent := y.sent ||| 2 ^ k } else y) })

/-- Send segments of an own message. -/
def sendSegs (s : State) (m : TxMsg) (ks : List Nat) (f : WrdFlags) : State := ks.foldl (fun s k => sendSeg s m k f) s

/-- Does a HOLD forbid sending on a channel (R118)? -/
def heldOff (s : State) (c : Nat) : Bool :=
  match getChan s c with
  | some x => decide (s.alm.t.toNat < x.holdUntil.toNat)
  | none => true

/-- A new own message: its segments go out at once, or, while a HOLD runs, when its retransmission timeout next comes (R118). -/
def sendMessage (s : State) (m : TxMsg) : State :=
  let s1 := modTrn s (fun t => { t with tx := t.tx ++ [m] })
  if heldOff s m.chan then s1 else sendSegs s1 m (txSegs m) {}

/-! ## Contexts on chip (R99 to R103) -/

/-- A tenant's contexts on chip. -/
def cachedOf (s : State) (p : TenantId) : List (Nat × Chan) :=
  s.trn.chans.filter (fun c => c.2.cached && c.2.part == tenantPart p)

/-- The least recently used unpinned context of a tenant's share. -/
def lruOf (s : State) (p : TenantId) : Option Nat :=
  (((cachedOf s p).filter (fun c => !c.2.pinned)).foldl
    (fun (acc : Option (Nat × Nat)) c => match acc with
      | none => some (c.1, c.2.lastUse)
      | some (k, u) => if c.2.lastUse < u then some (c.1, c.2.lastUse) else some (k, u)) none).map (·.1)

/-- May contexts be spilled (R100, R314)? -/
def canSpill (s : State) : Bool := s.trn.ctxValid && s.link.cachemem

/-- The key that seals spilled contexts, derived afresh at every boot (R339). -/
def contextKey (s : State) : List Byte := kmac256 (kmac256 Config.rootSecret [] 32 (ascii "WY-KWK")) s.rot.bootNonce 32 (ascii "WYCTX")

/-- Where a context lies in the spill area (R100). -/
def spillAddr (s : State) (c : Nat) : W64 := s.trn.ctxBase + word64 (256 * c)

/-- Spill a context: its 256 sealed bytes go to the spill area through CXL.cache (R100). Their layout is not published: they are a
free value under the context key. -/
def spillChan (s : State) (c : Nat) : State :=
  let d := drawFree s (2 ^ 64)
  let s1 := modChan d.2 c (fun x => { x with cached := false })
  emitOut s1 (.cacheWrite (spillAddr s c) (padTo 256 (Config.sealedContext (contextKey s) c d.1)))

/-- Make room for one more context in a tenant's share, spilling the least recently used unpinned one; none when it cannot. -/
def makeRoom (s : State) (p : TenantId) : Option State :=
  if (cachedOf s p).length < (getShare s p).contexts then some s
  else if canSpill s then (lruOf s p).map (spillChan s)
  else none

/-- Use a context: it becomes the most recently used. -/
def touchChan (s : State) (c : Nat) : State :=
  let s1 := modTrn s (fun t => { t with useCount := t.useCount + 1 })
  modChan s1 c (fun x => { x with lastUse := s.trn.useCount })

/-- Is a RECV record of a running image on this channel (R292)? -/
def reduceChan (s : State) (c : Nat) : Bool :=
  allTenants.any (fun p =>
    let sp := s.sch.parts[p]
    (sp.state == .running || sp.state == .swapPending) &&
      (match sp.running with
       | some i => i.xfers.any (fun x => !x.send && x.eth && x.chan == c)
       | none => false))

/-- The job's INGEST parameter set in a bay (R181, Table 07.1). -/
def ingestSet (s : State) (b : BayId) (job : W32) : Option ParamSet :=
  s.bays[b].lattice.psets.find? (fun p => p.ready && p.job == job && bitOf p.conv 3)

end Sys2Proof.Machine
end

