-- ==== Sys2Proof/Machine/Intake.lean ====
section
/-! DEFINITION. Intake: frames (R84 to R88), WRD packets (R89 to R110, R116, R447), message completion and its rows. -/

namespace Sys2Proof.Machine

/-! ## Ethernet links and frames -/

/-- Is a configuration valid (R120): a mode of Table 04.1, the MTU in range, the valid rows' weights at most 256 together? -/
def ethCfgOk (c : EthCfg) : Bool :=
  c.mode.toNat ≤ 5 && 8368 ≤ c.mtu.toNat && c.mtu.toNat ≤ 9216 &&
  ((c.rows.toList.filter (·.valid)).map (·.weight)).foldl (· + ·) 0 ≤ 256

/-- Put the configuration as written in force; an invalid one leaves the previous valid one (R120). -/
def ethSettle (e : Eth) : Eth :=
  if ethCfgOk e.wr then
    { e with modeV := e.wr.mode, mtuV := e.wr.mtu, udp := e.wr.udp, macLo := e.wr.macLo, macHi := e.wr.macHi, rows := e.wr.rows }
  else e

/-- Write an address row of a port. -/
def ethRow (e : Eth) (p : TenantId) (f : AddrRow → AddrRow) : Eth := ethSettle { e with wr := { e.wr with rows := vmod e.wr.rows p f } }

/-- A half-port's link: up, or in auto-negotiation and link training (R85). -/
def halfLink (e : Eth) (half up : Bool) : Eth :=
  if half then { e with link1 := up, training1 := !up } else { e with link0 := up, training := !up }

/-- A port in a new mode: no link, and each half-port of an Ethernet mode in training (R85). -/
def ethTrain (e : Eth) : Eth := { e with link0 := false, link1 := false, training := ethMode e false, training1 := ethMode e true }

/-- ETH_LINK_UP (R85): auto-negotiation and link training have ended. -/
def execEthLinkUp (p : PortId) (half : Bool) (s : State) : Res :=
  .next (if !s.pow.inReset && s.pow.refs.getLsbD 1 && ethMode s.eth[p] half then modEth s p (fun e => halfLink e half true) else s)

/-- The one's-complement sum of 16-bit words, folded (fuel enough for 64 KiB). -/
def sum16 (bs : List Byte) : Nat :=
  let t := (chunks 2 bs).foldl (fun acc w => acc + ofBe (padTo 2 w)) 0
  let t := t % 65536 + t / 65536
  t % 65536 + t / 65536

/-- The pseudo-header of a UDP or ICMPv6 checksum. -/
def pseudoHdr (v6 : Bool) (src dst : List Byte) (proto len : Nat) : List Byte :=
  if v6 then src ++ dst ++ beBytes 4 len ++ [0, 0, 0, byteOf proto] else src ++ dst ++ [0, byteOf proto] ++ beBytes 2 len

/-- Does a row match the frame's VLAN (R86 step 1)? -/
def rowVlan (r : AddrRow) (vlan : Option Nat) : Bool :=
  r.valid && (match vlan with
    | none => r.untagged
    | some v => !r.untagged && v == r.vlan)

/-- The row of a destination address (R86 step 3, R87). -/
def rowOf (e : Eth) (vlan : Option Nat) (v6 : Bool) (dst : List Byte) : Option TenantId :=
  allTenants.find? (fun p =>
    let r := e.rows[p]
    rowVlan r vlan &&
      (if v6 then r.v6 && dst == r.ip6.toList.flatMap (fun w => beBytes 4 w.toNat)
       else r.v4 && dst == beBytes 4 r.ip4.toNat))

/-- The port's MAC address (Table 04.12). -/
def portMac (e : Eth) : List Byte := beBytes 2 e.macHi.toNat ++ beBytes 4 e.macLo.toNat

/-- What a frame is. -/
inductive FrameKind where
  | pause
  | wrd (pkt : RxPacket)
  | answer (bytes : List Byte)
  | bad
  deriving DecidableEq, Repr

/-- UDP to the WRD port with a correct checksum (R86 step 4); `off` is where UDP starts. -/
def udpFrame (e : Eth) (p : PortId) (half : Bool) (vlan : Option Nat) (v6 ce : Bool) (src dst f : List Byte) (off : Nat) : FrameKind :=
  let len := be16 f (off + 4)
  let seg := bslice f off len
  let ck := be16 f (off + 6)
  let ok := if ck = 0 then !v6 else sum16 (pseudoHdr v6 src dst 17 len ++ seg) == 0xFFFF
  match rowOf e vlan v6 dst with
  | none => .bad
  | some row =>
    if be16 f (off + 2) = e.udp.toNat ∧ 8 ≤ len ∧ seg.length = len ∧ ok then
      .wrd { port := p, row := row, vlan := vlan, src := if v6 then src else mapV4 src, ce := ce, bytes := seg.drop 8, half := half,
             udp := be16 f off }
    else .bad

/-- The head of an answer frame: back to the asker, with the same tag. -/
def answerHead (e : Eth) (f : List Byte) (vlan : Option Nat) (etype : Nat) : List Byte :=
  bslice f 6 6 ++ portMac e ++ (match vlan with
    | some _ => bslice f 12 4
    | none => []) ++ beBytes 2 etype

/-- Neighbor Solicitation for an address of a valid row: the Neighbor Advertisement that answers it (R86 step 5). -/
def neighborFrame (e : Eth) (vlan : Option Nat) (f : List Byte) (off : Nat) : FrameKind :=
  let target := bslice f (off + 48) 16
  if u8 f (off + 40) = 135 ∧ u8 f (off + 7) = 255 then
    match rowOf e vlan true target with
    | none => .bad
    | some _ =>
      let dst := bslice f (off + 8) 16
      let body := [0x60, 0, 0, 0] ++ target ++ [2, 1] ++ portMac e
      let ck := 0xFFFF - sum16 (pseudoHdr true target dst 58 32 ++ [136, 0, 0, 0] ++ body)
      .answer (answerHead e f vlan 0x86DD ++ [0x60, 0, 0, 0] ++ beBytes 2 32 ++ [58, 255] ++ target ++ dst ++
        [136, 0] ++ beBytes 2 ck ++ body)
  else .bad

/-- An ARP request for an address of a valid row: the reply (R86 step 5). -/
def arpFrame (e : Eth) (vlan : Option Nat) (f : List Byte) (off : Nat) : FrameKind :=
  let tpa := bslice f (off + 24) 4
  if be16 f (off + 6) = 1 then
    match rowOf e vlan false tpa with
    | none => .bad
    | some _ => .answer (answerHead e f vlan 0x0806 ++ bslice f off 6 ++ beBytes 2 2 ++ portMac e ++ tpa ++ bslice f (off + 8) 10)
  else .bad

/-- The acceptance checks of R86 on a frame without its FCS. Of the MAC control frames only PAUSE and PFC are counted as such (R85). -/
def frameKind (e : Eth) (p : PortId) (half : Bool) (f : List Byte) : FrameKind :=
  let tagged := be16 f 12 == 0x8100
  let vlan := if tagged then some (be16 f 14 % 4096) else none
  let off := if tagged then 18 else 14
  let et := be16 f (off - 2)
  if et = 0x8808 then (if be16 f off = 1 ∨ be16 f off = 0x0101 then .pause else .bad)
  else if et = 0x0800 then
    (if u8 f off = 0x45 ∧ be16 f (off + 6) % 0x4000 = 0 ∧ u8 f (off + 9) = 17 ∧ be16 f (off + 2) ≤ e.mtuV.toNat then
      udpFrame e p half vlan false (u8 f (off + 1) % 4 == 3) (bslice f (off + 12) 4) (bslice f (off + 16) 4) f (off + 20)
    else .bad)
  else if et = 0x86DD then
    (if u8 f off / 16 ≠ 6 ∨ e.mtuV.toNat < 40 + be16 f (off + 4) then .bad
     else if u8 f (off + 6) = 17 then
      udpFrame e p half vlan true (u8 f (off + 1) / 16 % 4 == 3) (bslice f (off + 8) 16) (bslice f (off + 24) 16) f (off + 40)
     else if u8 f (off + 6) = 58 then neighborFrame e vlan f off
     else .bad)
  else if et = 0x0806 then arpFrame e vlan f off
  else .bad

/-- FRAME_RECEIVE (R86). -/
def execFrameReceive (p : PortId) (half : Bool) (frame : List Byte) (s : State) : Res :=
  .next (
    let e := s.eth[p]
    if !ethUp e half then s else
      let s1 := modEth s p (fun e => { e with rxFrames := e.rxFrames + 1 })
      match frameKind e p half frame with
      | .pause => modEth s1 p (fun e => { e with pauseRx := e.pauseRx + 1 })
      | .bad => modEth s1 p (fun e => { e with rxDiscard := e.rxDiscard + 1 })
      | .answer b => emitOut (modEth s1 p (fun e => { e with txFrames := e.txFrames + 1 })) (.arpReply p b)
      | .wrd k => modTrn s1 (fun t => { t with rx := t.rx ++ [k] }))

/-! ## WRD packets -/

/-- The fields of a WRD packet (Tables 04.2 and 04.3). -/
structure Wrd where
  ver : Nat
  op : Nat
  enc : Bool
  ackreq : Bool
  flagsResv : Nat
  epoch : Nat
  chanResv : Nat
  chan : Nat
  replyChan : W32
  seq : W32
  shelf : W32
  msgId : W32
  msgLen : Nat
  segOff : Nat
  winOff : Nat
  segLen : Nat
  deriving DecidableEq, Repr

def parseWrd (b : List Byte) : Wrd where
  ver := u8 b 0 / 16
  op := u8 b 0 % 16
  enc := bitOf (u8 b 1) 7
  ackreq := bitOf (u8 b 1) 5
  flagsResv := u8 b 1 % 32
  epoch := be16 b 2
  chanResv := bitsOf (be32 b 4) 31 18
  chan := bitsOf (be32 b 4) 17 0
  replyChan := word32 (be32 b 8)
  seq := word32 (be32 b 12)
  shelf := word32 (be32 b 16)
  msgId := word32 (be32 b 20)
  msgLen := be32 b 24
  segOff := be32 b 28
  winOff := ofBe (bslice b 32 8)
  segLen := be16 b 40

def isData (w : Wrd) : Bool := w.op == 1 || w.op == 2

/-- What a reply to a packet names: the fields of its own header (notes/assumptions/24.md). -/
def refOf (w : Wrd) (k : RxPacket) : MsgRef :=
  { chan := w.chan, shelfmark := w.shelf, msgId := w.msgId, seq := w.seq, port := k.port, replyChan := w.replyChan, half := k.half,
    vlan := k.vlan, row := k.row, src := k.src, udp := k.udp }

/-- The epochs a context accepts: e, e + 1 once installed, and the old epoch for its 10 ms (R95). -/
def epochKnown (x : Chan) (now : W64) (e : Nat) : Bool :=
  e == x.epoch || (x.nextInst && e == x.epoch + 1) ||
    (match x.old with
     | some (o, t) => e == o && decide (now.toNat < t.toNat)
     | none => false)

/-- The epoch whose key authenticates a packet: its own when known, else e (R447 step 3). -/
def authEpoch (x : Chan) (now : W64) (e : Nat) : Nat := if epochKnown x now e then e else x.epoch

/-- Format checks of R447 step 5. -/
def formatOk (w : Wrd) (b : List Byte) : Bool :=
  let enc := if w.enc then 16 else 0
  w.ver == 1 && 1 ≤ w.op && w.op ≤ 5 && w.flagsResv == 0 &&
  (if isData w then
    w.segOff % 8192 == 0 && w.segOff < w.msgLen && w.msgLen % 64 == 0 && 64 ≤ w.msgLen &&
    w.msgLen ≤ (if w.op = 1 then 65536 else 524288) && w.segLen == min 8192 (w.msgLen - w.segOff) &&
    resvZero b 42 6 && (if w.op = 1 then w.winOff == 0 else w.winOff % 64 == 0) &&
    b.length == 48 + w.segLen + (if w.op = 1 ∧ w.segOff = 0 then 64 else 0) + enc
  else
    b.length == 48 + enc && resvZero b 40 8 && u8 b 27 == 0 &&
    (if w.op = 3 then u8 b 26 / 2 == 0 else u8 b 26 == 0) && (if w.op = 5 then be32 b 32 == 0 else true))

def segsFull (m : Msg) : Bool := m.segs == 2 ^ segCount m.msgLen - 1

def findMsg (s : State) (c : Nat) (sm id : W32) : Option Msg :=
  s.trn.msgs.find? (fun m => m.chan == c && m.shelfmark == sm && m.msgId == id)
def dropMsg (s : State) (c : Nat) (sm id : W32) : State :=
  modTrn s (fun t => { t with msgs := t.msgs.filter (fun m => !(m.chan == c && m.shelfmark == sm && m.msgId == id)) })
def putMsg (s : State) (m : Msg) : State :=
  let s1 := dropMsg s m.chan m.shelfmark m.msgId
  modTrn s1 (fun t => { t with msgs := t.msgs ++ [m] })
/-- A message ends: it leaves its slot or tracker, and its window may settle. -/
def endMsg (s : State) (m : Msg) : State :=
  let s1 := dropMsg s m.chan m.shelfmark m.msgId
  if m.reduce then s1 else settleWin s1 (winIndex m.shelfmark)

/-- The message's bytes from its segments, unsent bytes not listed. -/
def msgBytes (m : Msg) : List Byte :=
  (List.range (segCount m.msgLen)).flatMap (fun i => (lookup (i * 8192) m.data).getD [])

/-- NAK with the daybook entry that Table 04.8 gives its code: the channel's partition. -/
def nakLog (s : State) (r : MsgRef) (part : PartId) (epoch code check : Nat) : State :=
  reply (logC s part code r.chan r.shelfmark r.msgId epoch check) r (.nak code check)

/-- NAK WINDOW_VIOLATION: both ends (R116). -/
def nakViolation (s : State) (r : MsgRef) (part : PartId) (epoch check : Nat) : State :=
  let own := match getWin s (winIndex r.shelfmark) with
    | some w => if w.part = part then s else logC s w.part codeWindowViolation 0 r.shelfmark 0 0 check
    | none => s
  reply (logC own part codeWindowViolation r.chan r.shelfmark r.msgId epoch check) r (.nak codeWindowViolation check)

/-- The result of step 1 of Table 04.7 on a new message. -/
inductive WinCheck where
  | ok (w : Window)
  | stale
  | closed
  | violation
  deriving DecidableEq, Repr

/-- Step 1 for the first segment (R107, R116): the partition field, then current, then closed, then type and channel. -/
def winCheck (s : State) (sm : W32) (chan : Nat) (part : PartId) (put : Bool) : WinCheck :=
  let i := winIndex sm
  let owner := match winOwner s i with
    | some p => p.1
    | none => part.1
  if winPartField sm ≠ owner then .violation
  else match winCurrent s sm with
    | none => .stale
    | some w =>
      if w.state ≠ .opened then .closed
      else if w.place ≠ put ∨ w.chan ≠ chan then .violation
      else .ok w

/-! ## Completed tiles (Table 04.7) -/

/-- What the completion checks give. -/
inductive TileVerdict where
  | stale | closed | violation (check : Nat) | malformed (check : Nat) | rejected | duplicate (b : BayId)
  | pass (w : Window) (b : BayId) (x : Bin) (t : Tile)
  deriving DecidableEq, Repr

/-- The tile of a complete TILE message: header, and payload with unsent bytes zero. -/
def msgTile (m : Msg) : Tile := { hdr := parseHdr (m.hdr.getD []), payload := msgBytes m }

/-- Fields that a tile from outside carries as zero (R58). -/
def outsideOk (h : TileHdr) : Bool :=
  !h.poison && !h.marker && !h.noised && h.noiseBound == 0 && h.poisonCause == 0 && h.stream == 0 && h.ordinal == 0

/-- Step 4: accession and place. -/
def accessionOk (w : Window) (cap size : Nat) (t : Tile) : Bool :=
  let h := t.hdr
  let k := h.tileIndex - w.firstTile
  let n := ceilDiv w.span cap
  let final := w.firstTile + n - 1
  w.firstTile ≤ h.tileIndex && h.sliceOffset == w.base + k * cap &&
  (if h.sparse then (tileElems size t).all (fun p => h.sliceOffset + p.1 < w.base + w.span) && h.sliceOffset < w.base + w.span
   else h.sliceOffset + h.count ≤ w.base + w.span &&
     h.count == (if h.tileIndex = final then w.span - (n - 1) * cap else cap)) &&
  h.last == (h.tileIndex == w.lastTile)

/-- The tile's number e in its bin (R135). -/
def binEntry (x : Bin) (h : TileHdr) : Nat := (h.contributor - x.clo) * x.t + (h.tileIndex - x.firstTile)

/-- Table 04.7, in order. -/
def tileVerdict (s : State) (m : Msg) : TileVerdict :=
  let t := msgTile m
  let h := t.hdr
  match winCurrent s m.shelfmark with
  | none => .stale
  | some w =>
    if w.state = .closed then .closed
    else if w.place ∨ w.chan ≠ m.chan then .violation 1
    else
      let mods := modsOf s w.part h.job
      if !(hdrOk mods h && outsideOk h) then .malformed 2
      else if !(h.job == w.job && h.ring == w.ring && h.etype == w.etype && (!h.sparse || w.sparseOk) &&
          w.clo ≤ h.contributor && h.contributor < w.chi) then .violation 3
      else
        match ringOf mods h.ring with
        | none => .malformed 2
        | some r =>
          if !accessionOk w (denseCap r.size) r.size t then .rejected
          else if !(payloadShapeOk r.size t && canonicalOk r t) then .malformed 5
          else
            match handleBin s w.part w.bin with
            | none => .stale
            | some (b, x) =>
              if locBit s (binLoc b x) (bitmapOff x) (binEntry x h) then .duplicate (serveBay b x) else .pass w b x t

/-- Does Intake feed an input port? -/
def intakeFed (ip : InPort) : Bool :=
  ip.conn && (match ip.prod with
    | some (.trn, _) => true
    | _ => false)

/-- The input port of a bay's Bin station that Intake feeds for a stream (R107). -/
def intakePort (s : State) (b : BayId) (stream : Nat) : Option PortId :=
  allPorts.find? (fun p => intakeFed s.bays[b].bin.ins[p] && s.bays[b].bin.ins[p].stream == stream)

/-- The port for a bin's tiles: after a take-over the mirror bay's port for the stream, else its lowest Intake-fed port
(notes/assumptions/15.md). -/
def binPort (s : State) (b : BayId) (x : Bin) (stream : Nat) : Option PortId :=
  if x.usingMirror then
    (intakePort s (serveBay b x) stream).or (allPorts.find? (fun p => intakeFed s.bays[serveBay b x].bin.ins[p]))
  else intakePort s b stream

/-- Hand a tile to the Bin station: Intake writes stream, ordinal and, on an RNS ring, noise_bound (R58, R181). -/
def handTile (s : State) (home : BayId) (p : PortId) (x : Bin) (t : Tile) (ref : MsgRef) : State :=
  let b := serveBay home x
  let ip := s.bays[b].bin.ins[p]
  let nb := if 3 < t.hdr.ring then (match ingestSet s b t.hdr.job with
    | some ps => ps.fresh
    | none => 0xFFFF) else 0
  let t' := { t with hdr := { t.hdr with stream := ip.stream, ordinal := ip.sent % 2 ^ 32, noiseBound := nb } }
  let sp := spendSlot s (.bay b .bin) p
  let s0 := modIn sp.2 (.bay b .bin) p (fun q => { q with sent := q.sent + 1 })
  let s1 := match ip.prod with
    | some (r, n) => modOut s0 r n (fun o => { o with tiles := o.tiles + 1 })
    | none => s0
  { s1 with tokFlight := s1.tokFlight ++ [(.bay b .bin, p,
      { tile := t', slot := sp.1, origin := some ref, target := some (home, x.index, binGenOf s home x.index) })] }

/-- What a handed-on tile keeps of its message: the bitmap, msg_len and the tile header (R105, R108). -/
def msgRef (m : Msg) : MsgRef := { m.ref with segs := m.segs, msgLen := m.msgLen, hdr := m.hdr.getD [] }

/-- A complete TILE message for a window (R107). Without a connection it is answered HOLD PAUSED; without a credit it waits. -/
def finishTile (s : State) (m : Msg) (epoch : Nat) : State :=
  let fail (code check : Nat) : State := nakLog (endMsg s m) m.ref m.part epoch code check
  match tileVerdict s m with
  | .stale => fail codeStaleShelfmark 1
  | .closed => reply (endMsg s m) m.ref (.nak codeWindowClosed 1)
  | .violation k => nakViolation (endMsg s m) m.ref m.part epoch k
  | .malformed k => fail codeMalformedTile k
  | .rejected => fail codeAccessionRejected 4
  | .duplicate b => replyAck (endMsg (modMem s b (fun y => { y with dups := y.dups + 1 })) m) m.ref 1 m.segs
  | .pass w b x t =>
    match binPort s b x w.stream with
    | none => replyHold (endMsg s m) m.ref codePaused
    | some p => if s.bays[serveBay b x].bin.ins[p].avail = 0 then s else endMsg (handTile s b p x t (msgRef m)) m

/-- A complete TILE message of an ETH transfer: checks 2 and 5, then Reduce ingress (R292). -/
def finishReduce (s : State) (m : Msg) (epoch : Nat) : State :=
  let t := msgTile m
  let h := t.hdr
  let fail (check : Nat) : State := nakLog (endMsg s m) m.ref m.part epoch codeMalformedTile check
  match partTenant m.part with
  | none => endMsg s m
  | some p =>
    let sp := s.sch.parts[p]
    let mods := modsOf s m.part h.job
    if !(hdrOk mods h && outsideOk { h with poison := false, poisonCause := 0, marker := false, noised := false, noiseBound := 0 }) then fail 2
    else
      match ringOf mods h.ring with
      | none => fail 2
      | some r =>
        if !h.marker && !(payloadShapeOk r.size t && (h.poison || canonicalOk r t)) then fail 5
        else
          let step16 := m.msgId.toNat / 65536
          let cur := sp.step.toNat
          let step := if cur % 65536 = step16 then cur else step16
          let plan := match sp.running with
            | some i => i.planId
            | none => 0
          let s1 := { s with red := { s.red with inq := s.red.inq ++
            [{ port := m.ref.port, part := p, planId := plan, step := step, xfer := m.msgId.toNat % 65536, tile := t, origin := some (msgRef m) }] } }
          dropMsg s1 m.chan m.shelfmark m.msgId

def finishMsg (s : State) (m : Msg) (epoch : Nat) : State := if m.reduce then finishReduce s m epoch else finishTile s m epoch

/-- Is a staged message complete, and does its share hand on (R111)? -/
def mayHand (s : State) (m : Msg) : Bool :=
  !m.put && segsFull m && decide (s.pow.stage < 3) && (match partTenant m.part with
    | some p => shareEn s p && !shareAbort s p
    | none => true)

/-- Messages that wait, complete, for a credit of a Bin station's port: each is tried again. -/
def intakePump (s : State) : State :=
  (s.trn.msgs.filter (mayHand s)).foldl (fun s m =>
    if s.trn.msgs.contains m then (match getChan s m.chan with
      | some x => finishMsg s m x.epoch
      | none => s)
    else s) s

/-! ## A data segment (R105, R106) -/

/-- The 64-byte tile header of a segment that carries one. -/
def segHdr (w : Wrd) (pt : List Byte) : Option (List Byte) := if w.op = 1 ∧ w.segOff = 0 then some (pt.take 64) else none
def segData (w : Wrd) (pt : List Byte) : List Byte := if w.op = 1 ∧ w.segOff = 0 then pt.drop 64 else pt

/-- Place a segment in a message that exists; `r` is the way back to the segment's sender, for the answer it causes (R92). A PUT segment
lands at its own win_off, whatever the message's other segments named (DESIGN CHOICE: the spec does not say that they agree,
notes/assumptions/24.md). -/
def placeSeg (s : State) (m : Msg) (w : Wrd) (r : MsgRef) (pt : List Byte) : State :=
  let bit := w.segOff / 8192
  if bitOf m.segs bit then
    (if w.ackreq then replyAck s r 2 m.segs else s)
  else
    let m1 := { m with segs := m.segs + 2 ^ bit, hdr := (segHdr w pt).or m.hdr, lastT := s.alm.t, ref := r,
                       data := if m.put then [] else insertKey w.segOff (segData w pt) m.data }
    let s1 := if m.put then
        (match winCurrent s m.shelfmark with
         | some win => (match finOpt 16 win.bay with
           | some b => openWrite s b (win.base + w.winOff + w.segOff) (segData w pt)
           | none => s)
         | none => s)
      else s
    let s2 := putMsg s1 m1
    if segsFull m1 then (if m.put then s2 else finishMsg s2 m1 w.epoch)
    else if w.ackreq then replyAck s2 r 2 m1.segs
    else s2

/-- Do two segments of one message disagree in msg_len or in their tile header (R105)? -/
def segConflict (msgLen : Nat) (hdr : Option (List Byte)) (w : Wrd) (pt : List Byte) : Bool :=
  msgLen != w.msgLen ||
    (match segHdr w pt, hdr with
     | some a, some b => a != b
     | _, _ => false)

/-- A segment of a message whose tile is handed on and not yet committed: its slot is held until then (Table 04.16), so the segment is a
duplicate of one held (R106), or disagrees with the message (R105). -/
def handedSeg (s : State) (w : Wrd) : Option MsgRef :=
  if w.op = 1 then (handedMsgs s).find? (fun r => r.chan == w.chan && r.shelfmark == w.shelf && r.msgId == w.msgId) else none
def lateSegment (s : State) (m r : MsgRef) (w : Wrd) (pt : List Byte) (part : PartId) : State :=
  if segConflict m.msgLen (some m.hdr) w pt || !bitOf m.segs (w.segOff / 8192) then nakLog s r part w.epoch codeMessageConflict 0
  else if w.ackreq then replyAck s r 2 m.segs
  else s

/-- The HOLD reason of a share that takes no new segment or message (R111). -/
def shareHold (s : State) (p : TenantId) (newMsg : Bool) : Option Nat :=
  if 3 ≤ s.pow.stage then some codeShed
  else if shareAbort s p then some codePaused
  else if shareDrain s p && newMsg then some codePaused
  else if !shareEn s p then some codePaused
  else none

/-- A PUT segment lies within its window's span (R107). -/
def putInSpan (win : Window) (w : Wrd) : Bool := w.winOff + w.segOff + w.segLen ≤ win.span

/-- The data-header checks of R447 step 6 on a segment for a window. -/
def windowSegment (s : State) (p : TenantId) (w : Wrd) (k : RxPacket) (pt : List Byte) : State :=
  let part := tenantPart p
  let r := refOf w k
  match findMsg s w.chan w.shelf w.msgId with
  | some m =>
    (match shareHold s p false with
     | some reason => replyHold s r reason
     | none =>
       if segConflict m.msgLen m.hdr w pt then nakLog (endMsg s m) r part w.epoch codeMessageConflict 0
       else if m.put != (w.op == 2) then nakViolation s r part w.epoch 1
       else match winCurrent s w.shelf with
         | none => nakLog (endMsg s m) r part w.epoch codeStaleShelfmark 1
         | some win => if m.put && !putInSpan win w then nakViolation s r part w.epoch 1 else placeSeg s m w r pt)
  | none =>
    match shareHold s p (handedSeg s w).isNone with
    | some reason => replyHold s r reason
    | none =>
      match (if (winCurrent s w.shelf).isSome then handedSeg s w else none) with
      | some m => lateSegment s m r w pt part
      | none =>
      match winCheck s w.shelf w.chan part (w.op == 2) with
      | .stale => nakLog s r part w.epoch codeStaleShelfmark 1
      | .closed => reply s r (.nak codeWindowClosed 1)
      | .violation => nakViolation s r part w.epoch 1
      | .ok win =>
        if w.op = 2 ∧ !putInSpan win w then nakViolation s r part w.epoch 1
        else if w.op = 1 ∧ (getShare s p).staging ≤ stagingUsed s p then replyHold s r codeStagingFull
        else if w.op = 2 ∧ (getShare s p).trackers ≤ trackersUsed s p then replyHold s r codeTrackersFull
        else placeSeg s { part := part, chan := w.chan, shelfmark := w.shelf, msgId := w.msgId, put := w.op == 2, msgLen := w.msgLen,
                          lastT := s.alm.t, ref := r } w r pt

/-- A TILE segment with shelfmark zero on a channel that a running RECV names (R292). All tiles of a transfer carry one msg_id, so a
segment that comes after its tile was handed on begins the transfer's next tile. -/
def reduceSegment (s : State) (p : TenantId) (w : Wrd) (k : RxPacket) (pt : List Byte) : State :=
  let r := refOf w k
  match findMsg s w.chan 0 w.msgId with
  | some m =>
    (match shareHold s p false with
     | some reason => replyHold s r reason
     | none =>
       if segConflict m.msgLen m.hdr w pt then nakLog (endMsg s m) r (tenantPart p) w.epoch codeMessageConflict 0 else placeSeg s m w r pt)
  | none =>
    match shareHold s p true with
    | some reason => replyHold s r reason
    | none =>
      if (getShare s p).staging ≤ stagingUsed s p then replyHold s r codeStagingFull
      else placeSeg s { part := tenantPart p, chan := w.chan, shelfmark := 0, msgId := w.msgId, put := false, reduce := true,
                        msgLen := w.msgLen, lastT := s.alm.t, ref := r } w r pt

/-- A data segment: its CE mark is counted (R117); shelfmark zero is for a transfer, and where no running RECV names the channel it is a
violation (R292). -/
def dataSegment (s : State) (p : TenantId) (w : Wrd) (k : RxPacket) (pt : List Byte) : State :=
  let s1 := if k.ce then modChan s w.chan (fun x => { x with ceCount := min 255 (x.ceCount + 1) }) else s
  if w.shelf = 0 then
    (if w.op = 1 ∧ reduceChan s1 w.chan then reduceSegment s1 p w k pt else nakViolation s1 (refOf w k) (tenantPart p) w.epoch 1)
  else windowSegment s1 p w k pt

/-- Is an own message the one that a reply names? -/
def txIs (w : Wrd) (m : TxMsg) : Bool := m.chan == w.chan && m.msgId == w.msgId && (m.shelfmark == w.shelf || (w.op == 4 && w.shelf == 0))

/-- ACK PARTIAL: the segments that the peer holds are noted, and those sent that it lacks go again, unless a HOLD runs (R118). -/
def peerPartial (s : State) (w : Wrd) (bitmap : Nat) : State :=
  match s.trn.tx.find? (txIs w) with
  | none => s
  | some m =>
    let s1 := modTrn s (fun t => { t with tx := t.tx.map (fun y => if txIs w y then { y with acked := y.acked ||| bitmap } else y) })
    if heldOff s m.chan || m.refused then s1
    else sendSegs s1 m ((txSegs m).filter (fun k => bitOf m.sent k && !bitOf (m.acked ||| bitmap) k)) { retx := true }

/-- A reply from a peer: ACK COMMITTED or DUPLICATE and a NAK end the device's own message; a HOLD delays the channel, and an ACK
tells whether the peer is under pressure (R108, R118). -/
def peerReply (s0 : State) (w : Wrd) (b : List Byte) (authentic : Bool) : State :=
  let s := if authentic ∧ w.op = 3 then modChan s0 w.chan (fun x => { x with pressed := bitOf (u8 b 26) 0 }) else s0
  if w.op = 5 then
    modChan s w.chan (fun x => { x with holdUntil := s.alm.t + word64 (be32 b 36 * 1000) })
  else if !authentic then s
  else if w.op = 3 ∧ u8 b 24 ≤ 1 then modTrn s (fun t => { t with tx := t.tx.eraseP (txIs w) })
  else if w.op = 3 then (if u8 b 24 = 2 then peerPartial s w (ofBe (bslice b 32 8)) else s)
  else if w.op = 4 then
    modTrn s (fun t => { t with tx := (t.tx.filter (fun m => !(txIs w m && m.bay.isNone))).map (fun m => if txIs w m then { m with refused := true } else m) })
  else s

/-! ## The checks of R447, in order -/

/-- An authenticated packet under e + 1 makes that epoch current; the old one lasts 10 ms more (R95). -/
def epochSwitch (s : State) (c e : Nat) : State :=
  modChan s c (fun x =>
    let x := if x.nextInst && e == x.epoch + 1 then
      { x with epoch := e, nextInst := false, old := some (x.epoch, s.alm.t + 10000000) } else x
    { x with rxHigh := max x.rxHigh e })

/-- Steps 4 to 6 of R447: epoch, format, data header. Without ENC a packet is taken as unauthenticated: it switches no epoch. -/
def checkedPacket (s : State) (x : Chan) (k : RxPacket) (w : Wrd) (pt : List Byte) : State :=
  let r := refOf w k
  if !epochKnown x s.alm.t w.epoch then nakLog s r x.part w.epoch codeEpochUnknown 0
  else
    let s1 := if w.enc then epochSwitch s w.chan w.epoch else s
    if !formatOk w k.bytes then nakLog s1 r x.part w.epoch codeMalformedSegment 0
    else if isData w then
      (match partTenant x.part with
       | some p => dataSegment s1 p w k pt
       | none => s1)
    else peerReply s1 w k.bytes w.enc

/-- Steps 2 and 3 of R447 on a packet whose context is on chip, then the rest. A packet that came in by another partition's address row
is processed for its channel's partition (DESIGN CHOICE: R447 names no check of the row, notes/assumptions/24.md). -/
def processPacket (s0 : State) (k : RxPacket) : State :=
  let w := parseWrd k.bytes
  match getChan s0 w.chan with
  | none => s0
  | some x =>
    let s := touchChan s0 w.chan
    let vlanOk := (k.vlan.getD 0) == x.vlan
    if k.src ≠ x.peer ∨ !vlanOk ∨ !bitOf x.portMask k.port.1 ∨ (isData w ∧ !w.enc) then
      logC (noReply s) x.part codePeerMismatch w.chan 0 w.seq w.epoch 0
    else if !w.enc then checkedPacket s x k w []
    else
      let lk := x.linkKey.getD []
      let e := authEpoch x s.alm.t w.epoch
      match gcmOpen (chanKeyOf lk w.chan e) (chanNonce lk w.chan e w.epoch false w.seq.toNat) (k.bytes.take 48) (k.bytes.drop 48) with
      | none =>
        let s1 := noReply s
        if rateOk s1 (.authFail w.chan) 1000000 then
          logC (rateMark s1 (.authFail w.chan)) x.part codeAuthFail w.chan 0 w.seq w.epoch 0
        else s1
      | some pt => checkedPacket s x k w pt

/-- Step 1 of R447, then the rest: unknown and reset channels, and a context that is not cached (R101). -/
def packetIn (s : State) (k : RxPacket) : State :=
  let w := parseWrd k.bytes
  let r := refOf w k
  let unknown (part : Option TenantId) : State :=
    let s1 := replyUnauth s r (.nak codeUnknownChannel 0)
    match part with
    | some p => logC s1 (tenantPart p) codeUnknownChannel w.chan 0 w.seq w.epoch 0
    | none => s1
  if w.chanResv ≠ 0 then unknown (chanOwner s w.chan)
  else match getChan s w.chan with
    | none => unknown (chanOwner s w.chan)
    | some x =>
      if !x.cached then
        (match partTenant x.part with
         | none => s
         | some p =>
           if (getShare s p).missKib * 1024 < missUsed s p + missRoom k then
             replyUnauth s r (.hold codeMissFull s.trn.holdMin.toNat)
           else
             let s1 := modTrn s (fun t => { t with miss := t.miss ++ [(w.chan, k)] })
             if s.trn.fetching.contains w.chan then s1
             else emitOut (modTrn s1 (fun t => { t with fetching := t.fetching ++ [w.chan] })) (.cacheRead (spillAddr s w.chan) 256))
      else if x.state = .unkeyed then unknown (partTenant x.part)
      else if x.state = .reset then replyUnauth s r (.nak codeChannelReset 0)
      else processPacket s k

/-- Does a packet of a row wait at a port? -/
def rxWaits (s : State) (p : PortId) (r : TenantId) : Bool := s.trn.rx.any (fun k => k.port == p && k.row == r)

/-- The row that a port's receive pipeline serves next, with the packets it may still serve then (R87): the row in turn while it has both
packets and weight left, else the next row in rotation that has a packet. -/
def rxTurn (s : State) (p : PortId) : Option (TenantId × Nat) :=
  let e := s.eth[p]
  if 0 < e.rxLeft ∧ rxWaits s p e.rxRow then some (e.rxRow, e.rxLeft - 1)
  else (((List.range 16).filterMap (fun i => finOpt 16 ((e.rxRow.1 + 1 + i) % 16))).find? (rxWaits s p)).map (fun r => (r, e.rows[r].weight - 1))

/-- The next accepted packet: of the port whose packet has waited longest, by that port's rotation (R87, notes/assumptions/24.md). -/
def nextRx (s : State) : Option (RxPacket × State) :=
  match s.trn.rx with
  | [] => none
  | h :: _ =>
    match rxTurn s h.port with
    | none => none
    | some (r, left) => (s.trn.rx.find? (fun k => k.port == h.port && k.row == r)).map (fun k =>
        (k, modEth (modTrn s (fun t => { t with rx := t.rx.erase k })) h.port (fun e => { e with rxRow := r, rxLeft := left })))

/-- WRD_PACKET_RECEIVE (R447): the next accepted packet. -/
def execWrdPacketReceive (s : State) : Res :=
  .next (match nextRx s with
    | none => s
    | some (k, s1) => packetIn s1 k)

/-- A context comes on chip (R101, R103): room is made, the context becomes the most recently used, one that fails authentication resets
its channel (R104), and the packets that waited for it are processed in arrival order. -/
def installContext (s : State) (p : TenantId) (chan : Nat) (authentic : Bool) : State :=
  let waiting := (s.trn.miss.filter (fun q => q.1 == chan)).map (·.2)
  let s1 := modTrn s (fun t => { t with fetching := t.fetching.filter (· != chan), miss := t.miss.filter (fun q => q.1 != chan) })
  let s2 := touchChan (modChan ((makeRoom s1 p).getD s1) chan (fun x => { x with cached := true })) chan
  waiting.foldl packetIn (if authentic then s2 else resetChan s2 chan codeContextIntegrity)

/-- CONTEXT_FETCH_COMPLETE (R101). -/
def execContextFetchComplete (chan : Nat) (authentic : Bool) (s : State) : Res :=
  .next (if !s.trn.fetching.contains chan then s else
    match (getChan s chan).bind (fun x => partTenant x.part) with
    | none => s
    | some p => installContext s p chan authentic)

/-- OLD_EPOCH_EXPIRY (R95): the old epoch's 10 ms have passed. -/
def execOldEpochExpiry (chan : Nat) (s : State) : Res :=
  .next (match getChan s chan with
    | some x => (match x.old with
      | some (_, t) => if t.toNat ≤ s.alm.t.toNat then putChan s chan { x with old := none } else s
      | none => s)
    | none => s)

/-- MESSAGE_TIMEOUT (R109): no new segment within TRN_MSG_TMO. A complete message that only waits in staging, for a credit or for EN, has
no segment to come and does not time out (DESIGN CHOICE: R109 does not say, notes/assumptions/24.md). -/
def execMessageTimeout (chan : Nat) (shelfmark msgId : W32) (s : State) : Res :=
  .next (match findMsg s chan shelfmark msgId with
    | some m =>
      if elapsed s m.lastT (s.trn.msgTmo.toNat * 1000) && !segsFull m then reply (endMsg s m) m.ref (.nak codeIncomplete m.segs) else s
    | none => s)

/-- PUT_WRITE_COMPLETE (R108): every byte has been written or discarded. -/
def execPutWriteComplete (chan : Nat) (shelfmark msgId : W32) (s : State) : Res :=
  .next (match findMsg s chan shelfmark msgId with
    | some m => if m.put && segsFull m then replyAck (endMsg s m) m.ref 0 m.segs else s
    | none => s)

end Sys2Proof.Machine
end

