-- ==== Sys2Proof/Machine/Bins.lean ====
section
/-! DEFINITION. The Bin controller: uncorrectable lines, failures, tile additions, the bin commands and the scrub engine
(R125 to R147, R444, R295). -/

namespace Sys2Proof.Machine

/-! ## Lines found uncorrectable (R125, R137) -/

/-- An event of detail form B (Table 16.3), in the daybook of the bay's partition (R150). -/
def logB (s : State) (b : BayId) (src : Page) (code : Nat) (handle : W32) (addr d3 : Nat) : State :=
  logEv s s.bays[b].owner src code handle.toNat (addr % 2 ^ 32) (addr / 2 ^ 32 + b.1 * 256) d3

/-- An event of detail form N. -/
def logN (s : State) (p : PartId) (src : Page) (code d0 d1 : Nat) : State := logEv s p src code d0 d1 0 0

/-- The gleaning round that a sum bin belongs to, by its lead bay (R166). -/
def roundsOf (s : State) (b : BayId) (i gen : Nat) : List BayId :=
  allBays.filter (fun l => match s.bays[l].round with
    | some r => r.bins.any (fun x => x.bay == b && x.index == i && x.gen == gen)
    | none => false)

/-- The Mask stations of a round that ends before it is GLEANED stop. -/
def stopMasks (s : State) (r : Round) : State :=
  if r.state ≠ .masking then s
  else r.bins.foldl (fun s x => modBay s x.bay (fun y => { y with mask := { batches := y.mask.batches, stream := y.mask.stream } })) s

/-- A round returns to IDLE (Table 06.10): a waiting GLEAN_FINISH completes with GLEAN_STATE. -/
def idleRound (s : State) (lead : BayId) : State :=
  match s.bays[lead].round with
  | none => s
  | some r =>
    let s1 := stopMasks (modBay s lead (fun y => { y with round := none })) r
    match r.finish with
    | some (h, _) => complete s1 h codeGleanState []
    | none => s1

/-- Rounds in COLLECTING, RECONSTRUCTING or MASKING that name a bay, or that it leads, return to IDLE when it fails. -/
def idleRoundsOfBay (s : State) (b : BayId) : State :=
  allBays.foldl (fun s l => match s.bays[l].round with
    | some r => if r.state ≠ .gleaned ∧ (l = b ∨ r.bins.any (fun x => x.bay == b)) then idleRound s l else s
    | none => s) s

/-- A bin enters FAILED: its windows are revoked with cause 4 and UE_METADATA is written with the line's address (R137); a BIN_ALLOC
still zeroing it completes (R126). A bin that fails with its bay has no such line: its region's base stands there
(notes/assumptions/25.md). -/
def failBin (s : State) (b : BayId) (i : Nat) (at_ : BayId × Nat) : State :=
  match findBin s b i with
  | none => s
  | some x =>
    let s0 := logB s at_.1 (.st at_.1 .bin) codeUeMetadata (binHandle s b x) at_.2 0
    let s1 := revokeBinWins (modBin s0 b i (fun x => { x with state := .failed, wait := match x.wait with
      | some (.zero _) => none
      | w => w })) b x 4
    match x.wait with
    | some (.zero h) =>
      complete (allBays.foldl (fun s c => modMem s c (fun m => { m with scrub := m.scrub.filter (fun q => q.why != .binAlloc b i h) })) s1)
        h codeBinState (leBytes 4 (binHandle s b x).toNat)
    | _ => s1

/-- What one newly found uncorrectable line of a bay means to the bin copy it lies in (R137). -/
def ueCopy (s : State) (home : BayId) (i : Nat) (l : Loc) (a : Nat) : State :=
  match findBin s home i with
  | none => s
  | some x =>
    let off := a - l.base
    if off < dataLen x then
      (if isGatherer x ∨ x.state = .sum then
        logB (setLocPoison s home l x (off / 65536) codeUncorrectableMemory) l.bay (.st l.bay .bin) codeUeData (binHandle s home x) a 0
       else s)
    else if layoutLen x ≤ off then s
    else if isGatherer x then
      (if x.state = .opened then
        failBin s home i (l.bay, a)
       else if x.state = .sealed then modBin s home i (fun x => { x with metaUe := true })
       else s)
    else if x.state = .sum then
      (List.range x.t).foldl (fun s k =>
        let e := poisonOff x + 2 * k
        if off ≤ e ∧ e < off + 64 then
          (if fieldN (locRead s l e 2) 0 2 = 0 then modMem s home (fun m => { m with poisonSet := m.poisonSet + 1 }) else s)
        else setLocPoison s home l x k codeUncorrectableMemory) s
    else s

/-- Every copy of a bin in a bay's stack that covers an address. -/
def copiesAt (s : State) (b : BayId) (a : Nat) : List (BayId × Nat × Loc) :=
  allBays.flatMap (fun h => s.bays[h].mem.bins.flatMap (fun p =>
    ((binLocs h p.2).filter (fun l => l.bay == b && !l.sram && l.base ≤ a && a < l.base + p.2.regionSize)).map (fun l => (h, p.1, l))))

/-- The contributors below `n` whose reveal entries a line covers, `off` the line's offset from the start of their bitmap (R164). -/
def coveredReveals (n : Nat) (off : Int) : List Nat :=
  (List.range n).filter (fun i => decide (off ≤ (i / 4 : Nat)) && decide (((i / 4 : Nat) : Int) < off + 64))

/-- A line of a job's working region found uncorrectable: in the share table it ends the lead bay's round (Table 06.10), and in the
reveal bitmaps it blocks every entry it covers (R164). The layout of the region is the model's: notes/assumptions/16.md. -/
def ueWorking (s : State) (b : BayId) (a : Nat) : State :=
  allTenants.foldl (fun s p =>
    match s.rot.parts[p].job with
    | none => s
    | some j =>
      match j.working with
      | none => s
      | some (wb, base, len) =>
        let table := j.mask.n * j.mask.h * 40
        let bm := ceilDiv j.mask.n 4
        if wb ≠ b ∨ a + 64 ≤ base ∨ base + len ≤ a then s
        else
          let s1 := if a < base + table then (match s.bays[b].round with
              | some r => if r.state = .gleaned then s else idleRound s b
              | none => s) else s
          let mine := s1.rot.reveals.filter (fun r => r.part == p && r.job == j.job)
          { s1 with rot := { s1.rot with reveals := s1.rot.reveals.map (fun r =>
              match mine.findIdx? (· == r) with
              | some k => { r with bits := (coveredReveals j.mask.n ((a : Int) - ((base + table + k * bm : Nat) : Int))).foldl (fun l i => insertKey i 3 l) r.bits }
              | none => r) } }) s

/-- Reads over the spans of a bay's stack: errors corrected and lines found (R124, R125), with R137's effect on bins. -/
def readFaults (s : State) (b : BayId) (spans : List (Nat × Nat)) (lf : LineFaults) : State :=
  let fresh := (lf.ue.map lineAddr).dedup.filter (fun x => inSpans spans x && !lineUe s.bays[b].mem x)
  fresh.foldl (fun s x => ueWorking ((copiesAt s b x).foldl (fun s c => ueCopy s c.1 c.2.1 c.2.2 x) s) b x) (noteFaults s b spans lf)

/-- Reads over spans of a bin's copy in SRAM: corrected and uncorrectable errors are counted on the bay's page, or, in a local store,
on the core's (Tables 09.12, 15.14), and an uncorrectable line has R137's effect on the bin. -/
def sramFaults (s : State) (home : BayId) (x : Bin) (l : Loc) (spans : List (Nat × Nat)) (lf : LineFaults) : State :=
  let bad := (lf.ue.map lineAddr).dedup.filter (inSpans spans)
  let s1 := match (if l.base < storeSize then none else finOpt 50 ((l.base - storeSize) / 1048576)) with
    | some c => modCore s ⟨l.bay, c⟩ (fun k => { k with lsCe := k.lsCe + word32 lf.ce })
    | none => modMem s l.bay (fun m => { m with storeCe := m.storeCe + word32 lf.ce, storeUe := m.storeUe + word32 bad.length })
  bad.foldl (fun s a => ueCopy s home x.index l a) s1

/-- Reads over spans (offset, length) of a bin's first copy. -/
def binFaults (s : State) (b : BayId) (x : Bin) (spans : List (Nat × Nat)) (lf : LineFaults) : State :=
  let l := binLoc b x
  if l.sram then sramFaults s b x l (spans.map (fun p => (l.base + p.1, p.2))) lf else readFaults s l.bay (spans.map (fun p => (l.base + p.1, p.2))) lf

/-! ## Failure of a bay (R126, R144, R295) -/

/-- Set or clear PG_CTRL bits of the stations of a bay; they arrive by STATION_CONTROL_ARRIVE. -/
def setBayAbort (s : State) (b : BayId) : State :=
  (bayStations b).foldl (fun s r => modSt s r (fun x => { x with abort := true })) s

/-- A mirrored bin whose primary bay fails: the mirror takes over. Tiles on their way to the old controller are handed to the
mirror bay's port that serves their stream; one that finds no credit is left for its retransmission (R144). -/
def takeOver (s : State) (b : BayId) (x : Bin) : State :=
  let g := binGenOf s b x.index
  let mine (t : Token) : Bool := t.target == some (b, x.index, g)
  let st : StationRef := .bay b .bin
  let flying := (s.tokFlight.filter (fun f => f.1 == st && mine f.2.2)).map (fun f => (f.2.1, f.2.2))
  let waiting := allPorts.flatMap (fun p => ((getIn s st p).held.filter mine).map (fun t => (p, t)))
  let s1 := { s with tokFlight := s.tokFlight.filter (fun f => !(f.1 == st && mine f.2.2)) }
  let s2 := allPorts.foldl (fun s p => modIn s st p (fun q => { q with held := q.held.filter (fun t => !mine t) })) s1
  let s3 := modMem s2 b (fun m => { m with inFlight := m.inFlight.filter (fun f => !(f.home == b && f.index == x.index)) })
  let gone := (s.bays[b].mem.inFlight.filter (fun f => f.home == b && f.index == x.index)).map (fun f => (f.port, f.slot))
  let s4 := modBin s3 b x.index (fun x => { x with usingMirror := true })
  let s5 := (waiting ++ flying).foldl (fun s pt =>
    let s := returnSlot s st pt.1 pt.2.slot
    match findBin s b x.index with
    | none => s
    | some y =>
      match pt.2.origin, binPort s b y (getIn s st pt.1).stream with
      | some r, some q => if (getIn s (.bay (serveBay b y) .bin) q).avail = 0 then s else handTile s b q y pt.2.tile r
      | _, _ => s) s4
  let s6 := gone.foldl (fun s ps => returnSlot s st ps.1 ps.2) s5
  logB s6 b (.st b .bin) codeMirrorTakeover (binHandle s b x) x.region 0

/-- The bins of a failed bay (R126), and the mirror copies that lie in it (R144). A mirrored bin still ZEROING goes over to its mirror,
as the other mirrored bins do (DESIGN CHOICE: notes/assumptions/25.md). -/
def failBins (s : State) (b : BayId) : State :=
  let own := (s.bays[b].mem.bins.map (·.1)).foldl (fun s i =>
    match findBin s b i with
    | none => s
    | some x =>
      let mb : BayId := ⟨x.mirrorBay % 16, Nat.mod_lt _ (by decide)⟩
      if x.usingMirror then s
      else if x.mirror ∧ !x.mirrorLost ∧ !s.bays[mb].mem.failed then takeOver s b x
      else if x.state = .zeroing ∨ x.state = .opened ∨ x.state = .sealed ∨ x.state = .sum then failBin s b i (b, x.region)
      else s) s
  allBays.foldl (fun s h => (s.bays[h].mem.bins.map (·.1)).foldl (fun s i =>
    match findBin s h i with
    | none => s
    | some x =>
      if h ≠ b ∧ x.mirror ∧ x.mirrorBay = b.1 ∧ !x.mirrorLost then
        (if x.usingMirror then
          (if x.state = .zeroing ∨ x.state = .opened ∨ x.state = .sealed ∨ x.state = .sum then failBin s h i (b, x.mirrorRegion) else s)
         else logB (modBin s h i (fun x => { x with mirrorLost := true })) h (.st h .bin) codeMirrorLost (binHandle s h x) x.mirrorRegion 0)
      else s) s) own

/-- A bay fails: training failure, pseudo-channel fence or Bin controller fault (Table 10.12); `src` is the page of the block that
failed. -/
def failBay (s : State) (b : BayId) (src : Page) : State :=
  if s.bays[b].mem.failed then s else
    let s1 := modMem s b (fun m => { m with failed := true })
    let s2 := logN s1 s1.bays[b].owner src codeBayFailed b.1 0
    idleRoundsOfBay (failBins (setBayAbort s2 b) b) b

/-- PSEUDO_CHANNEL_FENCE (R126): training failed, or more than 64 lines of it went uncorrectable within 1 s. -/
def execPseudoChannelFence (b : BayId) (pc : Fin 64) (trainingFailed : Bool) (s : State) : Res :=
  let m := s.bays[b].mem
  let recent := (m.recentUe.filter (fun e => pcOf e.1 == pc.1 && (s.alm.t - e.2).toNat < 1000000000)).map (·.1)
  .next (if (m.pcFenced.contains pc) || !(trainingFailed || decide (64 < recent.dedup.length)) then s else
    failBay (logB (modMem s b (fun m => { m with pcFenced := m.pcFenced ++ [pc] })) b (.mem b) codePcFenced 0
      (if trainingFailed then 0 else recent.headD 0) pc.1) b (.mem b))

/-- PATROL_SCRUB_READ (R127): a line is read, and corrected or poisoned. -/
def execPatrolScrubRead (b : BayId) (line : Nat) (found : LineRead) (s : State) : Res :=
  let a := line % 2 ^ 31 * 64
  let m := s.bays[b].mem
  .next (if !m.trained || !m.patrolEn || m.selfRefresh then s else
    match found with
    | .clean => s
    | .corrected => readFaults s b [(a, 64)] { ue := [], ce := 1 }
    | .uncorrectable => readFaults s b [(a, 64)] { ue := [a], ce := 0 })

/-- SELF_REFRESH_ENTER (R72): the stack enters self-refresh once no addition is queued. -/
def execSelfRefreshEnter (b : BayId) (s : State) : Res :=
  .next (if s.bays[b].mem.selfRefreshWanted && s.bays[b].mem.inFlight.isEmpty then
    modMem s b (fun m => { m with selfRefresh := true, selfRefreshWanted := false }) else s)

/-! ## Tile additions (R135, R136) -/

/-- Is the tile of entry `e` of a bin in a controller's in-flight table? -/
def inFlightEntry (s : State) (b home : BayId) (i e : Nat) : Bool :=
  s.bays[b].mem.inFlight.any (fun f => f.home == home && f.index == i && f.entry == e)

/-- Does a write stream of the bay's Bin station serve a bin: bound to it, or about to bind it (R446)? -/
def streamServes (x : BinStream) (i gen : Nat) : Bool :=
  x.mode != 1 && x.gone == 0 && (match x.bound.head? with
    | some p => p.1 == gen && p.2.index == i
    | none => x.bins.head? == some i)

/-- Has a station write for a bin been handed on and not yet been taken (R142)? -/
def writeWaits (s : State) (home : BayId) (i gen : Nat) : Bool :=
  s.bays[home].mem.streams.any (fun x => streamServes x i gen && (match finOpt 8 x.port with
    | some p => !(getIn s (.bay home .bin) p).held.isEmpty || s.tokFlight.any (fun f => f.1 == .bay home .bin && f.2.1 == p)
    | none => false))

/-- Is a tile of a bin in flight: in an in-flight table, on an input port, or crossing to one? -/
def binBusyTiles (s : State) (home : BayId) (i gen : Nat) : Bool :=
  allBays.any (fun b => s.bays[b].mem.inFlight.any (fun f => f.home == home && f.index == i)) ||
  (tokensOf s).any (fun t => t.target == some (home, i, gen)) || writeWaits s home i gen

/-- Commit one tile in a bin: poison or sum, bitmap, count and presence in every copy (R135, R136, R143). -/
def commitTile (s : State) (home : BayId) (x : Bin) (k : Nat) (t : Tile) : State :=
  let c := t.hdr.contributor - x.clo
  let e := c * x.t + k
  let r := binRing s x
  let s1 := (binLocs home x).foldl (fun s l =>
    let s1 := if t.hdr.poison then setLocPoison s home l x k t.hdr.poisonCause
      else
        let s1 := addAtLoc s l r.size (ringAdd r) k t
        if locUe s1 l (k * 65536) 65536 then setLocPoison s1 home l x k codeUncorrectableMemory else s1
    let s2 := locSetBit s1 l (bitmapOff x) e
    let n := (fieldN (locRead s2 l (countsOff x + 2 * c) 2) 0 2 + 1) % 65536
    let s3 := locModify s2 l (countsOff x + 2 * c) (leBytes 2 n)
    if n = x.t then locSetBit s3 l (presenceOff x) c else s3) s
  modMem s1 (serveBay home x) (fun m => { m with added := m.added + 1 })

/-- The spans that one addition reads. -/
def addSpans (x : Bin) (k c : Nat) : List (Nat × Nat) :=
  [(k * 65536, 65536), (bitmapOff x + (c * x.t + k) / 8, 1), (countsOff x + 2 * c, 2), (presenceOff x + c / 8, 1), (poisonOff x + 2 * k, 2)]

/-- Is the tile a duplicate: committed, or in flight? -/
def isDup (s : State) (b home : BayId) (x : Bin) (e : Nat) : Bool :=
  locBit s (binLoc home x) (bitmapOff x) e || inFlightEntry s b home x.index e

/-- Answer a duplicate: at once when the original is committed, else when it commits (R136). -/
def dupTile (s : State) (b home : BayId) (x : Bin) (e : Nat) (origin : Option MsgRef) : State :=
  let s1 := modMem s b (fun m => { m with dups := m.dups + 1 })
  match origin with
  | none => s1
  | some r =>
    if locBit s1 (binLoc home x) (bitmapOff x) e then replyAck s1 r 1 r.segs
    else modMem s1 b (fun m => { m with inFlight := m.inFlight.map (fun f =>
      if f.home = home ∧ f.index = x.index ∧ f.entry = e then { f with dups := f.dups ++ [r] } else f) })

/-- The bin that a token of Intake is for. -/
def targetBin (s : State) (t : Token) : Option (BayId × Bin) :=
  t.target.bind (fun k => if binGenOf s k.1 k.2.1 = k.2.2 then (findBin s k.1 k.2.1).map (fun x => (k.1, x)) else none)

/-- The cause that a taken tile carries on, and the causes the Bin station creates for it. -/
def tileCauses (s : State) (r : StationRef) (p : PortId) (t : Tile) (more : List Nat) : List Nat × Option Nat :=
  let made := portCauses s r p t ++ more
  (made, pickCause (if t.hdr.poison then some t.hdr.poisonCause else none) made)

def withCause (t : Tile) : Option Nat → Tile
  | none => t
  | some c => poisonTile t c

/-- The input ports that the Bin station could serve now (R66, R135): a tile of Intake needs room in the in-flight table, a write stream
its bin in SUM. -/
def binReady (s : State) (b : BayId) : List PortId :=
  allPorts.filter (fun p =>
    let ip := getIn s (.bay b .bin) p
    !ip.held.isEmpty && (if intakeFed ip then decide (s.bays[b].mem.inFlight.length < 735)
      else s.bays[b].mem.streams.any (fun x => x.port == p.1 && (!x.bound.isEmpty || (match x.bins.head? with
        | some i => (match findBin s b i with
          | some y => y.state == .sum && !y.freeing
          | none => false)
        | none => false)))))

/-- BIN_ADD_TILE (R135): take a token that Intake handed on; a duplicate is discarded, else its addition is queued. -/
def execBinAddTile (b : BayId) (port : PortId) (s : State) : Res :=
  let st : StationRef := .bay b .bin
  let ip := getIn s st port
  .next (match ip.held.head? with
    | none => s
    | some tok =>
      if !intakeFed ip || !mayFire s st || 735 ≤ s.bays[b].mem.inFlight.length || !inTurn s st port (binReady s b) then s else
        let cs := tileCauses s st port tok.tile []
        let s1 := logCauses (noteTurn s st port (binReady s b)) st port tok.tile cs.1
        match takeTok s1 st port with
        | none => s
        | some (_, s2) =>
          match targetBin s2 tok with
          | none => updWait (returnSlot s2 st port tok.slot) st
          | some (home, x) =>
            let e := binEntry x tok.tile.hdr
            if isDup s2 b home x e then updWait (returnSlot (dupTile s2 b home x e tok.origin) st port tok.slot) st
            else updWait (modMem s2 b (fun m => { m with inFlight := m.inFlight ++
              [{ home := home, index := x.index, entry := e, contributor := tok.tile.hdr.contributor,
                 pos := tok.tile.hdr.tileIndex - x.firstTile, tile := withCause tok.tile cs.2, port := port, slot := tok.slot,
                 origin := tok.origin }] })) st)

/-- Answer the message a tile came in, and the duplicates that waited (R108, R136). -/
def answerTile (s : State) (origin : Option MsgRef) (dups : List MsgRef) : State :=
  let s1 := match origin with
    | some r => replyAck s r 0 r.segs
    | none => s
  dups.foldl (fun s r => replyAck s r 1 r.segs) s1

/-- TILE_ADD_COMPLETE (R135, R136): every line of an addition is done; the entry is released and the tile answered. -/
def execTileAddComplete (b : BayId) (index entry : Nat) (lf : LineFaults) (s : State) : Res :=
  .next (match s.bays[b].mem.inFlight.find? (fun f => f.index == index && f.entry == entry) with
    | none => s
    | some f =>
      let s1 := modMem s b (fun m => { m with inFlight := m.inFlight.erase f })
      let s2 := match findBin s1 f.home f.index with
        | none => s1
        | some x =>
          let s2 := binFaults s1 f.home x (addSpans x f.pos (f.contributor - x.clo)) lf
          match findBin s2 f.home f.index with
          | some x => commitTile s2 f.home x f.pos f.tile
          | none => s2
      answerTile (returnSlot s2 (.bay b .bin) f.port f.slot) f.origin f.dups)

/-! ## Zeroing (R147) -/

/-- Ask the scrub engine of a bay for a zeroing. -/
def askScrub (s : State) (b : BayId) (base len : Nat) (why : ScrubFor) : State :=
  modMem s b (fun m => { m with scrub := m.scrub ++ [{ base := base, len := len, why := why }] })

/-- Is a zeroing for this purpose still to be done, in any bay? -/
def scrubLeft (s : State) (why : ScrubFor) : Bool := allBays.any (fun b => s.bays[b].mem.scrub.any (fun q => q.why == why))

/-- The rounds GLEANED whose sum bins are all freed return to IDLE (Table 06.10). -/
def settleRounds (s : State) : State :=
  allBays.foldl (fun s l => match s.bays[l].round with
    | some r => if r.state = .gleaned ∧ r.bins.all (fun x => binGenOf s x.bay x.index != x.gen) then idleRound s l else s
    | none => s) s

/-- BIN_ALLOC's zeroing has ended: the bin becomes OPEN or SUM and the command returns the handle. -/
def allocDone (s : State) (b : BayId) (i : Nat) (h : CmdHdr) : State :=
  match findBin s b i with
  | none => s
  | some x =>
    if x.state = .zeroing then
      complete (modBin s b i (fun x => { x with state := if isGatherer x then .opened else .sum, wait := none })) h 0
        (leBytes 4 (binHandle s b x).toNat)
    else s

/-- BIN_FREE's zeroing has ended: the index is FREE and its generation has gone up (R142). -/
def freeDone (s : State) (b : BayId) (i : Nat) (h : CmdHdr) : State := settleRounds (complete (freeBin s b i) h 0 [])

/-- Training has ended: no pseudo-channel is fenced (R126), and the counts since training start (Table 05.8). -/
def memTrained (m : BayMem) : BayMem := { m with training := false, pcFenced := [], recentUe := [], ce := 0, ue := 0, ueAddr := 0 }

/-- Put a trained stack in service (R386, R388). -/
def stackInService (s : State) (b : BayId) : State :=
  logN (modMem s b (fun m => { m with trained := true, training := false, trainFail := false, failed := false })) mgmt (.mem b) codeBayReady b.1 0

/-- What follows a zeroing. -/
def scrubDone (s : State) (b : BayId) (q : ScrubReq) : State :=
  match q.why with
  | .binAlloc home i h => if scrubLeft s q.why then s else allocDone s home i h
  | .binFree home i h => if scrubLeft s q.why then s else freeDone s home i h
  | .trained => stackInService s b
  | _ => s

/-- SCRUB_ZERO_COMPLETE (R147): the zeroing at the head of a bay's scrub engine ends. That of a bay partial reset follows the stack's
training (R390). -/
def execScrubZeroComplete (b : BayId) (s : State) : Res :=
  .next (match s.bays[b].mem.scrub with
    | [] => s
    | q :: rest => if s.bays[b].mem.selfRefresh then s else
        scrubDone (modMem s b (fun m => { dramZero (if q.why = .prst then memTrained m else m) q.base q.len with scrub := rest })) b q)

/-! ## Bin commands (Table 05.7) -/

/-- The bin that a descriptor asks for (Table 05.4). -/
def parseBin (p : PartId) (d : List Byte) : Bin where
  index := u16 d 4 % 4096
  part := p
  kind := u8 d 1
  state := .zeroing
  mirror := bitOf (u8 d 3) 0
  sram := bitOf (u8 d 3) 1
  mirrorBay := u8 d 6
  ring := u8 d 7
  etype := u8 d 0xC
  job := w32 d 8
  lastCount := u16 d 0xE
  base := u48 d 0x10
  t := u32 d 0x18
  firstTile := u32 d 0x1C
  clo := u32 d 0x20
  chi := u32 d 0x24
  region := u64 d 0x28
  mirrorRegion := u64 d 0x30
  regionSize := u64 d 0x38

/-- Reserved fields and the ranges of Table 05.4. -/
def binDescOk (d : List Byte) (x : Bin) : Bool :=
  d.length == 64 && u8 d 0 == 1 && (x.kind == 1 || x.kind == 2) && u8 d 3 < 4 && u16 d 4 < 4096 && u8 d 0xD == 0 &&
  resvZero d 0x16 2 && 1 ≤ x.t && x.t ≤ 65535 && x.clo < x.chi && x.chi ≤ 1048576 && (x.kind == 1 || x.firstTile == 0) &&
  (x.mirror || (x.mirrorBay == 0 && x.mirrorRegion == 0))

/-- The slot pools of a bay's input ports in the bay store (R63): (base, length). -/
def poolSpans (s : State) (b : BayId) : List (Nat × Nat) :=
  (bayStations b).flatMap (fun r => (getSt s r).ins.toList.filterMap (fun ip =>
    if ip.conn && !intakeFed ip then some (ip.poolBase * 64, ip.pool * 65600) else none))

/-- The spans of the bay's SRAM that an SRAM bin must avoid (R145): slot pools, working regions and bound cores' local stores. -/
def sramTaken (s : State) (b : BayId) : List (Nat × Nat) :=
  poolSpans s b ++ pipeSpans s b true ++ (allCores.filter (fun c => (s.bays[b].cores[c]).bind.isSome)).map (fun c => (storeSize + c.1 * localSize, localSize))

/-- The masking mode of the partition's job. -/
def maskMode (s : State) (p : PartId) : Nat :=
  match jobOfPart s p with
  | some j => j.mask.mode
  | none => 0

/-- A bin's region in its bay: aligned and inside (R131); without a READY stack only SRAM bins of unmasked jobs (R387). -/
def binRegionOk (s : State) (b : BayId) (x : Bin) : Bool :=
  x.region % 65536 == 0 && layoutLen x ≤ x.regionSize && x.regionSize % 65536 == 0 &&
  (if x.sram then !x.mirror && x.ring == 1 && x.region + x.regionSize ≤ sramSize && (stackReady s.bays[b].mem || maskMode s x.part == 0)
   else x.region + x.regionSize ≤ stackSize && stackReady s.bays[b].mem)

/-- The mirror's bay and region (R131, R143). -/
def binMirrorOk (s : State) (b : BayId) (x : Bin) : Bool :=
  !x.mirror || (match finOpt 16 x.mirrorBay with
    | some mb => mb != b && holdsBay s x.part mb && x.mirrorRegion % 65536 == 0 && x.mirrorRegion + x.regionSize ≤ stackSize && stackReady s.bays[mb].mem
    | none => false)

/-- The content of a descriptor is right (BIN_BAD_DESC otherwise). -/
def binContentOk (s : State) (b : BayId) (d : List Byte) (x : Bin) : Bool :=
  binDescOk d x && x.ring != 0 && holdsBay s x.part b && x.lastCount ≤ binCap x &&
  (match elemSize (modsOf s x.part x.job) x.ring x.etype with
   | some _ => true
   | none => false) && binRegionOk s b x && binMirrorOk s b x

/-- Does a region overlap another bin's region in the same bay? -/
def stackTaken (s : State) (b : BayId) : List (Nat × Nat) :=
  allBays.flatMap (fun h => s.bays[h].mem.bins.flatMap (fun p =>
    (if h = b ∧ !p.2.sram then [(p.2.region, p.2.regionSize)] else []) ++
    (if p.2.mirror ∧ p.2.mirrorBay = b.1 then [(p.2.mirrorRegion, p.2.regionSize)] else [])))

def hitsAny (l : List (Nat × Nat)) (a n : Nat) : Bool := l.any (fun p => overlaps p.1 p.2 a n)

def binOverlap (s : State) (b : BayId) (x : Bin) : Bool :=
  (if x.sram then hitsAny (sramTaken s b ++ ((s.bays[b].mem.bins.filter (fun p => p.2.sram)).map (fun p => (p.2.region, p.2.regionSize))))
      x.region x.regionSize
   else hitsAny (stackTaken s b) x.region x.regionSize) ||
  (x.mirror && (match finOpt 16 x.mirrorBay with
    | some mb => hitsAny (stackTaken s mb) x.mirrorRegion x.regionSize
    | none => false))

/-- The status of BIN_ALLOC, in the order of R444. -/
def binAllocStatus (s : State) (h : CmdHdr) (d : List Byte) : Nat :=
  let x := parseBin h.part d
  match finOpt 16 (u8 d 2) with
  | none => codeBinBadDesc
  | some b =>
    let mbFailed := x.mirror && (match finOpt 16 x.mirrorBay with
      | some mb => s.bays[mb].mem.failed && holdsBay s h.part mb
      | none => false)
    if holdsBay s h.part b ∧ ((findBin s b x.index).isSome ∨ s.bays[b].mem.failed ∨ mbFailed) then codeBinState
    else if !binContentOk s b d x then codeBinBadDesc
    else if binOverlap s b x then codeBinOverlap else 0

/-- BIN_ALLOC (R131, R145 to R147): the bin is ZEROING; an SRAM bin is cleared at once. -/
def execBinAlloc (h : CmdHdr) (desc : List Byte) (s : State) : Res :=
  let s0 := begun s (.binAlloc h desc)
  let st := binAllocStatus s0 h desc
  let x := parseBin h.part desc
  .next (match finOpt 16 (u8 desc 2) with
    | none => complete s0 h st []
    | some b =>
      if st ≠ 0 then complete s0 h st [] else
        let s1 := putBin s0 b { x with wait := some (.zero h) }
        if x.sram then allocDone (modBay s1 b (fun y => sramClear y 52 x.region (layoutLen x))) b x.index h
        else
          let s2 := askScrub s1 b x.region (layoutLen x) (.binAlloc b x.index h)
          match finOpt 16 x.mirrorBay with
          | some mb => if x.mirror then askScrub s2 mb x.mirrorRegion (layoutLen x) (.binAlloc b x.index h) else s2
          | none => s2)

/-- The bin's contributor counts. -/
def binCounts (s : State) (b : BayId) (x : Bin) : List Nat :=
  readElems (locRead s (binLoc b x) (countsOff x) (countsLen x)) 0 2 (binContribs x)

/-- Is a window that names the bin OPEN or CLOSING? -/
def winsPending (s : State) (b : BayId) (x : Bin) : Bool :=
  (winsOfBin s (binHandle s b x)).any (fun i => match getWin s i with
    | some w => w.state != .closed
    | none => false)

/-- BIN_SEAL (R138). -/
def execBinSeal (h : CmdHdr) (handle : W32) (buffer : W64) (lf : LineFaults) (s : State) : Res :=
  let s0 := begun s (.binSeal h handle buffer noFaults)
  .next (match handleBin s0 h.part handle with
    | none => complete s0 h codeBinState []
    | some (b, x) =>
      if !isGatherer x || x.state != .opened then complete s0 h codeBinState []
      else if x.wait.isSome || winsPending s0 b x || binBusyTiles s0 b x.index (binGenOf s0 b x.index) then complete s0 h codeBinBusy []
      else
        let s1 := binFaults s0 b x [(countsOff x, countsLen x), (presenceOff x, presenceLen x)] lf
        match findBin s1 b x.index with
        | none => complete s1 h codeBinState []
        | some y =>
          if y.state ≠ .opened then complete s1 h codeBinState [] else
            let partial_ := ((binCounts s1 b y).filter (fun n => n != 0 && n != y.t)).length
            let s2 := emitOut s1 (.hostWrite h.part buffer (locRead s1 (binLoc b y) (presenceOff y) (presenceLen y)))
            if partial_ = 0 then
              complete (modBin s2 b y.index (fun z => { z with state := .sealed })) h 0 (leBytes 4 (presentCount s2 b y))
            else complete s2 h codeBinPartial (leBytes 4 partial_))

/-- The sources of a combine that are SEALED gatherers of the target's bay; a source of another bay gives BIN_STATE (DESIGN CHOICE:
notes/assumptions/25.md). -/
def combineSources (s : State) (p : PartId) (b : BayId) : List W32 → Option (List Bin)
  | [] => some []
  | w :: rest =>
    match handleBin s p w with
    | some (c, x) =>
      if c = b ∧ isGatherer x ∧ x.state = .sealed ∧ !x.metaUe then (combineSources s p b rest).map (fun l => x :: l) else none
    | none => none

/-- Two contributor ranges overlap. -/
def rangesMeet (a b : Bin) : Bool := decide (a.clo < b.chi ∧ b.clo < a.chi)

/-- Does some pair of a list of bins overlap? -/
def anyMeet : List Bin → Bool
  | [] => false
  | x :: rest => rest.any (rangesMeet x) || anyMeet rest

/-- The conditions of R139 between a target and its sources. -/
def combineFits (s : State) (b : BayId) (t : Bin) (src : List Bin) : Bool :=
  src.all (fun x => x.job == t.job && x.ring == t.ring && x.etype == t.etype && x.base == t.base && x.t == t.t &&
    x.lastCount == t.lastCount && t.clo ≤ x.clo && x.chi ≤ t.chi) && !anyMeet src &&
  (presentIn s b t).all (fun c => src.all (fun x => !(x.clo ≤ c && c < x.chi)))

/-- The status of BIN_COMBINE (R139, R444). -/
def combineStatus (s : State) (h : CmdHdr) (target : W32) (sources : List W32) : Nat :=
  if sources.length < 1 ∨ 64 < sources.length then codeQmEntry
  else match handleBin s h.part target with
    | none => codeBinState
    | some (b, t) =>
      if isGatherer t ∨ t.state ≠ .sum ∨ t.frozen then codeBinState
      else match combineSources s h.part b sources with
        | none => codeBinState
        | some src =>
          if t.wait.isSome ∨ src.any (fun x => x.wait.isSome) then codeBinBusy
          else if combineFits s b t src then 0 else codeBinMismatch

/-- Add one source into the target: every position, the presence bits, the poison causes (R139, R143). -/
def combineOne (s : State) (b : BayId) (t x : Bin) : State :=
  let r := binRing s t
  let s1 := (List.range t.t).foldl (fun s k =>
    let ops := readElems (posRead s b x k) 0 r.size (binCap t)
    let cause := posPoison s b x k
    (binLocs b t).foldl (fun s l =>
      let s1 := locModify s l (k * 65536) (applyDense r.size (ringAdd r) (locRead s l (k * 65536) 65536) ops)
      let s2 := if locUe s1 l (k * 65536) 65536 then setLocPoison s1 b l t k codeUncorrectableMemory else s1
      if cause = 0 then s2 else setLocPoison s2 b l t k cause) s) s
  (presentIn s1 b x).foldl (fun s c => (binLocs b t).foldl (fun s l => locSetBit s l (presenceOff t) (c - t.clo)) s) s1

/-- BIN_COMBINE (R139): the sums are made; the command ends at BIN_COMBINE_COMPLETE. -/
def execBinCombine (h : CmdHdr) (target : W32) (sources : List W32) (lf : LineFaults) (s : State) : Res :=
  let s0 := begun s (.binCombine h target sources noFaults)
  let st := combineStatus s0 h target sources
  .next (if st ≠ 0 then complete s0 h st [] else
    match handleBin s0 h.part target with
    | none => complete s0 h codeBinState []
    | some (b, t) =>
      let src0 := (combineSources s0 h.part b sources).getD []
      let s1 := src0.foldl (fun s x => binFaults s b x [(0, layoutLen x)] { lf with ce := 0 }) (binFaults s0 b t [(0, layoutLen t)] lf)
      match combineSources s1 h.part b sources with
      | none => complete s1 h codeBinState []
      | some src =>
        let s2 := src.foldl (fun s x => combineOne s b t x) s1
        ((t :: src).map (·.index)).foldl (fun s i => modBin s b i (fun y => { y with wait := some (.combine h) })) s2)

/-- BIN_COMBINE_COMPLETE (R139): each source is COMBINED and its windows are FREE. -/
def execBinCombineComplete (h : CmdHdr) (s : State) : Res :=
  let mine := allBays.flatMap (fun b => (s.bays[b].mem.bins.filter (fun p => p.2.wait == some (.combine h))).map (fun p => (b, p.1)))
  .next (if mine.isEmpty then s else
    let s1 := mine.foldl (fun s k => match findBin s k.1 k.2 with
      | none => s
      | some x =>
        let s1 := modBin s k.1 k.2 (fun y => { y with wait := none })
        if isGatherer x && x.state == .sealed then
          (winsOfBin s1 (binHandle s1 k.1 x)).foldl (fun s i => freeWin s i) (modBin s1 k.1 k.2 (fun y => { y with state := .combined }))
        else s1) s
    complete s1 h 0 [])

/-- Does BIN_DISCARD allow the state (Table 05.6)? -/
def discardable (x : Bin) : Bool := x.state == .opened || x.state == .sealed || x.state == .failed || x.state == .sum
/-- Does BIN_FREE allow the state? -/
def freeable (x : Bin) : Bool := x.state == .sealed || x.state == .combined || x.state == .discarded || x.state == .sum

/-- BIN_DISCARD (R141): the windows are revoked; the command ends when no tile of the bin is in flight. -/
def execBinDiscard (h : CmdHdr) (handle : W32) (s : State) : Res :=
  let s0 := begun s (.binDiscard h handle)
  .next (match handleBin s0 h.part handle with
    | none => complete s0 h codeBinState []
    | some (b, x) =>
      if !discardable x then complete s0 h codeBinState []
      else if x.wait.isSome then complete s0 h codeBinBusy []
      else revokeBinWins (modBin s0 b x.index (fun y => { y with wait := some (.discard h) })) b x 5)

/-- BIN_FREE (R142): the command waits for tiles in flight, then for the zeroing. -/
def execBinFree (h : CmdHdr) (handle : W32) (s : State) : Res :=
  let s0 := begun s (.binFree h handle)
  .next (match handleBin s0 h.part handle with
    | none => complete s0 h codeBinState []
    | some (b, x) =>
      if !freeable x then complete s0 h codeBinState []
      else if x.wait.isSome then complete s0 h codeBinBusy []
      else modBin s0 b x.index (fun y => { y with wait := some (.free h) }))

/-- Start the zeroing of BIN_FREE, the bin's state as it was; an SRAM bin's lines are cleared at once. -/
def startFree (s : State) (b : BayId) (x : Bin) (h : CmdHdr) : State :=
  let s1 := modBin s b x.index (fun y => { y with freeing := true })
  if x.sram then freeDone (modBay s1 b (fun y => sramClear y 52 x.region x.regionSize)) b x.index h
  else
    let s2 := askScrub s1 b x.region x.regionSize (.binFree b x.index h)
    match finOpt 16 x.mirrorBay with
    | some mb => if x.mirror then askScrub s2 mb x.mirrorRegion x.regionSize (.binFree b x.index h) else s2
    | none => s2

/-- BIN_IN_FLIGHT_DRAINED (R141, R142): no tile of a discarded or freed bin remains in flight. -/
def execBinInFlightDrained (b : BayId) (index : Nat) (s : State) : Res :=
  .next (match findBin s b index with
    | none => s
    | some x =>
      if binBusyTiles s b index (binGenOf s b index) then s else
        match x.wait with
        | some (.discard h) => complete (modBin s b index (fun y => { y with state := .discarded, wait := none })) h 0 []
        | some (.free h) => if x.freeing then s else startFree s b x h
        | _ => s)

end Sys2Proof.Machine
end

