-- ==== Sys2Proof/Machine/BinStreams.lean ====
section
/-! DEFINITION. The Bin station's streams: READ, ADD, SUB and WRITE (R278, R446, R134, R152, R172, R180, R181, R76, R79). -/

namespace Sys2Proof.Machine

/-- The Bin stream of a port (0 to 7 write streams, 8 to 15 READ streams). -/
def findStream (s : State) (b : BayId) (port : Nat) : Option BinStream := s.bays[b].mem.streams.find? (fun x => x.port == port)
def putStream (s : State) (b : BayId) (x : BinStream) : State :=
  modMem s b (fun m => { m with streams := m.streams.map (fun y => if y.port = x.port then x else y) })

/-- lg(x) of R181: the smallest v with 2^(v/256) ≥ x. -/
def lg256 (x : Nat) : Nat := if x ≤ 1 then 0 else Nat.log2 (x ^ 256 - 1) + 1

/-- Put a bin into a list in rising order of rings: limbs in ascending order (R180). -/
def insertRing (p : Nat × Bin) : List (Nat × Bin) → List (Nat × Bin)
  | [] => [p]
  | q :: t => if p.2.ring < q.2.ring then p :: q :: t else q :: insertRing p t

/-- A named bin that a READ stream can read: SEALED or SUM (R134), its region not being zeroed (R142). -/
def readableBin (s : State) (b : BayId) (i : Nat) : Option (Nat × Bin) :=
  match findBin s b i with
  | some x => if (x.state = .sealed ∨ x.state = .sum) ∧ !x.freeing then some (binGenOf s b i, x) else none
  | none => none

/-- Is a bin still what a stream bound (R446.4)? -/
def stillBound (s : State) (b : BayId) (p : Nat × Bin) : Bool :=
  binGenOf s b p.2.index == p.1 && (readableBin s b p.2.index).isSome

/-- Does an output port of the Bin station feed a Noise station? -/
def feedsNoise (s : State) (b : BayId) (out : PortId) : Bool := match (getOut s (.bay b .bin) out).cons with
  | some (.bay _ .nse, _) => true
  | _ => false

/-- Is BIN_COMBINE still adding to a bin? -/
def combining (x : Bin) : Bool := match x.wait with
  | some (.combine _) => true
  | _ => false

/-- May a READ stream take its first tile from the bin: a gatherer's bin not for noise, a sum bin once its combination has ended (R21,
R27), with the floor in mode 0x00 (R152), GLEANED in mode 0x01 (R172)? -/
def readGate (s : State) (b : BayId) (out : PortId) (p : Nat × Bin) : Bool :=
  if isGatherer p.2 then !feedsNoise s b out else !combining p.2 && (match jobOfPart s p.2.part with
    | some j => j.job == p.2.job && (if j.mask.mode = 0 then j.mask.f ≤ presentCount s b p.2
        else (roundsOf s b p.2.index p.1).any (fun l => match s.bays[l].round with
          | some r => r.state == .gleaned
          | none => false))
    | none => false)

/-- The bins of a READ stream agree, and its range lies inside them (R446.2). -/
def readFits (x : BinStream) (l : List (Nat × Bin)) : Bool :=
  match l with
  | [] => false
  | p :: _ => l.all (fun q => q.2.job == p.2.job && q.2.base == p.2.base && q.2.t == p.2.t && q.2.lastCount == p.2.lastCount) &&
      x.firstPos + x.positions ≤ p.2.t

/-- Bind a READ stream at its first tile; none while it holds. -/
def bindRead (s : State) (b : BayId) (out : PortId) (x : BinStream) : Option BinStream :=
  let l := x.bins.filterMap (readableBin s b)
  if l.length ≠ x.bins.length ∨ l = [] ∨ !l.all (readGate s b out) then none
  else if readFits x l then some { x with bound := l.foldr insertRing [] }
  else some { x with bound := l.take 1, misfit := true }

/-- How many tiles a bound READ stream emits. -/
def readTotal (x : BinStream) : Nat := x.positions * x.bound.length

/-- The bin and position of a READ stream's tile number `done`. -/
def readPlace (x : BinStream) : Option (Bin × Nat) :=
  (x.bound[x.done % x.bound.length]?).map (fun p => (p.2, x.firstPos + x.done / x.bound.length))

/-- The noise bound that a READ stream writes on an RNS ring (R181). -/
def readNoise (s : State) (b : BayId) (x : BinStream) (bin : Bin) : Nat :=
  if bin.ring ≤ 3 then 0
  else match ingestSet s b bin.job, x.bound.head? with
    | some ps, some p => min 0xFFFF (ps.fresh + lg256 (presentCount s b p.2))
    | _, _ => 0xFFFF

/-- The header of an emitted tile (R446.1). -/
def readHdr (s : State) (b : BayId) (x : BinStream) (bin : Bin) (pos nb : Nat) : TileHdr :=
  let cap := binCap bin
  let ps := if 3 < bin.ring then ingestSet s b bin.job else none
  { ring := bin.ring, etype := bin.etype, job := bin.job, tileIndex := x.done, sliceOffset := (bin.base + pos * cap) % 2 ^ 48,
    count := if pos + 1 = bin.t ∧ bin.lastCount ≠ 0 then bin.lastCount else cap, last := x.done + 1 == readTotal x,
    noiseBound := nb,
    paramSet := match ps with
      | some p => p.id
      | none => 0,
    keyTag := match ps with
      | some p => p.ingestTag
      | none => 0 }

/-- The data tile of a position: zero payload and the cause where the position counts as poisoned (R76, R446.1). -/
def readTile (s : State) (b : BayId) (bin : Bin) (pos : Nat) (h : TileHdr) : Tile :=
  let cause := posPoison s b bin pos
  if cause ≠ 0 then poisonTile { hdr := h, payload := [] } cause
  else { hdr := h, payload := (posRead s b bin pos).take (h.count * binElem bin) }

/-- The first uncorrectable line of a position, when no copy of the position is clean: its address. -/
def readUe (s : State) (b : BayId) (bin : Bin) (pos : Nat) : Option Nat :=
  if (binLocs b bin).all (fun l => locUe s l (pos * 65536) 65536) then
    (match (binLocs b bin).head? with
     | some l => (spanUe s.bays[l.bay].mem (l.base + pos * 65536) 65536).head?
     | none => none)
  else none

/-- The stream after one more tile. -/
def readNext (x : BinStream) (nb : Nat) : BinStream := { x with done := x.done + 1, nb := nb, ended := x.done + 1 == readTotal x }

/-- Emit a marker of a bound READ stream with its cause. -/
def readMark (s : State) (b : BayId) (out : PortId) (x : BinStream) (cause : Nat) : State :=
  match readPlace x with
  | none => s
  | some (bin, pos) =>
    let h := readHdr s b x bin pos x.nb
    let s1 := logOutCause s (.bay b .bin) out { hdr := h } cause 0
    match passMarker s1 (.bay b .bin) out h cause with
    | none => s
    | some s2 => putStream s2 b (readNext x x.nb)

/-- Emit the next tile of a bound READ stream whose bins are still readable. -/
def readOne (s : State) (b : BayId) (out : PortId) (x : BinStream) (lf : LineFaults) : State :=
  match readPlace x with
  | none => s
  | some (bin0, pos) =>
    let s1 := binFaults s b bin0 [(pos * 65536, 65536), (poisonOff bin0 + 2 * pos, 2), (presenceOff bin0, presenceLen bin0)] lf
    let bin := (findBin s1 b bin0.index).getD bin0
    let nb := readNoise s1 b x bin
    let t := readTile s1 b bin pos (readHdr s1 b x bin pos nb)
    let s2 := match readUe s1 b bin pos with
      | some a => logOutCause s1 (.bay b .bin) out t codeUncorrectableMemory (a / 64)
      | none => s1
    match reserveOut s2 (.bay b .bin) out t none with
    | none => s
    | some (k, tok, s3) => putStream (passTok s3 (.bay b .bin) k tok) b (readNext x nb)

/-- Is the station aborting or fenced? -/
def stopping (x : Station) : Bool := x.st == .aborting || x.st == .fenced

/-- The cause of the markers of an aborting or fenced station (R79, Table 03.8). -/
def stopCause (x : Station) : Nat := if x.st = .fenced then codeStationFault else codeAborted

/-- BIN_READ_EMIT (R446, R79): one tile of a READ stream, or one marker. -/
def execBinReadEmit (b : BayId) (out : PortId) (lf : LineFaults) (s : State) : Res :=
  let st : StationRef := .bay b .bin
  let ctl := getSt s st
  .next (match findStream s b (8 + out.1) with
    | none => s
    | some x =>
      if x.mode ≠ 1 || x.ended || outCredits s st out == 0 then s
      else if x.bound ≠ [] ∧ x.gone ≠ 0 then readMark s b out x x.gone
      else if stopping ctl then s
      else if !mayFire s st || ctl.st == .draining then s
      else
        match (if x.bound = [] then bindRead s b out x else some x) with
        | none => s
        | some y =>
          if y.misfit then readMark s b out y codeMisfit
          else if y.bound.all (stillBound s b) then readOne s b out y lf
          else readMark s b out { y with gone := codeAborted } codeAborted)

/-- What ABORT or a fence does to the READ streams of a bay (R79): started ones go on as markers, the others end. -/
def stopReads (s : State) (b : BayId) (cause : Nat) : State :=
  modMem s b (fun m => { m with streams := m.streams.map (fun x =>
    if x.mode ≠ 1 ∨ x.ended then x else if x.bound = [] then { x with ended := true }
    else if x.gone = 0 then { x with gone := cause } else x) })

/-! ## ADD, SUB and WRITE streams -/

/-- Bind a write stream: its bin must be in SUM (R446.2). -/
def bindWrite (s : State) (b : BayId) (x : BinStream) : Option BinStream :=
  match x.bins.head? with
  | none => none
  | some i => match findBin s b i with
    | some y => if y.state = .sum ∧ !y.freeing then some { x with bound := [(binGenOf s b i, y)] } else none
    | none => none

/-- The position of the stream's range that a slice offset falls inside (R446.3). -/
def slicePos (x : BinStream) (bin : Bin) (off : Nat) : Option Nat :=
  let k := (off - bin.base) / binCap bin
  if bin.base ≤ off ∧ x.firstPos ≤ k ∧ k < x.firstPos + x.positions ∧ k < bin.t then some k else none

/-- Does a tile fit the bound bin (R446.3)? `look` tells that its payload is processed (R67). -/
def tileFits (x : BinStream) (bin : Bin) (look : Bool) (t : Tile) : Bool :=
  t.hdr.ring == bin.ring && t.hdr.etype == bin.etype && (!look || payloadShapeOk (binElem bin) t) &&
  (t.hdr.sliceOffset - bin.base) % binCap bin == 0 && (slicePos x bin t.hdr.sliceOffset).isSome

/-- The causes that the Bin station creates beside those of the port: MISFIT, NON_CANONICAL, FLOAT_IN_RING. -/
def streamCauses (s : State) (b : BayId) (x : BinStream) (bin : Bin) (t : Tile) : List Nat :=
  let look := readsPayload s (.bay b .bin) t
  let fits := tileFits x bin look t
  (if fits then [] else [codeMisfit]) ++
  (if fits && look && !canonicalOk (binRing s bin) t then [codeNonCanonical] else []) ++
  (if t.hdr.ring = 0 then [codeFloatInRing] else [])

/-- Apply a tile that fits to every copy (R128, R143). -/
def applyTile (s : State) (b : BayId) (x : BinStream) (bin : Bin) (k : Nat) (t : Tile) : State :=
  let r := binRing s bin
  (binLocs b bin).foldl (fun s l =>
    if x.mode = 4 then
      locWrite s l (k * 65536) (padTo 65536 (if t.hdr.sparse then writeElems r.size (denseElems r.size t) else t.payload))
    else
      let s1 := addAtLoc s l r.size (if x.mode = 2 then ringAdd r else ringSub r) k t
      if locUe s1 l (k * 65536) 65536 then setLocPoison s1 b l bin k codeUncorrectableMemory else s1) s

/-- A stream after a tile: LAST ends it, and the next stream of the connection binds anew (R59). -/
def afterTile (x : BinStream) (last : Bool) : BinStream :=
  if last then { x with bound := [], gone := 0, done := 0 } else { x with done := x.done + 1 }

/-- Take the head token of a bound write stream and apply it, or record its cause in the poison map (R76, R446.3). -/
def streamTake (s : State) (b : BayId) (port : PortId) (x : BinStream) (gen : Nat) (bin : Bin) (tok : Token) (stop : Option Nat)
    (lf : LineFaults) : State :=
  let st : StationRef := .bay b .bin
  let t := tok.tile
  let gone := x.gone ≠ 0 || !(binGenOf s b bin.index == gen && (match findBin s b bin.index with
    | some y => y.state == .sum && !y.freeing
    | none => false))
  let cs := if gone then ([codeAborted], none) else tileCauses s st port t (streamCauses s b x bin t ++ stop.toList)
  let s1 := logCauses s st port t cs.1
  match takeTok s1 st port with
  | none => s
  | some (_, s2) =>
    let s3 := if gone then s2 else
      match slicePos x bin t.hdr.sliceOffset with
      | none => s2
      | some k =>
        match cs.2 with
        | some c => setPoison s2 b bin k c
        | none =>
          let s3 := if x.mode = 4 then s2 else binFaults s2 b bin [(k * 65536, 65536), (poisonOff bin + 2 * k, 2)] lf
          applyTile s3 b x bin k t
    returnSlot (putStream s3 b (afterTile (if gone then { x with gone := codeAborted } else x) t.hdr.last)) st port tok.slot

/-- BIN_STREAM_APPLY (R446). -/
def execBinStreamApply (b : BayId) (port : PortId) (lf : LineFaults) (s : State) : Res :=
  let st : StationRef := .bay b .bin
  .next (match (getIn s st port).held.head?, findStream s b port.1 with
    | some tok, some x =>
      if !mayFire s st || !inTurn s st port (binReady s b) then s
      else match (if x.bound = [] then bindWrite s b x else some x) with
        | none => s
        | some y => match y.bound.head? with
          | none => s
          | some (gen, bin) => updWait (streamTake (noteTurn s st port (binReady s b)) b port y gen bin tok none lf) st
    | _, _ => s)

/-- The head token of an input port under ABORT or a fence (R79): a tile of Intake is committed as poisoned; one of a bound
stream is recorded in its position's poison-map entry; one of an unbound stream is recorded in no bin. -/
def binDropHead (s : State) (b : BayId) (port : PortId) (cause : Nat) : State :=
  let st : StationRef := .bay b .bin
  match (getIn s st port).held.head? with
  | none => s
  | some tok =>
    if intakeFed (getIn s st port) then
      let cs := tileCauses s st port tok.tile [cause]
      match takeTok (logCauses s st port tok.tile cs.1) st port with
      | none => s
      | some (_, s2) =>
        let s3 := match targetBin s2 tok with
          | none => s2
          | some (home, x) =>
            let e := binEntry x tok.tile.hdr
            if isDup s2 b home x e then dupTile s2 b home x e tok.origin
            else answerTile (commitTile s2 home x (tok.tile.hdr.tileIndex - x.firstTile) (withCause tok.tile cs.2)) tok.origin []
        returnSlot s3 st port tok.slot
    else
      match (findStream s b port.1).bind (fun x => x.bound.head?.map (fun p => (x, p))) with
      | some (x, gen, bin) => streamTake s b port x gen bin tok (some cause) { ue := [], ce := 0 }
      | none =>
        match takeTok (logCauses s st port tok.tile [codeAborted]) st port with
        | none => s
        | some (_, s2) => returnSlot s2 st port tok.slot

end Sys2Proof.Machine
end

