-- ==== Sys2Proof/Machine/Entropy.lean ====
section
/-! DEFINITION. The entropy source, its health tests, the software FIFO and the DRBG instances (R203 to R210). -/

namespace Sys2Proof.Machine

def modRng (s : State) (f : Rng → Rng) : State := { s with rng := f s.rng }
def getDrbg (s : State) (p : PartId) : Drbg := s.rng.drbg[p]
def modDrbg (s : State) (p : PartId) (f : Drbg → Drbg) : State := modRng s (fun r => { r with drbg := vmod r.drbg p f })

/-! ## This device's identity (Table 12.5) -/

/-- The identity key pair: public key, secret key. -/
def identityKeys : List Byte × List Byte := Config.falconKeyGen (kmac256 Config.rootSecret [] 48 (ascii "WY-ID"))
def identityPk : List Byte := identityKeys.1
def identitySk : List Byte := identityKeys.2
/-- device_id (R339). -/
def deviceId : List Byte := shake256 identityPk 64

/-! ## Health tests (Table 08.1) -/

/-- The repetition count over samples, from the last sample and its run: the last sample, its run, failed or not. -/
def rctRun : List Bool → Bool → Nat → Bool → Bool × Nat × Bool
  | [], b, n, bad => (b, n, bad)
  | x :: xs, b, n, bad =>
    let n1 := if x = b ∧ n ≠ 0 then n + 1 else 1
    rctRun xs x n1 (bad || 41 ≤ n1)

/-- The adaptive proportion over one window. -/
def aptBad (raw : List Bool) : Bool := 795 ≤ (raw.filter (fun x => x == raw.headD false)).length

/-- A failure latches, VALID clears and every undelivered block is discarded (R206). -/
def healthFail (s : State) (rct apt : Bool) : State :=
  logN (modRng s (fun r => { r with latched := true, rctFail := r.rctFail || rct, aptFail := r.aptFail || apt, valid := false,
                                    fifo := [], pool := [], fails := r.fails + 1 })) mgmt .rng codeHealthFail 0 0

/-- Run both tests over a window: passed or not, and the state with the run kept and a failure latched. -/
def healthWindow (s : State) (raw : List Bool) : Bool × State :=
  let r := rctRun raw s.rng.runBit s.rng.runLen false
  let s1 := modRng s (fun g => { g with runBit := r.1, runLen := r.2.1 })
  if r.2.2 || aptBad raw then (false, healthFail s1 r.2.2 (aptBad raw)) else (true, s1)

/-- The 128 bytes of a run, bit i of it in bit i mod 8 of byte i / 8 (R203). -/
def rawBytes (raw : List Bool) : List Byte :=
  (chunks 8 raw).map (fun c => byteOf (c.foldr (fun x acc => 2 * acc + b2n x) 0))

/-- The start-up test that failed is step 1 of the root-of-trust start, while that has not ended (R338): the start fails. -/
def startStepFail (s : State) : State :=
  if s.pow.inReset || s.rot.ready || s.rot.identityErr || s.rot.firmwareErr then s
  else logN { s with rot := { s.rot with identityErr := true } } mgmt .rtp codeIdentityFail 0 0

/-- STARTUP_TEST_COMPLETE (R205): the first 1,024 samples, which are discarded. A latched failure keeps VALID at 0 (R206). -/
def execStartupTestComplete (raw : List Bool) (s : State) : Res :=
  .next (if !s.rng.srcEn || !s.rng.startup || raw.length ≠ 1024 then s else
    let r := healthWindow (modRng s (fun g => { g with startup := false })) raw
    if r.1 then modRng r.2 (fun g => { g with valid := !g.latched }) else startStepFail r.2)

/-- RNG_CTRL.SRC_EN (R205, Table 08.12). -/
def srcEnEff (s : State) (on : Bool) : State :=
  modRng s (fun r =>
    if on ∧ !r.srcEn then { r with srcEn := true, startup := true, runLen := 0 }
    else if on then r else { r with srcEn := false, startup := false, valid := false })

/-- RNG_CTRL.RESTART (R206): a change from 0 to 1 clears the latch and reruns the start-up test. -/
def restartEff (s : State) (on : Bool) : State :=
  modRng s (fun r =>
    if on ∧ !r.restart then { r with restart := true, latched := false, rctFail := false, aptFail := false, valid := false,
                                     startup := r.srcEn, runLen := 0 }
    else { r with restart := on })

/-- RNG_DATA_READ (R207): 32 bits of the FIFO, low-order bytes first, or zero with EMPTY. -/
def execRngDataRead (s : State) : Res :=
  .next (if s.rng.fifo = [] ∨ s.rng.startup ∨ s.rng.latched then
      emitOut (modRng s (fun r => { r with empty := true, emptyCnt := r.emptyCnt + 1 })) (.readData (leBytes 4 0) false)
    else emitOut (modRng s (fun r => { r with empty := false, fifo := r.fifo.drop 4 })) (.readData (padTo 4 s.rng.fifo) false))

/-! ## DRBG instances (R208, R209) -/

/-- The most requests between reseeds. -/
abbrev drbgLimit : Nat := 2 ^ 20

/-- Does an instance wait for conditioned blocks, to be instantiated, to resume, or, with a request waiting, to be reseeded? -/
def needsBlock (d : Drbg) : Bool := d.live && (!d.seeded || d.stalled || (!d.waiting.isEmpty && drbgLimit ≤ d.reqs))

/-- The instance whose turn it is: the first that waits, from the rotation's place on (R209). -/
def nextInstance (s : State) : Option PartId :=
  ((places 17).filter (fun p => s.rng.turn ≤ p.1) ++ (places 17).filter (fun p => p.1 < s.rng.turn)).find? (fun p => needsBlock (getDrbg s p))

/-- Instantiate an instance from two conditioned blocks (R208). -/
def drbgInstantiate (s : State) (p : PartId) : State :=
  match s.rng.pool with
  | a :: b :: rest =>
    let kv := drbgInit a b (byteOf p.1 :: deviceId)
    modDrbg (modRng s (fun r => { r with pool := rest, turn := (p.1 + 1) % 17 })) p
      (fun d => { d with key := kv.1, v := kv.2, seeded := true, stalled := false, reqs := 0 })
  | _ => s

/-- Reseed an instance with one conditioned block. -/
def drbgReseedWith (s : State) (p : PartId) : State :=
  match s.rng.pool with
  | a :: rest =>
    let d := getDrbg s p
    let kv := drbgReseed d.key d.v a
    modDrbg (modRng s (fun r => { r with pool := rest, turn := (p.1 + 1) % 17 })) p
      (fun d => { d with key := kv.1, v := kv.2, reqs := 0, stalled := false })
  | _ => s

/-- One generate request of `n` bytes; none while the instance is not seeded or must reseed and cannot (R209). -/
def drbgGenerate (s : State) (p : PartId) (n : Nat) : Option (List Byte) × State :=
  let d := getDrbg s p
  let go (s : State) : Option (List Byte) × State :=
    let d := getDrbg s p
    let r := drbgGen d.key d.v n
    (some r.1, modDrbg s p (fun d => { d with key := r.2.1, v := r.2.2, reqs := d.reqs + 1 }))
  if !d.seeded || d.stalled then (none, s)
  else if d.reqs < drbgLimit then go s
  else if !s.rng.valid then (none, logN (modDrbg s p (fun d => { d with stalled := true })) p .rng codeDrbgStall p.1 0)
  else if s.rng.pool = [] then (none, s)
  else go (drbgReseedWith s p)

/-- Generate what the sizes still ask (fuel: their number). -/
def drbgFill (p : PartId) : List Nat → List (List Byte) → State → (List Nat × List (List Byte)) × State
  | [], got, s => (([], got), s)
  | n :: ns, got, s =>
    match drbgGenerate s p n with
    | (some b, s1) => drbgFill p ns (got ++ [b]) s1
    | (none, s1) => ((n :: ns, got), s1)

/-- Serve the first waiting request of an instance; what it asked for once all of it is generated. -/
def drbgServe (s : State) (p : PartId) : Option (DrbgWait × List Byte) × State :=
  match (getDrbg s p).waiting with
  | [] => (none, s)
  | q :: rest =>
    let r := drbgFill p q.sizes q.got s
    if r.1.1 = [] then (some (q.who, r.1.2.flatten), modDrbg r.2 p (fun d => { d with waiting := rest }))
    else (none, modDrbg r.2 p (fun d => { d with waiting := { q with sizes := r.1.1, got := r.1.2 } :: rest }))

/-- A consumer asks an instance: its request joins the queue, and is served at once where nothing waits before it. -/
def drbgAsk (s : State) (p : PartId) (sizes : List Nat) (who : DrbgWait) : Option (List Byte) × State :=
  let s1 := modDrbg s p (fun d => { d with waiting := d.waiting ++ [{ sizes := sizes, who := who }] })
  if (getDrbg s p).waiting ≠ [] then (none, s1)
  else match drbgServe s1 p with
    | (some r, s2) => (some r.2, s2)
    | (none, s2) => (none, s2)

/-- Take a consumer's waiting request back. -/
def drbgForget (s : State) (p : PartId) (who : DrbgWait) : State :=
  modDrbg s p (fun d => { d with waiting := d.waiting.filter (fun q => q.who != who) })

end Sys2Proof.Machine
end

