-- ==== Sys2Proof/Machine/Glean.lean ====
section
/-! DEFINITION. The gleaning pass: graph, sealed batches, reconstruction, seeds and mask streams (R151 to R174). -/

namespace Sys2Proof.Machine

/-! ## Shared helpers -/

/-- An event of detail form G, in the lead bay's daybook (R174). -/
def logG (s : State) (lead : BayId) (code : Nat) (job round : W32) (who off : Nat) : State :=
  logEv s s.bays[lead].owner (.st lead .shr) code job.toNat round.toNat who off

/-- A round of the issuer, named by job, round number and lead bay. -/
def myRound (s : State) (h : CmdHdr) (job round : W32) (lead : Nat) : Option (BayId × Round) :=
  match finOpt 16 lead with
  | none => none
  | some b =>
    match s.bays[b].round with
    | some r => if r.part = h.part ∧ r.job = job ∧ r.round = round then some (b, r) else none
    | none => none

def modRound (s : State) (lead : BayId) (f : Round → Round) : State :=
  modBay s lead (fun y => { y with round := y.round.map f })

/-- The secret of a key slot of a kind that belongs to a partition's job (Table 12.15). -/
def jobSecret (s : State) (p : PartId) (kind : Nat) (job : W32) : Option (List Byte) :=
  (s.rot.slots.toList.findSome? (fun o => match o with
    | some k => if k.kind = kind ∧ tenantPart k.part = p ∧ k.job = job then some k.secret else none
    | none => none))

/-- The inverse in GF(2^61 − 1), by exponentiation (R161). -/
def gfInv (a : Nat) : Nat := powMod gfP a 64 (gfP - 2)

/-! ## The masking graph (R157) -/

/-- Four-byte indices. -/
def indices (bs : List Byte) (off n : Nat) : List Nat := (List.range n).map (fun i => u32 bs (off + 4 * i))

def pad64 (n : Nat) : Nat := ceilDiv n 64 * 64

/-- One graph record for contributor `u`, with its length; none if it is malformed. -/
def parseRec (m : MaskRec) (clo chi u : Nat) (b : List Byte) : Option (GraphRec × Nat) :=
  let flag := bitOf (u8 b 1) 0
  let d := u16 b 2
  let h := u16 b 8
  let lower := u16 b 0xA
  let nOff := 0xC0
  let hOff := nOff + pad64 (4 * d)
  let eOff := hOff + pad64 (4 * h)
  let len := eOff + pad64 (32 * lower)
  let ns := indices b nOff d
  let hs := indices b hOff h
  let listOk (l : List Nat) : Bool := ascending l && l.all (fun v => v != u && clo ≤ v && v < chi)
  if u8 b 0 = 1 ∧ u8 b 1 < 2 ∧ u32 b 4 = u ∧ resvZero b 0x10 48 ∧ 1 ≤ d ∧ d ≤ m.d ∧
      (if flag then h = 0 ∧ m.t ≤ d else m.t ≤ h ∧ h ≤ m.h) ∧ listOk ns ∧ listOk hs ∧
      lower = (ns.filter (· < u)).length ∧ u32 b 0xC = len ∧ len ≤ b.length ∧
      resvZero b (nOff + 4 * d) (hOff - nOff - 4 * d) ∧ resvZero b (hOff + 4 * h) (eOff - hOff - 4 * h) ∧
      resvZero b (eOff + 32 * lower) (len - eOff - 32 * lower) then
    some ({ u := u, neighbours := ns, holders := if flag then ns else hs,
            envelopes := (List.range lower).map (fun i => bslice b (eOff + 32 * i) 32),
            commitSelf := bslice b 0x40 64, commitPair := bslice b 0x80 64 }, len)
  else none

/-- The records of contributors `u` on, exactly filling the bytes (fuel: how many). -/
def parseGraph (m : MaskRec) (clo chi : Nat) : Nat → Nat → List Byte → Option (List GraphRec)
  | 0, _, b => if b = [] then some [] else none
  | f + 1, u, b =>
    match parseRec m clo chi u b with
    | none => none
    | some (r, len) => (parseGraph m clo chi f (u + 1) (b.drop len)).map (fun l => r :: l)

/-! ## GLEAN_OPEN (R164 to R167) -/

/-- A region a gleaning command may use: in the lead bay's stack, with no placement window on it. -/
def gleanRegionOk (s : State) (b : BayId) (a n : Nat) : Bool := a + n ≤ stackSize && !placeWinOver s b a n

/-- The working region's least size (R166). -/
def workSize (m : MaskRec) : Nat := ceilDiv (m.n * m.h * 40 + 2 * m.n + 2 ^ 20) 65536 * 65536

/-- The working region is right, and the one the job is bound to (R166). -/
def workOk (s : State) (j : Job) (b : BayId) (a n : Nat) : Bool :=
  gleanRegionOk s b a n && workSize j.mask ≤ n &&
  (match j.working with
   | some w => w == (b, a, n)
   | none => true)

/-- The bins that the handles name, none if one is not the issuer's. -/
def namedBins (s : State) (p : PartId) (ws : List W32) : Option (List (BayId × Bin)) := ws.mapM (handleBin s p)

/-- The named bins suit the round (GLEAN_MISMATCH otherwise). -/
def gleanFits (s : State) (j : Job) (lead : BayId) (l : List (BayId × Bin)) : Bool :=
  l.all (fun p => !isGatherer p.2 && p.2.state == .sum && !p.2.freeing && p.2.job == j.job && p.2.ring == j.mask.ring) &&
  decide ((l.map (·.1)).Nodup) && l.any (fun p => p.1 == lead) &&
  (match l with
   | [] => false
   | q :: _ => l.all (fun p => p.2.clo == q.2.clo && p.2.chi == q.2.chi && presentIn s p.1 p.2 == presentIn s q.1 q.2))

/-- The reveal bitmaps of a partition's job. -/
def revealsOf (s : State) (p : TenantId) (job : W32) : List Reveal := s.rot.reveals.filter (fun r => r.part == p && r.job == job)

/-- Is the round number below the oldest of the eight bitmaps kept (R164)? -/
def roundStale (s : State) (p : TenantId) (job round : W32) : Bool :=
  let ks := (revealsOf s p job).map (fun r => r.round.toNat)
  8 ≤ ks.length && ks.all (fun k => round.toNat < k)

/-- Add a round's bitmap, keeping the eight most recent round numbers. -/
def addReveal (s : State) (p : TenantId) (job round : W32) : State :=
  if (revealsOf s p job).any (fun r => r.round == round) then s else
    let l := revealsOf s p job
    let oldest := (l.map (fun r => r.round.toNat)).foldl min (2 ^ 32)
    let keep := if l.length < 8 then s.rot.reveals
      else s.rot.reveals.filter (fun r => !(r.part == p && r.job == job && r.round.toNat == oldest))
    { s with rot := { s.rot with reveals := keep ++ [{ part := p, job := job, round := round }] } }

/-- The checks of GLEAN_OPEN before presence is frozen. -/
def gleanOpenStatus (s : State) (h : CmdHdr) (job round : W32) (lead : Nat) (handles : List W32) : Nat :=
  if handles.length < 1 ∨ 16 < handles.length then codeQmEntry
  else match issuer h, finOpt 16 lead, jobOfPart s h.part with
    | some p, some b, some j =>
      if j.job ≠ job ∨ j.mask.mode ≠ 1 ∨ !holdsBay s h.part b ∨ !stackReady s.bays[b].mem ∨ s.bays[b].round.isSome then codeGleanState
      else match namedBins s h.part handles with
        | none => codeBinState
        | some l =>
          if l.any (fun q => q.2.wait.isSome) then codeBinBusy
          else if roundStale s p job round then codeRoundStale
          else if gleanFits s j b l then 0 else codeGleanMismatch
    | _, _, _ => codeGleanState

/-- The reads of the presence bitmaps of the named bins (R124, R125, R137). -/
def presenceFaults (s : State) (l : List (BayId × Bin)) (lf : LineFaults) : State :=
  l.foldl (fun s q => binFaults s q.1 q.2 [(presenceOff q.2, presenceLen q.2)] { lf with ce := 0 }) s

/-- Check the regions, freeze, count, read the graph and open the round (R165, R166). The corrected errors of the command's reads are
counted on the lead bay, whose stack holds the graph. -/
def gleanOpenRun (s : State) (h : CmdHdr) (job round : W32) (lead : BayId) (j : Job) (p : TenantId) (l : List (BayId × Bin))
    (graphRegion graphLen workRegion workLen : Nat) (digest : List Byte) (lf : LineFaults) : State :=
  let s1 := l.foldl (fun s q => modBin s q.1 q.2.index (fun x => { x with frozen := true })) s
  match l.head? with
  | none => complete s1 h codeGleanMismatch []
  | some q =>
    let pres := presentIn s1 q.1 q.2
    let res := leBytes 4 pres.length
    if !gleanRegionOk s lead graphRegion graphLen || !workOk s j lead workRegion workLen then complete s h codeGleanRegion []
    else if pres.length < j.mask.f then complete (logG s1 lead codeBelowFloor job round 0 0) h codeBelowFloor res
    else
      let s1 := readFaults s1 lead [(graphRegion, graphLen)] lf
      let bytes := dramRead s1.bays[lead].mem graphRegion graphLen
      match parseGraph j.mask q.2.clo q.2.chi (binContribs q.2) q.2.clo bytes with
      | none => complete s1 h codeGraphMalformed []
      | some g =>
        if shake256 bytes 64 ≠ digest then complete s1 h codeGraphDigest []
        else
          let r : Round := {
            part := h.part
            job := job
            round := round
            state := .collecting
            bins := l.map (fun q => { bay := q.1, index := q.2.index, gen := binGenOf s q.1 q.2.index })
            clo := q.2.clo
            chi := q.2.chi
            presence := pres
            floor := j.mask.f
            graph := g
            graphDigest := digest }
          let s2 := modBay s1 lead (fun y => { y with round := some r })
          let s3 := modPart s2 p (fun x => { x with job := x.job.map (fun k => { k with
            working := some (lead, workRegion, workLen),
            graphDigest := (round, digest) :: k.graphDigest.filter (fun e => e.1 != round) }) })
          complete (addReveal s3 p job round) h 0 res

/-- GLEAN_OPEN (R166). A bin that the read of its presence bitmap fails (R137) no longer suits the round. -/
def execGleanOpen (h : CmdHdr) (job round : W32) (lead : Nat) (graphRegion : Reads Nat) (graphLen workRegion workLen : Nat)
    (digest : List Byte) (handles : List W32) (s : State) : Res :=
  let s0 := begun s (.gleanOpen h job round lead ⟨graphRegion.arg, noFaults⟩ graphLen workRegion workLen digest handles)
  let st := gleanOpenStatus s0 h job round lead handles
  .next (if st ≠ 0 then complete s0 h st [] else
    let s1 := presenceFaults s0 ((namedBins s0 h.part handles).getD []) graphRegion.lf
    let st := gleanOpenStatus s1 h job round lead handles
    if st ≠ 0 then complete s1 h st [] else
    match issuer h, finOpt 16 lead, jobOfPart s1 h.part with
    | some p, some b, some j =>
      gleanOpenRun s1 h job round b j p ((namedBins s1 h.part handles).getD []) graphRegion.arg graphLen workRegion workLen digest graphRegion.lf
    | _, _, _ => complete s1 h codeGleanState [])

/-! ## GLEAN_SHARES (R158, R159) -/

/-- A share record after decryption (Table 06.7), none if malformed. -/
def parseShare (holder : Nat) (b : List Byte) : Option Share :=
  let ys := (List.range 5).map (fun i => u64 b (0x10 + 8 * i))
  if u8 b 0 = 1 ∧ (u8 b 1 = 1 ∨ u8 b 1 = 2) ∧ resvZero b 2 2 ∧ u32 b 8 = holder ∧ resvZero b 0xC 4 ∧ resvZero b 0x38 8 ∧
      ys.all (· < gfP) then
    some { owner := u32 b 4, kind := u8 b 1, holder := holder, ys := ys }
  else none

def recOf (r : Round) (u : Nat) : Option GraphRec := r.graph.find? (fun g => g.u == u)
def isPresent (r : Round) (u : Nat) : Bool := r.presence.contains u

/-- Does the station keep a record (R159)? -/
def keepShare (r : Round) (x : Share) : Bool :=
  match recOf r x.owner with
  | none => false
  | some g => g.holders.contains x.holder && x.kind == (if isPresent r x.owner then 2 else 1)

/-- File the records of an accepted batch; of two for one place the later is found (R159). -/
def fileBatch (s : State) (lead : BayId) (r : Round) (holder off : Nat) (recs : List (List Byte)) : State :=
  let good := (recs.filterMap (parseShare holder)).filter (keepShare r)
  let bad := recs.length - good.length
  let s1 := modRound s lead (fun q => { q with
    accepted := holder :: q.accepted, rejected := q.rejected + word32 bad,
    shares := good.reverse ++ q.shares.filter (fun x => !good.any (fun y => y.owner == x.owner && y.holder == x.holder)) })
  if bad = 0 then s1 else logG s1 lead codeShareRejected r.job r.round holder off

/-- The header of a sealed batch is well-formed and belongs to the round; its holder is present (R159). -/
def batchHdrOk (r : Round) (b : List Byte) (n : Nat) : Bool :=
  u8 b 0 == 1 && u8 b 1 == 0 && resvZero b 0x10 48 && resvZero b (0x670 + 64 * n) 16 && w32 b 8 == r.job && w32 b 0xC == r.round &&
  isPresent r (u32 b 4)

/-- The records of a batch, none if its tag fails (R158). -/
def openBatch (s : State) (r : Round) (b : List Byte) (n : Nat) : Option (List (List Byte)) :=
  match jobSecret s r.part 3 r.job with
  | none => none
  | some seed =>
    let dk := (Config.kemKeyGen (seed.take 32) (seed.drop 32)).2
    let ss := Config.kemDecaps dk (bslice b 0x40 1568)
    let key := kmac256 ss (leBytes 4 r.job.toNat ++ leBytes 4 r.round.toNat ++ leBytes 4 (u32 b 4)) 32 (ascii "WYSHARE")
    (gcmOpen key (List.replicate 12 0) (b.take 64) (bslice b 0x660 (64 * n + 16))).map (chunks 64)

/-- Open and file the batches of a byte string that starts at `off` of its region (fuel: its length). DESIGN CHOICE (log 26): after a
batch whose count is outside 1 to 2,048, or that runs past the region's end, the rest of the region is not read: its length is what
would say where the next batch lies. -/
def fileAll (s : State) (lead : BayId) : Nat → Nat → List Byte → State
  | 0, _, _ => s
  | f + 1, off, b =>
    match b, s.bays[lead].round with
    | [], _ => s
    | _, none => s
    | _, some r =>
      let n := u16 b 2
      let len := 1664 + 64 * n
      let holder := u32 b 4
      if n < 1 ∨ 2048 < n ∨ b.length < len then logG s lead codeBatchMalformed r.job r.round holder off
      else
        let s1 := match openBatch s r b n with
          | none => logG s lead codeBatchAuth r.job r.round holder off
          | some recs =>
            if !batchHdrOk r b n then logG s lead codeBatchMalformed r.job r.round holder off
            else if r.accepted.contains holder then logG s lead codeBatchDup r.job r.round holder off
            else fileBatch s lead r holder off recs
        fileAll s1 lead f (off + len) (b.drop len)

/-- GLEAN_SHARES (R158); without the job's share key SLOT_ABSENT (R352). -/
def execGleanShares (h : CmdHdr) (job round : W32) (lead : Nat) (region : Reads Nat) (len : Nat) (s : State) : Res :=
  let s0 := begun s (.gleanShares h job round lead ⟨region.arg, noFaults⟩ len)
  .next (match myRound s0 h job round lead with
    | none => complete s0 h codeGleanState []
    | some (b, r) =>
      if r.state ≠ .collecting then complete s0 h codeGleanState []
      else if (jobSecret s0 r.part 3 r.job).isNone then complete s0 h codeSlotAbsent []
      else if !gleanRegionOk s0 b region.arg len then complete s0 h codeGleanRegion []
      else
        let s1 := readFaults s0 b [(region.arg, len)] region.lf
        complete (fileAll s1 b len 0 (dramRead s1.bays[b].mem region.arg len)) h 0 [])

/-- GLEAN_EXCLUDE (R162). -/
def execGleanExclude (h : CmdHdr) (job round : W32) (lead count : Nat) (buf : HostRead) (s : State) : Res :=
  let s0 := begun s (.gleanExclude h job round lead count buf)
  .next (if count < 1 ∨ 4096 < count then complete s0 h codeQmEntry [] else
    match myRound s0 h job round lead, buf with
    | none, _ => complete s0 h codeGleanState []
    | some (b, r), .ok bytes =>
      if r.state ≠ .collecting then complete s0 h codeGleanState []
      else complete (modRound s0 b (fun q => { q with excluded := q.excluded ++ indices bytes 0 count })) h 0 []
    | some (_, r), .failed => complete s0 h (if r.state ≠ .collecting then codeGleanState else codeQmHostErr) [])

/-- GLEAN_FINISH (R169): reconstruction starts. -/
def execGleanFinish (h : CmdHdr) (job round : W32) (lead : Nat) (buffer : W64) (s : State) : Res :=
  let s0 := begun s (.gleanFinish h job round lead buffer)
  .next (match myRound s0 h job round lead with
    | none => complete s0 h codeGleanState []
    | some (b, r) =>
      if r.state ≠ .collecting then complete s0 h codeGleanState []
      else modRound s0 b (fun q => { q with state := .reconstructing, finish := some (h, buffer) }))

/-- GLEAN_ABORT (R169): the round returns to IDLE, its reveal bitmap kept. -/
def execGleanAbort (h : CmdHdr) (job round : W32) (lead : Nat) (s : State) : Res :=
  let s0 := begun s (.gleanAbort h job round lead)
  .next (match myRound s0 h job round lead with
    | none => complete s0 h codeGleanState []
    | some (b, r) =>
      if r.state = .gleaned then complete s0 h codeGleanState []
      else complete (idleRound s0 b) h 0 [])

/-! ## Reconstruction (R160 to R163, R170) -/

/-- The kind of secret that an owner's presence calls for; none when it needs no reconstruction (R170). -/
def neededKind (r : Round) (g : GraphRec) : Option Nat :=
  if isPresent r g.u then some 2 else if g.neighbours.any (isPresent r) then some 1 else none

/-- The kept shares of an owner that count, in the order of its holder list. -/
def ownerShares (r : Round) (g : GraphRec) : List Share :=
  g.holders.filterMap (fun v => if r.excluded.contains v then none else r.shares.find? (fun x => x.owner == g.u && x.holder == v))

/-- λ_i (R161). -/
def lagrange (xs : List Nat) (xi : Nat) : Nat :=
  (xs.filter (· != xi)).foldl (fun acc xk => acc * (xk * gfInv ((xk + gfP - xi) % gfP) % gfP) % gfP) 1

/-- The five chunks at zero. -/
def recoverChunks (l : List Share) : List Nat :=
  let xs := l.map (fun x => x.holder + 1)
  (List.range 5).map (fun j => l.foldl (fun acc x => (acc + lagrange xs (x.holder + 1) * x.ys.getD j 0) % gfP) 0)

/-- The secret of five chunks, none when one is out of range (R160, R161). -/
def joinChunks (cs : List Nat) : Option (List Byte) :=
  if cs.length = 5 ∧ (cs.take 4).all (· < 2 ^ 52) ∧ cs.getD 4 0 < 2 ^ 48 then
    some (leBytes 32 (cs.getD 0 0 + cs.getD 1 0 * 2 ^ 52 + cs.getD 2 0 * 2 ^ 104 + cs.getD 3 0 * 2 ^ 156 + cs.getD 4 0 * 2 ^ 208))
  else none

/-- The commitment of Table 06.2. -/
def commitment (kind : Nat) (job round : W32) (u : Nat) (secret : List Byte) : List Byte :=
  shake256 (byteOf kind :: leBytes 4 job.toNat ++ leBytes 4 round.toNat ++ leBytes 4 u ++ secret) 64

/-- The reveal entry of a contributor: 0 none, 1 p_u, 2 b_u, 3 blocked (R163). -/
def revealOf (s : State) (p : TenantId) (job round : W32) (u : Nat) : Nat :=
  match (revealsOf s p job).find? (fun r => r.round == round) with
  | some r => (lookup u r.bits).getD 0
  | none => 0

def setReveal (s : State) (p : TenantId) (job round : W32) (u k : Nat) : State :=
  { s with rot := { s.rot with reveals := s.rot.reveals.map (fun r =>
      if r.part = p ∧ r.job = job ∧ r.round = round then { r with bits := insertKey u k r.bits } else r) } }

/-- One owner: the reveal check, then Lagrange and the commitment (R161, R163). -/
def reconstructOne (s : State) (lead : BayId) (t : Nat) (g : GraphRec) : State :=
  match s.bays[lead].round with
  | none => s
  | some r =>
    match neededKind r g, partTenant r.part with
    | some k, some p =>
      let sh := (ownerShares r g).take t
      if (lookup g.u r.secrets).isSome || decide (sh.length < t) then s
      else
        let e := revealOf s p r.job r.round g.u
        if e ≠ 0 ∧ e ≠ k then logG s lead codeRevealConflict r.job r.round g.u 0
        else
          let s1 := setReveal s p r.job r.round g.u k
          match joinChunks (recoverChunks sh) with
          | none => logG s1 lead codeCommitFail r.job r.round g.u 0
          | some sec =>
            if commitment k r.job r.round g.u sec = (if k = 2 then g.commitSelf else g.commitPair) then
              modRound s1 lead (fun q => { q with secrets := insertKey g.u sec q.secrets })
            else logG s1 lead codeCommitFail r.job r.round g.u 0
    | _, _ => s

/-- The owners still without their secret. -/
def stillNeeded (r : Round) : List Nat :=
  (r.graph.filter (fun g => (neededKind r g).isSome && (lookup g.u r.secrets).isNone)).map (·.u)

/-- The seed entries of one reconstructed owner (R170). -/
def seedsOf (r : Round) (g : GraphRec) : List SeedEntry :=
  let j := leBytes 4 r.job.toNat ++ leBytes 4 r.round.toNat
  match lookup g.u r.secrets with
  | none => []
  | some sec =>
    if isPresent r g.u then
      [{ seed := kmac256 sec (j ++ leBytes 4 g.u) 32 (ascii "WYSELF"), a := g.u, b := 0xFFFFFFFF, kind := 2, sign := 0 }]
    else
      let lows := g.neighbours.filter (· < g.u)
      let high := (g.neighbours.filter (fun v => g.u < v && isPresent r v)).map (fun v =>
        ({ seed := kmac256 sec (j ++ leBytes 4 g.u ++ leBytes 4 v) 32 (ascii "WYEDGE"), a := g.u, b := v, kind := 1, sign := 1 } : SeedEntry))
      let low := ((lows.zip g.envelopes).filter (fun p => isPresent r p.1)).map (fun p =>
        ({ seed := xorBytes p.2 (kmac256 sec (j ++ leBytes 4 p.1 ++ leBytes 4 g.u) 32 (ascii "WYENV")), a := p.1, b := g.u,
           kind := 1, sign := 0 } : SeedEntry))
      high ++ low

/-- The 64 bytes of an entry (Table 06.11). -/
def seedBytes (e : SeedEntry) : List Byte :=
  e.seed ++ leBytes 4 e.a ++ leBytes 4 e.b ++ [byteOf e.kind, byteOf e.sign] ++ List.replicate 22 0

def parseSeed (b : List Byte) : SeedEntry where
  seed := b.take 32
  a := u32 b 0x20
  b := u32 b 0x24
  kind := u8 b 0x28
  sign := u8 b 0x29

/-- The seed tiles of a round (R170). -/
def seedTiles (r : Round) (es : List SeedEntry) : List Tile :=
  let gs := chunks 1024 es
  gs.mapIdx (fun i g => { hdr := { ring := 1, etype := 0, job := r.job, tileIndex := i, count := 16 * g.length, last := i + 1 == gs.length },
                          payload := g.flatMap seedBytes })

/-- The output ports of a Share station that are connected to the Mask stations of named bays. -/
def maskPorts (s : State) (lead : BayId) (r : Round) : List PortId :=
  allPorts.filter (fun n => match (getOut s (.bay lead .shr) n).cons with
    | some (.bay b .msk, _) => r.bins.any (fun x => x.bay == b)
    | _ => false)

/-- Pass the seed tiles that have credits, as markers while the station aborts or is fenced (R79) (fuel: tiles waiting). -/
def sharePump (lead : BayId) : Nat → State → State
  | 0, s => s
  | f + 1, s =>
    let st : StationRef := .bay lead .shr
    let ctl := getSt s st
    match s.bays[lead].round with
    | none => s
    | some r =>
      match r.sendQ.find? (fun p => outCredits s st p.1 != 0) with
      | none => s
      | some (n, t) =>
        let stop := stopping ctl
        if !(stop || mayFire s st) then s else
          let s1 := if stop then logOutCause s st n t (stopCause ctl) 0 else s
          match reserveOut s1 st n (if stop then markerOf t.hdr (stopCause ctl) else t) none with
          | none => s
          | some (k, tok, s2) => sharePump lead f (modRound (passTok s2 st k tok) lead (fun q => { q with sendQ := q.sendQ.erase (n, t) }))

def shareSend (s : State) (lead : BayId) : State :=
  match s.bays[lead].round with
  | some r => sharePump lead r.sendQ.length s
  | none => s

/-- Start the masking of a round: the Mask station of each named bay is told its bin, the seeds go out (R170). -/
def startMasking (s : State) (lead : BayId) (r : Round) : State :=
  let es := r.graph.flatMap (seedsOf r)
  let tiles := seedTiles r es
  let s1 := r.bins.foldl (fun s x => modBay s x.bay (fun y => { y with mask :=
    { bin := some x, job := r.job, round := r.round, batches := y.mask.batches, stream := y.mask.stream } })) s
  shareSend (modRound s1 lead (fun q => { q with
    state := .masking
    seeds := word32 es.length
    sendQ := (maskPorts s lead r).flatMap (fun n => tiles.map (fun t => (n, t))) })) lead

/-- A bitmap of contributors in the layout of the presence bitmap, in whole bytes (DESIGN CHOICE, log 26: the spec states no length). -/
def contribBitmap (clo chi : Nat) (l : List Nat) : List Byte :=
  leBytes (ceilDiv (chi - clo) 8) (maskOf (chi - clo) (l.map (· - clo)))

/-- RECONSTRUCTION_COMPLETE (Table 06.10). -/
def execReconstructionComplete (lead : BayId) (s : State) : Res :=
  .next (match s.bays[lead].round with
    | none => s
    | some r =>
      if r.state ≠ .reconstructing then s else
        let t := match jobOfPart s r.part with
          | some j => j.mask.t
          | none => 0
        let s1 := r.graph.foldl (fun s g => reconstructOne s lead t g) s
        match s1.bays[lead].round with
        | none => s1
        | some q =>
          let need := stillNeeded q
          if need.isEmpty then startMasking s1 lead q
          else
            let s2 := modRound s1 lead (fun x => { x with state := .collecting, finish := none })
            match q.finish with
            | none => s2
            | some (h, buf) =>
              complete (emitOut s2 (.hostWrite h.part buf (contribBitmap q.clo q.chi need))) h codeGleanShort (leBytes 4 need.length))

/-! ## Mask streams (R155, R156, R171) -/

/-- Stream bytes per element (Table 06.4). -/
def maskW (ring : Nat) : Nat := if ring = 1 then 4 else if ring = 2 then 8 else 16

/-- One 4 KiB block of a mask stream (Table 06.3). -/
def maskBlock (job round : W32) (ring kind : Nat) (seed : List Byte) (i : Nat) : List Byte :=
  cshake128 (seed ++ leBytes 8 i) 4096 (ascii "WYMASK")
    (leBytes 4 job.toNat ++ leBytes 4 round.toNat ++ [byteOf ring, byteOf kind] ++ List.replicate 6 0)

/-- The blocks that cover [g, g + n). -/
def maskBlocks (ring g n : Nat) : List Nat :=
  let e := 4096 / maskW ring
  if n = 0 then [] else (List.range ((g + n - 1) / e - g / e + 1)).map (fun i => g / e + i)

/-- The elements M(s, k)[g], …, M(s, k)[g + n − 1]. -/
def maskElems (job round : W32) (ring m kind : Nat) (seed : List Byte) (g n : Nat) : List Nat :=
  let w := maskW ring
  let e := 4096 / w
  (((maskBlocks ring g n).flatMap (fun i => chunks w (maskBlock job round ring kind seed i))).drop (g % e)).take n |>.map (fun b => ofLe b % m)

/-- A over [g, g + n): the entries' streams, each with its sign (R171). -/
def residual (job round : W32) (ring : Nat) (r : Ring) (es : List SeedEntry) (g n : Nat) : List Nat :=
  es.foldl (fun acc e =>
    (acc.zip (maskElems job round ring r.m e.kind e.seed g n)).map (fun p => if e.sign = 0 then ringAdd r p.1 p.2 else ringSub r p.1 p.2))
    (List.replicate n 0)

/-- The Mask station's output port to its bay's subtract stream (R168). -/
def maskOut (s : State) (b : BayId) : Option PortId :=
  allPorts.find? (fun n => (getOut s (.bay b .msk) n).conn)

def modMask (s : State) (b : BayId) (f : MaskSt → MaskSt) : State := modBay s b (fun y => { y with mask := f y.mask })

/-- Take one held seed tile into the batch being gathered; of a tile with a malformed header nothing more is examined (R67). `stop` is the
cause while the station aborts or is fenced. -/
def maskGatherOne (s : State) (b : BayId) (p : PortId) (stop : Option Nat) : State :=
  let st : StationRef := .bay b .msk
  match (getIn s st p).held.head? with
  | none => s
  | some tok =>
    let t := tok.tile
    let good := t.hdr.ring = 1 ∧ t.hdr.etype = 0 ∧ t.hdr.count % 16 = 0 ∧ (t.hdr.poison ∨ payloadShapeOk 4 t)
    let cs := tileCauses s st p t ((if !hdrOk (modsOf s (stOwner s st) t.hdr.job) t.hdr || good then [] else [codeMisfit]) ++ stop.toList)
    match takeTok (logMade s st p (maskOut s b) t cs.1) st p with
    | none => s
    | some (_, s2) =>
      let es := match cs.2 with
        | some _ => List.replicate (t.hdr.count / 16) { seed := [], a := 0, b := 0, kind := 0, sign := 0 }
        | none => (chunks 64 (padTo (4 * t.hdr.count) t.payload)).map parseSeed
      returnSlot (modMask s2 b (fun m => { m with
        gather := m.gather ++ es, gatherPois := if m.gatherPois = 0 then cs.2.getD 0 else m.gatherPois, gatherLast := t.hdr.last })) st p tok.slot

/-- Is the gathered batch complete (R171)? A poisoned tile counts its entries like any other. -/
def batchFull (m : MaskSt) : Bool := m.gatherLast || 4096 ≤ m.gather.length

/-- Gather held seed tiles until a batch is complete (fuel: tokens held). -/
def maskGather (b : BayId) (stop : Option Nat) : Nat → State → State
  | 0, s => s
  | f + 1, s =>
    let m := s.bays[b].mask
    if m.running || batchFull m then s else
      match allPorts.find? (fun p => !(getIn s (.bay b .msk) p).held.isEmpty) with
      | none => s
      | some p => maskGather b stop f (maskGatherOne s b p stop)

/-- A complete batch starts its expansion. -/
def maskStart (s : State) (b : BayId) : State :=
  modMask s b (fun m => if !m.running && batchFull m then
    { m with batch := m.gather, pois := m.gatherPois, last := m.gatherLast, running := true, pos := 0, gather := [], gatherPois := 0,
             gatherLast := false } else m)

/-- The header of a residual tile: that of a Bin READ stream (R171, R446). -/
def maskHdr (m : MaskSt) (x : Bin) : TileHdr :=
  let cap := binCap x
  { ring := x.ring, etype := x.etype, job := x.job, tileIndex := m.ord, sliceOffset := (x.base + m.pos * cap) % 2 ^ 48,
    count := if m.pos + 1 = x.t ∧ x.lastCount ≠ 0 then x.lastCount else cap, last := m.last && m.pos + 1 == x.t }

/-- The Mask station after one position. -/
def maskNext (m : MaskSt) (x : Bin) (bytes : Nat) : MaskSt :=
  if m.pos + 1 = x.t then
    { m with running := false, pos := 0, ord := m.ord + 1, batch := [], pois := 0, batches := m.batches + 1,
             stream := m.stream + word64 bytes, finished := m.last }
  else { m with pos := m.pos + 1, ord := m.ord + 1, stream := m.stream + word64 bytes }

/-- MASK_POSITION_EMIT (R171): gather held seed tiles; when a batch is in expansion, emit its next position. -/
def execMaskPositionEmit (b : BayId) (s : State) : Res :=
  let st : StationRef := .bay b .msk
  let ctl := getSt s st
  let stop := if stopping ctl then some (stopCause ctl) else none
  .next (if !(stop.isSome || mayFire s st) then s else
    let held := (ctl.ins.toList.map (fun ip => ip.held.length)).foldl (· + ·) 0
    let s1 := maskStart (maskGather b stop held s) b
    let m := s1.bays[b].mask
    match m.bin.bind (fun k => findBin s1 b k.index), maskOut s1 b with
    | some x, some n =>
      if !m.running || outCredits s1 st n == 0 then updWait s1 st else
        let h := maskHdr m x
        let cause := if m.pois ≠ 0 then some m.pois else stop
        let r := binRing s1 x
        let t : Tile := match cause with
          | some c => if stop.isSome then markerOf h c else poisonTile { hdr := h } c
          | none => { hdr := h, payload := writeElems r.size (residual m.job m.round x.ring r m.batch h.sliceOffset h.count) }
        let s2 := if m.pois ≠ 0 then s1 else match stop with
          | some c => logOutCause s1 st n t c 0
          | none => s1
        match reserveOut s2 st n t none with
        | none => s1
        | some (k, tok, s3) =>
          modMask (passTok s3 st k tok) b (fun m => maskNext m x (m.batch.length * 4096 * (maskBlocks x.ring h.sliceOffset h.count).length))
    | _, _ => updWait s1 st)

/-- Have all seeds been subtracted in a bay: its Mask station is finished and no residual tile is on its way to the bin, whose
stream is still bound to it? -/
def bayMasked (s : State) (r : Round) (x : BinRef) : Bool :=
  let m := s.bays[x.bay].mask
  m.finished && m.bin == some x && m.round == r.round && m.job == r.job &&
  allPorts.all (fun p =>
    let ip := getIn s (.bay x.bay .bin) p
    (match ip.prod with
     | some (.bay c .msk, _) => !(c == x.bay) || (ip.held.isEmpty && (s.tokFlight.all (fun f => !(f.1 == .bay x.bay .bin && f.2.1 == p))))
     | _ => true))

/-- MASKING_COMPLETE (Table 06.10): every seed entry has been subtracted in every named bay. -/
def execMaskingComplete (lead : BayId) (s : State) : Res :=
  .next (match s.bays[lead].round with
    | none => s
    | some r =>
      if r.state ≠ .masking ∨ r.sendQ ≠ [] ∨ !r.bins.all (bayMasked s r) then s else
        let s1 := modRound s lead (fun q => { q with state := .gleaned, finish := none })
        match r.finish with
        | some (h, _) => complete s1 h 0 (leBytes 4 0)
        | none => s1)

end Sys2Proof.Machine
end

