-- ==== Sys2Proof/Machine/Flags.lean ====
section
/-! DEFINITION. PG_STAT and PG_ERR of the station pages, computed from the state (R77, Tables 03.7 and 03.8, R149, R173, R201,
R236, R259). -/

namespace Sys2Proof.Machine

/-- Is a pipeline at work on a ciphertext, or does it hold one gathered or not yet emitted (R186)? -/
def pipeBusy (p : Pipe) : Bool := p.cur.isSome || !p.outQ.isEmpty || !p.readyA.isEmpty

/-- Is a firing in progress at a station? -/
def stBusy (s : State) (r : StationRef) : Bool :=
  (getSt s r).firing.isSome ||
  (match r with
   | .bay b .bin => !s.bays[b].mem.inFlight.isEmpty
   | .bay b .msk => s.bays[b].mask.running
   | .bay b .shr => match s.bays[b].round with
     | some q => q.state == .reconstructing || !q.sendQ.isEmpty
     | none => false
   | .bay b .lat => s.bays[b].lattice.pipes.any pipeBusy
   | .core c => (getCore s c).firing.isSome
   | .trn => s.trn.msgs.any (fun m => !m.put)
   | .red => !s.red.inq.isEmpty || !s.red.runs.isEmpty
   | _ => false)

/-- HOLDING: an input token is held and not yet consumed. -/
def stHolding (s : State) (r : StationRef) : Bool := anyHeld (getSt s r)

/-- DRAINED: no firing in progress and, with DRAIN_REQ or ABORT set, no token held. -/
def stDrained (s : State) (r : StationRef) : Bool :=
  !stBusy s r && (!((getSt s r).drainA || (getSt s r).abortA) || !stHolding s r)

/-- The block-defined bits [15:8] of PG_STAT. -/
def stBlockBits (s : State) : StationRef → Nat
  | .bay b .bin => b2n (!stackReady s.bays[b].mem)
  | .bay b .shr => match s.bays[b].round with
    | some q => 1 + 2 * (match q.state with
      | .idle => 0
      | .collecting => 1
      | .reconstructing => 2
      | .masking => 3
      | .gleaned => 4)
    | none => 0
  | .bay b .lat => b2n (s.bays[b].lattice.keys.toList.any (fun k => match k with
      | some x => x.checking
      | none => false)) +
      2 * b2n (s.bays[b].lattice.pipes.any (fun p => match p.cur with
        | some w => (match w.now with
          | some n => (n.ops.head?.map (fun o => o.1 == 3 || o.1 == 5)).getD false
          | none => false)
        | none => false))
  | .bay b .nse => b2n (!s.bays[b].noise.seeds.isEmpty) + 2 * b2n (s.bays[b].noise.streams.any (fun x => x.waitSeed))
  | .bay b .rls => (match s.bays[b].release.state with
      | .idle => 0
      | .collecting => 1
      | .signing => 2
      | .emitting => 3
      | .discarding => 4) + 8 * b2n (match s.bays[b].release.cur with
        | some r => s.bays[b].release.state == .signing && r.rand.isNone
        | none => false)
  | .core c =>
    let k := getCore s c
    b2n k.bind.isSome + 2 * b2n (match k.run with
      | .waitFire _ _ => true
      | _ => false) + 4 * b2n k.waitDma + 8 * b2n k.moved
  | _ => 0

/-- PG_ERR of a station page: FAULT, CONFIG, and a core's fault bits [12:8] (R259). -/
def stErr (s : State) (r : StationRef) : Nat :=
  let x := getSt s r
  b2n x.fault + 2 * b2n x.config + (match r with
    | .core c => (getCore s c).faultBits.toNat * 256
    | _ => 0)

/-- PG_STAT of a station page. -/
def stStat (s : State) (r : StationRef) : Nat :=
  let x := getSt s r
  b2n x.ready + 2 * b2n (stBusy s r) + 4 * b2n (stDrained s r) + 8 * b2n (stErr s r != 0) + 16 * b2n (stHolding s r) +
    32 * b2n x.stall + 64 * b2n x.abortA + 128 * b2n (x.st == .fenced) + 256 * stBlockBits s r

end Sys2Proof.Machine
end

