-- ==== Sys2Proof/Machine/Lattice.lean ====
section
/-! DEFINITION. The Lattice station: parameter sets, keys, the transform, base conversion, pipelines (R175 to R202). -/

namespace Sys2Proof.Machine

/-! ## Arithmetic (R40, R41, R182, R188, R189) -/

/-- The Montgomery radix of a modulus (R39). -/
def montR (m : Nat) : Nat := if m < 2 ^ 31 then 2 ^ 32 else 2 ^ 64

/-- A product modulo a limb's prime; one with a wrong r2 gives wrong products (R39; notes/assumptions/17.md). -/
def latMul (l : Limb) (a b : Nat) : Nat :=
  if l.r2 = montR l.m ^ 2 % l.m then a * b % l.m else Config.wrongProduct l.m l.mprime l.r2 a b % l.m

/-- The inverse modulo a prime. -/
def latInv (q a : Nat) : Nat :=
  let x := powMod q (a % q) 64 (q - 2)
  if a * x % q = 1 % q then x else Config.noInverse q a % q

/-- The low `n` bits of `k` reversed. -/
def brv (n k : Nat) : Nat := (List.range n).foldl (fun acc i => 2 * acc + k / 2 ^ i % 2) 0

/-- The forward transform of R182. -/
def ntt (l : Limb) (logn : Nat) (a : Poly) : Poly :=
  (List.range (2 ^ logn)).map (fun k =>
    (a.zipIdx.foldl (fun acc p => (acc + latMul l p.1 (powMod l.m l.psi 64 (p.2 * (2 * brv logn k + 1)))) % l.m) 0))

/-- Its inverse. -/
def intt (l : Limb) (logn : Nat) (a : Poly) : Poly :=
  let n := 2 ^ logn
  let pinv := latInv l.m l.psi
  (List.range n).map (fun j =>
    latMul l (a.zipIdx.foldl (fun acc p => (acc + latMul l p.1 (powMod l.m pinv 64 (j * (2 * brv logn p.2 + 1)))) % l.m) 0) (latInv l.m n))

def polyAdd (q : Nat) (a b : Poly) : Poly := (a.zip b).map (fun p => (p.1 + p.2) % q)
def polySub (q : Nat) (a b : Poly) : Poly := (a.zip b).map (fun p => (p.1 + q - p.2 % q) % q)
def polyMul (l : Limb) (a b : Poly) : Poly := (a.zip b).map (fun p => latMul l p.1 p.2)
def polyScale (l : Limb) (c : Nat) (a : Poly) : Poly := a.map (fun x => latMul l x c)

def prodMod (ls : List Limb) : Nat := (ls.map (·.m)).foldl (· * ·) 1

/-- One coefficient from the source set to modulus `t`, fast or exact (R189). -/
def bconvOne (exact : Bool) (src : List Limb) (t : Limb) (xs : List Nat) : Nat :=
  let q := prodMod src
  let ys := (src.zip xs).map (fun p => (p.1, latMul p.1 p.2 (latInv p.1.m (q / p.1.m % p.1.m))))
  let sum := ys.foldl (fun acc p => (acc + latMul t (p.2 % t.m) (q / p.1.m % t.m)) % t.m) 0
  if exact then
    let v := ((ys.map (fun p => p.2 * 2 ^ 64 / p.1.m)).foldl (· + ·) 0 + 2 ^ 63) / 2 ^ 64
    (sum + t.m - latMul t (v % t.m) (q % t.m)) % t.m
  else sum

/-- Base conversion of a polynomial given by its residues on the source set. -/
def bconv (exact : Bool) (src : List Limb) (t : Limb) (n : Nat) (xs : List Poly) : Poly :=
  (List.range n).map (fun j => bconvOne exact src t (xs.map (fun p => p.getD j 0)))

/-! ## Parameter sets (R175 to R178) -/

def setSize (p : ParamSet) : Nat := match p.limbs.head? with
  | some l => if l.m < 2 ^ 31 then 4 else 8
  | none => 8

/-- A parameter set of a host buffer (Tables 07.1 and 07.2). -/
def parseParam (h : CmdHdr) (b : List Byte) : ParamSet :=
  let l := u8 b 2
  let k := u8 b 3
  { id := u16 b 4, job := w32 b 8, logn := u8 b 1, l := l, k := k, alpha := u8 b 6, conv := u8 b 7, ingestTag := w32 b 0xC,
    fresh := u16 b 0x10, msBound := u16 b 0x12, ksBound := u16 b 0x14, flood := u16 b 0x16, noiseLevel := u8 b 0x18,
    limbs := (List.range (l + k)).map (fun i =>
      let o := 0x40 + 64 * i
      { m := u64 b o, mprime := u64 b (o + 8), mu := u64 b (o + 0x10), r2 := u64 b (o + 0x18), psi := u64 b (o + 0x20),
        delta := u64 b (o + 0x28), limit := u16 b (o + 0x30) }),
    digest := [], ready := false, h := h }

/-- The check of a modulus descriptor (R39). -/
def modulusOk (m mprime : Nat) (size : Nat) : Bool :=
  m % 2 == 1 && 2 ^ 27 ≤ m && m < 2 ^ 61 && (m * mprime + 1) % (if size = 4 then 2 ^ 32 else 2 ^ 64) == 0

/-- One limb of a parameter set is right (R176). -/
def limbOk (p : ParamSet) (mods : List Nat) (i : Nat) (l : Limb) : Bool :=
  modulusOk l.m l.mprime (setSize p) && mods[i]? == some l.m && l.m % 2 ^ (p.logn + 1) == 1 &&
  decide (l.m < 2 ^ 31) == (setSize p == 4) && powMod l.m l.psi 64 (2 ^ p.logn) == l.m - 1 &&
  (if i < p.l then l.limit != 0 else l.limit == 0 && l.delta == 0)

/-- A parameter set is accepted in a bay (R176, PARAM_BAD otherwise). -/
def paramOk (s : State) (h : CmdHdr) (b : BayId) (len : Nat) (buf : List Byte) : Bool :=
  let p := parseParam h buf
  len == 64 + 64 * (p.l + p.k) && buf.length == len && u8 buf 0 == 1 && 12 ≤ p.logn && p.logn ≤ 17 && 1 ≤ p.l && p.l ≤ 47 &&
  1 ≤ p.k && p.k ≤ 47 && p.l + p.k ≤ 48 && p.id != 0 && 1 ≤ p.alpha && p.alpha ≤ p.k && p.conv < 16 &&
  (bitOf p.conv 3 || p.ingestTag == 0) && 1 ≤ p.noiseLevel && p.noiseLevel ≤ p.l && resvZero buf 0x19 39 &&
  (List.range (p.l + p.k)).all (fun i => resvZero buf (0x40 + 64 * i + 0x32) 14) &&
  (p.limbs.zipIdx).all (fun q => limbOk p (modsOf s h.part p.job) q.2 q.1) && decide ((p.limbs.map (·.m)).Nodup) &&
  !(bitOf p.conv 3 && s.bays[b].lattice.psets.any (fun o => o.id != p.id && o.job == p.job && bitOf o.conv 3))

/-- The bays of a mask, none unless there is one and the issuer holds them all. -/
def maskBays (s : State) (p : PartId) (mask : W16) : Option (List BayId) :=
  let l := allBays.filter (fun b => bitOf mask.toNat b.1)
  if l = [] ∨ !l.all (holdsBay s p) then none else some l

/-- The status of LAT_PARAM_LOAD. -/
def paramStatus (s : State) (h : CmdHdr) (mask : W16) (len : Nat) (buf : List Byte) : Nat :=
  match maskBays s h.part mask with
  | none => codeParamBad
  | some l =>
    let p := parseParam h buf
    if !l.all (fun b => stackReady s.bays[b].mem && paramOk s h b len buf) then codeParamBad
    else if l.any (fun b => s.bays[b].lattice.psets.any (fun o => o.id == p.id)) then codeParamExists
    else if l.any (fun b => 4 ≤ s.bays[b].lattice.psets.length) then codeParamFull else 0

def modLat (s : State) (b : BayId) (f : LatSt → LatSt) : State := modBay s b (fun y => { y with lattice := f y.lattice })

/-- LAT_PARAM_LOAD (R175, R176). -/
def execLatParamLoad (h : CmdHdr) (mask : W16) (len : Nat) (buf : HostRead) (s : State) : Res :=
  let s0 := begun s (.latParamLoad h mask len buf)
  .next (match buf with
    | .failed => complete s0 h codeQmHostErr []
    | .ok bytes =>
      let st := paramStatus s0 h mask len bytes
      if st ≠ 0 then complete s0 h st [] else
        ((maskBays s0 h.part mask).getD []).foldl (fun s b =>
          modLat s b (fun l => { l with psets := l.psets ++ [{ parseParam h bytes with digest := shake256 bytes 64 }] })) s0)

/-- PARAM_CONSTANTS_COMPLETE (R177): a bay's constants are computed; the command completes with the last bay. -/
def execParamConstantsComplete (b : BayId) (s : State) : Res :=
  .next (match s.bays[b].lattice.psets.find? (fun p => !p.ready) with
    | none => s
    | some p =>
      let s1 := modLat s b (fun l => { l with psets := l.psets.map (fun q => if q.id = p.id then { q with ready := true } else q) })
      if allBays.any (fun c => s1.bays[c].lattice.psets.any (fun q => q.h == p.h && !q.ready)) then s1 else complete s1 p.h 0 [])

/-- LAT_PARAM_UNLOAD (R178). -/
def execLatParamUnload (h : CmdHdr) (mask : W16) (paramSet : Nat) (s : State) : Res :=
  let s0 := begun s (.latParamUnload h mask paramSet)
  .next (match maskBays s0 h.part mask with
    | none => complete s0 h codeParamBad []
    | some l =>
      if l.any (fun b => (imagePipes s0 b).any (fun p => p.paramSet == paramSet) && !stDrained s0 (.bay b .lat)) then
        complete s0 h codeParamInUse []
      else complete (l.foldl (fun s b => modLat s b (fun x => { x with psets := x.psets.filter (fun p => p.id != paramSet) })) s0) h 0 [])

/-! ## Keys (R196 to R198) -/

/-- The bytes of a key region (Table 07.8). -/
def keyLen (p : ParamSet) (kind level : Nat) : Nat :=
  if kind = 1 then ceilDiv level p.alpha * 2 * (level + p.k) * 2 ^ p.logn * 8 else 2 * level * 2 ^ p.logn * 8

/-- A loaded parameter set whose constants are ready. -/
def psetOf (s : State) (b : BayId) (id : Nat) : Option ParamSet := s.bays[b].lattice.psets.find? (fun p => p.id == id && p.ready)

/-- The status of LAT_KEY_BIND (R197). -/
def keyBindStatus (s : State) (h : CmdHdr) (bay index kind level paramSet : Nat) (src dst : W32) (region len : Nat) (digest : List Byte) : Nat :=
  match finOpt 16 bay, finOpt 8 index with
  | some b, some k =>
    (match psetOf s b paramSet with
     | none => codeKeyBad
     | some p =>
       if !holdsBay s h.part b ∨ !(kind == 1 || kind == 2) ∨ level < 1 ∨ p.l < level ∨ src = 0 ∨ dst = 0 ∨
           (kind = 2 ∧ src ≠ dst) ∨ len ≠ keyLen p kind level ∨ digest.length ≠ 64 then codeKeyBad
       else if region % 65536 ≠ 0 ∨ stackSize < region + len ∨ !stackReady s.bays[b].mem ∨ hitsAny (pipeSpans s b false) region len ∨
           placeWinOver s b region len then codeKeyRegion
       else if (s.bays[b].lattice.keys[k]).isSome then codeKeyState else 0)
  | _, _ => codeKeyBad

/-- LAT_KEY_BIND (R197): the index is CHECKING and the region closed. -/
def execLatKeyBind (h : CmdHdr) (bay index kind level paramSet : Nat) (src dst : W32) (region len : Nat) (digest : List Byte)
    (s : State) : Res :=
  let s0 := begun s (.latKeyBind h bay index kind level paramSet src dst region len digest)
  let st := keyBindStatus s0 h bay index kind level paramSet src dst region len digest
  .next (match finOpt 16 bay, finOpt 8 index with
    | some b, some k =>
      if st ≠ 0 then complete s0 h st [] else
        modLat s0 b (fun l => { l with keys := vmod l.keys k (fun _ => some
          { checking := true, kind := kind, level := level, paramSet := paramSet, src := src, dst := dst, region := region, len := len,
            digest := digest, h := h }) })
    | _, _ => complete s0 h st [])

/-- KEY_CHECK_COMPLETE (R197). -/
def execKeyCheckComplete (b : BayId) (index : Reads PortId) (s : State) : Res :=
  .next (match s.bays[b].lattice.keys[index.arg] with
    | none => s
    | some k =>
      if !k.checking then s
      else
        let s1 := readFaults s b [(k.region, k.len)] index.lf
        if shake256 (dramRead s1.bays[b].mem k.region k.len) 64 = k.digest then
          complete (modLat s1 b (fun l => { l with keys := vmod l.keys index.arg (fun _ => some { k with checking := false }) })) k.h 0 []
        else
          complete (logN (modLat s1 b (fun l => { l with keys := vmod l.keys index.arg (fun _ => none) })) s1.bays[b].owner (.st b .lat)
            codeKeyDigest index.arg.1 0) k.h codeKeyDigest [])

/-- LAT_KEY_UNBIND (R198). -/
def execLatKeyUnbind (h : CmdHdr) (bay index : Nat) (s : State) : Res :=
  let s0 := begun s (.latKeyUnbind h bay index)
  .next (match finOpt 16 bay, finOpt 8 index with
    | some b, some k =>
      (match s0.bays[b].lattice.keys[k] with
       | none => complete s0 h codeKeyState []
       | some x =>
         let named := (imagePipes s0 b).any (fun p => p.ops.any (fun o => (o.1 == 4 || o.1 == 5) && o.2.1 == k.1))
         if !holdsBay s0 h.part b ∨ x.checking ∨ (named ∧ !stDrained s0 (.bay b .lat)) then complete s0 h codeKeyState []
         else complete (modLat s0 b (fun l => { l with keys := vmod l.keys k (fun _ => none) })) h 0 [])
    | _, _ => complete s0 h codeKeyState [])

/-! ## Validation of a stream (R191) -/

def latKey (s : State) (b : BayId) (i : Nat) : Option LatKey := (finOpt 8 i).bind (fun k => s.bays[b].lattice.keys[k])

/-- Is a key that the pipeline names being checked? -/
def keysChecking (s : State) (b : BayId) (d : PipeDesc) : Bool :=
  d.ops.any (fun o => (o.1 == 4 || o.1 == 5) && (match latKey s b o.2.1 with
    | some k => k.checking
    | none => false))

/-- Each operation with the level at which it runs. -/
def opLevels (level : Nat) : List (Nat × Nat × Nat) → List ((Nat × Nat × Nat) × Nat)
  | [] => []
  | o :: rest => (o, level) :: opLevels (if o.1 = 2 then o.2.2 else level) rest

/-- The key of an operation is VALID and suits it. -/
def keyFits (s : State) (b : BayId) (d : PipeDesc) (o : (Nat × Nat × Nat) × Nat) : Bool :=
  match latKey s b o.1.2.1 with
  | some k => !k.checking && k.paramSet == d.paramSet && k.kind == (if o.1.1 = 4 then 1 else 2) && k.level == o.2
  | none => false

/-- The operations that use a key. -/
def keyedOps (d : PipeDesc) : List ((Nat × Nat × Nat) × Nat) := (opLevels d.levelIn d.ops).filter (fun o => o.1.1 == 4 || o.1.1 == 5)

/-- The tag that the key operations expect of the input, when they name one. -/
def expectedTag (s : State) (b : BayId) (d : PipeDesc) : Option W32 :=
  match (keyedOps d).find? (fun o => o.1.1 == 4) with
  | some o => (latKey s b o.1.2.1).map (·.src)
  | none => ((keyedOps d).find? (fun o => o.1.1 == 5)).bind (fun o => (latKey s b o.1.2.1).map (·.src))

/-- The tag of the outputs (R194). -/
def outputTag (s : State) (b : BayId) (d : PipeDesc) (input : W32) : W32 :=
  match (((keyedOps d).filter (fun o => o.1.1 == 4)).getLast?).bind (fun o => latKey s b o.1.2.1) with
  | some k => k.dst
  | none => input

/-- Is a region that the image gives pipeline `i` of a bay smaller than required (R187, R191)? -/
def areaSmall (s : State) (b : BayId) (i : Nat) (d : PipeDesc) : Bool :=
  match psetOf s b d.paramSet with
  | none => false
  | some p => ((pipeRegions s b).getD i []).any (fun r =>
      decide (r.2.2 < (if r.1 then 8 * 2 ^ p.logn * (max p.alpha p.k + 4) else 32 * 2 ^ p.logn * (d.levelIn + p.l + p.k))))

/-- The causes with which a stream fails at its first tile; `small` tells that a region of R187 is too small. -/
def streamFails (s : State) (b : BayId) (d : PipeDesc) (small : Bool) (h : TileHdr) (tagA : Option W32) : List Nat :=
  let badParam := small || h.paramSet != d.paramSet || (match psetOf s b d.paramSet with
    | none => true
    | some p => p.l < d.levelIn || (opLevels d.levelIn d.ops).any (fun o => o.1.1 == 3 && o.2 != p.noiseLevel))
  let badTag := (match tagA with
    | some a => h.keyTag != a
    | none => match expectedTag s b d with
      | some e => h.keyTag != e
      | none => false)
  let badKey := (keyedOps d).any (fun o => !keyFits s b d o) || badTag
  if badParam then [codeParamMismatch] else if badKey then [codeKeyMismatch] else []

/-! ## Gathering (R186, R192, R193) -/

/-- Positions and ciphertexts of one group: whole ciphertexts in whole positions (R180). -/
def groupShape (p : Option ParamSet) : Nat × Nat :=
  match p with
  | none => (1, 1)
  | some p =>
    let cap := denseCap (setSize p)
    let n2 := 2 ^ (p.logn + 1)
    if cap ≤ n2 then (n2 / cap, 1) else (1, cap / n2)

/-- Samples that one ciphertext consumes (Table 07.6). -/
def samplesPer (d : PipeDesc) (n : Nat) : Nat := (d.ops.map (fun o => if o.1 = 3 then n else if o.1 = 5 then 3 * n else 0)).foldl (· + ·) 0

/-- Does a tile continue lattice order (R180, R192)? -/
def latticeNext (x : LatIn) (level cap : Nat) (whole : Bool) (h : TileHdr) : Bool :=
  let limb := x.k % level
  let off := if x.k = 0 then h.sliceOffset else x.base + x.k / level * cap
  h.ring == 0x40 + limb && h.sliceOffset == off && h.sliceOffset % cap == 0 &&
  (match (if limb = 0 then none else x.cur.poss.getLast?) with
   | some p => h.count == p.count
   | none => h.count == cap || (!whole && h.count < cap)) &&
  (!h.last || limb + 1 == level) && (h.count == cap || limb + 1 != level || h.last)

/-- Add a tile's elements to the position being gathered. -/
def addLimb (g : LatGroup) (limb : Nat) (h : TileHdr) (es : List Nat) : LatGroup :=
  if limb = 0 then { g with poss := g.poss ++ [{ off := h.sliceOffset, count := h.count, limbs := [es] }] }
  else match g.poss.reverse with
    | p :: rest => { g with poss := (({ p with limbs := p.limbs ++ [es] } : LatPos) :: rest).reverse }
    | [] => { g with poss := [{ off := h.sliceOffset, count := h.count, limbs := [es] }] }

def findPipe (s : State) (b : BayId) (i : Nat) : Option Pipe := s.bays[b].lattice.pipes[i]?
def putPipe (s : State) (b : BayId) (i : Nat) (p : Pipe) : State := modLat s b (fun l => { l with pipes := l.pipes.set i p })

/-- The pipeline that an input port belongs to. -/
def pipeOfPort (s : State) (b : BayId) (p : Nat) : Option (Nat × Pipe) :=
  (s.bays[b].lattice.pipes.zipIdx.find? (fun x => x.1.d.inA == p || x.1.d.inB == p || x.1.d.inS == p)).map (fun x => (x.2, x.1))

/-- Ciphertexts that the pipeline holds: gathered, in computation or waiting to be emitted (R186). -/
def heldCts (p : Pipe) (gc : Nat) : Nat := gc * (p.readyA.length + b2n p.cur.isSome + b2n (!p.outQ.isEmpty))

/-- The same for the ciphertexts of in_b. -/
def heldOther (p : Pipe) (gc : Nat) : Nat := gc * (p.readyB.length + b2n p.cur.isSome + b2n (!p.outQ.isEmpty))

/-- May the pipeline take a tile from the port now? The first tile of a stream on in_b waits for the stream on in_a whose tag it must
carry (R191). -/
def mayGather (s : State) (b : BayId) (p : Pipe) (port : Nat) : Bool :=
  let ps := psetOf s b p.d.paramSet
  let gc := (groupShape ps).2
  if port = p.d.inA then (p.a.k != 0 || !keysChecking s b p.d) && (!p.a.cur.poss.isEmpty || heldCts p gc + gc ≤ 2)
  else if port = p.d.inB then
    (p.b.k != 0 || (!p.tags.isEmpty && !keysChecking s b p.d)) && (!p.b.cur.poss.isEmpty || heldOther p gc + gc ≤ 2)
  else match ps with
    | some x => p.samples.length < 2 * gc * samplesPer p.d (2 ^ x.logn)
    | none => true

/-- The tag that the first tile of a stream must carry for LADD: on in_b that of the stream on in_a (R191). -/
def tagWanted (p : Pipe) (onB : Bool) : Option W32 := if onB then some (p.tags.headD 0) else none

/-- The causes that a ciphertext tile creates at an input of pipeline `i`. -/
def latCauses (s : State) (b : BayId) (i : Nat) (p : Pipe) (x : LatIn) (onB : Bool) (t : Tile) : List Nat :=
  let look := readsPayload s (.bay b .lat) t
  let ps := psetOf s b p.d.paramSet
  let size := match ringOf (modsOf s s.bays[b].owner t.hdr.job) t.hdr.ring with
    | some r => r.size
    | none => 8
  let cap := denseCap size
  let whole := match ps with
    | some q => cap ≤ 2 ^ (q.logn + 1)
    | none => false
  let fit := t.hdr.ring ≥ 0x40 && latticeNext x p.d.levelIn cap whole t.hdr && (!look || payloadShapeOk size t)
  let first := if x.k = 0 then streamFails s b p.d (areaSmall s b i p.d) t.hdr (tagWanted p onB)
    else (if t.hdr.paramSet = p.d.paramSet then [] else [codeParamMismatch]) ++ (if t.hdr.keyTag = x.tag then [] else [codeKeyMismatch])
  (if fit then [] else [codeMisfit]) ++ first ++
  (if !look || !fit then [] else match ringOf (modsOf s s.bays[b].owner t.hdr.job) t.hdr.ring with
    | some r => if canonicalOk r t then [] else [codeNonCanonical]
    | none => []) ++
  (if t.hdr.ring = 0 then [codeFloatInRing] else [])

/-- One ciphertext input after a tile, with the group that the tile completes. `made` are the causes created, `own` those that
stay with the rest of the stream. -/
def gatherTile (x : LatIn) (level gp : Nat) (t : Tile) (made own : List Nat) (size : Nat) (outTag : W32) : LatIn × Option LatGroup :=
  let h := t.hdr
  let limb := x.k % level
  let tag := if x.k = 0 then h.keyTag else x.tag
  let otag := if x.k = 0 then outTag else x.outTag
  let base := if x.k = 0 then h.sliceOffset else x.base
  let g0 := x.cur
  let g1 := addLimb g0 limb h (if h.poison then [] else readElems t.payload 0 size h.count)
  let g2 : LatGroup := { g1 with
    copied := if g1.copied ≠ 0 then g1.copied else if h.poison then h.poisonCause else 0
    made := g1.made ++ x.fail ++ made
    bound := max g1.bound h.noiseBound
    noised := g1.noised || h.noised
    last := h.last
    job := h.job
    tag := tag
    outTag := otag }
  let fail := x.fail ++ own
  let full := h.last || (limb + 1 == level && g2.poss.length == gp)
  if full then
    ({ k := if h.last then 0 else x.k + 1, fail := if h.last then [] else fail, tag := tag, outTag := otag, base := base, cur := {} }, some g2)
  else ({ x with k := x.k + 1, fail := fail, tag := tag, outTag := otag, base := base, cur := g2 }, none)

/-- Added to the cause that a sample keeps where the station created it and did not copy it (R74, R443). -/
abbrev madeMark : Nat := 65536

/-- Take the head token of a Lattice input port and copy it (a gather firing). `stop` is ABORTED or STATION_FAULT while the
station stops. -/
def latGather (s : State) (b : BayId) (port : PortId) (stop : Option Nat) : State :=
  let st : StationRef := .bay b .lat
  match (getIn s st port).held.head?, pipeOfPort s b port.1 with
  | some tok, some (i, p) =>
    let t := tok.tile
    if port.1 = p.d.inS then
      let bad := if t.hdr.ring = 2 ∧ t.hdr.etype = 1 ∧ (!readsPayload s st t ∨ payloadShapeOk 8 t) then [] else [codeMisfit]
      let cs := tileCauses s st port t (bad ++ stop.toList)
      match takeTok (logCauses s st port t cs.1) st port with
      | none => s
      | some (_, s2) =>
        let vals := match cs.2 with
          | none => readElems t.payload 0 8 t.hdr.count
          | some _ => List.replicate t.hdr.count 0
        let cause := cs.2.getD 0 + (if cs.2.isSome && !t.hdr.poison then madeMark else 0)
        returnSlot (putPipe s2 b i { p with samples := p.samples ++ vals.map (fun v => (v, cause)) }) st port tok.slot
    else
      let onB := port.1 = p.d.inB
      let x := if onB then p.b else p.a
      let own := latCauses s b i p x onB t
      let cs := tileCauses s st port t (own ++ stop.toList)
      let fails := if x.k = 0 then (streamFails s b p.d (areaSmall s b i p.d) t.hdr (tagWanted p onB)).length else 0
      match takeTok (logCauses s st port t cs.1) st port with
      | none => s
      | some (_, s2) =>
        let size := match ringOf (modsOf s s.bays[b].owner t.hdr.job) t.hdr.ring with
          | some r => r.size
          | none => 8
        let keep := own.filter (fun c => c == codeParamMismatch || c == codeKeyMismatch || c == codeMisfit)
        let r := gatherTile x p.d.levelIn (groupShape (psetOf s b p.d.paramSet)).1 t cs.1 keep size (outputTag s b p.d t.hdr.keyTag)
        let p1 := if onB then { p with b := r.1, readyB := p.readyB ++ r.2.toList, tags := if x.k = 0 then p.tags.drop 1 else p.tags }
          else { p with a := r.1, readyA := p.readyA ++ r.2.toList, tags := if x.k = 0 ∧ p.d.inB ≠ 0xFF then p.tags ++ [t.hdr.keyTag] else p.tags }
        let s3 := modLat (putPipe s2 b i p1) b (fun l => { l with mismatch := if fails = 0 then l.mismatch else l.mismatch + 1 })
        returnSlot s3 st port tok.slot
  | _, _ => s

/-- The input ports that the Lattice station could serve now (R66). -/
def latReady (s : State) (b : BayId) : List PortId :=
  allPorts.filter (fun p => !(getIn s (.bay b .lat) p).held.isEmpty && (match pipeOfPort s b p.1 with
    | some (_, q) => mayGather s b q p.1
    | none => false))

/-- LATTICE_GATHER (R186): a gather firing. -/
def execLatticeGather (b : BayId) (port : PortId) (s : State) : Res :=
  .next (match pipeOfPort s b port.1 with
    | none => s
    | some (_, p) =>
      if mayFire s (.bay b .lat) && mayGather s b p port.1 && inTurn s (.bay b .lat) port (latReady s b) then
        updWait (latGather (if (getIn s (.bay b .lat) port).held.isEmpty then s else noteTurn s (.bay b .lat) port (latReady s b)) b port none) (.bay b .lat)
      else s)

/-! ## Computing (R186, R188, R195) -/

/-- The ciphertexts of a group: for each limb, the elements cut into polynomials, c0 and c1 in turn (R179). -/
def groupCts (g : LatGroup) (level n gc : Nat) : List Ct :=
  let limb (i : Nat) : List Poly := chunks n ((g.poss.flatMap (fun p =>
    let es := p.limbs.getD i []
    es ++ List.replicate (p.count - es.length) 0)))
  (List.range gc).map (fun c => { c0 := (List.range level).map (fun i => (limb i).getD (2 * c) (List.replicate n 0)),
                                  c1 := (List.range level).map (fun i => (limb i).getD (2 * c + 1) (List.replicate n 0)) })

/-- The multiplications of a conversion from `sn` limbs to `r` targets (R199). -/
def convCost (exact : Bool) (sn r : Nat) : Nat := if exact then 2 * sn + sn * r + r else sn + sn * r

/-- MODSW to level `t` of one component. -/
def modswPoly (p : ParamSet) (t level : Nat) (x : List Poly) : List Poly :=
  let dropped := (p.limbs.take level).drop t
  let pd := prodMod dropped
  (List.range t).map (fun i =>
    match p.limbs[i]? with
    | none => []
    | some l =>
      polyScale l (latInv l.m (pd % l.m)) (polySub l.m (x.getD i []) (bconv (bitOf p.conv 0) dropped l (2 ^ p.logn) ((x.take level).drop t))))

/-- The limbs 0 … ℓ − 1 and the special ones, each with its place (R188). -/
def extLimbs (p : ParamSet) (level : Nat) : List (Nat × Limb) :=
  (((p.limbs.zipIdx).map (fun q => (q.2, q.1))).take level) ++ (((p.limbs.zipIdx).map (fun q => (q.2, q.1))).drop p.l)

/-- One polynomial of a key region: number `i` in its order, in evaluation form. -/
def keyPoly (bytes : List Byte) (n i : Nat) : Poly := readElems bytes (8 * n * i) 8 n

/-- KSW (R188) on one ciphertext, with the key's bytes. -/
def kswCt (p : ParamSet) (level : Nat) (key : List Byte) (c : Ct) : Ct :=
  let n := 2 ^ p.logn
  let ext := extLimbs p level
  let e := ext.length
  let digits := ceilDiv level p.alpha
  let parts := (List.range digits).map (fun k =>
    let lo := k * p.alpha
    let hi := min ((k + 1) * p.alpha) level
    let src := (p.limbs.take hi).drop lo
    let xs := (c.c1.take hi).drop lo
    ext.mapIdx (fun j l =>
      let d := if lo ≤ l.1 ∧ l.1 < hi then c.c1.getD l.1 [] else bconv (bitOf p.conv 1) src l.2 n xs
      let dh := ntt l.2 p.logn d
      (polyMul l.2 dh (keyPoly key n (k * 2 * e + j)), polyMul l.2 dh (keyPoly key n (k * 2 * e + e + j)))))
  let acc (f : Poly × Poly → Poly) : List Poly := ext.mapIdx (fun j l =>
    intt l.2 p.logn (parts.foldl (fun a part => polyAdd l.2.m a (f (part.getD j ([], [])))) (List.replicate n 0)))
  let specials := p.limbs.drop p.l
  let pp := prodMod specials
  let down (x : List Poly) : List Poly := (List.range level).map (fun i =>
    match p.limbs[i]? with
    | none => []
    | some l => polyScale l (latInv l.m (pp % l.m)) (polySub l.m (x.getD i []) (bconv (bitOf p.conv 2) specials l n (x.drop level))))
  let ob := down (acc (·.1))
  let oa := down (acc (·.2))
  { c0 := (List.range level).map (fun i => polyAdd ((p.limbs[i]?).map (·.m) |>.getD 1) (c.c0.getD i []) (ob.getD i [])), c1 := oa }

/-- Samples as residues of one limb (R185). -/
def sampleRes (q : Nat) (xs : List Nat) : Poly := xs.map (fun x => ((signed 64 x) % (q : Int)).toNat)

/-- RERAND (Table 07.6). -/
def rerandCt (p : ParamSet) (level : Nat) (key : List Byte) (xs : List Nat) (c : Ct) : Ct :=
  let n := 2 ^ p.logn
  let u := xs.take n
  let e0 := (xs.drop n).take n
  let e1 := (xs.drop (2 * n)).take n
  let side (half : Nat) (x : List Poly) (e : List Nat) : List Poly := (List.range level).map (fun i =>
    match p.limbs[i]? with
    | none => []
    | some l =>
      let pk := keyPoly key n (half * level + i)
      polyAdd l.m (polyAdd l.m (x.getD i []) (intt l p.logn (polyMul l pk (ntt l p.logn (sampleRes l.m u))))) (sampleRes l.m e))
  { c0 := side 0 c.c0 e0, c1 := side 1 c.c1 e1 }

/-- NOISE_ADD: Δ · η into c0. -/
def noiseCt (p : ParamSet) (level : Nat) (xs : List Nat) (c : Ct) : Ct :=
  { c with c0 := (List.range level).map (fun i =>
      match p.limbs[i]? with
      | none => []
      | some l => polyAdd l.m (c.c0.getD i []) (polyScale l (l.delta % l.m) (sampleRes l.m xs))) }

/-- LADD. -/
def laddCt (p : ParamSet) (level : Nat) (c o : Ct) : Ct :=
  let add (x y : List Poly) : List Poly := (List.range level).map (fun i => match p.limbs[i]? with
    | none => []
    | some l => polyAdd l.m (x.getD i []) (y.getD i []))
  { c0 := add c.c0 o.c0, c1 := add c.c1 o.c1 }

/-- g_i = floor(256 · log2 q_i) (R177). -/
def limbBits (q : Nat) : Nat := Nat.log2 (q ^ 256)

def satFFFF (x : Nat) : Nat := min 0xFFFF x

/-- The bound after an operation (Table 07.7). -/
def opBound (p : ParamSet) (o : Nat × Nat × Nat) (level b : Nat) : Nat :=
  if o.1 = 2 then
    satFFFF (max (b - (((p.limbs.take level).drop o.2.2).map (fun l => limbBits l.m)).foldl (· + ·) 0) p.msBound + 256)
  else if o.1 = 4 then satFFFF (max b p.ksBound + 256)
  else if o.1 = 5 then satFFFF (max b p.flood + 256)
  else b

/-- The modular multiplications of an operation (Table 07.9). -/
def opMuls (p : ParamSet) (o : Nat × Nat × Nat) (level : Nat) : Nat :=
  let n := 2 ^ p.logn
  if o.1 = 2 then 2 * n * (convCost (bitOf p.conv 0) (level - o.2.2) o.2.2 + o.2.2)
  else if o.1 = 3 then level * n
  else if o.1 = 4 then
    let d := ceilDiv level p.alpha
    let sizes := (List.range d).map (fun k => min ((k + 1) * p.alpha) level - k * p.alpha)
    n * ((sizes.map (fun z => convCost (bitOf p.conv 1) z (level + p.k - z))).foldl (· + ·) 0 + 2 * d * (level + p.k) +
      2 * (convCost (bitOf p.conv 2) p.k level + level))
  else if o.1 = 5 then 2 * level * n
  else 0

/-- The samples that an operation needs. -/
def opNeeds (p : ParamSet) (o : Nat × Nat × Nat) : Nat := if o.1 = 3 then 2 ^ p.logn else if o.1 = 5 then 3 * 2 ^ p.logn else 0

/-- The result of an operation on a ciphertext. -/
def opCt (p : ParamSet) (o : Nat × Nat × Nat) (r : LatRun) (key : List Byte) (xs : List Nat) : Ct :=
  if o.1 = 1 then laddCt p r.level r.ct (r.other.getD r.ct)
  else if o.1 = 2 then { c0 := modswPoly p o.2.2 r.level r.ct.c0, c1 := modswPoly p o.2.2 r.level r.ct.c1 }
  else if o.1 = 3 then noiseCt p r.level xs r.ct
  else if o.1 = 4 then kswCt p r.level key r.ct
  else if o.1 = 5 then rerandCt p r.level key xs r.ct
  else r.ct

/-- Run operations until one lacks its samples or none is left (fuel: operations). The work, the samples left, the
multiplications done. -/
def latRun (s : State) (b : BayId) (p : ParamSet) (d : PipeDesc) : Nat → LatWork → List (Nat × Nat) → Nat → LatWork × List (Nat × Nat) × Nat
  | 0, w, sm, m => (w, sm, m)
  | f + 1, w, sm, m =>
    match w.now with
    | none => (w, sm, m)
    | some r =>
      match r.ops with
      | [] => ({ w with now := none, done := w.done ++ [r] }, sm, m)
      | o :: rest =>
        let need := opNeeds p o
        if sm.length < need then (w, sm, m) else
          let xs := sm.take need
          let key := match (if o.1 = 4 ∨ o.1 = 5 then latKey s b o.2.1 else none) with
            | some k => (dramRead s.bays[b].mem k.region k.len, !(spanUe s.bays[b].mem k.region k.len).isEmpty)
            | none => ([], false)
          let level := if o.1 = 2 then o.2.2 else r.level
          let bound := opBound p o r.level r.bound
          let limit := ((p.limbs[level - 1]?).map (·.limit)).getD 0
          let r1 : LatRun := { r with ct := opCt p o r key.1 (xs.map (·.1)), ops := rest, level := level, bound := bound,
                                      spent := r.spent || decide (limit ≤ bound) }
          let bad := (xs.map (·.2)).find? (fun c => c != 0 && c < madeMark)
          let own := ((xs.map (·.2)).filter (fun c => madeMark ≤ c)).dedup.map (· - madeMark)
          let w1 := { w with now := some r1, copied := w.copied ++ (bad.map (fun c => (d.inS, c))).toList,
                             made := w.made ++ own ++ (if key.2 then [codeUncorrectableMemory] else []) }
          latRun s b p d f w1 (sm.drop need) (m + opMuls p o r.level)

/-- The first copied cause of the lowest input port (R74). -/
def copiedCause (l : List (Nat × Nat)) : Option Nat :=
  let ports := l.map (·.1)
  (l.find? (fun p => ports.all (fun q => p.1 ≤ q))).map (·.2)

/-- The cause of a group's outputs beside NOISE_BUDGET: PARAM_MISMATCH comes before KEY_MISMATCH (R191). -/
def workCause (w : LatWork) : Option Nat :=
  pickCause (copiedCause w.copied) (if w.made.contains codeParamMismatch then codeParamMismatch :: w.made else w.made)

/-- The output tiles of a finished group, each with the cause of its poison or 0: for each position, limbs in order (R180,
R194). -/
def groupOut (p : Pipe) (w : LatWork) (ps : Option ParamSet) : List (Tile × Nat) :=
  let level := (opLevels p.d.levelIn p.d.ops).foldl (fun _ o => if o.1.1 = 2 then o.1.2.2 else o.2) p.d.levelIn
  let size := (ps.map setSize).getD 8
  let base := workCause w
  let spent := w.done.any (·.spent)
  let cause := if base.isSome then base else if spent then some codeNoiseBudget else none
  let bound := (w.done.map (·.bound)).foldl max (if w.done = [] then w.bound else 0)
  let stream (i : Nat) : List Nat := w.done.flatMap (fun r => r.ct.c0.getD i [] ++ r.ct.c1.getD i [])
  let total := w.g.poss.length * level
  (w.g.poss.zipIdx).flatMap (fun q =>
    let before := ((w.g.poss.take q.2).map (·.count)).foldl (· + ·) 0
    (List.range level).map (fun i =>
      let n := q.2 * level + i
      let h : TileHdr := {
        ring := 0x40 + i
        etype := if size = 4 then 0 else 1
        job := w.g.job
        tileIndex := p.outIdx + n
        sliceOffset := q.1.off
        count := q.1.count
        last := w.last && n + 1 == total
        noiseBound := bound
        paramSet := p.d.paramSet
        keyTag := w.g.outTag
        noised := w.noised || p.d.ops.any (fun o => o.1 == 3) }
      match cause with
      | some c => (poisonTile { hdr := h } c, if base.isNone then codeNoiseBudget else 0)
      | none => ({ hdr := h, payload := writeElems size (((stream i).drop before).take q.1.count) }, 0)))

/-- Begin the computation of a gathered group. -/
def latBegin (s : State) (b : BayId) (p : Pipe) : Option Pipe :=
  match p.readyA, (if p.d.inB = 0xFF then some (none, []) else match p.readyB with
    | g :: rest => some (some g, rest)
    | [] => none) with
  | ga :: restA, some (gb, restB) =>
    let ps := psetOf s b p.d.paramSet
    let gc := (groupShape ps).2
    let bound := match gb with
      | some g => satFFFF (max ga.bound g.bound + 256)
      | none => ga.bound
    let cts := match ps with
      | none => []
      | some x =>
        let n := 2 ^ x.logn
        let have_ := if gc = 1 then 1 else ((ga.poss.map (·.count)).foldl (· + ·) 0) / (2 * n)
        let as := groupCts ga p.d.levelIn n have_
        match gb with
        | some g => (as.zip (groupCts g p.d.levelIn n have_)).map (fun q => (q.1, some q.2))
        | none => as.map (fun c => (c, none))
    some { p with
      readyA := restA
      readyB := restB
      cur := some {
        g := ga
        copied := (if ga.copied = 0 then [] else [(p.d.inA, ga.copied)]) ++ (match gb with
          | some g => if g.copied = 0 then [] else [(p.d.inB, g.copied)]
          | none => [])
        made := ga.made ++ (match gb with
          | some g => g.made
          | none => [])
        bound := bound
        last := ga.last && (match gb with
          | some g => g.last
          | none => true)
        noised := ga.noised || (match gb with
          | some g => g.noised
          | none => false)
        todo := cts } }
  | _, _ => none

/-- Take the next ciphertext of the group in hand, if none is running. -/
def latNext (p : Pipe) (w : LatWork) : LatWork :=
  match w.now, w.todo with
  | none, (c, o) :: rest =>
    { w with todo := rest, now := some { ct := c, other := o, ops := p.d.ops, level := p.d.levelIn, bound := w.bound, spent := false } }
  | _, _ => w

/-- The station's counters for one group: multiplications and the ciphertexts poisoned with NOISE_BUDGET. -/
def latCount (l : LatSt) (w : LatWork) (muls : Nat) : LatSt :=
  let budget := (workCause w).isNone && w.done.any (·.spent)
  { l with muls := l.muls + word64 muls,
           nbPoison := if budget then l.nbPoison + word32 (w.done.filter (·.spent)).length else l.nbPoison }

/-- Run the ciphertext in hand as far as its samples go; a finished group goes to the output queue. -/
def latStep (s : State) (b : BayId) (i : Nat) (p : Pipe) (w : LatWork) : State :=
  let ps := psetOf s b p.d.paramSet
  let r := match ps with
    | some x => latRun s b x p.d (p.d.ops.length + 1) w p.samples 0
    | none => (w, p.samples, 0)
  let w1 := r.1
  if w1.now.isNone && w1.todo.isEmpty then
    let out := groupOut p w1 ps
    let idx := if w1.last then 0 else p.outIdx + out.length
    modLat (putPipe s b i { p with cur := none, samples := r.2.1, outQ := out, outIdx := idx, outCts := max 1 w1.done.length }) b
      (fun l => latCount l w1 r.2.2)
  else modLat (putPipe s b i { p with cur := some w1, samples := r.2.1 }) b (fun l => { l with muls := l.muls + word64 r.2.2 })

/-- LATTICE_COMPUTE (R186): a compute firing begins. -/
def execLatticeCompute (b : BayId) (pipe : Fin 4) (s : State) : Res :=
  .next (match findPipe s b pipe.1 with
    | none => s
    | some p =>
      if !mayFire s (.bay b .lat) then s
      else match p.cur with
        | some w => if w.now.isSome then s else latStep s b pipe.1 p (latNext p w)
        | none =>
          if p.outQ ≠ [] then s
          else match latBegin s b p with
            | none => s
            | some p1 => match p1.cur with
              | none => s
              | some w => latStep s b pipe.1 p1 (latNext p1 w))

/-- LATTICE_SAMPLES_READY (R186): the waiting operation has its samples. -/
def execLatticeSamplesReady (b : BayId) (pipe : Fin 4) (s : State) : Res :=
  .next (match findPipe s b pipe.1 with
    | none => s
    | some p =>
      match p.cur with
      | none => s
      | some w =>
        if w.now.isNone || !mayFire s (.bay b .lat) then s else latStep s b pipe.1 p w)

/-- Emit the first tile of a pipeline's output queue, a marker while the station stops. -/
def latEmit (s : State) (b : BayId) (i : Nat) (p : Pipe) (stop : Option Nat) : State :=
  let st : StationRef := .bay b .lat
  match p.outQ, finOpt 8 (p.d.out - 8) with
  | (t, budget) :: rest, some n =>
    let cause := match stop with
      | some c => if t.hdr.poison then some t.hdr.poisonCause else some c
      | none => none
    let t1 := match cause with
      | some c => markerOf t.hdr c
      | none => t
    let s1 := if budget ≠ 0 then logOutCause s st n t budget 0 else s
    let s2 := match stop with
      | some c => logOutCause s1 st n t c 0
      | none => s1
    (match reserveOut s2 st n t1 none with
     | none => s
     | some (k, tok, s3) =>
       let ended := rest.isEmpty && stop.isNone
       modLat (putPipe (passTok s3 st k tok) b i { p with outQ := rest, outCts := if rest.isEmpty then 0 else p.outCts }) b
         (fun l => if ended then { l with cts := l.cts + word32 p.outCts } else l))
  | _, _ => s

/-- LATTICE_EMIT (R186, R194): one output tile in lattice order; the last of a group counts its ciphertexts as emitted. -/
def execLatticeEmit (b : BayId) (pipe : Fin 4) (s : State) : Res :=
  let ctl := getSt s (.bay b .lat)
  .next (match findPipe s b pipe.1 with
    | none => s
    | some p => if stopping ctl then latEmit s b pipe.1 p (some (stopCause ctl)) else if mayFire s (.bay b .lat) then latEmit s b pipe.1 p none else s)

/-- A group in hand or gathered, under ABORT or a fence: its outputs become markers with the cause (R79). -/
def latDrop (s : State) (b : BayId) (i : Nat) (p : Pipe) (stop : Nat) : State :=
  if p.outQ ≠ [] then latEmit s b i p (some stop)
  else
    match (match p.cur with
      | some w => some (p, w)
      | none => (latBegin s b p).bind (fun q => q.cur.map (fun w => (q, w)))) with
    | none => s
    | some (q, w) =>
      let out := groupOut q { w with todo := [], now := none, done := [], made := w.made ++ [stop] } (psetOf s b q.d.paramSet)
      putPipe s b i { q with cur := none, outQ := out, outIdx := if w.last then 0 else q.outIdx + out.length }

/-- Everything the Lattice station of a bay can drop now (fuel: steps). -/
def latStopPump (b : BayId) (stop : Nat) : Nat → State → State
  | 0, s => s
  | f + 1, s =>
    let s1 := (List.range 4).foldl (fun s i => match findPipe s b i with
      | some p => latDrop s b i p stop
      | none => s) s
    let s2 := allPorts.foldl (fun s p => if (getIn s (.bay b .lat) p).held.isEmpty then s else latGather s b p (some stop)) s1
    latStopPump b stop f s2

end Sys2Proof.Machine
end

