-- ==== Sys2Proof/Machine/Noise.lean ====
section
/-! DEFINITION. Noise distributions, seeds and the Noise station (R211 to R224, R234). -/

namespace Sys2Proof.Machine

def modNoise (s : State) (b : BayId) (f : NoiseSt → NoiseSt) : State := modBay s b (fun y => { y with noise := f y.noise })

/-! ## The noise parameter record (R211, R213) -/

/-- The table sizes of distribution `d` of a record's header. -/
def distN0 (b : List Byte) (d : Nat) : Nat :=
  let v := u16 b (0xC + 12 * d)
  if u8 b (8 + 12 * d) ≠ 0 ∧ v = 0 then 32768 else v
def distN1 (b : List Byte) (d : Nat) : Nat := u16 b (0xE + 12 * d)

/-- Distribution `d`'s fields are in range (Table 08.3, R213). -/
def distOk (b : List Byte) (d : Nat) : Bool :=
  let kind := u8 b (8 + 12 * d)
  let k := u16 b (0xA + 12 * d)
  kind ≤ 3 && resvZero b (9 + 12 * d) 1 && resvZero b (0x10 + 12 * d) 4 &&
  (if kind = 0 then distN0 b d == 0 else 1 ≤ distN0 b d && distN0 b d ≤ 32768) && distN1 b d ≤ 32767 &&
  ((k == 0) == (distN1 b d == 0))

/-- The tables of the distributions from `d` on, read from offset `off` (fuel: how many). -/
def readDists (b : List Byte) : Nat → Nat → Nat → List Dist
  | 0, _, _ => []
  | f + 1, d, off =>
    { kind := u8 b (8 + 12 * d), k := u16 b (0xA + 12 * d), t0 := readElems (b.drop off) 0 8 (distN0 b d),
      t1 := readElems (b.drop (off + 8 * distN0 b d)) 0 8 (distN1 b d) } :: readDists b f (d + 1) (off + 8 * (distN0 b d + distN1 b d))

/-- The entries of the first `n` distributions. -/
def distEntries (b : List Byte) (n : Nat) : Nat := ((List.range n).map (fun d => distN0 b d + distN1 b d)).foldl (· + ·) 0

/-- A table does not decrease. -/
def nonDecreasing (l : List Nat) : Bool := (l.zip (l.drop 1)).all (fun p => p.1 ≤ p.2)

/-- R46 for a job's format descriptor, its contributors and a noise bound. -/
def headroomOk (fmt n bound : Nat) : Bool :=
  let ring := bitsOf fmt 15 8
  let w := if ring = 1 then 32 else if ring = 2 then 64 else 61
  n * 2 ^ (bitsOf fmt 23 16 - 1) + bound ≤ 2 ^ (w - 1) - 1

/-- Is a record accepted for a job (R213)? -/
def noiseRecOk (j : Job) (len : Nat) (b : List Byte) : Bool :=
  let nd := u8 b 1
  let add := u8 b 2
  let ds := readDists b nd 0 64
  u8 b 0 == 1 && 1 ≤ nd && nd ≤ 4 && (add < nd || add == 0xFF) && resvZero b 3 1 && w32 b 4 == j.job && resvZero b 0x38 8 &&
  resvZero b (8 + 12 * nd) (48 - 12 * nd) && (List.range nd).all (distOk b) && distEntries b nd ≤ 49152 &&
  b.length == len && len == 64 + 8 * distEntries b nd &&
  ds.all (fun d => nonDecreasing d.t0 && nonDecreasing d.t1) &&
  (j.format == 0 || headroomOk j.format.toNat j.mask.n (if add = 0xFF then 0 else distN0 b add + u16 b (0xA + 12 * add) * distN1 b add))

def parseNoiseRec (b : List Byte) : NoiseRec where
  job := w32 b 4
  addDist := u8 b 2
  dists := readDists b (u8 b 1) 0 64
  digest := shake256 b 64

/-- The open seed of a job in a bay (R214). -/
def openSeed (s : State) (b : BayId) (job : W32) : Option OpenSeed := s.bays[b].noise.seeds.find? (fun o => o.job == job)

/-- The status of NSE_PARAM_LOAD. -/
def noiseRecStatus (s : State) (h : CmdHdr) (mask : W16) (len : Nat) (b : List Byte) : Nat :=
  match maskBays s h.part mask, jobOfPart s h.part with
  | some l, some j =>
    if !noiseRecOk j len b then codeNoiseBad
    else if l.any (fun y => (openSeed s y j.job).isSome && s.bays[y].noise.recs.any (fun r => r.job == j.job)) then codeNoiseInUse else 0
  | _, _ => codeNoiseBad

/-- NSE_PARAM_LOAD (R211, R213). -/
def execNseParamLoad (h : CmdHdr) (mask : W16) (len : Nat) (buf : HostRead) (s : State) : Res :=
  let s0 := begun s (.nseParamLoad h mask len buf)
  .next (match buf with
    | .failed => complete s0 h codeQmHostErr []
    | .ok bytes =>
      let st := noiseRecStatus s0 h mask len bytes
      if st ≠ 0 then complete s0 h st [] else
        complete (((maskBays s0 h.part mask).getD []).foldl (fun s b =>
          modNoise s b (fun n => { n with recs := [parseNoiseRec bytes] })) s0) h 0 [])

/-! ## Seeds (R214 to R217) -/

/-- The attempts kept for a partition's job. -/
def attemptsOf (s : State) (p : TenantId) (job : W32) : List Attempt := s.rot.attempts.filter (fun a => a.part == p && a.job == job)

/-- The highest attempt used for a round, 0 for none. -/
def lastAttempt (s : State) (p : TenantId) (job round : W32) : Nat :=
  match (attemptsOf s p job).find? (fun a => a.round == round) with
  | some a => a.attempt
  | none => 0

/-- Is the round older than the eight kept (R214)? -/
def noiseStale (s : State) (p : TenantId) (job round : W32) : Bool :=
  let l := attemptsOf s p job
  8 ≤ l.length && l.all (fun a => round.toNat < a.round.toNat)

/-- Note the attempt used for a round; the eight most recent round numbers are kept. -/
def useAttempt (s : State) (p : TenantId) (job round : W32) (attempt : Nat) : State :=
  let l := attemptsOf s p job
  let oldest := (l.map (fun a => a.round.toNat)).foldl min (2 ^ 32)
  let keep := s.rot.attempts.filter (fun a => !(a.part == p && a.job == job && (a.round == round ||
    (8 ≤ l.length && !l.any (fun x => x.round == round) && a.round.toNat == oldest))))
  { s with rot := { s.rot with attempts := keep ++ [{ part := p, job := job, round := round, attempt := attempt }] } }

/-- The claims: each range proper, all disjoint (R215). -/
def rangesDisjoint : List (Nat × Nat) → Bool
  | [] => true
  | p :: l => l.all (fun q => p.2 ≤ q.1 || q.2 ≤ p.1) && rangesDisjoint l
def rangeOk (p : Nat × Nat) : Bool := p.1 < p.2 && p.2 < 2 ^ 48
def claimRanges (cs : List Claim) : List (Nat × Nat) := cs.map (fun c => (c.lo, c.hi))

/-- Key slots that a partition holds, and a free one. -/
def slotsHeld (s : State) (p : TenantId) : Nat := (s.rot.slots.toList.filter (fun o => match o with
  | some k => k.part == p
  | none => false)).length
def freeSlot (s : State) : Option (Fin 64) := (places 64).find? (fun i => (s.rot.slots[i]).isNone)
/-- May the partition take `n` more key slots (R350)? -/
def slotRoom (s : State) (p : TenantId) (n : Nat) : Bool :=
  slotsHeld s p + n ≤ (getPart s p).slotQuota && n ≤ (s.rot.slots.toList.filter (·.isNone)).length

/-- The claims of a draw or an import: bays of the issuer, each named once, with proper and disjoint ranges (R215). -/
def claimsProper (s : State) (p : PartId) (cs : List Claim) : Bool :=
  decide ((cs.map (·.bay)).Nodup) && cs.all (fun c => match finOpt 16 c.bay with
    | some b => holdsBay s p b
    | none => false) && (claimRanges cs).all rangeOk && rangesDisjoint (claimRanges cs)

/-- Each named bay has no open seed of the job, and a key slot is free (R214, R350). -/
def seedRoom (s : State) (p : TenantId) (job : W32) (cs : List Claim) : Bool :=
  cs.all (fun c => match finOpt 16 c.bay with
    | some b => (openSeed s b job).isNone
    | none => true) && slotRoom s p 1

/-- The status that a draw or an import shares before its claims are read: the count (R323) and the job (Table 08.10). -/
def claimStatus (s : State) (h : CmdHdr) (job : W32) (cs : List Claim) : Nat :=
  if cs.length < 1 ∨ 16 < cs.length then codeQmEntry
  else match issuer h, jobOfPart s h.part with
    | some _, some j => if j.job = job then 0 else codeNoiseState
    | _, _ => codeNoiseState

/-- The status of NOISE_DRAW, in the order of Table 08.10. -/
def drawStatus (s : State) (h : CmdHdr) (job round : W32) (cs : List Claim) : Nat :=
  let st := claimStatus s h job cs
  if st ≠ 0 then st
  else if !claimsProper s h.part cs then codeNoiseRange
  else match issuer h with
    | some p => if noiseStale s p job round then codeNoiseStale else if seedRoom s p job cs then 0 else codeNoiseState
    | none => codeNoiseState

/-- Open a seed: the key slot, the attempt and each named bay's range with its high-water mark at lo (R214, R215). -/
def openSeeds (s : State) (h : CmdHdr) (p : TenantId) (job round : W32) (attempt : Nat) (secret : List Byte) (cs : List Claim) : State :=
  match freeSlot s with
  | none => complete s h codeNoiseState []
  | some i =>
    let k : KeySlot := { kind := 4, secret := secret, part := p, gen := (getPart s p).gen, job := job, round := round,
                         attempt := attempt, claims := claimRanges cs }
    let s1 := useAttempt { s with rot := { s.rot with slots := vmod s.rot.slots i (fun _ => some k) } } p job round attempt
    let s2 := cs.foldl (fun s c => match finOpt 16 c.bay with
      | some b => modNoise s b (fun n => { n with seeds := n.seeds ++
          [{ slot := i.1, job := job, round := round, attempt := attempt, lo := c.lo, hi := c.hi, mark := c.lo }] })
      | none => s) s1
    complete s2 h 0 (leBytes 1 i.1 ++ [0] ++ leBytes 2 attempt)

/-- The drawn seed arrives: the command's checks hold for the state it finds then. -/
def drawDone (s : State) (h : CmdHdr) (job round : W32) (cs : List Claim) (secret : List Byte) : State :=
  let st := drawStatus s h job round cs
  match issuer h with
  | some p => if st ≠ 0 then complete s h st [] else openSeeds s h p job round (lastAttempt s p job round + 1) secret cs
  | none => complete s h codeNoiseState []

/-- NOISE_DRAW (R215): one request of 32 B; while the instance waits, the command waits (Table 08.2). -/
def execNoiseDraw (h : CmdHdr) (job round : W32) (claims : List Claim) (s : State) : Res :=
  let s0 := begun s (.noiseDraw h job round claims)
  let st := drawStatus s0 h job round claims
  .next (if st ≠ 0 then complete s0 h st [] else
    match drbgAsk s0 h.part [32] (.draw h job round claims) with
    | (some secret, s1) => drawDone s1 h job round claims secret
    | (none, s1) => s1)

/-- A NOISE slot of the issuer. -/
def seedSlot (s : State) (h : CmdHdr) (seed : Nat) : Option (Fin 64 × KeySlot) :=
  match finOpt 64 seed with
  | none => none
  | some i => match s.rot.slots[i] with
    | some k => if k.kind = 4 ∧ tenantPart k.part = h.part then some (i, k) else none
    | none => none

/-- j ‖ r, little-endian. -/
def jobRound (job round : W32) : List Byte := leBytes 4 job.toNat ++ leBytes 4 round.toNat

/-- The wrapping key of noise seed blobs (R216). -/
def noiseWrapKey (kjob : List Byte) (job round : W32) : List Byte := kmac256 kjob (jobRound job round) 32 (ascii "WYNWRAP")

/-- The 152-byte noise seed blob (Table 08.4). -/
def noiseBlob (kjob : List Byte) (k : KeySlot) (target : List Byte) (lo hi : Nat) : List Byte :=
  [1] ++ List.replicate 7 0 ++ jobRound k.job k.round ++
  kwWrap (noiseWrapKey kjob k.job k.round)
    (k.secret ++ padTo 64 target ++ jobRound k.job k.round ++ leBytes 4 k.attempt ++ leBytes 8 lo ++ leBytes 8 hi)

/-- NOISE_EXPORT (R216). -/
def execNoiseExport (h : CmdHdr) (seed lo hi : Nat) (buffer : W64) (target : List Byte) (s : State) : Res :=
  let s0 := begun s (.noiseExport h seed lo hi buffer target)
  .next (match seedSlot s0 h seed with
    | none => complete s0 h codeNoiseState []
    | some (i, k) =>
      if !rangeOk (lo, hi) || !rangesDisjoint [(lo, hi)] || (k.claims ++ k.exports).any (fun q => !(hi ≤ q.1 || q.2 ≤ lo)) then
        complete s0 h codeNoiseRange []
      else match jobSecret s0 h.part 2 k.job with
        | none => complete s0 h codeSlotAbsent []
        | some kj =>
          let s1 := { s0 with rot := { s0.rot with slots := vmod s0.rot.slots i (fun _ => some { k with exports := k.exports ++ [(lo, hi)] }) } }
          complete (emitOut s1 (.hostWrite h.part buffer (noiseBlob kj k target lo hi))) h 0 [])

/-- The plaintext of a blob for this device, none if NOISE_BLOB applies (R217). -/
def openBlob (kjob blob : List Byte) : Option (List Byte) :=
  if blob.length ≠ 152 ∨ u8 blob 0 ≠ 1 ∨ !resvZero blob 1 7 then none
  else match kwUnwrap (noiseWrapKey kjob (w32 blob 8) (w32 blob 0xC)) (bslice blob 0x10 136) with
    | none => none
    | some pt => if pt.length = 124 ∧ bslice pt 32 64 = deviceId ∧ w32 pt 96 = w32 blob 8 ∧ w32 pt 100 = w32 blob 0xC then some pt else none

/-- NOISE_IMPORT (R217). -/
def execNoiseImport (h : CmdHdr) (blob : List Byte) (claims : List Claim) (s : State) : Res :=
  let s0 := begun s (.noiseImport h blob claims)
  let job : W32 := match jobOfPart s0 h.part with
    | some j => j.job
    | none => 0
  let st := claimStatus s0 h job claims
  .next (if st ≠ 0 then complete s0 h st [] else
    match issuer h, jobSecret s0 h.part 2 job with
    | some p, some kj =>
      match (if w32 blob 8 = job then openBlob kj blob else none) with
      | none => complete (logN s0 h.part .rtp codeNoiseBlob 0 0) h codeNoiseBlob []
      | some pt =>
        let round := w32 pt 100
        let attempt := u32 pt 104
        let lo := u64 pt 108
        let hi := u64 pt 116
        if attempt ≤ lastAttempt s0 p job round || noiseStale s0 p job round then complete s0 h codeNoiseStale []
        else if !(claimsProper s0 h.part claims && (claimRanges claims).all (fun r => lo ≤ r.1 && r.2 ≤ hi)) then
          complete s0 h codeNoiseRange []
        else if !seedRoom s0 p job claims then complete s0 h codeNoiseState []
        else openSeeds s0 h p job round attempt (bslice pt 0 32) claims
    | _, _ => complete s0 h codeSlotAbsent [])

/-- Does a stream or a release use a seed (Table 08.10)? -/
def seedUsed (s : State) (p : PartId) (slot : Nat) : Bool :=
  (baysOf s p).any (fun b =>
    (s.bays[b].noise.seeds.any (fun o => o.slot == slot &&
      s.bays[b].noise.streams.any (fun x => x.job == o.job && x.next != 0 && !x.ended))) ||
    (match s.bays[b].release.cur with
     | some r => r.args.seed == slot
     | none => false))

/-- A NOISE slot is cleared and its seed closed in every bay. -/
def closeSeed (s : State) (i : Fin 64) : State :=
  let s1 := { s with rot := { s.rot with slots := vmod s.rot.slots i (fun _ => none) } }
  allBays.foldl (fun s b => modNoise s b (fun n => { n with seeds := n.seeds.filter (fun o => o.slot != i.1) })) s1

/-- NOISE_CLOSE (R234). -/
def execNoiseClose (h : CmdHdr) (seed : Nat) (s : State) : Res :=
  let s0 := begun s (.noiseClose h seed)
  .next (match seedSlot s0 h seed with
    | none => complete s0 h codeNoiseState []
    | some (i, _) => if seedUsed s0 h.part seed then complete s0 h codeNoiseState [] else complete (closeSeed s0 i) h 0 [])

/-! ## Sampling (R212, R218) -/

/-- Block `i` of distribution `d` of a seed's noise stream (Table 08.5). -/
def noiseBlock (k : KeySlot) (d i : Nat) : List Byte :=
  cshake128 (k.secret ++ leBytes 8 i) 4096 (ascii "WYNOISE") (jobRound k.job k.round ++ leBytes 4 k.attempt ++ [byteOf d, 0, 0, 0])

/-- The 32 bytes of each of `n` sample numbers from `g`. -/
def noiseWords (k : KeySlot) (d g n : Nat) : List (List Byte) :=
  let bytes := (List.range ((g + n - 1) / 128 - g / 128 + 1)).flatMap (fun i => noiseBlock k d (g / 128 + i))
  (chunks 32 (bytes.drop (32 * (g % 128)))).take n

/-- The signed draw of a table for a uniform word and a sign bit. -/
def signedDraw (t : List Nat) (u : Nat) (neg : Bool) : Int :=
  let m := (t.filter (· ≤ u)).length
  if neg then -(m : Int) else (m : Int)

/-- The sample of a distribution for 32 bytes (R212, R218). -/
def sampleOf (x : Dist) (w : List Byte) : Int :=
  if x.kind = 0 then 0
  else signedDraw x.t0 (u64 w 0) (bitOf (u8 w 16) 0) + x.k * (if x.t1 = [] then 0 else signedDraw x.t1 (u64 w 8) (bitOf (u8 w 24) 0))

/-- The samples of distribution `d` of a bay's record for `n` numbers from `g`. -/
def samplesOf (s : State) (b : BayId) (k : KeySlot) (d g n : Nat) : List Int :=
  match s.bays[b].noise.recs.findSome? (fun r => if r.job = k.job then r.dists[d]? else none) with
  | some x => (noiseWords k d g n).map (sampleOf x)
  | none => (List.range n).map (fun i => signed 64 (Config.noDistSample d (g + i)))

/-! ## The station (R220 to R224) -/

def findNoise (s : State) (b : BayId) (f : NoiseStream → Bool) : Option NoiseStream := s.bays[b].noise.streams.find? f
def putNoise (s : State) (b : BayId) (x : NoiseStream) : State :=
  modNoise s b (fun n => { n with streams := n.streams.map (fun y => if y.out = x.out then x else y) })

/-- The key slot that holds an open seed. -/
def seedKey (s : State) (o : OpenSeed) : Option KeySlot := (finOpt 64 o.slot).bind (fun i => s.rot.slots[i])

/-- R223's check of a span. -/
def spanClaimed (o : OpenSeed) (a n : Nat) : Bool := o.lo ≤ a && a + n ≤ o.hi && o.mark ≤ a

/-- Raise the mark and count the samples drawn. -/
def raiseMark (s : State) (b : BayId) (o : OpenSeed) (mark n : Nat) : State :=
  modNoise s b (fun y => { y with samples := y.samples + word64 n,
                                  seeds := y.seeds.map (fun q => if q = o then { q with mark := mark } else q) })

/-- NOISE_REUSE, once for the stream (R223). -/
def logReuse (s : State) (b : BayId) (x : NoiseStream) (bad : Bool) : State :=
  if bad ∧ !x.aborted then logN s s.bays[b].owner (.st b .nse) codeNoiseReuse b.1 0 else s

/-- The span of element indices that a header names: a sparse tile covers its whole position (R52). -/
def addSpan (s : State) (b : BayId) (h : TileHdr) : Nat :=
  if h.sparse then (match elemSize (modsOf s s.bays[b].owner h.job) h.ring h.etype with
    | some z => denseCap z
    | none => h.count)
  else h.count

/-- The causes that the station creates on ADD beside those of the port, in ascending order (R221, R35); `look` tells that the payload
is processed (R67). -/
def addCauses (look : Bool) (t : Tile) : List Nat :=
  match (if t.hdr.ring ≤ 3 then ringOf [] t.hdr.ring else none) with
  | some r =>
    if !look then [] else
      (if canonicalOk r t then [] else [codeNonCanonical]) ++ (if payloadShapeOk r.size t then [] else [codeMisfit])
  | none => if t.hdr.ring = 0 then [codeFloatInRing] else [codeMisfit]

/-- The input with one sample added to each element (R221). -/
def addNoise (s : State) (b : BayId) (k : KeySlot) (t : Tile) : List Byte :=
  match ringOf [] t.hdr.ring with
  | none => []
  | some r =>
    let d := match s.bays[b].noise.recs.find? (fun x => x.job == k.job) with
      | some x => x.addDist
      | none => 0xFF
    let add (e : Nat) (x : Int) : Nat := ringAdd r e (x % (r.m : Int)).toNat
    if t.hdr.sparse then
      let es := tileElems r.size t
      let xs := samplesOf s b k d t.hdr.sliceOffset (denseCap r.size)
      t.payload.take (4 * sparseMax r.size) ++ writeElems r.size (es.map (fun p => add p.2 (xs.getD p.1 0)))
    else writeElems r.size ((readElems t.payload 0 r.size t.hdr.count).zipWith add (samplesOf s b k d t.hdr.sliceOffset t.hdr.count))

/-- One tile of an ADD stream, in a firing; under ABORT, a fence or R223 a marker. None without a credit. -/
def noiseAddOne (s : State) (b : BayId) (port : PortId) (x : NoiseStream) (seed : Option (OpenSeed × KeySlot)) (stop : Option Nat) :
    Option State :=
  let st : StationRef := .bay b .nse
  match (getIn s st port).held.head?, finOpt 8 (x.out - 8) with
  | some tok, some n =>
    let t := tok.tile
    let span := addSpan s b t.hdr
    let bad := x.aborted || (match seed with
      | some (o, _) => !spanClaimed o t.hdr.sliceOffset span
      | none => false)
    let gone := if bad then some codeAborted else stop
    let cs := tileCauses s st port t (addCauses (readsPayload s st t) t ++ gone.toList)
    let s1 := logReuse (logMade s st port (some n) t cs.1) b x bad
    match takeTok s1 st port with
    | none => none
    | some (_, s2) =>
      let h := { t.hdr with noised := true }
      let s3 := match seed with
        | some (o, _) => if bad then s2 else raiseMark s2 b o (t.hdr.sliceOffset + span) t.hdr.count
        | none => s2
      let new : Tile := match cs.2, seed with
        | some c, _ => if gone.isSome then markerOf h c else poisonTile { hdr := h } c
        | none, some (_, k) => { hdr := h, payload := addNoise s2 b k t }
        | none, none => markerOf h codeAborted
      match reserveOut s3 st n new none with
      | none => none
      | some (_, out, s4) =>
        let s5 := putNoise s4 b (if t.hdr.last then { x with next := 0, aborted := false, waitSeed := false }
          else { x with next := x.next + 1, aborted := bad, waitSeed := false })
        some (if stop.isSome then returnSlot (passTok s5 st n out) st port tok.slot
          else startFiring s5 st [(port, tok)] [(n, out)])
  | _, _ => none

/-- The open seed of a stream's job with its key. -/
def streamSeed (s : State) (b : BayId) (x : NoiseStream) : Option (OpenSeed × KeySlot) :=
  (openSeed s b x.job).bind (fun o => (seedKey s o).map (fun k => (o, k)))

/-- The input ports that the Noise station could serve now (R66): a token, the stream's seed and a credit. -/
def noiseReady (s : State) (b : BayId) : List PortId :=
  allPorts.filter (fun p => !(getIn s (.bay b .nse) p).held.isEmpty && s.bays[b].noise.streams.any (fun x =>
    x.mode == 1 && x.inPort == p.1 && (streamSeed s b x).isSome && (match finOpt 8 (x.out - 8) with
      | some n => outCredits s (.bay b .nse) n != 0
      | none => false)))

/-- NOISE_ADD_TILE (R221, R223): without the seed the first token waits with WAIT_SEED (R220). -/
def execNoiseAddTile (b : BayId) (port : PortId) (s : State) : Res :=
  let st : StationRef := .bay b .nse
  .next (match findNoise s b (fun x => x.mode == 1 && x.inPort == port.1) with
    | none => s
    | some x =>
      if !mayFire s st ∨ (getIn s st port).held = [] then s
      else match streamSeed s b x with
        | none => putNoise s b { x with waitSeed := true }
        | some q => if !inTurn s st port (noiseReady s b) then s
          else (noiseAddOne (noteTurn s st port (noiseReady s b)) b port x (some q) none).getD (updWait s st))

/-- The head token of an ADD stream under ABORT or a fence (R79). -/
def noiseDropHead (s : State) (b : BayId) (port : PortId) (cause : Nat) : State :=
  match findNoise s b (fun x => x.mode == 1 && x.inPort == port.1) with
  | none => s
  | some x => (noiseAddOne s b port x none (some cause)).getD s

/-- The header of a SAMPLE stream's next tile (R222). -/
def sampleHdr (x : NoiseStream) : TileHdr where
  ring := 2
  etype := 1
  job := x.job
  tileIndex := x.next
  sliceOffset := (x.base + 8192 * x.next) % 2 ^ 48
  count := min 8192 (x.length - 8192 * x.next)
  last := x.length ≤ 8192 * (x.next + 1)

/-- The samples of a SAMPLE tile: number g takes distribution pattern[floor((g − base) / N) mod P] (R222). -/
def samplePayload (s : State) (b : BayId) (k : KeySlot) (x : NoiseStream) : List Byte :=
  let n := (sampleHdr x).count
  let g0 := x.base + 8192 * x.next
  let dOf (i : Nat) : Nat :=
    let q := (8192 * x.next + i) / 2 ^ x.logn % max 1 x.p
    bitsOf x.pattern (4 * q + 3) (4 * q)
  let ds := ((List.range n).map dOf).dedup
  let tabs := ds.map (fun d => (d, samplesOf s b k d g0 n))
  writeElems 8 ((List.range n).map (fun i => wrapInt 64 (((lookup (dOf i) tabs).getD []).getD i 0)))

/-- NOISE_SAMPLE_TILE (R222, R223). -/
def execNoiseSampleTile (b : BayId) (out : PortId) (s : State) : Res :=
  let st : StationRef := .bay b .nse
  let ctl := getSt s st
  .next (match findNoise s b (fun x => x.mode == 2 && x.out == 8 + out.1) with
    | none => s
    | some x =>
      let h := sampleHdr x
      let next := { x with next := x.next + 1, ended := h.last, waitSeed := false }
      if x.ended ∨ h.count = 0 ∨ outCredits s st out = 0 then s
      else if stopping ctl then
        (match passMarker (logOutCause s st out { hdr := h } (stopCause ctl) 0) st out h (stopCause ctl) with
         | some s1 => putNoise s1 b next
         | none => s)
      else if !mayFire s st then s
      else match streamSeed s b x with
        | none => putNoise s b { x with waitSeed := true }
        | some (o, k) =>
          let g0 := x.base + 8192 * x.next
          let bad := x.aborted || !spanClaimed o g0 h.count
          let s1 := if bad then logOutCause (logReuse s b x bad) st out { hdr := h } codeAborted 0
            else raiseMark s b o (g0 + h.count) h.count
          let t : Tile := if bad then markerOf h codeAborted else { hdr := h, payload := samplePayload s b k x }
          match reserveOut s1 st out t none with
          | none => s
          | some (_, tok, s2) => startFiring (putNoise s2 b { next with aborted := bad }) st [] [(out, tok)])

end Sys2Proof.Machine
end

