-- ==== Sys2Proof/Machine/Channels.lean ====
section
/-! DEFINITION. The channel and window commands (R96, R103, R104, R112 to R115, R133). -/

namespace Sys2Proof.Machine

/-- The tenant whose channel range holds the index is the issuer (R103). -/
def chanMine (s : State) (h : CmdHdr) (c : Nat) : Option TenantId :=
  match issuer h with
  | some p => if chanOwner s c = some p then some p else none
  | none => none

/-- The status of CHAN_CREATE, 0 for success (R103). -/
def chanCreateStatus (s : State) (h : CmdHdr) (chan paths : Nat) : Nat :=
  match chanMine s h chan with
  | none => codeChanBad
  | some p =>
    if paths < 1 ∨ 16 < paths then codeChanBad
    else if (getChan s chan).isSome then codeChanState
    else if (makeRoom s p).isNone then codeQmNoSpill else 0

/-- CHAN_CREATE (R103): the context is installed on chip, UNKEYED. -/
def execChanCreate (h : CmdHdr) (chan vlan portMask paths : Nat) (mac peer : List Byte) (s : State) : Res :=
  let s0 := begun s (.chanCreate h chan vlan portMask paths mac peer)
  let st := chanCreateStatus s0 h chan paths
  .next (if st ≠ 0 then complete s0 h st [] else
    let room := (match issuer h with
      | some p => makeRoom s0 p
      | none => none).getD s0
    complete (touchChan (putChan room chan { part := h.part, vlan := vlan, portMask := portMask, paths := paths, mac := mac, peer := peer }) chan) h 0 [])

/-- The status of CHAN_KEY (R96, R103). R103 names CHAN_EPOCH and LINK_ABSENT together, in no order: LINK_ABSENT is tested first (DESIGN
CHOICE: notes/assumptions/24.md). -/
def chanKeyStatus (s : State) (h : CmdHdr) (chan : Nat) (job : W32) (epoch : Nat) : Nat :=
  let jobOk := match jobOfPart s h.part with
    | some j => j.job == job
    | none => false
  if (chanMine s h chan).isNone ∨ !jobOk then codeChanBad
  else match getChan s chan with
    | none => codeChanState
    | some x =>
      if x.linkKey.isNone ∨ x.linkJob ≠ job then codeLinkAbsent
      else if x.state = .opened then (if epoch = x.epoch + 1 ∧ epoch ≤ 65535 then 0 else codeChanEpoch)
      else if 1 ≤ epoch ∧ epoch ≤ 65535 then 0 else codeChanEpoch

/-- CHAN_KEY (R96): the first epoch opens the channel, the next one is installed beside it. The device transmits under the epoch installed here
until an authenticated packet comes (DESIGN CHOICE: R95 names only epochs received, notes/assumptions/24.md). -/
def execChanKey (h : CmdHdr) (chan : Nat) (job : W32) (epoch : Nat) (s : State) : Res :=
  let s0 := begun s (.chanKey h chan job epoch)
  let st := chanKeyStatus s0 h chan job epoch
  .next (if st ≠ 0 then complete s0 h st [] else
    complete (modChan s0 chan (fun x =>
      if x.state = .opened then { x with nextInst := true }
      else { x with state := .opened, epoch := epoch, nextInst := false, old := none, rxHigh := epoch, txEpoch := epoch, txSeq := 0 })) h 0 [])

/-- The status of CHAN_PIN (R103). Pin 1 on a context off chip that finds the share full while no context can be spilled completes
QM_NO_SPILL, which R103 gives for CHAN_CREATE only (DESIGN CHOICE: notes/assumptions/24.md). -/
def chanPinStatus (s : State) (h : CmdHdr) (chan pin : Nat) : Nat :=
  match chanMine s h chan with
  | none => codeChanBad
  | some p =>
    let pinned := (s.trn.chans.filter (fun c => c.2.pinned && c.2.part == h.part && c.1 != chan)).length
    if 1 < pin ∨ (pin = 1 ∧ (getShare s p).contexts < 2 * (pinned + 1)) then codeChanBad
    else match getChan s chan with
      | none => codeChanState
      | some x => if pin = 1 ∧ !x.cached ∧ (makeRoom s p).isNone then codeQmNoSpill else 0

/-- CHAN_PIN (R103): pin 1 brings the context on chip, with the packets that wait for it, and pins it; pin 0 only unpins. `authentic` is
whether a context read from the spill area authenticates (R100, R104). -/
def execChanPin (h : CmdHdr) (chan : Nat) (pin : PinReq) (s : State) : Res :=
  let s0 := begun s (.chanPin h chan ⟨pin.pin, true⟩)
  let st := chanPinStatus s0 h chan pin.pin
  .next (if st ≠ 0 then complete s0 h st [] else
    if pin.pin = 1 then
      let here := match getChan s0 chan, issuer h with
        | some x, some p =>
          if x.cached then s0
          else
            let s1 := if s0.trn.fetching.contains chan then s0 else emitOut s0 (.cacheRead (spillAddr s0 chan) 256)
            installContext s1 p chan pin.authentic
        | _, _ => s0
      complete (modChan here chan (fun x => { x with pinned := true })) h 0 []
    else complete (modChan s0 chan (fun x => { x with pinned := false })) h 0 [])

/-- The status of a command that names a channel which must not be FREE. -/
def chanNameStatus (s : State) (h : CmdHdr) (chan : Nat) : Nat :=
  if (chanMine s h chan).isNone then codeChanBad else if (getChan s chan).isNone then codeChanState else 0

/-- CHAN_RESET (R104). -/
def execChanReset (h : CmdHdr) (chan : Nat) (s : State) : Res :=
  let s0 := begun s (.chanReset h chan)
  let st := chanNameStatus s0 h chan
  .next (if st ≠ 0 then complete s0 h st [] else complete (resetChan s0 chan codeChannelReset) h 0 [])

/-- The channel's own messages go unanswered: a release that sent one of them will never have its ACK COMMITTED (R230). -/
def loseTx (s : State) (chan : Nat) : State :=
  let mine := s.trn.tx.filter (fun m => m.chan == chan)
  let s1 := modTrn s (fun t => { t with tx := t.tx.filter (fun m => m.chan != chan) })
  (mine.filterMap (·.bay)).foldl (fun s b => modBay s b (fun y =>
    { y with release := { y.release with cur := y.release.cur.map (fun r => { r with lost := true }) } })) s1

/-- Take a channel's context away, with its windows revoked first (cause 2 of detail form W) and its messages gone. Packets that wait for
the context are answered as for a FREE channel (R101, R102). -/
def dropChan (s : State) (chan : Nat) : State :=
  let wins := (s.wins.tab.filter (fun p => p.2.chan == chan)).map (·.1)
  let s1 := wins.foldl (fun s i => revokeWin s i 2) s
  let waiting := (s1.trn.miss.filter (fun p => p.1 == chan)).map (·.2)
  let s2 := modTrn (loseTx s1 chan) (fun t => { t with
    chans := eraseKey chan t.chans, msgs := t.msgs.filter (fun m => m.chan != chan),
    miss := t.miss.filter (fun p => p.1 != chan), fetching := t.fetching.filter (· != chan) })
  waiting.foldl packetIn s2

/-- CHAN_FREE (R103). -/
def execChanFree (h : CmdHdr) (chan : Nat) (s : State) : Res :=
  let s0 := begun s (.chanFree h chan)
  let st := chanNameStatus s0 h chan
  .next (if st ≠ 0 then complete s0 h st [] else complete (dropChan s0 chan) h 0 [])

/-- The window that a descriptor names (Table 04.9), generation and state to be set. -/
def parseWindow (d : List Byte) (p : PartId) (g : Nat) : Window where
  part := p
  state := .opened
  gen := g
  place := u8 d 1 == 2
  bay := u8 d 2
  sparseOk := bitOf (u8 d 3) 0
  stream := u16 d 6
  job := w32 d 8
  chan := u32 d 0xC
  bin := w32 d 0x10
  ring := u8 d 0x14
  etype := u8 d 0x15
  base := u48 d 0x18
  span := u64 d 0x20
  firstTile := u32 d 0x28
  lastTile := u32 d 0x2C
  clo := u32 d 0x30
  chi := u32 d 0x34
  expiry := u64 d 0x38

/-- Fields that must be zero (R9, Table 04.9). -/
def winResvOk (d : List Byte) : Bool :=
  d.length == 64 && u8 d 0 == 1 && (u8 d 1 == 1 || u8 d 1 == 2) && resvZero d 0x16 2 && resvZero d 0x1E 2 &&
  (if u8 d 1 = 2 then u8 d 3 == 0 && u16 d 6 == 0 && resvZero d 0x10 6 && resvZero d 0x28 16 else u8 d 3 < 2)

/-- An accumulate window fits its bin (R112, R133). A bin on which a command still runs, such as a BIN_DISCARD that waits for tiles in
flight, takes no new window (DESIGN CHOICE: notes/assumptions/47.md). -/
def winFitsBin (s : State) (w : Window) : Bool :=
  match handleBin s w.part w.bin with
  | none => false
  | some (b, x) =>
    let cap := binCap x
    b.1 == w.bay && isGatherer x && x.state == .opened && x.wait.isNone && w.job == x.job && w.ring == x.ring && w.etype == x.etype &&
    w.base == x.base && w.firstTile == x.firstTile && (x.t - 1) * cap < w.span && w.span ≤ x.t * cap &&
    (x.lastCount == 0 || w.span == (x.t - 1) * cap + x.lastCount) && x.clo ≤ w.clo && w.clo ≤ w.chi && w.chi ≤ x.chi

/-- Is a window descriptor accepted (R112; R387 for a region of a stack that is not READY)? -/
def winOk (s : State) (h : CmdHdr) (d : List Byte) : Bool :=
  let i := u16 d 4
  let w := parseWindow d h.part (winGenOf s i)
  match issuer h, finOpt 16 w.bay with
  | some p, some b =>
    winResvOk d && winOwner s i == some p && (getWin s i).isNone && holdsBay s h.part b && chanOwner s w.chan == some p &&
    (if w.place then w.base % 64 == 0 && w.span % 64 == 0 && 0 < w.span && w.base + w.span ≤ stackSize && stackReady s.bays[b].mem else winFitsBin s w)
  | _, _ => false

/-- WIN_OPEN (R112 to R114): the window opens and its shelfmark is returned; an expiry already past starts to close it. -/
def execWinOpen (h : CmdHdr) (desc : List Byte) (s : State) : Res :=
  let s0 := begun s (.winOpen h desc)
  .next (if !winOk s0 h desc then complete s0 h codeWindowViolation [] else
    let i := u16 desc 4
    let w := parseWindow desc h.part (winGenOf s0 i)
    let s1 := { s0 with wins := { s0.wins with tab := insertKey i w s0.wins.tab } }
    let s2 := if w.expiry ≠ 0 ∧ w.expiry ≤ s0.alm.t.toNat then closeWin s1 i else s1
    complete s2 h 0 (leBytes 4 (shelfmarkOf w i).toNat))

/-- The index of the issuer's window that a shelfmark currently names. -/
def myWindow (s : State) (h : CmdHdr) (sm : W32) : Option Nat :=
  match winCurrent s sm with
  | some w => if w.part = h.part then some (winIndex sm) else none
  | none => none

/-- WIN_CLOSE (R114). -/
def execWinClose (h : CmdHdr) (shelfmark : W32) (s : State) : Res :=
  let s0 := begun s (.winClose h shelfmark)
  .next (match myWindow s0 h shelfmark with
    | none => complete s0 h codeStaleShelfmark []
    | some i => complete (closeWin s0 i) h 0 [])

/-- WIN_REVOKE (R115). -/
def execWinRevoke (h : CmdHdr) (shelfmark : W32) (s : State) : Res :=
  let s0 := begun s (.winRevoke h shelfmark)
  .next (match myWindow s0 h shelfmark with
    | none => complete s0 h codeStaleShelfmark []
    | some i => complete (revokeWin s0 i 1) h 0 [])

/-- WINDOW_EXPIRY (R114): the almanac has reached a window's expiry. -/
def execWindowExpiry (index : W16) (s : State) : Res :=
  .next (match getWin s index.toNat with
    | some w => if w.state = .opened ∧ w.expiry ≠ 0 ∧ w.expiry ≤ s.alm.t.toNat then closeWin s index.toNat else s
    | none => s)

end Sys2Proof.Machine
end

