-- ==== Sys2Proof/Machine/CoreBase.lean ====
section
/-! DEFINITION. What every kernel instruction shares: registers, fetch, retirement, kernel errors (R238 to R244, R250, R258). -/

namespace Sys2Proof.Machine

/-! ## Registers (Table 09.1) -/

def regIx (r : BitVec 6) : Fin 64 := ⟨r.toNat, r.isLt⟩
def vecIx (r : BitVec 5) : Fin 32 := ⟨r.toNat, r.isLt⟩
def predIx (r : BitVec 3) : Fin 8 := ⟨r.toNat, r.isLt⟩

/-- A scalar register; s0 reads zero. -/
def coreS (k : Core) (r : BitVec 6) : W64 := if r = 0 then 0 else k.s[regIx r]
/-- Write a scalar register; a write to s0 is discarded. -/
def putS (k : Core) (r : BitVec 6) (x : W64) : Core := if r = 0 then k else { k with s := vmod k.s (regIx r) (fun _ => x) }
/-- A predicate register; p0 reads all ones. -/
def coreP (k : Core) (r : BitVec 3) : W64 := if r = 0 then BitVec.allOnes 64 else k.p[predIx r]
/-- Write a predicate register; a write to p0 is discarded. -/
def putP (k : Core) (r : BitVec 3) (x : W64) : Core := if r = 0 then k else { k with p := vmod k.p (predIx r) (fun _ => x) }
def coreV (k : Core) (r : BitVec 5) : Vector W64 32 := k.v[vecIx r]
def putV (k : Core) (r : BitVec 5) (x : Vector W64 32) : Core := { k with v := vmod k.v (vecIx r) (fun _ => x) }

/-- The elements of a register in a view of `b` bytes (R239). -/
def viewElems (b : Nat) (x : Vector W64 32) : List Nat :=
  if b = 8 then x.toArray.toList.map BitVec.toNat
  else x.toArray.toList.flatMap (fun e => (List.range (8 / b)).map (fun i => e.toNat / 2 ^ (8 * b * i) % 2 ^ (8 * b)))

/-- The 64-bit elements that view elements make up. -/
def viewWords (b : Nat) (l : List Nat) : List W64 :=
  if b = 8 then l.map word64
  else (chunks (8 / b) l).map (fun c => word64 (c.foldr (fun e acc => acc * 2 ^ (8 * b) + e % 2 ^ (8 * b)) 0))

/-- A register from the elements of a view; what is missing is zero. -/
def viewPack (b : Nat) (l : List Nat) : Vector W64 32 :=
  let ws := viewWords b l
  ⟨⟨(List.range 32).map (fun i => ws.getD i 0)⟩, by simp⟩

/-- The bytes per element of an instruction's view. -/
def viewSize (w : Bool) : Nat := if w then 4 else 8

/-- Elements under a predicate: where its bit is 0 the old element stays (R239). -/
def predElems (p : W64) (old new : List Nat) : List Nat := (old.zip new).mapIdx (fun i e => if p.getLsbD i then e.2 else e.1)

/-! ## Fetch and issue -/

/-- The word at the pc; an unwritten line reads zero (R240). -/
def coreFetch (k : Core) : W32 := word32 (ofLe (memRead k.ls k.pc 4))

/-- May the core issue: bound, running, not held by its station's control, a halt or a re-map (Table 03.8, R260, R428)? -/
def coreIssues (s : State) (c : CoreId) : Bool :=
  let k := getCore s c
  let x := k.ctl
  k.bind.isSome && k.run == .running && (!k.halted || k.stepping) && x.ready && !x.abortA && x.st != .aborting && x.st != .fenced &&
  !s.pow.trip && (k.firing.isSome || (s.pow.stage < 3 && x.enA && (x.st == .idle || x.st == .busy || x.st == .draining) && (s.bays[c.bay].remapping).isNone))

/-- Is a kernel instruction what the core issues next? -/
def kernelReady (s : State) (c : CoreId) (i : Instr) : Bool :=
  coreIssues s c && decodeKernel c (coreFetch (getCore s c)) == some i

/-! ## Firing helpers -/

def isOutSlot (h : HeldSlot) : Bool := 8 ≤ h.port
def firingIns (f : CoreFiring) : List HeldSlot := f.slots.filter (fun h => !isOutSlot h)
def firingOuts (f : CoreFiring) : List HeldSlot := f.slots.filter isOutSlot

/-- The cause copied from a poisoned input on the lowest-numbered port (R74). -/
def copiedOf (f : CoreFiring) : Option Nat :=
  ((firingIns f).find? (fun h => h.token.tile.hdr.poison)).map (fun h => h.token.tile.hdr.poisonCause)

/-- The ordinal of the firing's first input, 0 for none. -/
def firstOrdinal (k : Core) : Nat :=
  match k.firing with
  | some f => ((firingIns f).head?.map (fun h => h.token.tile.hdr.ordinal)).getD 0
  | none => 0

/-- An event of detail form K (Table 16.3). -/
def logK (s : State) (c : CoreId) (code reason pc ord d3 : Nat) : State :=
  logEv s s.bays[c.bay].owner (.core c) code (c.core.1 * 256 + reason) pc ord d3

/-- NOISED of an output: every consumed tile carried it (R225). -/
def firingNoised (f : CoreFiring) : Bool := !(firingIns f).isEmpty && (firingIns f).all (fun h => h.token.tile.hdr.noised)

/-- The header of the marker in a claimed output slot: the kernel's header line where its format byte is 0x01, else that of the
firing's first input (R258). -/
def slotHeader (s : State) (c : CoreId) (f : CoreFiring) (h : HeldSlot) : TileHdr :=
  let k := parseHdr (memRead s.bays[c.bay].mem.store h.addr 64)
  if k.format = 1 then k else
    match (firingIns f).head? with
    | some i => i.token.tile.hdr
    | none => k

/-- Hand a tile over in the output slot that the firing holds, with the station's stream and ordinal. -/
def passHeld (s : State) (c : CoreId) (h : HeldSlot) (t : Tile) : State :=
  match finOpt 8 (h.port - 8) with
  | none => s
  | some n =>
    let st := stampOut s (.core c) n t
    passTok st.2 (.core c) n { tile := st.1, slot := h.token.slot }

/-- Return the credits of the firing's inputs. -/
def returnIns (s : State) (c : CoreId) (f : CoreFiring) : State :=
  (firingIns f).foldl (fun s h => match finOpt 8 h.port with
    | some p => returnSlot s (.core c) p h.token.slot
    | none => s) s

/-- End the open firing with a marker in every claimed output slot (R79, R258, R259): `cause` unless one is copied or a cause of
higher precedence was found (R74, R443). -/
def markFiring (s : State) (c : CoreId) (cause : Nat) : State :=
  match (getCore s c).firing with
  | none => s
  | some f =>
    let copied := copiedOf f
    let cs := (pickCause copied (f.made ++ [cause])).getD cause
    let s1 := (firingOuts f).foldl (fun s h =>
      let hd := { slotHeader s c f h with noised := firingNoised f }
      let s0 := match finOpt 8 (h.port - 8) with
        | some n => logOutCause s (.core c) n { hdr := hd } cause 0
        | none => s
      passHeld s0 c h (markerOf hd cs)) s
    let s2 := modCore (returnIns s1 c f) c (fun k => { k with firing := none })
    modSt s2 (.core c) (fun x => { x with st := afterFiring x })

/-- Is a DMA operation's end in the bay store? -/
def dmaSpace (a : Nat) : Nat := a / 2 ^ 62
def dmaOff (a : Nat) : Nat := a % 2 ^ 62

/-- Registers at the values of R238, the CSRs CYCLE and FIRING among them; the local store is kept. -/
def resetRegs (k : Core) : Core :=
  { k with s := Vector.replicate 64 0, v := Vector.replicate 32 (Vector.replicate 32 0), m := Vector.replicate 8 {},
           p := Vector.replicate 8 0,
           pc := (k.bind.map (·.entry)).getD 0, fmt := (k.bind.map (·.fmt)).getD 0, run := if k.bind.isSome then .running else .stopped,
           cycles := 0, firings := 0, waitDma := false, stepping := false }

/-- A kernel error (R258). -/
def kernelError (s : State) (c : CoreId) (reason : Nat) : State :=
  let k := getCore s c
  let s1 := logK s c codeKernelFault reason k.pc (firstOrdinal k) 0
  let s2 := modCore s1 c (fun k => { k with dma := vmap k.dma (fun q => q.take 1), kerr := k.kerr + 1, kerrLast := reason })
  modCore (markFiring s2 c codeKernel) c resetRegs

/-- Count an instruction's issue cycles and its stalls, which the spec leaves to timing: a free value (notes/assumptions/8.md). -/
def spendCycles (s : State) (c : CoreId) (issue : Nat) : State :=
  let n := issue + Config.freeNat s.free
  modCore { s with free := s.free + 1 } c (fun k =>
    { k with cycles := k.cycles + n, busy := if k.firing.isSome then k.busy + word64 n else k.busy, waitDma := false, stepping := false })

/-- The instruction ends and the pc goes to `pc`; a pc outside the local store is RANGE, one between words MISALIGNED. -/
def retireTo (s : State) (c : CoreId) (issue pc : Nat) : State :=
  if pc % 4 ≠ 0 then kernelError s c 2
  else if localSize ≤ pc then kernelError s c 3
  else modCore (spendCycles s c issue) c (fun k => { k with pc := pc })

/-- The instruction ends and the next one follows. -/
def retire (s : State) (c : CoreId) (issue : Nat) : State := retireTo s c issue ((getCore s c).pc + 4)

/-- Run an instruction where the core issues it; else nothing happens. -/
def issue (s : State) (c : CoreId) (i : Instr) (f : Core → State) : Res :=
  .next (if kernelReady s c i then f (getCore s c) else s)

/-- ILLEGAL_INSTRUCTION (R244): the word at the pc is in no row of Table 09.5, or breaks its format. -/
def execIllegalInstruction (c : CoreId) (word : W32) (s : State) : Res :=
  .next (if coreIssues s c && coreFetch (getCore s c) == word && (decodeKernel c word).isNone then kernelError s c 1 else s)

end Sys2Proof.Machine
end

