-- ==== Sys2Proof/Machine/CoreMem.lean ====
section
/-! DEFINITION. Loads, stores, MLD and DMA of the bay cores (R240 to R243, R247, R251 to R254). -/

namespace Sys2Proof.Machine

/-! ## The local store -/

/-- Is a span of the local store code (R254)? -/
def codeHit (k : Core) (a n : Nat) : Bool := match k.bind with
  | some b => overlaps b.loadAt b.codeLen a n
  | none => false

/-- The DMA operations not yet complete. -/
def dmaLive (k : Core) : List DmaOp := k.dma.toList.flatten

/-- Will an incomplete DMA write a line of the span, or read one (R252)? -/
def dmaWritesLs (k : Core) (a n : Nat) : Bool :=
  (dmaLive k).any (fun o => dmaSpace o.dst == 0 && overlaps (dmaOff o.dst) o.len (lineAddr a) (lineAddr (a + n - 1) + 64 - lineAddr a))
def dmaReadsLs (k : Core) (a n : Nat) : Bool :=
  (dmaLive k).any (fun o => dmaSpace o.src == 0 && overlaps (dmaOff o.src) o.len (lineAddr a) (lineAddr (a + n - 1) + 64 - lineAddr a))

/-- Issue stalls: the instruction is not yet executed, and the core shows WAIT_DMA (R252, Table 09.11). -/
def stallDma (s : State) (c : CoreId) : State := modCore s c (fun k => { k with waitDma := true })

/-- The address of an access: MISALIGNED, then RANGE, else the access. -/
def lsAccess (s : State) (c : CoreId) (a n : Nat) (f : State) : State :=
  if a % n ≠ 0 then kernelError s c 2 else if localSize < a + n then kernelError s c 3 else f

/-- A load of `n` bytes at sa + the offset: it waits for a DMA that still writes its line; closed lines read zero (R27, R167). -/
def loadOp (s : State) (i : Instr) (c : CoreId) (sa : BitVec 6) (off : W64) (n : Nat) (f : Core → List Byte → Core) : Res :=
  issue s c i (fun k =>
    let a := (coreS k sa + off).toNat
    lsAccess s c a n (if dmaWritesLs k a n then stallDma s c else retire (modCore s c (fun _ => f k (localGet s c k a n))) c 1))

/-- A store: it waits for a DMA that still reads its line; a code line is CODE_WRITE. -/
def storeOp (s : State) (i : Instr) (c : CoreId) (sa : BitVec 6) (off : W64) (n : Nat) (f : Core → Nat → Core) : Res :=
  issue s c i (fun k =>
    let a := (coreS k sa + off).toNat
    lsAccess s c a n (if codeHit k a n then kernelError s c 10 else if dmaReadsLs k a n then stallDma s c
      else retire (modCore s c (fun _ => f k a)) c 1))

def execLd (c : CoreId) (sd sa : BitVec 6) (imm : BitVec 14) (s : State) : Res :=
  loadOp s (.ld c sd sa imm) c sa (imm.signExtend 64) 8 (fun k b => putS k sd (word64 (ofLe b)))
/-- LW zero-extends. -/
def execLw (c : CoreId) (sd sa : BitVec 6) (imm : BitVec 14) (s : State) : Res :=
  loadOp s (.lw c sd sa imm) c sa (imm.signExtend 64) 4 (fun k b => putS k sd (word64 (ofLe b)))
def execSd (c : CoreId) (sv sa : BitVec 6) (imm : BitVec 14) (s : State) : Res :=
  storeOp s (.sd c sv sa imm) c sa (imm.signExtend 64) 8 (fun k a => localPut s c k a (leBytes 8 (coreS k sv).toNat))
def execSw (c : CoreId) (sv sa : BitVec 6) (imm : BitVec 14) (s : State) : Res :=
  storeOp s (.sw c sv sa imm) c sa (imm.signExtend 64) 4 (fun k a => localPut s c k a (leBytes 4 (coreS k sv).toNat))

/-- The offset of VLD and VST. -/
def vmOff (imm : BitVec 10) : W64 := imm.signExtend 64 <<< (8 : Nat)
/-- VLD, under pr in the 64-bit view. -/
def execVld (c : CoreId) (v : BitVec 5) (sa : BitVec 6) (imm : BitVec 10) (pr : BitVec 3) (s : State) : Res :=
  loadOp s (.vld c v sa imm pr) c sa (vmOff imm) 256 (fun k b =>
    putV k v (viewPack 8 (predElems (coreP k pr) (viewElems 8 (coreV k v)) ((chunks 8 b).map ofLe))))
/-- VST: the elements that pr enables. -/
def execVst (c : CoreId) (v : BitVec 5) (sa : BitVec 6) (imm : BitVec 10) (pr : BitVec 3) (s : State) : Res :=
  storeOp s (.vst c v sa imm pr) c sa (vmOff imm) 256 (fun k a =>
    (viewElems 8 (coreV k v)).zipIdx.foldl (fun k e =>
      if (coreP k pr).getLsbD e.2 then localPut s c k (a + 8 * e.2) (leBytes 8 e.1) else k) k)

/-- R39's checks, with R247's on a 32-bit modulus. -/
def modulusFits (w : Bool) (m mprime : Nat) : Bool :=
  let r := if w then 2 ^ 32 else 2 ^ 64
  m % 2 == 1 && 28 ≤ Nat.log2 m + 1 && Nat.log2 m + 1 ≤ 61 && m * mprime % r == r - 1 && (!w || m < 2 ^ 31)

/-- MLD (R247). -/
def execMld (c : CoreId) (md : BitVec 3) (w : Bool) (sa : BitVec 6) (imm : BitVec 14) (s : State) : Res :=
  issue s c (.mld c md w sa imm) (fun k =>
    let a := (coreS k sa + imm.signExtend 64).toNat
    lsAccess s c a 32 (if dmaWritesLs k a 32 then stallDma s c else
      let b := localGet s c k a 32
      if modulusFits w (u64 b 0) (u64 b 8) then
        retire (modCore s c (fun k => { k with m := vmod k.m (predIx md) (fun _ =>
          { m := word64 (u64 b 0), mprime := word64 (u64 b 8), mu := word64 (u64 b 16), r2 := word64 (u64 b 24), valid := true, w32 := w }) })) c 1
      else kernelError (modCore s c (fun k => { k with m := vmod k.m (predIx md) (fun r => { r with valid := false }) })) c 6))

/-! ## DMA addresses (R241, R242) -/

/-- The limit of a space (Table 09.3); 0 for the reserved one. -/
def spaceSize (sp : Nat) : Nat := if sp = 0 then localSize else if sp = 1 then storeSize else if sp = 2 then stackSize else 0

/-- The slots that the open firing holds. -/
def heldSlots (k : Core) : List HeldSlot := (k.firing.map (·.slots)).getD []

/-- The held slot that a line of the bay store lies in (R242). -/
def slotOf (k : Core) (a : Nat) : Option HeldSlot := (heldSlots k).find? (fun h => h.addr ≤ a && a < h.addr + 65600)

/-- Does a span touch a held slot? -/
def touchesSlot (k : Core) (a n : Nat) : Bool := (heldSlots k).any (fun h => overlaps h.addr 65600 a n)

/-- Does every line of a span lie in a grant with a right (bit of Table 09.8)? -/
def granted (k : Core) (addr len right : Nat) : Bool :=
  match k.bind with
  | none => false
  | some b =>
    let gs := b.grants.filter (fun g => g.lines ≠ 0 && bitOf g.rights right && dmaSpace g.base == dmaSpace addr)
    gs.any (fun g => dmaOff g.base ≤ dmaOff addr && dmaOff addr + len ≤ dmaOff g.base + 64 * g.lines) ||
      (gs ≠ [] && (List.range (len / 64)).all (fun i => gs.any (fun g =>
        dmaOff g.base ≤ dmaOff addr + 64 * i && dmaOff addr + 64 * i < dmaOff g.base + 64 * g.lines)))

/-- The kernel error of one line of the bay store that a DMA touches, 0 for none (R242): a held slot, a pool that carries seeds (R167
answers it with zeros), another slot pool, or a grant. -/
def storeLineEnd (k : Core) (seeds pools : List (Nat × Nat)) (right a : Nat) : Nat :=
  match slotOf k a with
  | some h => if right = 0 ∨ (right = 1 ∧ isOutSlot h) then 0 else 5
  | none =>
    if hitsAny seeds a 64 then 0
    else if hitsAny pools a 64 then (if k.firing.isSome then 4 else 5)
    else if granted k (2 ^ 62 + a) 64 right then 0 else 4

/-- The kernel error of one end of a DMA, 0 for none: RANGE, then for the local store CODE_WRITE, else SLOT or GRANT of the first
line that has one (notes/assumptions/13.md). `right` is 0 to read, 1 to write, 2 to accumulate. -/
def dmaEnd (s : State) (c : CoreId) (k : Core) (addr len right : Nat) : Nat :=
  let sp := dmaSpace addr
  let a := dmaOff addr
  if spaceSize sp < a + len then 3
  else if sp = 0 then (if right ≠ 0 ∧ codeHit k a len then 10 else 0)
  else if sp = 1 then
    let seeds := seedPools s c.bay
    let pools := poolSpans s c.bay
    (((List.range (len / 64)).map (fun i => storeLineEnd k seeds pools right (a + 64 * i))).find? (· != 0)).getD 0
  else if granted k addr len right then 0 else 4

/-- The kernel error of a DMA instruction, 0 for none (R241, R242, R251). `op` is 0 to copy, 1 to add, 2 to subtract. -/
def dmaError (s : State) (c : CoreId) (k : Core) (op : Nat) (dst src slen : W64) : Nat :=
  let len := slen.toNat % 2 ^ 21
  let ring := slen.toNat / 2 ^ 56
  let mods := match k.bind with
    | some b => modsOf s s.bays[c.bay].owner b.job
    | none => []
  if spaceSize (dmaSpace dst.toNat) ≤ dmaOff dst.toNat ∨ spaceSize (dmaSpace src.toNat) ≤ dmaOff src.toNat then 3
  else if dst.toNat % 64 ≠ 0 ∨ src.toNat % 64 ≠ 0 then 2
  else if (bitsOf slen.toNat 55 21 != 0 || len % 64 != 0 || len < 64 || 1048576 < len ||
      (if op == 0 then ring != 0 else (ringOf mods ring).isNone)) then 11
  else if op ≠ 0 ∧ (dmaSpace src.toNat ≠ 0 ∨ dmaSpace dst.toNat ≠ 2) then 4
  else
    let e := dmaEnd s c k src.toNat len 0
    if e ≠ 0 then e else dmaEnd s c k dst.toNat len (if op = 0 then 1 else 2)

/-- Queue an operation on a channel; issue stalls while the queue is full (R251). -/
def dmaOp (s : State) (i : Instr) (c : CoreId) (op : Nat) (sdst ssrc slen : BitVec 6) (ch : BitVec 2) : Res :=
  issue s c i (fun k =>
    let n : Fin 4 := ⟨ch.toNat, ch.isLt⟩
    let e := dmaError s c k op (coreS k sdst) (coreS k ssrc) (coreS k slen)
    if e ≠ 0 then kernelError s c e
    else if 4 ≤ (k.dma[n]).length then stallDma s c
    else retire (modCore s c (fun k => { k with dma := vmod k.dma n (fun q => q ++
      [{ op := op, dst := (coreS k sdst).toNat, src := (coreS k ssrc).toNat, len := (coreS k slen).toNat % 2 ^ 21,
         ring := (coreS k slen).toNat / 2 ^ 56 }]) })) c 1)

def execDcopy (c : CoreId) (sdst ssrc slen : BitVec 6) (ch : BitVec 2) (s : State) : Res :=
  dmaOp s (.dcopy c sdst ssrc slen ch) c 0 sdst ssrc slen ch
def execDadd (c : CoreId) (sdst ssrc slen : BitVec 6) (ch : BitVec 2) (s : State) : Res :=
  dmaOp s (.dadd c sdst ssrc slen ch) c 1 sdst ssrc slen ch
def execDsub (c : CoreId) (sdst ssrc slen : BitVec 6) (ch : BitVec 2) (s : State) : Res :=
  dmaOp s (.dsub c sdst ssrc slen ch) c 2 sdst ssrc slen ch
/-- DWAIT: until the channel is idle. -/
def execDwait (c : CoreId) (sdst ssrc slen : BitVec 6) (ch : BitVec 2) (s : State) : Res :=
  issue s c (.dwait c sdst ssrc slen ch) (fun k =>
    if (k.dma[(⟨ch.toNat, ch.isLt⟩ : Fin 4)]).isEmpty then retire s c 1 else stallDma s c)
/-- DFENCE: until all four channels are idle. -/
def execDfence (c : CoreId) (sdst ssrc slen : BitVec 6) (ch : BitVec 2) (s : State) : Res :=
  issue s c (.dfence c sdst ssrc slen ch) (fun k => if (dmaLive k).isEmpty then retire s c 1 else stallDma s c)

/-! ## DMA_COMPLETE (R251, R253, R243) -/

/-- The bytes of the bay store as the core reads them: the lines of a held input slot give its tile, a marker's payload as zeros
(R253). -/
def slotOver (a : Nat) (bs : List Byte) (h : HeldSlot) : List Byte :=
  let lo := max a h.addr
  let hi := min (a + bs.length) (h.addr + 65600)
  if lo < hi ∧ !isOutSlot h then bs.take (lo - a) ++ bslice (tileBytes h.token.tile) (lo - h.addr) (hi - lo) ++ bs.drop (hi - a) else bs

/-- What a DMA reads at one end. -/
def dmaRead (s : State) (c : CoreId) (addr len : Nat) : List Byte :=
  let k := getCore s c
  let a := dmaOff addr
  if dmaSpace addr = 0 then localGet s c k a len
  else if dmaSpace addr = 1 then
    (heldSlots k).foldl (slotOver a) (hideClosed (closedSram s c.bay) a (memRead s.bays[c.bay].mem.store a len))
  else hideClosed (closedSpans s c.bay) a (dramRead s.bays[c.bay].mem a len)

/-- What a DMA writes at one end. An operation that was started before its firing ended still writes the lines of the slot (R258). -/
def dmaWrite (s : State) (c : CoreId) (addr : Nat) (bs : List Byte) : State :=
  let a := dmaOff addr
  if dmaSpace addr = 0 then modCore s c (fun k => localPut s c k a bs)
  else if dmaSpace addr = 1 then
    (openPieces (closedSram s c.bay) a bs).foldl (fun s p => modMem s c.bay (fun m => storeWrite m p.1 p.2)) s
  else (openPieces (closedSpans s c.bay) a bs).foldl (fun s p => modMem s c.bay (fun m => dramWrite m p.1 p.2)) s

/-- ADD or SUB of Table 05.2 from the local store into bay memory. -/
def dmaAccum (s : State) (c : CoreId) (o : DmaOp) (bs : List Byte) : State :=
  let mods := match (getCore s c).bind with
    | some b => modsOf s s.bays[c.bay].owner b.job
    | none => []
  match ringOf mods o.ring with
  | none => s
  | some r =>
    let a := dmaOff o.dst
    let old := dramRead s.bays[c.bay].mem a o.len
    let new := applyDense r.size (if o.op = 1 then ringAdd r else ringSub r) old (readElems bs 0 r.size (o.len / r.size))
    (openPieces (closedSpans s c.bay) a new).foldl (fun s p => modMem s c.bay (fun m => dramModify m p.1 p.2)) s

/-- Does an end of the operation touch a closed line? -/
def dmaClosed (s : State) (c : CoreId) (addr len : Nat) : Bool :=
  if dmaSpace addr = 2 then hitsAny (closedSpans s c.bay) (dmaOff addr) len
  else if dmaSpace addr = 1 then hitsAny (closedSram s c.bay) (dmaOff addr) len
  else hitsAny (closedLocal s c) (dmaOff addr) len

/-- Does an end touch a pool that carries seeds (R167)? -/
def dmaSeeds (s : State) (c : CoreId) (addr len : Nat) : Bool := dmaSpace addr == 1 && hitsAny (seedPools s c.bay) (dmaOff addr) len

/-- Where the values of a tile's payload start (R33, Table 02.7). -/
def valuesAt (size : Nat) (t : Tile) : Nat := if t.hdr.sparse then 4 * sparseMax size else 0

/-- Some element of a held input tile that the bytes [lo, lo + len) of its slot cover is not canonical (R253). -/
def slotNonCanon (s : State) (c : CoreId) (t : Tile) (lo len : Nat) : Bool :=
  if !readsPayload s (.core c) t || t.hdr.ring < 3 then false
  else match ringOf (modsOf s s.bays[c.bay].owner t.hdr.job) t.hdr.ring with
    | none => false
    | some r =>
      let v := 64 + valuesAt r.size t
      (readElems t.payload (valuesAt r.size t) r.size t.hdr.count).zipIdx.any (fun e =>
        lo < v + r.size * e.2 + r.size && v + r.size * e.2 < lo + len && r.m ≤ e.1)

/-- The same for every held input slot that a DMA reads. -/
def dmaNonCanon (s : State) (c : CoreId) (o : DmaOp) : Bool :=
  dmaSpace o.src == 1 && (heldSlots (getCore s c)).any (fun h =>
    let a := max (dmaOff o.src) h.addr
    let e := min (dmaOff o.src + o.len) (h.addr + 65600)
    !isOutSlot h && a < e && slotNonCanon s c h.token.tile (a - h.addr) (e - a))

def modFiring (s : State) (c : CoreId) (f : CoreFiring → CoreFiring) : State := modCore s c (fun k => { k with firing := k.firing.map f })

/-- CLOSED_ACCESS, once for each firing (R243); outside a firing only for the pools that carry seeds (R167). -/
def noteClosed (s : State) (c : CoreId) (seeds : Bool) : State :=
  match (getCore s c).firing with
  | some f => if f.closedLogged then s else modFiring (logK s c codeClosedAccess 0 0 0 0) c (fun f => { f with closedLogged := true })
  | none => if seeds then logK s c codeClosedAccess 0 0 0 0 else s

/-- DMA_COMPLETE (R251): the first operation of a channel takes effect. An uncorrectable line read in a firing poisons its
outputs (Table 03.4). -/
def execDmaComplete (c : CoreId) (ch : Fin 4) (lf : LineFaults) (s : State) : Res :=
  .next (match (getCore s c).dma[ch] with
    | [] => s
    | o :: rest =>
      if s.pow.trip || (s.bays[c.bay].mem.selfRefresh && (dmaSpace o.src == 2 || dmaSpace o.dst == 2)) then s else
      let span := if dmaSpace o.src = 2 then [(dmaOff o.src, o.len)] else if o.op ≠ 0 then [(dmaOff o.dst, o.len)] else []
      let s0 := readFaults (modCore s c (fun k => { k with dma := vmod k.dma ch (fun _ => rest), waitDma := false })) c.bay span lf
      let s1 := if dmaClosed s0 c o.src o.len || dmaClosed s0 c o.dst o.len then
          noteClosed s0 c (dmaSeeds s0 c o.src o.len || dmaSeeds s0 c o.dst o.len) else s0
      let s2 := if dmaNonCanon s1 c o then modFiring s1 c (fun f => { f with nonCanon := true }) else s1
      let s3 := if dmaSpace o.src = 2 then
          (match (spanUe s2.bays[c.bay].mem (dmaOff o.src) o.len).find? (fun a => !lineClosed s2 c.bay a) with
           | some a => modFiring s2 c (fun f => { f with ue := some (f.ue.getD a) })
           | none => s2)
        else s2
      let bs := dmaRead s3 c o.src o.len
      if o.op = 0 then dmaWrite s3 c o.dst bs else dmaAccum s3 c o bs)

end Sys2Proof.Machine
end

