-- ==== Sys2Proof/Machine/CoreFire.lean ====
section
/-! DEFINITION. Firings of the bay cores: FIRE, TSLOT, TEND, TPOIS, BRK, the watchdog and core faults (R255 to R259). -/

namespace Sys2Proof.Machine

/-- The ports that a mask of eight bits names. -/
def maskPorts8 (m : Nat) : List PortId := allPorts.filter (fun p => bitOf m p.1)

/-- FIRE (R255): FIRE_STATE for an open firing, empty masks or a port outside the binding; else the core waits. -/
def execFire (c : CoreId) (masks : W16) (s : State) : Res :=
  issue s c (.fire c masks) (fun k =>
    let i := masks.toNat / 256
    let o := masks.toNat % 256
    match k.bind with
    | none => s
    | some b =>
      if k.firing.isSome ∨ masks = 0 ∨ Nat.land i b.inMask ≠ i ∨ Nat.land o b.outMask ≠ o then kernelError s c 8
      else modCore s c (fun k => { k with run := .waitFire i o }))

/-- The payload of an input goes beyond its count (R35). -/
def inputMisfit (s : State) (c : CoreId) (t : Tile) : Bool :=
  readsPayload s (.core c) t && (match elemSize (modsOf s s.bays[c.bay].owner t.hdr.job) t.hdr.ring t.hdr.etype with
    | some z => !payloadShapeOk z t
    | none => false)

/-- Claim the front token of an input port: the slot, and the causes found on it (R59, R67). -/
def claimIn (s : State) (c : CoreId) (p : PortId) : Option (HeldSlot × List Nat × State) :=
  let st : StationRef := .core c
  match (getIn s st p).held.head? with
  | none => none
  | some tok =>
    let made := portCauses s st p tok.tile ++ (if inputMisfit s c tok.tile then [codeMisfit] else [])
    match takeTok (logCauses s st p tok.tile made) st p with
    | none => none
    | some (_, s1) => some ({ port := p.1, addr := slotAddr (getIn s st p) tok.slot, token := tok }, made, s1)

/-- Claim the named input ports in ascending order. -/
def claimIns (c : CoreId) : List PortId → State → List HeldSlot × List Nat × State
  | [], s => ([], [], s)
  | p :: ps, s =>
    match claimIn s c p with
    | none => claimIns c ps s
    | some (h, made, s1) =>
      let r := claimIns c ps s1
      (h :: r.1, made ++ r.2.1, r.2.2)

/-- Claim a slot for each named output port: its credit is spent and its lines' written bits cleared. -/
def claimOuts (c : CoreId) : List PortId → State → List HeldSlot × State
  | [], s => ([], s)
  | n :: ns, s =>
    let st : StationRef := .core c
    match spendCredit s st n, (getOut s st n).cons with
    | some (slot, s1), some (q, p) =>
      let a := slotAddr (getIn s q p) slot
      let r := claimOuts c ns (modMem s1 c.bay (fun m => storeClear m a 65600))
      ({ port := 8 + n.1, addr := a, token := { tile := {}, slot := slot } } :: r.1, r.2)
    | _, _ => claimOuts c ns s

/-- FIRE_CLAIM (R255): a token on every input port named and a credit on every output port named are claimed in one step. -/
def execFireClaim (c : CoreId) (s : State) : Res :=
  .next (
    let st : StationRef := .core c
    match (getCore s c).run with
    | .waitFire i o =>
      if !mayFire s st || (getCore s c).halted || (s.bays[c.bay].remapping).isSome ||
          !(maskPorts8 i).all (fun p => !(getIn s st p).held.isEmpty) || !(maskPorts8 o).all (fun n => outCredits s st n != 0) then
        updWait s st
      else
        let a := claimIns c (maskPorts8 i) s
        let b := claimOuts c (maskPorts8 o) a.2.2
        let s1 := modCore b.2 c (fun k => { k with run := .running, cycles := 0, firing := some { slots := a.1 ++ b.1, made := a.2.1 } })
        let s2 := modSt s1 st (fun x => { x with stall := false, st := if x.st == .draining then .draining else .busy })
        retireTo s2 c 0 ((getCore s c).pc + 4)
    | _ => s)

/-- TSLOT: the DMA address of the slot held for a port; SLOT where the firing holds none. -/
def execTslot (c : CoreId) (sd : BitVec 6) (port : BitVec 4) (s : State) : Res :=
  issue s c (.tslot c sd port) (fun k =>
    match k.firing.bind (fun f => f.slots.find? (fun h => h.port == port.toNat)) with
    | none => kernelError s c 5
    | some h => retire (modCore s c (fun k => putS k sd (word64 (2 ^ 62 + h.addr)))) c 1)

/-- TPOIS: the outputs of this firing carry POISON with cause KERNEL; outside a firing there is none to mark. -/
def execTpois (c : CoreId) (s : State) : Res :=
  issue s c (.tpois c) (fun _ => retire (modFiring s c (fun f => { f with tpois := true })) c 1)

/-- TEND (R256): FIRE_STATE outside a firing; else the core waits for every DMA that touches a held slot. -/
def execTend (c : CoreId) (s : State) : Res :=
  issue s c (.tend c) (fun k => if k.firing.isNone then kernelError s c 8 else modCore s c (fun k => { k with run := .waitTend }))

/-- Does an incomplete DMA touch a held slot? -/
def dmaTouchesSlot (k : Core) : Bool :=
  (dmaLive k).any (fun o => (dmaSpace o.dst == 1 && touchesSlot k (dmaOff o.dst) o.len) ||
    (dmaSpace o.src == 1 && touchesSlot k (dmaOff o.src) o.len))

/-- The causes that apply to a firing beside a copied one, in the order of R443 and R256. -/
def firingCauses (f : CoreFiring) : List Nat :=
  f.made ++ (if f.tpois then [codeKernel] else []) ++ (if f.nan then [codeNanInput] else []) ++
    (if f.nonCanon then [codeNonCanonical] else []) ++ (if f.ue.isSome then [codeUncorrectableMemory] else [])

/-- Cut the zeros at the end of a payload. -/
def trimZeros (b : List Byte) : List Byte := (b.reverse.dropWhile (· == 0)).reverse

/-- Finish one output slot: the station's header fields, then POISON with its cause or the payload (R256, R257). -/
def finishSlot (s : State) (c : CoreId) (f : CoreFiring) (h : HeldSlot) : State :=
  let store := s.bays[c.bay].mem.store
  let hd := { parseHdr (memRead store h.addr 64) with marker := false, poison := false, poisonCause := 0, noised := firingNoised f }
  let own := firingCauses f
  let s1 := match finOpt 8 (h.port - 8) with
    | some n => (own.filter (fun x => !f.made.contains x)).foldl (fun s x => logOutCause s (.core c) n { hdr := hd } x
        (if x = codeUncorrectableMemory then f.ue.getD 0 / 64 else 0)) s
    | none => s
  let t : Tile := match pickCause (copiedOf f) own with
    | some x => poisonTile { hdr := hd } x
    | none => { hdr := hd, payload := trimZeros (memRead store (h.addr + 64) 65536) }
  passHeld s1 c h t

/-- TEND_COMPLETE (R256): output tokens pass, input credits return, the firing is counted. -/
def execTendComplete (c : CoreId) (s : State) : Res :=
  .next (
    let k := getCore s c
    match k.firing with
    | none => s
    | some f =>
      if k.run ≠ .waitTend ∨ dmaTouchesSlot k ∨ stopping k.ctl then s
      else
        let s1 := returnIns ((firingOuts f).foldl (fun s h => finishSlot s c f h) s) c f
        let s2 := spendCycles s1 c 32
        let s3 := modCore s2 c (fun k => { k with firing := none, run := .running, firings := k.firings + 1, imgFirings := k.imgFirings + 1 })
        retireTo (modSt s3 (.core c) (fun x => { x with st := afterFiring x })) c 0 (k.pc + 4))

/-- Is debug open to a partition (R337, R342, Table 12.7)? -/
def debugOpen (s : State) (p : PartId) : Bool :=
  match partTenant p with
  | none => true
  | some t => !(getPart s t).conf && ((getPart s t).debug || s.rot.lifecycle == 1)

/-- BRK: a debug halt where debug is allowed, else BREAK (Table 12.3, R428). -/
def execBrk (c : CoreId) (s : State) : Res :=
  issue s c (.brk c) (fun _ =>
    if debugOpen s s.bays[c.bay].owner then modCore (retire s c 1) c (fun k => { k with halted := true }) else kernelError s c 12)

/-- WATCHDOG (R258): an open firing has run longer than its binding allows. -/
def execWatchdog (c : CoreId) (s : State) : Res :=
  .next (if (getCore s c).firing.isNone || (getCore s c).halted || stopping (getCore s c).ctl then s else kernelError s c 9)

end Sys2Proof.Machine
end

