-- ==== Sys2Proof/Machine/Fp.lean ====
section
/-! DEFINITION. Floating-point numbers (R249) and the fixed-point encoding (R42 to R45). -/

namespace Sys2Proof.Machine

/-! ## Rounding -/

/-- n / d rounded to the nearest integer, ties to even. -/
def roundDiv (n d : Nat) : Nat :=
  let q := n / d
  let r := n % d
  if d < 2 * r ∨ (2 * r = d ∧ q % 2 = 1) then q + 1 else q

/-- The exponent e with 2^e ≤ n / d < 2^(e+1). -/
def fracExp (n d : Nat) : Int :=
  let e : Int := (Nat.log2 n : Int) - (Nat.log2 d : Int)
  let ge : Bool := if 0 ≤ e then d * 2 ^ e.toNat ≤ n else d ≤ n * 2 ^ (-e).toNat
  if ge then e else e - 1

/-- ±n / d rounded once, ties to even, to a format with 8 exponent bits and precision `p` (24 for fp32, 8 for bf16): its bits. -/
def fpRound (p : Nat) (neg : Bool) (n d : Nat) : Nat :=
  let sign := b2n neg * 2 ^ (p + 7)
  if n = 0 then sign else
    let e := max (fracExp n d) (-126)
    let sh : Int := e - (p - 1 : Nat)
    let q := if 0 ≤ sh then roundDiv n (d * 2 ^ sh.toNat) else roundDiv (n * 2 ^ (-sh).toNat) d
    sign + min ((e + 126).toNat * 2 ^ (p - 1) + q) (255 * 2 ^ (p - 1))

/-- ±m · 2^e rounded. -/
def fpOf (p : Nat) (neg : Bool) (m : Nat) (e : Int) : Nat :=
  if 0 ≤ e then fpRound p neg (m * 2 ^ e.toNat) 1 else fpRound p neg m (2 ^ (-e).toNat)

/-! ## fp32 -/

abbrev fNan : Nat := 0x7FC00000
abbrev fInf : Nat := 0x7F800000
def fSign (a : Nat) : Bool := bitOf a 31
def fExp (a : Nat) : Nat := bitsOf a 30 23
def fMan (a : Nat) : Nat := bitsOf a 22 0
def fIsNan (a : Nat) : Bool := fExp a == 255 && fMan a != 0
def fIsInf (a : Nat) : Bool := fExp a == 255 && fMan a == 0
def fIsZero (a : Nat) : Bool := fExp a == 0 && fMan a == 0
/-- The significand and exponent of a finite number: |a| = fSig a · 2^(fPow a). -/
def fSig (a : Nat) : Nat := if fExp a = 0 then fMan a else fMan a + 2 ^ 23
def fPow (a : Nat) : Int := if fExp a = 0 then -149 else (fExp a : Int) - 150
def fSigned (s : Bool) (m : Nat) : Int := if s then -(m : Int) else m
/-- An infinity or a zero with a sign. -/
def fWith (neg : Bool) (a : Nat) : Nat := b2n neg * 2 ^ 31 + a

/-- The exact sum i · 2^e + j · 2^f rounded; a zero sum is −0 only where both terms are negative. -/
def fSum (i : Int) (e : Int) (j : Int) (f : Int) (zneg : Bool) : Nat :=
  let m := min e f
  let t := i * 2 ^ (e - m).toNat + j * 2 ^ (f - m).toNat
  if t = 0 then fWith zneg 0 else fpOf 24 (t < 0) t.natAbs m

def fpAdd (a b : Nat) : Nat :=
  if fIsNan a || fIsNan b then fNan
  else if fIsInf a then (if fIsInf b && fSign a != fSign b then fNan else a)
  else if fIsInf b then b
  else fSum (fSigned (fSign a) (fSig a)) (fPow a) (fSigned (fSign b) (fSig b)) (fPow b) (fSign a && fSign b)

/-- −a; a NaN becomes the one NaN. -/
def fpNeg (a : Nat) : Nat := if fIsNan a then fNan else if fSign a then a - 2 ^ 31 else a + 2 ^ 31
def fpAbs (a : Nat) : Nat := if fIsNan a then fNan else a % 2 ^ 31
def fpSub (a b : Nat) : Nat := if fIsNan a || fIsNan b then fNan else fpAdd a (fpNeg b)

def fpMul (a b : Nat) : Nat :=
  let neg := fSign a != fSign b
  if fIsNan a || fIsNan b || (fIsInf a && fIsZero b) || (fIsZero a && fIsInf b) then fNan
  else if fIsInf a || fIsInf b then fWith neg fInf
  else fpOf 24 neg (fSig a * fSig b) (fPow a + fPow b)

/-- a · b + c rounded once. -/
def fpFma (a b c : Nat) : Nat :=
  let neg := fSign a != fSign b
  if fIsNan a || fIsNan b || fIsNan c || (fIsInf a && fIsZero b) || (fIsZero a && fIsInf b) then fNan
  else if fIsInf a || fIsInf b then (if fIsInf c && fSign c != neg then fNan else fWith neg fInf)
  else if fIsInf c then c
  else fSum (fSigned neg (fSig a * fSig b)) (fPow a + fPow b) (fSigned (fSign c) (fSig c)) (fPow c) (neg && fSign c)

def fpDiv (a b : Nat) : Nat :=
  let neg := fSign a != fSign b
  if fIsNan a || fIsNan b || (fIsInf a && fIsInf b) || (fIsZero a && fIsZero b) then fNan
  else if fIsInf a || fIsZero b then fWith neg fInf
  else if fIsInf b || fIsZero a then fWith neg 0
  else
    let e := fPow a - fPow b
    if 0 ≤ e then fpRound 24 neg (fSig a * 2 ^ e.toNat) (fSig b) else fpRound 24 neg (fSig a) (fSig b * 2 ^ (-e).toNat)

/-- The integer square root, bit by bit from bit `f` - 1. -/
def isqrt (n : Nat) : Nat → Nat → Nat
  | 0, r => r
  | f + 1, r => if (r + 2 ^ f) * (r + 2 ^ f) ≤ n then isqrt n f (r + 2 ^ f) else isqrt n f r

/-- The root of a significand is taken with 40 more bits than it needs and a last bit that says whether it is exact. -/
def fpSqrt (a : Nat) : Nat :=
  if fIsNan a then fNan
  else if fIsZero a then a
  else if fSign a then fNan
  else if fIsInf a then a
  else
    let odd := fPow a % 2
    let m := fSig a * 2 ^ (odd.toNat + 80)
    let r := isqrt m 60 0
    fpOf 24 false (2 * r + b2n (r * r != m)) ((fPow a - odd) / 2 - 41)

/-- a < b on numbers; −0 and +0 are equal. -/
def fpLt (a b : Nat) : Bool :=
  if fIsNan a || fIsNan b then false
  else if fIsZero a && fIsZero b then false
  else if fSign a then (if fSign b then b % 2 ^ 31 < a % 2 ^ 31 else true)
  else if fSign b then false else a < b
def fpEq (a b : Nat) : Bool := !fIsNan a && !fIsNan b && (a == b || (fIsZero a && fIsZero b))
def fpUn (a b : Nat) : Bool := fIsNan a || fIsNan b

/-- The order of VFMIN and VFMAX: −0 below +0 (R249). -/
def fpBelow (a b : Nat) : Bool := if fIsZero a && fIsZero b then fSign a && !fSign b else fpLt a b
def fpMin (a b : Nat) : Nat :=
  if fIsNan a && fIsNan b then fNan else if fIsNan a then b else if fIsNan b then a else if fpBelow b a then b else a
def fpMax (a b : Nat) : Nat :=
  if fIsNan a && fIsNan b then fNan else if fIsNan a then b else if fIsNan b then a else if fpBelow a b then b else a

/-! ## The format descriptor (R42) -/

def fmtRing (w : Nat) : Nat := bitsOf w 15 8
def fmtQ (w : Nat) : Nat := bitsOf w 23 16
def fmtF (w : Nat) : Nat := bitsOf w 31 24
def fmtOut (w : Nat) : Nat := bitsOf w 47 40
/-- Is a descriptor well-formed (Table 02.5)? -/
def fmtOk (w : Nat) : Bool :=
  bitsOf w 7 0 == 1 && (1 ≤ fmtRing w && fmtRing w ≤ 3) && (2 ≤ fmtQ w && fmtQ w ≤ 32) && fmtF w ≤ 62 && bitsOf w 39 32 == 0 &&
  fmtOut w ≤ 2 && bitsOf w 63 48 == 0
/-- The ring of a descriptor. -/
def fmtRingOf (w : Nat) : Ring := (ringOf [] (fmtRing w)).getD ⟨2 ^ 64, 8⟩

/-! ## Encoding and decoding (R43 to R45) -/

/-- Steps 3 to 6 of R43 for a number that is no NaN; none for a NaN. -/
def encodeReal (fmt a : Nat) : Option Nat :=
  let top : Int := 2 ^ (fmtQ fmt - 1)
  let r := fmtRingOf fmt
  if fIsNan a then none
  else
    let e := fPow a + fmtF fmt
    let mag := if 0 ≤ e then fSig a * 2 ^ e.toNat else roundDiv (fSig a) (2 ^ (-e).toNat)
    let v : Int := if fIsInf a then (if fSign a then -top else top - 1) else max (-top) (min (top - 1) (fSigned (fSign a) mag))
    some (v % (r.m : Int)).toNat

/-- v · 2^(−f) in a format of precision `p` (R45). -/
def decodeReal (p f : Nat) (v : Int) : Nat := fpRound p (v < 0) v.natAbs (2 ^ f)

/-- A released ring sum's element under out_fmt: its bytes (R45). -/
def releaseElem (fmt : Nat) (e : Nat) : List Byte :=
  let r := fmtRingOf fmt
  if fmtOut fmt = 1 then leBytes 4 (decodeReal 24 (fmtF fmt) (ringSigned r e))
  else if fmtOut fmt = 2 then leBytes 2 (decodeReal 8 (fmtF fmt) (ringSigned r e))
  else leBytes r.size e

/-- The bytes of one released element of a ring sum. -/
def releaseSize (fmt : Nat) : Nat := if fmtOut fmt = 1 then 4 else if fmtOut fmt = 2 then 2 else (fmtRingOf fmt).size

end Sys2Proof.Machine
end

