-- ==== Sys2Proof/Machine/Release.lean ====
section
/-! DEFINITION. The Release station and the release record (R226 to R234). -/

namespace Sys2Proof.Machine

def modRls (s : State) (b : BayId) (f : RlsSt → RlsSt) : State := modBay s b (fun y => { y with release := f y.release })
def modCur (s : State) (b : BayId) (f : Release → Release) : State := modRls s b (fun r => { r with cur := r.cur.map f })

/-- The root-of-trust processor's own firmware is in transition: signing waits (R229, Table 13.9). -/
def rotBusy (s : State) : Bool := (s.rot.comps[(1 : Fin 12)]).active

/-! ## RLS_OPEN (R226) -/

/-- The bytes a release emits at most: a ring sum under out_fmt, ℓ containers for each index of a ciphertext, 8 for an element
of a kernel output, whose type is known only from its first tile (notes/assumptions/19.md). -/
def releaseBytes (j : Job) (a : RlsArgs) : Nat :=
  let n := a.hi - a.lo
  if a.source = 1 then n * releaseSize j.format.toNat
  else if a.source = 2 then n * a.level * (match j.moduli.head? with
    | some q => if q < 2 ^ 31 then 4 else 8
    | none => 8)
  else n * 8

/-- The size of a release region. -/
def releaseLen (j : Job) (a : RlsArgs) : Nat := releaseBytes j a + 1856

/-- The presence bin that RLS_OPEN names. -/
def presenceBin (s : State) (h : CmdHdr) (b : BayId) (a : RlsArgs) : Option Bin :=
  match handleBin s h.part a.presBin with
  | some (c, x) => if c = b then some x else none
  | none => none

/-- RLS_STATE's conditions. -/
def releaseStateOk (s : State) (h : CmdHdr) (b : BayId) (a : RlsArgs) : Bool :=
  s.bays[b].release.state == .idle && s.bays[b].noise.seeds.any (fun o => o.slot == a.seed) && (seedSlot s h a.seed).isSome &&
  (match presenceBin s h b a with
   | some x => x.state == .sum && !x.freeing && (maskMode s h.part == 0 || (roundsOf s b x.index (binGenOf s b x.index)).any (fun l =>
      match s.bays[l].round with
      | some r => r.state == .gleaned && r.round == a.round
      | none => false))
   | none => true)

/-- RLS_BAD's conditions hold not. -/
def releaseArgsOk (s : State) (h : CmdHdr) (b : BayId) (j : Job) (a : RlsArgs) : Bool :=
  1 ≤ a.source && a.source ≤ 3 && (if a.source = 2 then 1 ≤ a.level && a.level ≤ j.moduli.length else a.level == 0) &&
  a.lo < a.hi && a.hi < 2 ^ 48 && j.job == a.job && (a.source != 1 || fmtOk j.format.toNat) &&
  (match presenceBin s h b a with
   | some x => !isGatherer x && x.job == a.job && (x.ring ≤ 3 || x.ring == 0x40)
   | none => false) &&
  (match s.bays[b].noise.seeds.find? (fun o => o.slot == a.seed) with
   | some o => o.job == a.job && o.round == a.round && (a.source != 1 || (o.lo ≤ a.lo && a.hi ≤ o.hi))
   | none => false) &&
  (match a.sink with
   | .host _ _ => true
   | .wrd c _ _ => (getChan s c).isSome && (chanOwner s c).map tenantPart == some h.part)

/-- The state with the bay's earlier release region open again. -/
def reopenRegion (s : State) (b : BayId) : State := modRls s b (fun r => { r with cur := none, last := none, closed := none })

/-- The region is usable (R226, R387). -/
def releaseRegionOk (s : State) (b : BayId) (region len : Nat) : Bool :=
  let s := reopenRegion s b
  region % 65536 == 0 &&
  (if stackReady s.bays[b].mem then region + len ≤ stackSize && !placeWinOver s b region len && !hitsAny (closedSpans s b) region len
   else region + len ≤ storeSize && !hitsAny (poolSpans s b ++ closedSram s b) region len)

/-- The status of RLS_OPEN (R226); a handle that is not the issuer's current one is BIN_STATE (R130). -/
def rlsOpenStatus (s : State) (h : CmdHdr) (a : RlsArgs) : Nat :=
  match finOpt 16 a.bay, jobOfPart s h.part with
  | some b, some j =>
    if !holdsBay s h.part b then codeRlsBad
    else if (handleBin s h.part a.presBin).isNone then codeBinState
    else if !releaseStateOk s h b a then codeRlsState
    else if !releaseArgsOk s h b j a then codeRlsBad
    else if !releaseRegionOk s b a.region (releaseLen j a) then codeRlsRegion else 0
  | _, _ => codeRlsBad

/-- The presence bitmap of a bin as a record carries it. -/
def presenceBytes (s : State) (b : BayId) (x : Bin) : List Byte :=
  (locRead s (binLoc b x) (presenceOff x) (presenceLen x)).take (ceilDiv (binContribs x) 8)

/-- The release that RLS_OPEN begins: contributors and seed are those of the moment; presence is read again when the record is built. -/
def newRelease (s : State) (h : CmdHdr) (b : BayId) (j : Job) (a : RlsArgs) (x : Bin) (k : KeySlot) : Release where
  h := h
  args := a
  region := a.region
  regionLen := releaseLen j a
  inStore := !stackReady s.bays[b].mem
  attempt := k.attempt
  seed := k.secret
  clo := x.clo
  chi := x.chi
  pres := presenceBytes s b x
  ends := List.replicate (max 1 a.level) a.lo

/-- RLS_OPEN (R226): the region closes and the station collects. -/
def execRlsOpen (h : CmdHdr) (a : RlsArgs) (s : State) : Res :=
  let s0 := begun s (.rlsOpen h a)
  let st := rlsOpenStatus s0 h a
  .next (if st ≠ 0 then complete s0 h st [] else
    match finOpt 16 a.bay, jobOfPart s0 h.part, seedSlot s0 h a.seed with
    | some b, some j, some (_, k) =>
      match presenceBin s0 h b a with
      | some x => modRls (reopenRegion s0 b) b (fun r => { r with state := .collecting, cur := some (newRelease s0 h b j a x k) })
      | none => complete s0 h codeRlsState []
    | _, _, _ => complete s0 h codeRlsBad [])

/-! ## Admission (R227, R228) -/

/-- The job of a release, for its parameters. -/
def releaseJob (s : State) (r : Release) : Option Job :=
  match jobOfPart s r.h.part with
  | some j => if j.job = r.args.job then some j else none
  | none => none

def releaseFmt (s : State) (r : Release) : Nat := match releaseJob s r with
  | some j => j.format.toNat
  | none => 0

/-- Which limb the next tile carries. -/
def releaseLimb (r : Release) : Nat := r.k % max 1 r.args.level

/-- Check 5: ring and element type suit the source. -/
def releaseRingOk (s : State) (r : Release) (h : TileHdr) : Bool :=
  if r.args.source = 1 then h.ring == fmtRing (releaseFmt s r)
  else if r.args.source = 2 then h.ring == 0x40 + releaseLimb r
  else match r.etype with
    | some e => h.etype == e
    | none => true

/-- Where each limb's next tile starts after this one. -/
def releaseEnds (r : Release) (h : TileHdr) : List Nat := r.ends.set (releaseLimb r) (h.sliceOffset + h.count)

/-- Check 6: the tile continues the sequence, and LAST falls on the tile that reaches index_hi. -/
def releaseSeqOk (r : Release) (h : TileHdr) : Bool :=
  h.sliceOffset == r.ends.getD (releaseLimb r) 0 && h.sliceOffset + h.count ≤ r.args.hi &&
  (h.last == (releaseLimb r + 1 == max 1 r.args.level && (releaseEnds r h).all (· == r.args.hi)))

/-- The first check that fails, 0 for none; 7 stands for the high-water mark at LAST of a ring sum. -/
def admitCheck (s : State) (b : BayId) (r : Release) (h : TileHdr) (poisoned : Bool) : Nat :=
  if poisoned then 1
  else if !h.noised then 2
  else if h.job ≠ r.args.job then 3
  else if h.sparse then 4
  else if !releaseRingOk s r h then 5
  else if !releaseSeqOk r h then 6
  else if r.args.source = 1 ∧ h.last ∧ !(match openSeed s b r.args.job with
    | some o => o.slot == r.args.seed && r.args.hi ≤ o.mark
    | none => false) then 7
  else 0

/-- The size of a tile's elements. -/
def tileSize (s : State) (b : BayId) (h : TileHdr) : Nat := (elemSize (modsOf s s.bays[b].owner h.job) h.ring h.etype).getD 8

/-- What an admitted tile becomes (R228). -/
def convertTile (s : State) (b : BayId) (r : Release) (t : Tile) : List Byte :=
  let z := tileSize s b t.hdr
  if r.args.source = 1 then (readElems t.payload 0 z t.hdr.count).flatMap (releaseElem (releaseFmt s r))
  else padTo (z * t.hdr.count) t.payload

/-- Write into the release region. -/
def regionWrite (s : State) (b : BayId) (r : Release) (off : Nat) (bs : List Byte) : State :=
  modMem s b (fun m => if r.inStore then storeWrite m (r.region + off) bs else dramWrite m (r.region + off) bs)

/-- Zero the lines of the region written so far. -/
def regionZero (s : State) (b : BayId) (r : Release) : State :=
  let n := ceilDiv (r.out.length + r.record.length) 64 * 64
  if n = 0 then s else modMem s b (fun m => if r.inStore then storeClear m r.region n else dramZero m r.region n)

/-- The station returns to IDLE; the region stays closed (R226), and a signed release is kept for RLS_RESEND. -/
def releaseIdle (s : State) (b : BayId) (r : Release) : State :=
  modRls s b (fun x => { x with state := .idle, cur := none, closed := some (r.inStore, r.region, r.regionLen),
                                last := if r.record = [] then none else some r })

/-- A refused release completes (Table 08.7). -/
def releaseRefused (s : State) (b : BayId) (r : Release) : State :=
  complete (modRls (releaseIdle s b r) b (fun x => { x with refused := x.refused + 1, lastCode := codeRlsRefused })) r.h codeRlsRefused []

/-- A check fails: RLS_REFUSED names it, the written lines are zeroed, the rest of the stream is discarded. -/
def releaseFail (s : State) (b : BayId) (r : Release) (check : Nat) (last : Bool) : State :=
  let s1 := regionZero (logN s s.bays[b].owner (.st b .rls) codeRlsRefused b.1 check) b r
  let r1 := { r with failed := check, out := [] }
  if last then releaseRefused s1 b r1 else modRls s1 b (fun x => { x with state := .discarding, cur := some r1 })

/-! ## The record (R232, R233) -/

def digest64 (kind : Nat) (b : List Byte) : List Byte := shake256 (byteOf kind :: b) 64

/-- The presence bitmap with every bit below C inverted. -/
def invertBits (c : Nat) (b : List Byte) : List Byte :=
  b.mapIdx (fun i x => x ^^^ byteOf (maskOf 8 ((List.range 8).filter (fun k => 8 * i + k < c))))

/-- The input of the transcript digest (Table 08.9). -/
def transcriptInput (s : State) (b : BayId) (r : Release) : List Byte :=
  match releaseJob s r with
  | none => []
  | some j =>
    let y := s.bays[b]
    let psets := y.lattice.psets.filter (fun p => p.job == j.job && p.ready)
    let sorted := (List.range 65536).filterMap (fun i => if psets = [] then none else psets.find? (fun p => p.id == i))
    let keys := y.lattice.keys.toList.filterMap id
    leBytes 8 j.format.toNat ++ padTo 32 j.mask.raw ++ padTo 64 j.moduliDigest ++
    (match y.noise.recs.find? (fun n => n.job == j.job) with
     | some n => n.digest
     | none => Config.noRecordDigest) ++
    padTo 64 (if j.mask.mode = 0 then [] else (lookup r.args.round j.graphDigest).getD []) ++
    sorted.flatMap (·.digest) ++
    (keys.filter (fun k => !k.checking && psets.any (fun p => p.id == k.paramSet))).flatMap (·.digest) ++
    padTo 64 (match runningImage s y.owner with
      | some i => i.digest
      | none => [])

/-- The commitment to a seed (R219). -/
def seedCommit (job round : W32) (attempt : Nat) (seed : List Byte) : List Byte := digest64 3 (jobRound job round ++ leBytes 4 attempt ++ seed)

/-- j, r, contrib_lo, contrib_hi. -/
def accessionInput (r : Release) : List Byte := jobRound r.args.job r.args.round ++ leBytes 4 r.clo ++ leBytes 4 r.chi

def resultDigest (r : Release) : List Byte := digest64 7 r.out

/-- The signed bytes before prev_record (Table 08.8). -/
def recordHead (s : State) (b : BayId) (r : Release) : List Byte :=
  let c := r.chi - r.clo
  let present := ((List.range c).filter (bitIn r.pres)).length
  [1, byteOf r.args.source, byteOf (match releaseJob s r with
      | some j => if r.args.source = 1 then fmtOut j.format.toNat else 0
      | none => 0),
   byteOf (match issuer r.h with
      | some p => b2n (getPart s p).conf
      | none => 0)] ++
  jobRound r.args.job r.args.round ++ leBytes 2 r.attempt ++ [byteOf r.h.part.1, byteOf b.1] ++ leBytes 8 (now s).toNat ++
  leBytes 8 r.args.lo ++ leBytes 8 r.args.hi ++ leBytes 4 present ++ leBytes 4 (c - present) ++ leBytes 8 r.out.length ++
  [byteOf r.args.level] ++ List.replicate 7 0 ++ deviceId ++ resultDigest r ++ digest64 4 (accessionInput r ++ r.pres) ++
  digest64 5 (accessionInput r ++ invertBits c r.pres) ++ digest64 6 (transcriptInput s b r) ++
  seedCommit r.args.job r.args.round r.attempt r.seed

/-- The release with the presence bitmap that its presence bin holds now (Table 08.8); a bin that is gone leaves what was read last. -/
def withPresence (s : State) (b : BayId) (r : Release) : Release :=
  match presenceBin s r.h b r.args with
  | some x => { r with pres := presenceBytes s b x }
  | none => r

/-- LAST is admitted: the record is built, its signature's draws and the signing are asked for (R229). -/
def releaseSigning (s : State) (b : BayId) (r0 : Release) : State :=
  let r := withPresence s b r0
  let s1 := modRls s b (fun x => { x with state := .signing, cur := some { r with record := recordHead s b r } })
  let s2 := { s1 with rot := { s1.rot with signQ := s1.rot.signQ ++ [(r.h.part, b)] } }
  match drbgAsk s2 r.h.part [64, 64] (.sign b) with
  | (some x, s3) => modCur s3 b (fun r => { r with rand := some x })
  | (none, s3) => s3

/-! ## Taking a tile -/

/-- The causes that the Release station finds beside those of the port: non-canonical elements, a payload beyond the count. -/
def releaseCauses (s : State) (b : BayId) (t : Tile) : List Nat :=
  if !readsPayload s (.bay b .rls) t then [] else
    (match ringOf (modsOf s s.bays[b].owner t.hdr.job) t.hdr.ring with
     | some r => if canonicalOk r t then [] else [codeNonCanonical]
     | none => []) ++ (if payloadShapeOk (tileSize s b t.hdr) t then [] else [codeMisfit])

/-- One tile of the stream reaches the release. -/
def releaseTile (s : State) (b : BayId) (r : Release) (t : Tile) (poisoned : Bool) : State :=
  if s.bays[b].release.state = .discarding then (if t.hdr.last then releaseRefused s b r else s)
  else
    let check := admitCheck s b r t.hdr poisoned
    if check ≠ 0 then releaseFail s b r check t.hdr.last
    else
      let bytes := convertTile s b r t
      let r1 := { r with ends := releaseEnds r t.hdr, k := r.k + 1, etype := some t.hdr.etype, tiles := r.tiles + 1, out := r.out ++ bytes }
      let s1 := regionWrite (modCur s b (fun _ => r1)) b r r.out.length bytes
      if t.hdr.last then releaseSigning s1 b r1 else s1

/-- Does the station take tiles: is it COLLECTING or DISCARDING? -/
def releaseTakes (s : State) (b : BayId) : Bool := s.bays[b].release.state == .collecting || s.bays[b].release.state == .discarding

/-- Take the head token of a port; under ABORT or a fence it reaches the release as a poisoned tile, and as no tile of an output
is dropped no entry is written for that (R73). -/
def releaseTake (s : State) (b : BayId) (port : PortId) (stop : Option Nat) : State :=
  let st : StationRef := .bay b .rls
  match (getIn s st port).held.head? with
  | none => s
  | some tok =>
    let cs := tileCauses s st port tok.tile (releaseCauses s b tok.tile ++ stop.toList)
    match takeTok (logCauses s st port tok.tile (cs.1.filter (fun c => some c != stop))) st port with
    | none => s
    | some (_, s1) =>
      let s2 := match s1.bays[b].release.cur with
        | some r => if releaseTakes s1 b then releaseTile s1 b r tok.tile cs.2.isSome else s1
        | none => s1
      if stop.isSome then returnSlot s2 st port tok.slot else startFiring s2 st [(port, tok)] []

/-- RELEASE_ADMIT (R227), in the port's turn (R66). -/
def execReleaseAdmit (b : BayId) (port : PortId) (s : State) : Res :=
  let ready := heldPorts s (.bay b .rls)
  .next (if mayFire s (.bay b .rls) && releaseTakes s b && ready.contains port && inTurn s (.bay b .rls) port ready then
      releaseTake (noteTurn s (.bay b .rls) port ready) b port none
    else s)

/-! ## Signing and emission (R229 to R231) -/

/-- The messages of a WRD sink: data in pieces of at most 524,288 B, then the record (R230). -/
def releaseMsgs (r : Release) (off : Nat) : List (Nat × List Byte) :=
  (chunks 524288 r.out).mapIdx (fun i c => (off + 524288 * i, c)) ++ [(off + ceilDiv r.out.length 64 * 64, r.record)]

/-- Send one PUT message on a channel, under its next message identifier. -/
def sendMsg (s : State) (b : BayId) (chan : Nat) (shelf : W32) (m : Nat × List Byte) : State :=
  match getChan s chan with
  | none => s
  | some c =>
    sendMessage (modChan s chan (fun x => { x with txMsg := x.txMsg + 1 }))
      { chan := chan, shelfmark := shelf, msgId := word32 c.txMsg, winOff := m.1, bytes := m.2, bay := some b }

/-- Emit the data, then the record. -/
def releaseEmit (s : State) (b : BayId) (r : Release) : State :=
  match r.args.sink with
  | .host d at2 => emitOut (emitOut s (.hostWrite r.h.part d r.out)) (.hostWrite r.h.part at2 r.record)
  | .wrd c sm off => (releaseMsgs r off).foldl (fun s m => sendMsg s b c sm m) s

/-- No message of a bay's release waits for its answer any more. -/
def dropTx (s : State) (b : BayId) : State := modTrn s (fun t => { t with tx := t.tx.filter (fun m => m.bay != some b) })

/-- The sink of an emitting release fails (R230): the completion carries RLS_SINK; the region is kept. -/
def sinkFail (s : State) (b : BayId) : State :=
  match s.bays[b].release.cur with
  | none => s
  | some r =>
    if s.bays[b].release.state ≠ .emitting then s else
      let s1 := logN (dropTx s b) s.bays[b].owner (.st b .rls) codeRlsSink b.1 0
      complete (modRls (releaseIdle s1 b r) b (fun x => { x with lastCode := codeRlsSink })) r.h codeRlsSink []

/-- Is the sink out of reach as the emission begins: the host link down (R320), the channel no longer the partition's? -/
def sinkGone (s : State) (r : Release) : Bool :=
  match r.args.sink with
  | .host _ _ => !s.link.up
  | .wrd c _ _ => match getChan s c with
    | some x => x.part != r.h.part
    | none => true

/-- The emission begins, or the sink fails at once. -/
def releaseGo (s : State) (b : BayId) (r : Release) : State := if sinkGone s r then sinkFail s b else releaseEmit s b r

/-- The record from its head: prev_record, the signature and its length (Table 08.8). -/
def signRecord (head prev rand : List Byte) : List Byte :=
  let body := head ++ padTo 64 prev
  let sig := (Config.falconSign identitySk body rand).take 1280
  body ++ leBytes 2 sig.length ++ List.replicate 62 0 ++ padTo 1280 sig

/-- RELEASE_SIGNED (R229): the processor signs in the order asked; the record joins the job's chain (R233). -/
def execReleaseSigned (b : BayId) (s : State) : Res :=
  .next (match s.bays[b].release.cur with
    | none => s
    | some r =>
      match r.rand with
      | none => s
      | some rand =>
        if s.bays[b].release.state ≠ .signing ∨ s.rot.signQ.head? ≠ some (r.h.part, b) ∨ rotBusy s then s else
          let prev := match releaseJob s r with
            | some j => j.prevRecord
            | none => []
          let rcd := signRecord r.record prev rand
          let r1 := { r with record := rcd }
          let s1 := { s with rot := { s.rot with signQ := s.rot.signQ.drop 1 } }
          let s2 := match issuer r.h with
            | some p => modPart s1 p (fun x => { x with job := x.job.map (fun j => if j.job = r.args.job then { j with prevRecord := digest64 8 rcd } else j) })
            | none => s1
          releaseGo (regionWrite (modRls s2 b (fun x => { x with state := .emitting, cur := some r1 })) b r1 r1.out.length rcd) b r1)

/-- RELEASE_EMIT_COMPLETE (R230): every byte written or acknowledged; the completion carries the result digest. A release whose channel
was freed under it got no ACK COMMITTED: its sink has failed. -/
def execReleaseEmitComplete (b : BayId) (s : State) : Res :=
  .next (match s.bays[b].release.cur with
    | none => s
    | some r =>
      if s.bays[b].release.state ≠ .emitting ∨ s.trn.tx.any (fun m => m.bay == some b) then s
      else if r.lost then sinkFail s b
      else
        complete (modRls (releaseIdle s b r) b (fun x => { x with records := x.records + 1 })) r.h 0 (resultDigest r))

/-- RELEASE_SINK_FAIL (R230). -/
def execReleaseSinkFail (b : BayId) (s : State) : Res := .next (sinkFail s b)

/-- RLS_RESEND (R230): the data and signed record kept in the region are sent again. -/
def execRlsResend (h : CmdHdr) (bay region : Nat) (s : State) : Res :=
  let s0 := begun s (.rlsResend h bay region)
  .next (match finOpt 16 bay with
    | none => complete s0 h codeRlsState []
    | some b =>
      match s0.bays[b].release.last with
      | none => complete s0 h codeRlsState []
      | some r =>
        if !holdsBay s0 h.part b ∨ s0.bays[b].release.state ≠ .idle ∨ r.region ≠ region then complete s0 h codeRlsState [] else
          let r1 := { r with h := h, resend := true, lost := false }
          releaseGo (modRls s0 b (fun x => { x with state := .emitting, cur := some r1 })) b r1)

/-- End a release by RLS_ABORT (Table 08.7). -/
def releaseAbort (s : State) (b : BayId) (r : Release) : State :=
  match s.bays[b].release.state with
  | .collecting => modRls (regionZero s b r) b (fun x => { x with state := .discarding, cur := some { r with out := [], aborted := true } })
  | .signing =>
    let s1 := drbgForget { s with rot := { s.rot with signQ := s.rot.signQ.filter (fun q => q.2 != b) } } r.h.part (.sign b)
    releaseRefused (regionZero s1 b r) b { r with record := [] }
  | .emitting => releaseRefused (dropTx s b) b r
  | _ => s

/-- RLS_ABORT (R231). -/
def execRlsAbort (h : CmdHdr) (bay : Nat) (s : State) : Res :=
  let s0 := begun s (.rlsAbort h bay)
  .next (match finOpt 16 bay with
    | none => complete s0 h codeRlsState []
    | some b =>
      match s0.bays[b].release.cur with
      | none => complete s0 h codeRlsState []
      | some r => if !holdsBay s0 h.part b then complete s0 h codeRlsState [] else complete (releaseAbort s0 b r) h 0 [])

end Sys2Proof.Machine
end

