-- ==== Sys2Proof/Machine/Transfers.lean ====
section
/-! DEFINITION. The transfers of a step: their slots, the shares of Reduce, and how a transfer fails (R271, R272, R282, R288 to R294). -/

namespace Sys2Proof.Machine

def modRed (s : State) (f : Red → Red) : State := { s with red := f s.red }
def modRedShare (s : State) (p : TenantId) (f : RedShare → RedShare) : State :=
  modRed s (fun r => { r with shares := vmod r.shares p f })
def modSch (s : State) (p : TenantId) (f : SchPart → SchPart) : State :=
  { s with sch := { s.sch with parts := vmod s.sch.parts p f } }

/-- A share's effective EN, ABORT and DRAIN_REQ (R77, R294): in shed stage 3 and above no share is enabled; a fenced engine
drops what it holds. -/
def redEn (s : State) (p : TenantId) : Bool := s.red.ctl.enA && s.red.shares[p].en && s.pow.stage < 3
def redAbort (s : State) (p : TenantId) : Bool := s.red.ctl.abortA || s.red.ctl.st == .fenced || s.red.shares[p].abort
def redDrain (s : State) (p : TenantId) : Bool := s.red.ctl.drainA || s.red.shares[p].drain
/-- May the share begin a transfer? -/
def redBegins (s : State) (p : TenantId) : Bool := redEn s p && !redAbort s p && !redDrain s p

/-- The image whose slot program runs. -/
def slotImage (s : State) (p : TenantId) : Option Image := if runsSlots s.sch.parts[p] then s.sch.parts[p].running else none

/-- The record of a transfer of the running image. -/
def xferRec (s : State) (p : TenantId) (i : Nat) : Option Xfer := (slotImage s p).bind (fun g => g.xfers[i]?)

/-- When the step of a number of begun slots starts (R271): `slots` counts the slots begun. -/
def stepStart (sp : SchPart) (g : Image) (slots : Nat) : Nat :=
  sp.t0.toNat + 10000 * ((slots - 1) / max 1 g.period * g.period)

/-- A transfer's first slot's start and its last slot's end, in the step that starts at `t`. -/
def xferFrom (t : Nat) (x : Xfer) : Nat := t + 10000 * x.start
def xferTo (t : Nat) (x : Xfer) : Nat := t + 10000 * (x.start + x.nslots)

/-- When the step in progress started. -/
def stepNow (s : State) (p : TenantId) (g : Image) : Nat := stepStart s.sch.parts[p] g s.sch.parts[p].slot

/-- A transfer's progress in the step in progress. -/
def findRun (s : State) (p : TenantId) (i : Nat) : Option XferRun :=
  s.red.runs.find? (fun r => r.part == p && r.idx == i && r.step == s.sch.parts[p].step)
def putRun (s : State) (x : XferRun) : State :=
  modRed s (fun r => { r with runs := r.runs.map (fun y => if y.part = x.part ∧ y.idx = x.idx ∧ y.step = x.step then x else y) })

/-- The target or source bin of a record, when it is a bin of the partition in SUM. -/
def xferBin (s : State) (p : TenantId) (x : Xfer) : Option (BayId × Bin) :=
  match finOpt 16 x.bay with
  | none => none
  | some b =>
    match findBin s b x.bin with
    | some y => if y.part = tenantPart p ∧ holdsBay s (tenantPart p) b ∧ y.state = .sum ∧ !y.freeing then some (b, y) else none
    | none => none

/-- The job's sum bins in a bay. -/
def jobSums (s : State) (p : TenantId) (job : W32) (b : BayId) : List Bin :=
  (s.bays[b].mem.bins.filter (fun k => k.2.part == tenantPart p && k.2.job == job && k.2.state == .sum && !k.2.freeing)).map (·.2)

/-- The bays of a RECV's pres_mask with their sum bins. -/
def presBins (s : State) (p : TenantId) (job : W32) (x : Xfer) : List (BayId × Bin) :=
  (allBays.filter (fun b => bitOf x.presMask b.1 && holdsBay s (tenantPart p) b)).flatMap (fun b => (jobSums s p job b).map (fun y => (b, y)))

/-- The presence source bin of a SEND: the job's sum bin in pres_bay with the lowest index. -/
def presSource (s : State) (p : TenantId) (job : W32) (x : Xfer) : Option (BayId × Bin) :=
  match finOpt 16 x.presBay with
  | none => none
  | some b => if holdsBay s (tenantPart p) b then (jobSums s p job b).head?.map (fun y => (b, y)) else none

/-- The tiles a presence bitmap takes (R291). -/
def presTiles (y : Bin) : Nat := ceilDiv (binContribs y) 524288

/-- The presence tiles of a transfer. -/
def xferPres (s : State) (p : TenantId) (job : W32) (x : Xfer) : Nat :=
  if !x.presence then 0
  else match (if x.send then presSource s p job x else (presBins s p job x).head?) with
    | some (_, y) => presTiles y
    | none => 1

/-- The data tiles of a transfer. The record's tiles counts them and the presence tiles beyond the first (R291); with at most one
presence tile they are all data tiles (Table 10.8). -/
def dataTiles (s : State) (p : TenantId) (job : W32) (x : Xfer) : Nat := x.tiles - (xferPres s p job x - 1)

/-- All the tiles of a transfer. -/
def allTiles (s : State) (p : TenantId) (job : W32) (x : Xfer) : Nat := dataTiles s p job x + xferPres s p job x

/-- Of `n` data tiles of a transfer, those it has not moved. -/
def xferMissing (x : Xfer) (n : Nat) (r : XferRun) : List Nat :=
  (List.range n).filter (fun k => if x.send then r.sent ≤ k else !r.got.contains k)

/-- An event of detail form X (Table 16.3), from the RED page. -/
def logX (s : State) (p : TenantId) (code : Nat) (g : Image) (x : Xfer) (i step missing : Nat) : State :=
  logEv s (tenantPart p) .red code (g.planId.toNat % 2 ^ 32) (x.peer * 0x10000 + i) step missing

/-- What a failed RECV leaves in its bins (R293). -/
def recvPoison (s : State) (p : TenantId) (g : Image) (x : Xfer) (r : XferRun) : State :=
  let d := dataTiles s p g.job x
  let s1 := match xferBin s p x with
    | none => s
    | some (b, y) => (xferMissing x d r).foldl (fun s k => if x.firstPos + k < y.t then setPoison s b y (x.firstPos + k) codeAborted else s) s
  let n := xferPres s p g.job x
  if (List.range n).all (fun j => r.got.contains (d + j)) then s1
  else (presBins s1 p g.job x).foldl (fun s by_ => (List.range by_.2.t).foldl (fun s k => setPoison s by_.1 by_.2 k codeAborted) s) s1

/-- A transfer of the step ends: whole, or failed with its daybook entry (R293). -/
def xferEnd (s : State) (p : TenantId) (g : Image) (i : Nat) (x : Xfer) (r : XferRun) : State :=
  let missing := xferMissing x (dataTiles s p g.job x) r
  let n := allTiles s p g.job x
  let whole := if x.send then n ≤ r.sent else (List.range n).all (fun k => r.got.contains k)
  let s1 := putRun s { r with ended := true }
  if whole then s1
  else
    let s2 := if x.send then s1 else recvPoison s1 p g x r
    logX (modRedShare s2 p (fun h => { h with fail := h.fail + 1 })) p codeXferFail g x i r.step.toNat missing.length

/-- End a transfer of the running step that a test holds for. -/
def endRuns (s : State) (p : TenantId) (test : Xfer → XferRun → Bool) : State :=
  match slotImage s p with
  | none => s
  | some g => (s.red.runs.filter (fun r => r.part == p && r.step == s.sch.parts[p].step)).foldl (fun s r =>
      match g.xfers[r.idx]? with
      | some x => if !r.ended && test x r then xferEnd s p g r.idx x r else s
      | none => s) s

/-- Is a transfer in progress: its slots have begun and it has not ended? -/
def inProgress (s : State) (p : TenantId) (x : Xfer) : Bool :=
  match slotImage s p with
  | some g => xferFrom (stepNow s p g) x ≤ s.alm.t.toNat
  | none => false

/-- Effective ABORT of a share: every transfer in progress fails at once (R294). -/
def redAbortNow (s : State) (p : TenantId) : State :=
  if redAbort s p then endRuns s p (fun x r => inProgress s p x || r.sent != 0 || !r.got.isEmpty) else s

/-- A port goes down: the SENDs in progress on it fail (R293). -/
def portDownSends (s : State) (port : PortId) : State :=
  allTenants.foldl (fun s p => endRuns s p (fun x r => x.send && x.port == port.1 && (inProgress s p x || r.sent != 0))) s

/-- Is the port of a transfer up? -/
def xferPortUp (s : State) (x : Xfer) : Bool :=
  match finOpt 8 x.port with
  | none => false
  | some n => if x.eth then ethMode s.eth[n] false && (s.eth[n].link0 || s.eth[n].link1) else s.zld[n].state == .up

end Sys2Proof.Machine
end

