-- ==== Sys2Proof/Machine/Stations.lean ====
section
/-! DEFINITION. Station control: the state machine of Table 03.8, markers under ABORT and a fence, tokens, credits and the end of
a firing (R65, R77 to R80, R83, R111, R259). -/

namespace Sys2Proof.Machine

/-! ## What ABORT and a fence drop (R79) -/

/-- The cause of an output tile of a firing that is stopped: a tile already poisoned keeps its cause (R74). -/
def dropCause (t : Tile) (cause : Nat) : Nat := if t.hdr.poison then t.hdr.poisonCause else cause

/-- The entry of the output stream of a tile already stamped with its ordinal: that of the stream it ended where it carries LAST
(R73). -/
def logDropped (s : State) (r : StationRef) (n : PortId) (t : Tile) (cause : Nat) : State :=
  let o := getOut s r n
  if (if t.hdr.last then o.ended else o.logged).contains cause then s
  else modOut (logStream s r cause (8 + n.1) t.hdr.stream t.hdr.ordinal t.hdr.job.toNat 0) r n (fun o =>
    if t.hdr.last then { o with ended := o.ended ++ [cause] } else { o with logged := o.logged ++ [cause] })

/-- Stop the firing in progress: a marker goes into each slot whose credit it holds, and its input credits return. -/
def dropFiring (s : State) (r : StationRef) (cause : Nat) : State :=
  match (getSt s r).firing with
  | none => s
  | some f =>
    let s1 := f.outs.foldl (fun s o =>
      passTok (logDropped s r o.1 o.2.tile cause) r o.1 { o.2 with tile := markerOf o.2.tile.hdr (dropCause o.2.tile cause) }) s
    let s2 := f.ins.foldl (fun s i => returnSlot s r i.1 i.2.slot) s1
    modSt s2 r (fun x => { x with firing := none })

/-- The connected ports of a core that its binding names as inputs, and as outputs. -/
def coreIns (s : State) (c : CoreId) : List PortId :=
  match (getCore s c).bind with
  | some b => allPorts.filter (fun p => bitOf b.inMask p.1 && (getIn s (.core c) p).conn)
  | none => []
def coreOuts (s : State) (c : CoreId) : List PortId :=
  match (getCore s c).bind with
  | some b => allPorts.filter (fun n => bitOf b.outMask n.1 && (getOut s (.core c) n).conn)
  | none => []

/-- The head token of a core's input port under ABORT or a fence (R79): one whose firing has already left as a marker is consumed; any
other is the first of its firing, so each output port gets the firing's marker and every other input owes one tile. -/
def coreDropHead (s : State) (c : CoreId) (p : PortId) (cause : Nat) : State :=
  let r : StationRef := .core c
  let outs := coreOuts s c
  match (getIn s r p).held.head? with
  | none => s
  | some tok =>
    let cs := tileCauses s r p tok.tile []
    let due := (getIn s r p).owed
    if due = 0 ∧ outs.any (fun n => outCredits s r n == 0) then s
    else match takeTok (logCauses s r p tok.tile cs.1) r p with
      | none => s
      | some (_, s1) =>
        let s2 := if due = 0 then
            (coreIns s c).foldl (fun s q => if q = p then s else modIn s r q (fun ip => { ip with owed := ip.owed + 1 }))
              (outs.foldl (fun s n => (passMarker (logOutCause s r n tok.tile cause 0) r n tok.tile.hdr (cs.2.getD cause)).getD s) s1)
          else modIn s1 r p (fun ip => { ip with owed := ip.owed - 1 })
        returnSlot s2 r p tok.slot

/-- Consume the tiles that a core's ports still owe to firings that left as markers, when it runs again (R79). -/
def coreOwed (s : State) (c : CoreId) (p : PortId) : State :=
  if 0 < (getIn s (.core c) p).owed ∧ (getIn s (.core c) p).held ≠ [] then coreDropHead s c p codeAborted else s

/-- Every step of a drop while something is held (fuel: tokens held). -/
def dropAll (f : State → State) : Nat → State → State
  | 0, s => s
  | n + 1, s => dropAll f n (f s)

/-- How many tokens the input ports of a station hold. -/
def heldCount (s : State) (r : StationRef) : Nat := ((getSt s r).ins.toList.map (fun ip => ip.held.length)).foldl (· + ·) 0

/-- Drop what an aborting or fenced station holds and can drop now, in ascending order of input port (R79). -/
def stopPump (s : State) (r : StationRef) : State :=
  let x := getSt s r
  if !stopping x then s else
    let cause := stopCause x
    let heads (f : State → PortId → State) (s : State) : State :=
      allPorts.foldl (fun s p => dropAll (fun s => if (getIn s r p).held.isEmpty then s else f s p) (getIn s r p).held.length s) s
    match r with
    | .bay b .bin => heads (fun s p => binDropHead s b p cause) s
    | .bay _ .msk => s
    | .bay b .shr => shareSend s b
    | .bay b .lat => latStopPump b cause (heldCount s r + 8) s
    | .bay b .nse => heads (fun s p => noiseDropHead s b p cause) s
    | .bay b .rls => heads (fun s p => releaseTake s b p (some cause)) s
    | .core c => heads (fun s p => coreDropHead s c p (if x.st = .fenced then causeCoreFenced else cause)) s
    | .trn => s
    | .red => s

/-- Under an effective ABORT an Intake share discards every staged message not yet handed on, and answers its senders HOLD PAUSED
(R111). -/
def intakeAbortNow (s : State) (p : TenantId) : State :=
  if shareAbort s p || s.trn.ctl.st == .fenced then
    (s.trn.msgs.filter (fun m => m.part == tenantPart p)).foldl (fun s m => replyHold (endMsg s m) m.ref codePaused) s
  else s

/-- What an abort of the station does beside its tokens: the shares of a hub engine, the READ streams, the kernel. -/
def stopParts (s : State) (r : StationRef) (cause : Nat) : State :=
  match r with
  | .bay b .bin => stopReads s b cause
  | .core c => modCore (markFiring s c cause) c (fun k => { resetRegs k with dma := vmap k.dma (fun q => q.take 1) })
  | .trn => allTenants.foldl intakeAbortNow s
  | .red => allTenants.foldl redAbortNow s
  | _ => s

/-! ## The state machine (Table 03.8) -/

/-- IDLE, BUSY while a firing is in progress. -/
def restState (s : State) (r : StationRef) : StState :=
  match r with
  | .core c => if (getCore s c).firing.isSome then .busy else .idle
  | _ => if (getSt s r).firing.isSome then .busy else .idle

def setState (s : State) (r : StationRef) (t : StState) : State := modSt s r (fun x => { x with st := t })

/-- Leave OFF, DRAINING or ABORTING: IDLE with credits granted, or OFF (in DRAINING the credits are granted again). -/
def comeBack (s : State) (r : StationRef) (grantOff : Bool) : State :=
  let x := getSt s r
  if x.enA && x.ready then updWait (grantPools (setState s r (restState s r)) r) r
  else if grantOff then grantPools (setState s r .off) r else setState s r .off

/-- Move the station by the control bits that have arrived: ABORT before DRAIN_REQ before EN (R78). -/
def moveStation (s : State) (r : StationRef) : State :=
  let x := getSt s r
  if x.st = .fenced then s
  else if x.abortA then
    (if x.st = .aborting then stopPump s r
     else
       let s1 := stopParts (dropFiring s r codeAborted) r codeAborted
       let s2 := modSt s1 r (fun y => { y with st := .aborting, stall := false })
       stopPump (if x.st = .draining then grantPools s2 r else s2) r)
  else if x.drainA then setState s r .draining
  else match x.st with
    | .off => if x.enA && x.ready then comeBack s r false else s
    | .idle => if x.enA then s else setState s r .paused
    | .busy => if x.enA then s else setState s r .paused
    | .paused => if x.enA then updWait (setState s r (restState s r)) r else s
    | .draining => comeBack s r true
    | .aborting => comeBack s r false
    | .fenced => s

/-- What a station that gained a credit does with it. -/
def creditPump (s : State) (r : StationRef) : State :=
  match r with
  | .trn => intakePump s
  | .bay b .shr => shareSend (stopPump s r) b
  | _ => updWait (stopPump s r) r

/-- The producers of a station's inputs use the credits that it granted. -/
def pumpProducers (s : State) (r : StationRef) : State :=
  (allPorts.filterMap (fun p => (getIn s r p).prod.map (·.1))).dedup.foldl creditPump s

/-- STATION_CONTROL_ARRIVE (R78): the control bits written reach the station; where it grants credits, their producers use them. -/
def execStationControlArrive (r : StationRef) (s : State) : Res :=
  let s1 := modSt s r (fun x => { x with enA := x.en, abortA := x.abort, drainA := x.drain })
  let s2 := moveStation s1 r
  .next (if allPorts.any (fun p => (getIn s2 r p).avail != (getIn s1 r p).avail) then pumpProducers s2 r else s2)

/-- STALL (R77): a held token has waited 1 ms of almanac time for the credit of an output port. -/
def execStall (r : StationRef) (out : PortId) (s : State) : Res :=
  let x := getSt s r
  .next (if x.stall then s else
    match x.outs[out].waitSince, allPorts.find? (fun p => !(x.ins[p]).held.isEmpty) with
    | some t, some p =>
      if elapsed s t 1000000 then
        let job := (x.ins[p].held.head?).map (fun k => k.tile.hdr.job.toNat)
        logStream (modSt s r (fun y => { y with stall := true })) r codeStationStall (8 + out.1) x.outs[out].stream x.outs[out].nextOrd
          (job.getD 0) (8 + out.1)
      else s
    | _, _ => s)

/-- A fenced core (R259): its firing ends in markers with cause CORE_FENCED, its held tiles become markers, and the cores of its
bay pause for the re-map of R260. -/
def fenceCore (s : State) (c : CoreId) (bits : BitVec 5) : State :=
  let s1 := modCore s c (fun k => { k with faultBits := k.faultBits ||| bits, ctl := { k.ctl with fault := true } })
  let s2 := logK s1 c codeCoreFenced 0 (getCore s c).pc (firstOrdinal (getCore s c)) (stErr s1 (.core c))
  let s3 := modCore (markFiring s2 c causeCoreFenced) c (fun k =>
    { k with run := .stopped, dma := Vector.replicate 4 [], ctl := { k.ctl with st := .fenced, stall := false } })
  let s4 := stopPump s3 (.core c)
  if (getCore s c).bind.isNone then s4
  else modBay s4 c.bay (fun y =>
    if y.remapping.isNone then { y with remapping := some c.core.1 }
    else if y.remapping = some c.core.1 ∨ y.remapQ.contains c.core.1 then y else { y with remapQ := y.remapQ ++ [c.core.1] })

/-- CORE_FAULT (R259). -/
def execCoreFault (c : CoreId) (kind : Fin 5) (s : State) : Res := .next (fenceCore s c (1#5 <<< kind.1))

/-- STATION_FAULT (R78): FENCED; every held and arriving tile becomes a marker. A fenced core is handled as R259 says, a fenced
Bin controller fails its bay (Table 10.12). -/
def execStationFault (r : StationRef) (s : State) : Res :=
  .next (match r with
    | .core c => fenceCore s c 0
    | _ =>
      let s1 := stopParts (dropFiring s r codeStationFault) r codeStationFault
      let s2 := modSt s1 r (fun x => { x with fault := true, st := .fenced, stall := false })
      let s3 := match r with
        | .bay b .bin => failBay s2 b (.st b .bin)
        | .trn => allTenants.foldl intakeAbortNow s2
        | .red => allTenants.foldl redAbortNow s2
        | _ => s2
      stopPump s3 r)

/-! ## Tokens, credits and the end of a firing (R65, R83) -/

/-- TOKEN_ARRIVE (R83): the first token on its way to a port arrives and is held. -/
def execTokenArrive (r : StationRef) (port : PortId) (s : State) : Res :=
  .next (match s.tokFlight.find? (fun f => f.1 == r && f.2.1 == port) with
    | none => s
    | some f =>
      let s1 := { s with tokFlight := s.tokFlight.erase f }
      let s2 := modIn s1 r port (fun ip => { ip with
        held := ip.held ++ [f.2.2], tiles := ip.tiles + 1,
        poisons := if f.2.2.tile.hdr.poison then ip.poisons + 1 else ip.poisons })
      let s3 := match r with
        | .core c => coreOwed s2 c port
        | _ => s2
      updWait (stopPump s3 r) r)

/-- CREDIT_ARRIVE (R83): the first credit on its way back from a port reaches its producer. -/
def execCreditArrive (r : StationRef) (port : PortId) (s : State) : Res :=
  .next (match s.credFlight.find? (fun f => f.1 == r && f.2.1 == port) with
    | none => s
    | some f =>
      let s1 := { s with credFlight := s.credFlight.erase f }
      let s2 := modIn s1 r port (fun ip => { ip with avail := ip.avail + 1, busy := ip.busy.erase f.2.2 })
      match (getIn s2 r port).prod with
      | some (q, _) => creditPump s2 q
      | none => s2)

/-- FIRING_END (R65): output tokens pass, input credits return. -/
def execFiringEnd (r : StationRef) (s : State) : Res :=
  .next (match (getSt s r).firing with
    | none => s
    | some f =>
      let s1 := f.outs.foldl (fun s o => passTok s r o.1 o.2) s
      let s2 := f.ins.foldl (fun s i => returnSlot s r i.1 i.2.slot) s1
      updWait (modSt s2 r (fun x => { x with firing := none, st := afterFiring x })) r)

end Sys2Proof.Machine
end

