-- ==== Sys2Proof/Machine/Images.lean ====
section
/-! DEFINITION. Reading and checking a schedule image (R275 to R285, with R168, R184, R220, R225 and R254 and Table 01.3). -/

namespace Sys2Proof.Machine

/-! ## Sections and records (Tables 10.2 to 10.9) -/

/-- A section table entry (Table 10.3). -/
structure Section where
  type : Nat
  bay : Nat
  off : Nat
  len : Nat
  count : Nat
  deriving DecidableEq, Repr

def readSection (b : List Byte) : Section where
  type := u16 b 0
  bay := u8 b 2
  off := u32 b 4
  len := u32 b 8
  count := u32 b 0xC

/-- Is a section of this type bound to a bay (Table 10.4)? -/
def perBay (t : Nat) : Bool := [2, 3, 4, 5, 7, 8].contains t

/-- Some of a list when every piece can be read. -/
def allSome : List (Option α) → Option (List α)
  | [] => some []
  | none :: _ => none
  | some a :: t => (allSome t).map (fun l => a :: l)

/-- `count` records of `size` bytes that fill the section. -/
def fixedRecs (b : List Byte) (count size : Nat) (f : List Byte → Option α) : Option (List α) :=
  if b.length = count * size then allSome ((chunks size b).map f) else none

def readEnd (b : List Byte) (off : Nat) : ConnEnd where
  code := u8 b off
  bay := u8 b (off + 1)
  inst := u8 b (off + 2)
  port := u8 b (off + 3)

/-- An end names a station of a bay in the mask, with instance 0 except for a core; Intake has only an instance 0. -/
def endOk (bays : Nat) (e : ConnEnd) : Bool :=
  if e.code = 1 then e.inst == 0
  else 2 ≤ e.code && e.code ≤ 8 && e.bay < 16 && bitOf bays e.bay && (if e.code = 8 then e.inst < 50 else e.inst == 0)

/-- A CONN record (Table 10.5, R277). -/
def readConn (bays : Nat) (b : List Byte) : Option Conn :=
  let c : Conn := { unord := bitOf (u8 b 1) 0, stream := u16 b 2, prod := readEnd b 4, cons := readEnd b 8, pool := u8 b 0xC,
                    weight := u8 b 0xD, poolBase := u32 b 0x10, prodClass := u8 b 0x14, consClass := u8 b 0x15 }
  if u8 b 0 = 1 ∧ u8 b 1 < 2 ∧ resvZero b 0xE 2 ∧ resvZero b 0x16 10 ∧ endOk bays c.prod ∧ endOk bays c.cons ∧ c.cons.code ≠ 1 ∧
      8 ≤ c.prod.port ∧ c.prod.port ≤ 15 ∧ c.cons.port ≤ 7 ∧ 2 ≤ c.pool ∧ 1 ≤ c.weight ∧ (c.prod.code = 1 → c.poolBase = 0) then
    some c
  else none

/-- BINSTREAM records (Table 10.6), each 16 bytes and its bin list padded to 16 (fuel: the count). -/
def readStreams : Nat → List Byte → Option (List BinStream)
  | 0, b => if b = [] then some [] else none
  | n + 1, b =>
    let nb := u8 b 3
    let len := 16 + ceilDiv (2 * nb) 16 * 16
    let mode := u8 b 1
    let port := u8 b 2
    let cls := u8 b 4
    let bins := (List.range nb).map (fun i => u16 b (16 + 2 * i))
    if u8 b 0 = 1 ∧ 1 ≤ mode ∧ mode ≤ 4 ∧ resvZero b 5 3 ∧ len ≤ b.length ∧ bins.all (· < 4096) ∧
        resvZero b (16 + 2 * nb) (len - 16 - 2 * nb) ∧
        (if mode = 1 then 8 ≤ port ∧ port ≤ 15 ∧ 1 ≤ nb ∧ nb ≤ 48 ∧ 1 ≤ cls ∧ cls ≤ 252 else port ≤ 7 ∧ nb = 1 ∧ cls = 255) then
      (readStreams n (b.drop len)).map (fun l =>
        { mode := mode, port := port, cls := cls, firstPos := u32 b 8, positions := u32 b 0xC, bins := bins,
          ended := mode == 1 && u32 b 0xC == 0 } :: l)
    else none

/-- An operation word (Table 07.5); none if malformed. -/
def readOp (w : Nat) : Option (Nat × Nat × Nat) :=
  let op := bitsOf w 15 12
  let key := bitsOf w 11 8
  let arg := bitsOf w 7 0
  if 1 ≤ op ∧ op ≤ 5 ∧ (if op = 4 ∨ op = 5 then key ≤ 7 else key = 0) ∧ (op = 2 ∨ arg = 0) then some (op, key, arg) else none

/-- A PIPELINE record (Table 07.4). -/
def readPipe (b : List Byte) : Option PipeDesc :=
  let n := u8 b 5
  if u8 b 0 = 1 ∧ 1 ≤ n ∧ n ≤ 6 ∧ 1 ≤ u8 b 8 ∧ resvZero b 9 7 ∧ resvZero b (0x10 + 2 * n) (12 - 2 * n) ∧ resvZero b 0x1C 4 then
    (allSome ((List.range n).map (fun i => readOp (u16 b (0x10 + 2 * i))))).map (fun ops =>
      { inA := u8 b 1, inB := u8 b 2, inS := u8 b 3, out := u8 b 4, ops := ops, paramSet := u16 b 6, levelIn := u8 b 8 })
  else none

/-- A NOISE record (Table 08.6), of the image's job. -/
def readNoiseDesc (job : W32) (b : List Byte) : Option NoiseStream :=
  let mode := u8 b 1
  if u8 b 0 = 1 ∧ (mode = 1 ∨ mode = 2) ∧ 8 ≤ u8 b 3 ∧ u8 b 3 ≤ 15 ∧ w32 b 4 = job ∧ resvZero b 0xE 2 ∧
      (if mode = 1 then u8 b 2 ≤ 7 ∧ resvZero b 8 6 ∧ resvZero b 0x10 16
       else u8 b 2 = 0xFF ∧ 1 ≤ u8 b 8 ∧ u8 b 8 ≤ 8 ∧ 12 ≤ u8 b 9 ∧ u8 b 9 ≤ 17) then
    some { mode := mode, inPort := u8 b 2, out := u8 b 3, job := job, p := u8 b 8, logn := u8 b 9, pattern := u32 b 0xA,
           base := u64 b 0x10, length := u64 b 0x18, ended := mode == 2 && u64 b 0x18 == 0 }
  else none

def readGrant (b : List Byte) : Option Grant :=
  if u64 b 0 % 64 = 0 ∧ u32 b 0xC < 8 then some { base := u64 b 0, lines := u32 b 8, rights := u32 b 0xC } else none

/-- A kernel binding record (Tables 09.7 and 09.8); its code lies in the CODE section [co, co + cl) of the image. -/
def readBinding (raw : List Byte) (co cl : Nat) (job : W32) (b : List Byte) : Option Binding :=
  let off := u32 b 0x10
  let len := u32 b 0x14
  match fixedRecs (bslice b 0x40 128) 8 16 readGrant with
  | none => none
  | some gs =>
    if u8 b 0 = 1 ∧ u8 b 1 < 50 ∧ u8 b 2 < 2 ∧ 1 ≤ u8 b 3 ∧ u8 b 3 ≤ 252 ∧ w32 b 4 = job ∧ resvZero b 0xA 2 ∧ u32 b 0xC % 4 = 0 ∧
        len % 64 = 0 ∧ len ≤ localSize ∧ u32 b 0x18 % 64 = 0 ∧ resvZero b 0x28 24 ∧ co ≤ off ∧ off + len ≤ co + cl then
      some { core := u8 b 1, clearLs := bitOf (u8 b 2) 0, cls := u8 b 3, job := w32 b 4, inMask := u8 b 8, outMask := u8 b 9,
             entry := u32 b 0xC, codeLen := len, loadAt := u32 b 0x18, watchdog := u32 b 0x1C, fmt := word64 (u64 b 0x20),
             grants := gs, code := bslice raw off len, raw := b }
    else none

/-- A SHARES record (Table 10.7). -/
def readShares (b : List Byte) : Option (List (List Nat)) :=
  allSome ((chunks 16 b).map (fun s => if resvZero s 0xE 2 then some ((List.range 7).map (fun i => u16 s (2 * i))) else none))

/-- FALLBACK records (Table 10.9) of a bay (fuel: the count). -/
def readFallbacks (raw : List Byte) (co cl : Nat) (job : W32) (bays bay : Nat) : Nat → List Byte → Option (List Fallback)
  | 0, b => if b = [] then some [] else none
  | n + 1, b =>
    let nb := u16 b 4
    let nc := u16 b 6
    let len := 16 + nb * 192 + nc * 32
    if u8 b 0 = 1 ∧ u8 b 1 < 50 ∧ resvZero b 2 2 ∧ 1 ≤ nb ∧ nb ≤ 49 ∧ resvZero b 8 8 ∧ len ≤ b.length then
      match fixedRecs (bslice b 16 (nb * 192)) nb 192 (readBinding raw co cl job),
            fixedRecs (bslice b (16 + nb * 192) (nc * 32)) nc 32 (readConn bays) with
      | some bs, some cs =>
        if bs.all (fun x => x.core != u8 b 1) ∧ (bs.map (·.core)).dedup.length = nb then
          (readFallbacks raw co cl job bays bay n (b.drop len)).map (fun l => { bay := bay, fenced := u8 b 1, binds := bs, conns := cs } :: l)
        else none
      | _, _ => none
    else none

/-- An XFER record (Table 10.8). -/
def readXfer (bays domain period : Nat) (b : List Byte) : Option Xfer :=
  let x : Xfer := { send := u8 b 1 == 1, presence := bitOf (u8 b 2) 0, eth := bitOf (u8 b 2) 1, port := u8 b 3, start := u32 b 4,
                    nslots := u16 b 8, peer := u16 b 0xA, bay := u8 b 0xC, presBay := u8 b 0xD, presMask := u16 b 0xE,
                    bin := u16 b 0x10, firstPos := u32 b 0x14, tiles := u32 b 0x18, chan := u32 b 0x1C }
  if u8 b 0 = 1 ∧ (u8 b 1 = 1 ∨ u8 b 1 = 2) ∧ u8 b 2 < 4 ∧ x.port ≤ 7 ∧ 1 ≤ x.nslots ∧ x.start + x.nslots ≤ period ∧ x.peer < domain ∧
      x.bay < 16 ∧ bitOf bays x.bay ∧
      (if x.send ∧ x.presence then x.presBay < 16 ∧ bitOf bays x.presBay else x.presBay = 0) ∧
      (if !x.send ∧ x.presence then x.presMask &&& bays = x.presMask else x.presMask = 0) ∧
      x.bin < 4096 ∧ resvZero b 0x12 2 ∧ 1 ≤ x.tiles ∧ x.tiles ≤ 65535 ∧ (x.eth ∨ x.chan = 0) ∧ x.chan < 262144 then
    some x
  else none

/-- A PHASEPLAN entry (Table 10.4): slot offset, bay mask, share set. -/
def readPlan (bays period : Nat) (b : List Byte) : Option (Nat × Nat × Nat) :=
  if u32 b 0 < period ∧ u16 b 4 &&& bays = u16 b 4 ∧ u8 b 6 ≤ 7 ∧ u8 b 7 = 0 then some (u32 b 0, u16 b 4, u8 b 6) else none

/-- Read one section into the image. -/
def addSection (co cl : Nat) (g : Image) (t : Section) : Option Image :=
  let b := bslice g.raw t.off t.len
  if t.type = 1 then (fixedRecs b t.count 32 (readConn g.bays)).map (fun l => { g with conns := l })
  else if t.type = 2 then (readStreams t.count b).map (fun l => { g with streams := g.streams ++ l.map (fun x => (t.bay, x)) })
  else if t.type = 3 then (fixedRecs b t.count 32 readPipe).map (fun l => { g with pipes := g.pipes ++ l.map (fun x => (t.bay, x)) })
  else if t.type = 4 then (fixedRecs b t.count 32 (readNoiseDesc g.job)).map (fun l => { g with noise := g.noise ++ l.map (fun x => (t.bay, x)) })
  else if t.type = 5 then
    (fixedRecs b t.count 192 (readBinding g.raw co cl g.job)).bind (fun l =>
      if (l.map (·.core)).dedup.length = l.length then some { g with binds := g.binds ++ l.map (fun x => (t.bay, x)) } else none)
  else if t.type = 6 then some g
  else if t.type = 7 then
    (if t.count = 1 ∧ t.len = 128 then (readShares b).map (fun l => { g with shares := g.shares ++ [(t.bay, l)] }) else none)
  else if t.type = 8 then
    (readFallbacks g.raw co cl g.job g.bays t.bay t.count b).bind (fun l =>
      if l.length ≤ 50 ∧ (l.map (·.fenced)).dedup.length = l.length then some { g with fallbacks := g.fallbacks ++ l } else none)
  else if t.type = 9 then (fixedRecs b t.count 32 (readXfer g.bays g.domain g.period)).map (fun l => { g with xfers := l })
  else if t.type = 10 then (fixedRecs b t.count 8 (readPlan g.bays g.period)).map (fun l => { g with plan := l, hasPlan := true })
  else none

/-- Read every section. -/
def addSections (co cl : Nat) : List Section → Image → Option Image
  | [], g => some g
  | t :: rest, g => (addSection co cl g t).bind (addSections co cl rest)

/-- No section type twice, or twice for one bay (R276); every section inside the image, on a 64-byte boundary. -/
def sectionsOk (len bays n : Nat) (l : List Section) : Bool :=
  (l.map (fun t => (t.type, t.bay))).dedup.length == l.length &&
  l.all (fun t => 1 ≤ t.type && t.type ≤ 10 && t.off % 64 == 0 && 64 + 16 * n ≤ t.off && t.off + t.len ≤ len &&
    (if perBay t.type then t.bay < 16 && bitOf bays t.bay else t.bay == 0xFF))

/-- Check 2 of R285: the image, none if malformed. `mine` is the partition's bays. -/
def readImage (raw : List Byte) (digest : List Byte) (job : W32) (mine : Nat) : Option Image :=
  let n := u16 raw 6
  let bays := u16 raw 0x22
  let period := u32 raw 0x1C
  let guard := u16 raw 0x20
  let ss := (List.range n).map (fun i => readSection (bslice raw (0x40 + 16 * i) 16))
  if u32 raw 0 = 0x49535957 ∧ u8 raw 4 = 1 ∧ u8 raw 5 = 0xB0 ∧ 1 ≤ n ∧ n ≤ 64 ∧ u32 raw 8 = raw.length ∧ raw.length % 64 = 0 ∧
      raw.length ≤ 67108864 ∧ w32 raw 0xC = job ∧ 1 ≤ u16 raw 0x18 ∧ u16 raw 0x18 ≤ 1024 ∧ u16 raw 0x1A < u16 raw 0x18 ∧
      period ≤ 16777215 ∧ (if period = 0 then guard = 0 else 500 ≤ guard ∧ guard ≤ 5000) ∧ bays &&& mine = bays ∧
      resvZero raw 0x28 24 ∧ 64 + 16 * n ≤ raw.length ∧
      (List.range n).all (fun i => u8 raw (0x43 + 16 * i) == 0) ∧ sectionsOk raw.length bays n ss then
    let code := ss.find? (fun t => t.type == 6)
    (addSections (code.map (·.off) |>.getD 0) (code.map (·.len) |>.getD 0) ss
      { raw := raw, digest := digest, job := job, planId := word64 (u64 raw 0x10), domain := u16 raw 0x18, rank := u16 raw 0x1A,
        period := period, guardNs := guard, bays := bays }).bind (fun g =>
      if (g.conns.map (·.stream)).dedup.length = g.conns.length then some g else none)
  else none

/-! ## Classes (check 3: R68, R69, R277) -/

/-- The class of every instance, by (code, bay, instance), that a record names: as producer or consumer. A Bin READ stream and a
Bin input port have classes of their own. -/
def connClasses (c : Conn) : List ((Nat × Nat × Nat) × Nat) :=
  (if c.prod.code = 2 then [] else [((c.prod.code, if c.prod.code = 1 then 0 else c.prod.bay, c.prod.inst), c.prodClass)]) ++
  (if c.cons.code = 2 then [] else [((c.cons.code, c.cons.bay, c.cons.inst), c.consClass)])

def connClassOk (g : Image) (binds : List (Nat × Binding)) (c : Conn) : Bool :=
  c.prodClass < c.consClass &&
  (if c.prod.code = 1 then c.prodClass == 0 else 1 ≤ c.prodClass && c.prodClass ≤ 252) &&
  (if c.cons.code = 2 then c.consClass == 255 else c.consClass ≤ 252) &&
  (c.prod.code != 2 || (g.streams.all (fun x => !(x.1 == c.prod.bay && x.2.port == c.prod.port) || x.2.cls == c.prodClass))) &&
  binds.all (fun b => (!(c.prod.code == 8 && c.prod.bay == b.1 && c.prod.inst == b.2.core) || b.2.cls == c.prodClass) &&
    (!(c.cons.code == 8 && c.cons.bay == b.1 && c.cons.inst == b.2.core) || b.2.cls == c.consClass))

def classesOk (g : Image) (binds : List (Nat × Binding)) (conns : List Conn) : Bool :=
  let l := (conns.flatMap connClasses).dedup
  conns.all (connClassOk g binds) && (l.map (·.1)).dedup.length == l.length

/-! ## The placements of an image: its own and each fallback's (R283) -/

def isCoreEnd (bay : Nat) (e : ConnEnd) : Bool := e.code == 8 && e.bay == bay

/-- The connections and bindings once a fallback placement is in force. -/
def fallConns (g : Image) (f : Fallback) : List Conn := g.conns.filter (fun c => !(isCoreEnd f.bay c.prod || isCoreEnd f.bay c.cons)) ++ f.conns
def fallBinds (g : Image) (f : Fallback) : List (Nat × Binding) := g.binds.filter (fun b => b.1 != f.bay) ++ f.binds.map (fun b => (f.bay, b))
def placements (g : Image) : List (List (Nat × Binding) × List Conn) :=
  (g.binds, g.conns) :: g.fallbacks.map (fun f => (fallBinds g f, fallConns g f))

/-! ## Shares (check 4: R280) -/

def sharesOk (g : Image) : Bool :=
  (List.range 16).all (fun b => !bitOf g.bays b || g.shares.any (fun s => s.1 == b)) &&
  g.shares.all (fun s => s.2.all (fun x => 64 ≤ x.headD 0 && x.foldl (· + ·) 0 ≤ 1024))

/-! ## Rules (check 5) -/

/-- Table 01.3: the stations that feed each station. -/
def feedsOk (prod cons : Nat) : Bool :=
  match cons with
  | 2 => [1, 3, 5, 6, 8].contains prod
  | 3 => prod == 4
  | 5 => prod == 2 || prod == 6
  | 6 => prod == 2 || prod == 8
  | 7 => [5, 6, 8].contains prod
  | 8 => true
  | _ => false

/-- The Bin stream and the Noise stream of a port of a bay. -/
def imgStream (g : Image) (bay port : Nat) : Option BinStream := (g.streams.find? (fun x => x.1 == bay && x.2.port == port)).map (·.2)
def imgNoiseIn (g : Image) (bay port : Nat) : Bool := g.noise.any (fun x => x.1 == bay && x.2.mode == 1 && x.2.inPort == port)

/-- Is a port of a station's end declared by its descriptor or binding? -/
def endDeclared (g : Image) (binds : List (Nat × Binding)) (other : ConnEnd) (e : ConnEnd) : Bool :=
  match e.code with
  | 2 => if other.code = 1 then (imgStream g e.bay e.port).isNone else (imgStream g e.bay e.port).isSome
  | 5 => g.pipes.any (fun x => x.1 == e.bay && (if e.port < 8 then x.2.inA == e.port || x.2.inB == e.port || x.2.inS == e.port else x.2.out == e.port))
  | 6 => if e.port < 8 then imgNoiseIn g e.bay e.port else g.noise.any (fun x => x.1 == e.bay && x.2.out == e.port)
  | 8 => binds.any (fun b => b.1 == e.bay && b.2.core == e.inst && (if e.port < 8 then bitOf b.2.inMask e.port else bitOf b.2.outMask (e.port - 8)))
  | _ => true

/-- A READ stream that may name a sum bin of a ring job goes to a Noise ADD input (R225): notes/assumptions/33.md. -/
def readRuleOk (s : State) (p : TenantId) (g : Image) (c : Conn) : Bool :=
  if c.prod.code ≠ 2 then true
  else
    let ringJob := match getPart s p |>.job with
      | some j => j.format != 0
      | none => false
    !ringJob || (c.cons.code == 6 && imgNoiseIn g c.cons.bay c.cons.port) ||
      (match imgStream g c.prod.bay c.prod.port, finOpt 16 c.prod.bay with
       | some x, some b => x.bins.all (fun i => match findBin s b i with
          | some y => isGatherer y
          | none => false)
       | _, _ => false)

def connRuleOk (s : State) (p : TenantId) (g : Image) (binds : List (Nat × Binding)) (c : Conn) : Bool :=
  feedsOk c.prod.code c.cons.code && endDeclared g binds c.cons c.prod && endDeclared g binds c.prod c.cons &&
  (c.prod.code != 4 || c.cons.code == 3) &&
  (c.prod.code != 3 || (match imgStream g c.cons.bay c.cons.port with
    | some x => c.cons.code == 2 && x.mode == 3
    | none => false)) && readRuleOk s p g c

/-- MODSW targets fall, from a level. -/
def modswOk : Nat → List (Nat × Nat × Nat) → Bool
  | _, [] => true
  | l, o :: t => if o.1 = 2 then 1 ≤ o.2.2 && o.2.2 < l && modswOk o.2.2 t else modswOk l t

/-- R184 on one pipeline of a bay, whose connected ports are `ins` and `outs`. -/
def pipeRuleOk (ins outs : List Nat) (d : PipeDesc) : Bool :=
  let ops := d.ops.map (·.1)
  let used := [d.inA] ++ (if d.inB = 0xFF then [] else [d.inB]) ++ (if d.inS = 0xFF then [] else [d.inS])
  used.all (fun x => x ≤ 7 && ins.contains x) && used.dedup.length == used.length && 8 ≤ d.out && d.out ≤ 15 && outs.contains d.out &&
  (!(ops.drop 1).contains 1) && ((ops.headD 0 == 1) == (d.inB != 0xFF)) && ((ops.contains 3 || ops.contains 5) == (d.inS != 0xFF)) &&
  modswOk d.levelIn d.ops && ((ops.filter (· != 2)).dedup.length == (ops.filter (· != 2)).length)

def connPortsIn (conns : List Conn) (code bay inst : Nat) : List Nat :=
  (conns.filter (fun c => c.cons.code == code && c.cons.bay == bay && c.cons.inst == inst)).map (fun c => c.cons.port)
def connPortsOut (conns : List Conn) (code bay inst : Nat) : List Nat :=
  (conns.filter (fun c => c.prod.code == code && c.prod.bay == bay && c.prod.inst == inst)).map (fun c => c.prod.port)

/-- The spans of bay-store bytes of the pools of a bay. -/
def imgPools (conns : List Conn) (bay : Nat) : List (Nat × Nat) :=
  (conns.filter (fun c => c.cons.bay == bay && c.prod.code != 1)).map (fun c => (c.poolBase * 64, c.pool * 65600))

/-- A grant lies in the bay's store or memory and on no slot pool (R254). -/
def grantOk (pools : List (Nat × Nat)) (g : Grant) : Bool :=
  g.lines == 0 ||
    (let sp := dmaSpace g.base
     (sp == 1 || sp == 2) && dmaOff g.base + g.lines * 64 ≤ spaceSize sp && (sp != 1 || !hitsAny pools (dmaOff g.base) (g.lines * 64)))

/-- R254 on one binding. -/
def bindRuleOk (conns : List Conn) (bay : Nat) (b : Binding) : Bool :=
  b.loadAt + b.codeLen ≤ localSize && b.entry < localSize && 1024 ≤ b.watchdog && (b.fmt == 0 || fmtOk b.fmt.toNat) &&
  b.grants.all (grantOk (imgPools conns bay)) &&
  b.inMask == maskOf 8 (connPortsIn conns 8 bay b.core) && b.outMask == maskOf 8 ((connPortsOut conns 8 bay b.core).map (· - 8))

/-- No two declarations of one port of a bay. -/
def declsOk (g : Image) : Bool :=
  let ss := g.streams.map (fun x => (x.1, x.2.port))
  let ni := (g.noise.filter (fun x => x.2.mode == 1)).map (fun x => (x.1, x.2.inPort))
  let no := g.noise.map (fun x => (x.1, x.2.out))
  let pi := g.pipes.flatMap (fun x => ([x.2.inA, x.2.inB, x.2.inS].filter (· != 0xFF)).map (fun q => (x.1, q)))
  let po := g.pipes.map (fun x => (x.1, x.2.out))
  [ss, ni, no, pi, po].all (fun l => l.dedup.length == l.length)

/-- No SEND reads positions that a RECV adds into in an overlapping range of slots; ports in the share and in their mode. -/
def xfersOk (s : State) (p : TenantId) (g : Image) : Bool :=
  g.xfers.all (fun x => !x.send || g.xfers.all (fun y => y.send || x.bay != y.bay || x.bin != y.bin ||
    !(overlaps x.firstPos x.tiles y.firstPos y.tiles) || !(overlaps x.start x.nslots y.start y.nslots))) &&
  g.xfers.all (fun x => bitOf (getPart s p).reducePorts x.port && (match finOpt 8 x.port with
    | some n => if x.eth then ethMode s.eth[n] false else s.eth[n].modeV.toNat == 5
    | none => false))

/-- Is an ADD stream in a job whose noise record names no distribution to add (R221)? -/
def addDistOk (s : State) (g : Image) : Bool :=
  g.noise.all (fun x => x.2.mode != 1 || (match finOpt 16 x.1 with
    | some b => s.bays[b].noise.recs.all (fun r => r.job != g.job || r.addDist != 0xFF)
    | none => true))

def rulesOk (s : State) (p : TenantId) (g : Image) : Bool :=
  (placements g).all (fun l => l.2.all (connRuleOk s p g l.1) && l.1.all (fun b => bindRuleOk l.2 b.1 b.2) &&
    g.pipes.all (fun x => pipeRuleOk (connPortsIn l.2 5 x.1 0) (connPortsOut l.2 5 x.1 0) x.2)) &&
  declsOk g && xfersOk s p g && addDistOk s g

/-! ## Resources (check 6) -/

/-- The connections of one placement fit the bays: pools inside the bay store and apart, at most 735 slots, a port once. -/
def placeFits (conns : List Conn) : Bool :=
  (List.range 16).all (fun b =>
    let ps := imgPools conns b
    ps.all (fun q => q.1 + q.2 ≤ storeSize) && ps.zipIdx.all (fun q => (ps.drop (q.2 + 1)).all (fun r => !overlaps q.1.1 q.1.2 r.1 r.2)) &&
    (ps.map (fun q => q.2 / 65600)).foldl (· + ·) 0 ≤ 735) &&
  (conns.map (fun c => c.prod)).dedup.length == conns.length && (conns.map (fun c => c.cons)).dedup.length == conns.length

/-- A bay whose stack is not READY offers neither Mask, Share nor Lattice, nor bay memory to its kernels (R387). -/
def readyFits (s : State) (g : Image) : Bool :=
  allBays.all (fun b => !bitOf g.bays b.1 || stackReady s.bays[b].mem ||
    ((placements g).all (fun l => l.2.all (fun c => !((c.prod.bay == b.1 && [3, 4, 5].contains c.prod.code) || (c.cons.bay == b.1 && [3, 4, 5].contains c.cons.code))) &&
      l.1.all (fun k => k.1 != b.1 || k.2.grants.all (fun q => q.lines == 0 || dmaSpace q.base == 1))) &&
     g.pipes.all (fun x => x.1 != b.1)))

def resourcesOk (s : State) (g : Image) : Bool :=
  (placements g).all (fun l => placeFits l.2) && (List.range 16).all (fun b => (g.pipes.filter (fun x => x.1 == b)).length ≤ 4) && readyFits s g

/-- The partition's bays as a mask. -/
def bayMask (s : State) (p : PartId) : Nat := maskOf 16 ((baysOf s p).map (·.1))

/-- The checks of R285 in order: the image, or the status. -/
def checkImage (s : State) (p : TenantId) (raw digest : List Byte) : Nat × Option Image :=
  let d := shake256 raw 64
  if d ≠ digest then (codeImageDigest, none)
  else match (getPart s p).job with
  | none => (codeImageMalformed, none)
  | some j =>
    match readImage raw d j.job (bayMask s (tenantPart p)) with
      | none => (codeImageMalformed, none)
      | some g =>
        if !(placements g).all (fun l => classesOk g l.1 l.2) then (codeImageClass, none)
        else if !sharesOk g then (codeImageShare, none)
        else if !rulesOk s p g then (codeImageRule, none)
        else if !resourcesOk s g then (codeImageResource, none)
        else (0, some g)

end Sys2Proof.Machine
end

