-- ==== Sys2Proof/Machine/Schedule.lean ====
section
/-! DEFINITION. The schedule unit: loads, swaps, slots, share sets and the re-map of a bay (R260, R271, R273, R281, R283 to R287, R296). -/

namespace Sys2Proof.Machine

/-! ## Loading and discarding -/

/-- A rejected load or swap: SCHp_LAST keeps its code. -/
def schReject (s : State) (p : TenantId) (h : CmdHdr) (code : Nat) : State :=
  complete (modSch s p (fun x => { x with last := code })) h code []

/-- The status of SCH_LOAD before its checks (Table 10.10, R387): notes/assumptions/34.md. -/
def schLoadStatus (s : State) (p : TenantId) (bay len region : Nat) : Nat :=
  let x := s.sch.parts[p]
  if x.load.isSome || x.staged.isSome || x.swap.isSome then codeSwapState
  else match finOpt 16 bay with
    | none => codeImageMalformed
    | some b =>
      if !holdsBay s (tenantPart p) b || stackSize < region + len then codeImageMalformed
      else if !stackReady s.bays[b].mem then codeImageResource
      else 0

/-- SCH_LOAD (R285): the region closes; the digest is being computed. -/
def execSchLoad (h : CmdHdr) (bay len region : Nat) (digest : List Byte) (s : State) : Res :=
  let s0 := begun s (.schLoad h bay len region digest)
  .next (match issuer h, finOpt 16 bay with
    | none, _ => complete s0 h codeSwapState []
    | some p, none => schReject s0 p h (schLoadStatus s0 p bay len region)
    | some p, some b =>
      let st := schLoadStatus s0 p bay len region
      if st ≠ 0 then schReject s0 p h st
      else modSch s0 p (fun x => { x with load := some { h := h, bay := b, region := region, len := len, digest := digest } }))

/-- SCH_LOAD_COMPLETE (R285): the checks run in order; the image is staged or rejected. -/
def execSchLoadComplete (p : Reads TenantId) (s : State) : Res :=
  .next (match s.sch.parts[p.arg].load with
    | none => s
    | some l =>
      let s1 := readFaults (modSch s p.arg (fun x => { x with load := none })) l.bay [(l.region, l.len)] p.lf
      match checkImage s1 p.arg (openRead s1 l.bay l.region l.len) l.digest with
      | (_, some g) =>
        let s2 := modSch s1 p.arg (fun x => { x with staged := some g, stagedRegion := some (l.bay, l.region, l.len) })
        complete { s2 with sch := { s2.sch with config := false } } l.h 0 []
      | (st, none) => schReject { s1 with sch := { s1.sch with config := true } } p.arg l.h st)

/-- SCH_DISCARD (Table 10.10). -/
def execSchDiscard (h : CmdHdr) (s : State) : Res :=
  let s0 := begun s (.schDiscard h)
  .next (match issuer h with
    | none => complete s0 h codeSwapState []
    | some p =>
      if s0.sch.parts[p].staged.isNone || s0.sch.parts[p].swap.isSome then complete s0 h codeSwapState []
      else complete (modSch s0 p (fun x => { x with staged := none, stagedRegion := none })) h 0 [])

/-! ## Installing connections and bindings (R277, R254, Table 10.11) -/

/-- The station of an end. -/
def endStation (e : ConnEnd) : Option StationRef :=
  match finOpt 16 e.bay, e.code with
  | _, 1 => some .trn
  | some b, 2 => some (.bay b .bin)
  | some b, 3 => some (.bay b .msk)
  | some b, 4 => some (.bay b .shr)
  | some b, 5 => some (.bay b .lat)
  | some b, 6 => some (.bay b .nse)
  | some b, 7 => some (.bay b .rls)
  | some b, 8 => (finOpt 50 e.inst).map (fun c => .core ⟨b, c⟩)
  | _, _ => none

/-- The two ends of a connection with their ports. -/
def connPorts (c : Conn) : Option ((StationRef × PortId) × (StationRef × PortId)) :=
  match endStation c.prod, endStation c.cons, finOpt 8 (c.prod.port - 8), finOpt 8 c.cons.port with
  | some pr, some co, some n, some q => some ((pr, n), (co, q))
  | _, _, _, _ => none

/-- Create a connection; `ip` and `op` carry what goes on from before a re-map. -/
def addConn (s : State) (job : W32) (c : Conn) (ip : InPort) (op : OutPort) : State :=
  match connPorts c with
  | none => s
  | some ((pr, n), (co, q)) =>
    let s1 := modIn s co q (fun _ => { ip with
      conn := true, unord := c.unord, cls := c.consClass, stream := c.stream, weight := c.weight, pool := c.pool,
      poolBase := c.poolBase, job := job, prod := some (pr, n) })
    modOut s1 pr n (fun _ => { op with conn := true, unord := c.unord, cls := c.prodClass, stream := c.stream, cons := some (co, q) })

/-- Take the ports of a connection away. -/
def dropConn (s : State) (c : Conn) : State :=
  match connPorts c with
  | none => s
  | some ((pr, n), (co, q)) => modOut (modIn s co q (fun _ => {})) pr n (fun _ => {})

/-- Bind a core (R254): the code is copied and its lines written, the other lines' bits cleared if CLEAR_LS, and the core starts
at its entry. -/
def bindCore (k : Core) (b : Binding) : Core :=
  let k1 := if b.clearLs then localClear k 0 localSize else k
  let k2 := resetRegs { localWrite k1 b.loadAt b.code with bind := some b }
  { k2 with firing := none, dma := Vector.replicate 4 [], halted := false, moved := false }

/-- A core without a binding. -/
def unbindCore (k : Core) : Core :=
  { resetRegs { k with bind := none } with firing := none, dma := Vector.replicate 4 [], halted := false, moved := false }

/-- The counts that start with an image (Table 09.12). -/
def zeroCounts (k : Core) : Core := { k with busy := 0, imgFirings := 0, kerr := 0, kerrLast := 0 }

/-- The stations of a partition's bays. -/
def stationsOf (s : State) (p : PartId) : List StationRef := (baysOf s p).flatMap bayStations

/-- A station of the partition OFF, its ports unwired, READY clear; a fenced one stays fenced (R80). -/
def clearStation (x : Station) : Station :=
  { x with ready := false, stall := false, firing := none, st := if x.st = .fenced then .fenced else .off,
           turns := [], ins := Vector.replicate 8 {}, outs := Vector.replicate 8 {} }

/-- Steps 1 to 3 of Table 10.11: everything of the old image goes, and the new one is loaded; the counts of Tables 06.13, 07.11, 08.13
and 09.12 that start with an image start. -/
def wireImage (s : State) (p : TenantId) (g : Image) : State :=
  let part := tenantPart p
  let rs := stationsOf s part
  let s1 := match s.sch.parts[p].running with
    | some o => o.conns.foldl dropConn s
    | none => s
  let s2 := rs.foldl (fun s r => modSt s r clearStation) s1
  let s3 := { s2 with tokFlight := s2.tokFlight.filter (fun f => !rs.contains f.1),
                      credFlight := s2.credFlight.filter (fun f => !rs.contains f.1) }
  let s4 := g.conns.foldl (fun s c => addConn s g.job c {} {}) s3
  (baysOf s part).foldl (fun s b => modBay s b (fun y => { y with
    mem := { y.mem with streams := (g.streams.filter (fun x => x.1 == b.1)).map (·.2), shareSet := 0 }
    mask := { y.mask with batches := 0, stream := 0 }
    lattice := { y.lattice with pipes := (g.pipes.filter (fun x => x.1 == b.1)).map (fun x => { d := x.2 })
                                cts := 0, muls := 0, nbPoison := 0, mismatch := 0 }
    noise := { y.noise with streams := (g.noise.filter (fun x => x.1 == b.1)).map (·.2), samples := 0 }
    remapping := none
    remapQ := []
    cores := vmapIdx y.cores (fun i k => zeroCounts (match g.binds.find? (fun x => x.1 == b.1 && x.2.core == i) with
      | some x => if k.ctl.st = .fenced then unbindCore k else bindCore k x.2
      | none => unbindCore k)) })) s4

/-- READY set, DRAIN_REQ cleared, EN as before the swap: the station moves on (Table 10.11 step 4). -/
def wakeStation (s : State) (r : StationRef) : State :=
  moveStation (modSt s r (fun x => { x with ready := true, drain := false, drainA := false, enA := x.en, abortA := x.abort })) r

/-- The next multiple of 10,000 ns. -/
def nextSlot (t : W64) : W64 := word64 (ceilDiv t.toNat 10000 * 10000)

/-- The swap sequence of Table 10.11. -/
def swapIn (s : State) (p : TenantId) (g : Image) (q : SwapReq) : State :=
  let s1 := wireImage s p g
  let t0 := if q.t0 = 0 ∧ g.period ≠ 0 then nextSlot s.alm.t else q.t0
  let s2 := modSch s1 p (fun x => { x with
    state := .running, running := some g, staged := none, runRegion := x.stagedRegion, stagedRegion := none, swap := none, t0 := t0,
    step := 0, slot := 0, started := false, stepping := false, timeHold := false, haltPending := false, halted := false, remapped := false })
  let s3 := modRed s2 (fun r => { r with runs := r.runs.filter (fun x => x.part != p), ctl := { r.ctl with ready := true } })
  let s4 := modRedShare (modTrn s3 (fun t => { t with ctl := { t.ctl with ready := true } })) p (fun h => { h with rejects := [] })
  let s5 := if q.t0 = 0 then s4 else modRedShare (modShare s4 p (fun h => { h with drain := false })) p (fun h => { h with drain := false })
  complete (intakePump ((stationsOf s5 (tenantPart p)).foldl wakeStation s5)) q.h 0 []

/-! ## Swapping (R287) -/

/-- Set DRAIN_REQ on every station of the partition, and with a time also on its shares of Intake and Reduce. -/
def swapDrain (s : State) (p : TenantId) (q : SwapReq) : State :=
  let rs := stationsOf s (tenantPart p)
  let q1 := { q with draining := true, saved := rs.map (fun r => (r, (getSt s r).drain)), savedTrn := (getShare s p).drain, savedRed := s.red.shares[p].drain }
  let s1 := rs.foldl (fun s r => modSt s r (fun x => { x with drain := true })) (modSch s p (fun x => { x with swap := some q1 }))
  if q.t0 = 0 then s1 else modRedShare (modShare s1 p (fun h => { h with drain := true })) p (fun h => { h with drain := true })

/-- DRAIN_REQ returns to its value before the command (R287 step 4). -/
def swapUndrain (s : State) (p : TenantId) (q : SwapReq) : State :=
  if !q.draining then s else
    let s1 := q.saved.foldl (fun s r => modSt s r.1 (fun x => { x with drain := r.2 })) s
    if q.t0 = 0 then s1 else modRedShare (modShare s1 p (fun h => { h with drain := q.savedTrn })) p (fun h => { h with drain := q.savedRed })

/-- The state of a partition whose swap is over without a new image. -/
def restState0 (x : SchPart) : SchState := if x.running.isNone then .none else if x.halted then .halted else .running

/-- A round boundary (R287). A token that still crosses to a station is one that it holds. -/
def roundBoundary (s : State) (p : TenantId) : Bool :=
  let rs := stationsOf s (tenantPart p)
  rs.all (fun r => stDrained s r && !stHolding s r) && s.tokFlight.all (fun f => !rs.contains f.1) &&
  (baysOf s (tenantPart p)).all (fun b => s.bays[b].release.state == .idle) && s.red.runs.all (fun r => r.part != p || r.ended)

/-- Does the image use a failed bay (R296)? -/
def usesFailed (s : State) (g : Image) : Bool := allBays.any (fun b => bitOf g.bays b.1 && s.bays[b].mem.failed)

/-- The status of SCH_SWAP: notes/assumptions/34.md. -/
def schSwapStatus (s : State) (p : TenantId) (t0 : W64) : Nat :=
  let x := s.sch.parts[p]
  match x.staged with
  | none => codeSwapState
  | some g =>
    if x.swap.isSome || usesFailed s g || t0.toNat % 10000 != 0 then codeSwapState
    else if t0 ≠ 0 ∧ t0.toNat < s.alm.t.toNat + 40000 then codeSwapLate
    else 0

/-- SCH_SWAP (R287). -/
def execSchSwap (h : CmdHdr) (t0 : W64) (s : State) : Res :=
  let s0 := begun s (.schSwap h t0)
  .next (match issuer h with
    | none => complete s0 h codeSwapState []
    | some p =>
      let st := schSwapStatus s0 p t0
      if st ≠ 0 then schReject s0 p h st
      else
        let q : SwapReq := { h := h, t0 := t0 }
        let s1 := modSch s0 p (fun x => { x with state := .swapPending, swap := some q })
        if t0 = 0 ∨ t0.toNat ≤ s.alm.t.toNat + 1000000 then swapDrain s1 p q else s1)

/-- SWAP_DRAIN_START (R287 step 2). -/
def execSwapDrainStart (p : TenantId) (s : State) : Res :=
  .next (match s.sch.parts[p].swap with
    | some q => if !q.draining && q.t0 != 0 && decide (q.t0.toNat ≤ s.alm.t.toNat + 1000000) then swapDrain s p q else s
    | none => s)

/-- SWAP_CHECK (R287 steps 3 and 4). -/
def execSwapCheck (p : TenantId) (s : State) : Res :=
  .next (match s.sch.parts[p].swap, s.sch.parts[p].staged with
    | some q, some g =>
      if !q.draining || q.t0 == 0 || decide (s.alm.t.toNat + 40000 < q.t0.toNat) then s
      else if roundBoundary s p then swapIn s p g q
      else
        let s1 := swapUndrain (modSch s p (fun x => { x with swap := none, state := restState0 x })) p q
        schReject (logN s1 (tenantPart p) .sch codeSwapLate p.1 0) p q.h codeSwapLate
    | _, _ => s)

/-- SWAP_BOUNDARY (R287): a swap without a time finds the round boundary. -/
def execSwapBoundary (p : TenantId) (s : State) : Res :=
  .next (match s.sch.parts[p].swap, s.sch.parts[p].staged with
    | some q, some g => if q.t0 = 0 ∧ roundBoundary s p then swapIn s p g q else s
    | _, _ => s)

/-- SCH_PHASE (R281): a share set for bays of the partition; not beside a PHASEPLAN. -/
def execSchPhase (h : CmdHdr) (mask : W16) (set : Nat) (s : State) : Res :=
  let s0 := begun s (.schPhase h mask set)
  .next (match issuer h with
    | none => complete s0 h codeSwapState []
    | some p =>
      match s0.sch.parts[p].running with
      | none => complete s0 h codeSwapState []
      | some g =>
        if g.hasPlan ∨ 7 < set ∨ mask.toNat &&& bayMask s0 h.part ≠ mask.toNat then complete s0 h codeSwapState []
        else complete (allBays.foldl (fun s b => if bitOf mask.toNat b.1 then modMem s b (fun m => { m with shareSet := set }) else s) s0) h 0 [])

/-- SCH_HALT (Table 10.10): the slot program ends at the next step boundary. -/
def execSchHalt (h : CmdHdr) (s : State) : Res :=
  let s0 := begun s (.schHalt h)
  .next (match issuer h with
    | none => complete s0 h codeSwapState []
    | some p =>
      if !runsSlots s0.sch.parts[p] || s0.sch.parts[p].haltPending then complete s0 h codeSwapState []
      else complete (modSch s0 p (fun x => { x with haltPending := true })) h 0 [])

/-! ## Slots and steps (R270 to R273) -/

/-- May the step that starts at `t` begin before a pending swap (R287 step 1)? -/
def stepFits (x : SchPart) (g : Image) (t : Nat) : Bool :=
  match x.swap with
  | some q => q.t0 == 0 || t + 10000 * g.period + 40000 ≤ q.t0.toNat
  | none => true

/-- Begin a step, or hold it (R273); the transfers of the step before are over. -/
def beginStep (s : State) (p : TenantId) (g : Image) : State :=
  let s1 := modRedShare (endRuns s p (fun _ _ => true)) p (fun h => { h with rejects := [] })
  let x := s1.sch.parts[p]
  let keep := x.step + 1
  if x.haltPending then
    let s2 := modSch s1 p (fun x => { x with
      state := if x.state = .swapPending then .swapPending else .halted, haltPending := false, halted := true, stepping := false })
    modRed s2 (fun r => { r with runs := r.runs.filter (fun y => y.part != p) })
  else if !stepFits x g (stepNow s1 p g) then modSch s1 p (fun x => { x with stepping := false })
  else if 1 < g.domain ∧ g.guardNs < 2 * almUncert s1.alm then
    let s2 := modSch s1 p (fun x => { x with stepping := false, timeHold := true })
    if x.timeHold then s2 else logN s2 (tenantPart p) .sch codeAlmGuard p.1 (almUncert s1.alm)
  else
    let s2 := modSch s1 p (fun x => { x with step := keep, stepping := true, timeHold := false, started := true })
    modRed s2 (fun r =>
      let mine := r.runs.filter (fun y => y.part == p && y.step == keep)
      { r with runs := r.runs.filter (fun y => y.part != p) ++ (List.range g.xfers.length).map (fun i =>
          (mine.find? (fun y => y.idx == i)).getD { part := p, idx := i, step := keep }) })

/-- The phase entries of a slot (R281). -/
def applyPlan (s : State) (p : TenantId) (g : Image) (off : Nat) : State :=
  (g.plan.filter (fun e => e.1 == off)).foldl (fun s e => (baysOf s (tenantPart p)).foldl (fun s b =>
    if bitOf e.2.1 b.1 then modMem s b (fun m => { m with shareSet := e.2.2 }) else s) s) s

/-- A SEND whose slots have begun, on a port that is down (R293). -/
def sendPortless (s : State) (off : Nat) (x : Xfer) (_ : XferRun) : Bool :=
  x.send && decide (x.start ≤ off ∧ off < x.start + x.nslots) && !xferPortUp s x

/-- SLOT_START (R270, R271): the strobe, 12 ns ahead of the slot. A SEND that finds its port down at its slots fails (R293). -/
def execSlotStart (p : TenantId) (s : State) : Res :=
  .next (match slotImage s p with
    | none => s
    | some g =>
      let k := s.sch.parts[p].slot
      if s.alm.t.toNat + 12 < s.sch.parts[p].t0.toNat + 10000 * k then s
      else
        let s1 := modSch s p (fun x => { x with slot := k + 1 })
        let s2 := if k % g.period = 0 then beginStep s1 p g else s1
        if s2.sch.parts[p].stepping then endRuns (applyPlan s2 p g (k % g.period)) p (sendPortless s2 (k % g.period)) else s2)

/-! ## Re-mapping a bay (R260, R283) -/

/-- The running image with a fallback placement in force. -/
def fallImage (g : Image) (f : Fallback) : Image := { g with conns := fallConns g f, binds := fallBinds g f }

/-- What goes on of a connection: its ports as they stand. -/
def connState (s : State) (c : Conn) : InPort × OutPort :=
  match connPorts c with
  | some ((pr, n), (co, q)) => (getIn s co q, getOut s pr n)
  | none => ({}, {})

/-- Move the connections of a bay's cores: by stream, each keeps its pool, tokens and counts. -/
def moveConns (s : State) (g : Image) (f : Fallback) : State :=
  let old := g.conns.filter (fun c => isCoreEnd f.bay c.prod || isCoreEnd f.bay c.cons)
  let kept := old.map (fun c => (c.stream, connState s c))
  let ends := old.filterMap (fun c => (connPorts c).map (fun e => (e.2, c.stream)))
  let target (e : StationRef × PortId) : StationRef × PortId :=
    match lookup e ends with
    | some st => ((f.conns.find? (fun c => c.stream == st)).bind (fun c => (connPorts c).map (·.2))).getD e
    | none => e
  let s1 := old.foldl dropConn s
  let s2 := f.conns.foldl (fun s c => match lookup c.stream kept with
    | some k => addConn s g.job c k.1 k.2
    | none => addConn s g.job c { avail := c.pool } {}) s1
  { s2 with tokFlight := s2.tokFlight.map (fun t => ((target (t.1, t.2.1)).1, (target (t.1, t.2.1)).2, t.2.2)),
            credFlight := s2.credFlight.map (fun t => ((target (t.1, t.2.1)).1, (target (t.1, t.2.1)).2, t.2.2)) }

/-- The fallback placement for a fenced core, none if it binds a core that is itself fenced. -/
def fallbackFor (s : State) (b : BayId) (g : Image) (c : Nat) : Option Fallback :=
  (g.fallbacks.find? (fun f => f.bay == b.1 && f.fenced == c)).bind (fun f =>
    if f.binds.all (fun k => match finOpt 50 k.core with
      | some i => (s.bays[b].cores[i]).ctl.st != .fenced
      | none => false) then some f else none)

/-- The fenced core to re-map next: the first of those that wait that still holds its binding; with those after it. -/
def nextFenced (y : Bay) : List Nat → Option Nat × List Nat
  | [] => (none, [])
  | c :: rest => match finOpt 50 c with
    | some i => if (y.cores[i]).ctl.st = .fenced ∧ (y.cores[i]).bind.isSome then (some c, rest) else nextFenced y rest
    | none => nextFenced y rest

/-- A re-map has ended: the next fenced core that waits follows. -/
def remapNext (s : State) (b : BayId) : State :=
  modBay s b (fun y => { y with remapping := (nextFenced y y.remapQ).1, remapQ := (nextFenced y y.remapQ).2 })

/-- CORE_REMAP (R260): every core of the bay has paused; the bay is bound to the fallback placement, or nothing moves. -/
def execCoreRemap (b : BayId) (s : State) : Res :=
  .next (match s.bays[b].remapping with
    | none => s
    | some c =>
      if allCores.any (fun k => (s.bays[b].cores[k]).firing.isSome) then s else
        let core : CoreId := ⟨b, ⟨c % 50, Nat.mod_lt _ (by decide)⟩⟩
        let g := runningImage s s.bays[b].owner
        let gone := modBay s b (fun y => { y with remapping := none })
        match g.bind (fun g => (fallbackFor s b g c).map (fun f => (g, f))), partTenant s.bays[b].owner with
        | some (g, f), some p =>
          let s1 := moveConns gone g f
          let s2 := modBay s1 b (fun y => { y with cores := vmapIdx y.cores (fun i k =>
            match f.binds.find? (fun x => x.core == i) with
            | some x => if (k.bind.map (·.raw)) = some x.raw then k else { bindCore k x with moved := true }
            | none => unbindCore k) })
          let s3 := modSch s2 p (fun x => { x with running := some (fallImage g f), remapped := true })
          let s4 := logK s3 core codeCoreRemap 0 0 0 0
          (bayStations b).foldl updWait (remapNext s4 b)
        | _, _ => remapNext (logK gone core codeRemapNone 0 0 0 0) b)

end Sys2Proof.Machine
end

