-- ==== Sys2Proof/Machine/Fec.lean ====
section
/-! DEFINITION. The CRC-64 and the RS(128,120) code of a Zaled flit (R305). -/

namespace Sys2Proof.Machine

/-- One bit of CRC-64: polynomial 0x42F0_E1EB_A9EA_3693, not reflected. -/
def crcBit (c : Nat) : Nat := if 2 ^ 63 ≤ c then Nat.xor (2 * c % 2 ^ 64) 0x42F0E1EBA9EA3693 else 2 * c

def crcByte (c : Nat) (b : Byte) : Nat := crcBit (crcBit (crcBit (crcBit (crcBit (crcBit (crcBit (crcBit (Nat.xor c (b.toNat * 2 ^ 56)))))))))

/-- CRC-64 with initial value and final XOR all ones. -/
def crc64 (bs : List Byte) : Nat := Nat.xor (bs.foldl crcByte (2 ^ 64 - 1)) (2 ^ 64 - 1)

/-! ## GF(2^8) with x^8 + x^4 + x^3 + x^2 + 1 -/

def rsDouble (a : Nat) : Nat := if 128 ≤ a then Nat.xor (2 * a % 256) 0x1D else 2 * a

/-- a · b (fuel: the bits of b). -/
def rsMulAux : Nat → Nat → Nat → Nat
  | 0, _, _ => 0
  | f + 1, a, b => Nat.xor (if b % 2 = 1 then a else 0) (rsMulAux f (rsDouble a) (b / 2))
def rsMul (a b : Nat) : Nat := rsMulAux 8 a b

/-- α^e, by doubling. -/
def rsExp : Nat → Nat
  | 0 => 1
  | e + 1 => rsDouble (rsExp e)

def rsSquare (a : Nat) : Nat := rsMul a a
/-- The inverse a^254 of a non-zero element. -/
def rsInv (a : Nat) : Nat :=
  let a2 := rsSquare a
  let a3 := rsMul a2 a
  let a6 := rsSquare a3
  let a7 := rsMul a6 a
  let a14 := rsSquare a7
  let a15 := rsMul a14 a
  let a30 := rsSquare a15
  let a31 := rsMul a30 a
  let a62 := rsSquare a31
  let a63 := rsMul a62 a
  let a126 := rsSquare a63
  let a127 := rsMul a126 a
  rsSquare a127

/-- The value at x of a polynomial given from its highest coefficient down. -/
def rsEval (p : List Nat) (x : Nat) : Nat := p.foldl (fun acc c => Nat.xor (rsMul acc x) c) 0

/-- The product of two polynomials given from the constant up. -/
def rsPolyMul : List Nat → List Nat → List Nat
  | [], _ => []
  | a :: as, q =>
    let r := 0 :: rsPolyMul as q
    (List.range (max r.length q.length)).map (fun i => Nat.xor (rsMul a (q.getD i 0)) (r.getD i 0))

/-- The generator with roots α^0 to α^7, from its highest coefficient (1) down. -/
def rsGen : List Nat := ((List.range 8).foldl (fun g i => rsPolyMul g [rsExp i, 1]) [1]).reverse

/-- The 8 parity symbols of 120 data symbols: the remainder of data · x^8. -/
def rsParity (data : List Nat) : List Nat :=
  let g := rsGen.drop 1
  data.foldl (fun r d =>
    let f := Nat.xor d (r.headD 0)
    (List.zipWith (fun a b => Nat.xor a (rsMul f b)) (r.drop 1 ++ [0]) g)) (List.replicate 8 0)

/-- The eight syndromes of a codeword of 128 symbols. -/
def rsSyndromes (w : List Nat) : List Nat := (List.range 8).map (fun j => rsEval w (rsExp j))

/-- The state of the Berlekamp–Massey search: locator, earlier locator, length, gap, earlier discrepancy. -/
def rsSearchStep (syn : List Nat) (st : List Nat × List Nat × Nat × Nat × Nat) (n : Nat) : List Nat × List Nat × Nat × Nat × Nat :=
  let c := st.1
  let b := st.2.1
  let l := st.2.2.1
  let m := st.2.2.2.1
  let d0 := st.2.2.2.2
  let d := ((List.range (l + 1)).map (fun i => rsMul (c.getD i 0) (if i ≤ n then syn.getD (n - i) 0 else 0))).foldl Nat.xor 0
  if d = 0 then (c, b, l, m + 1, d0)
  else
    let f := rsMul d (rsInv d0)
    let sh := List.replicate m 0 ++ b.map (rsMul f)
    let c1 := (List.range (max c.length sh.length)).map (fun i => Nat.xor (c.getD i 0) (sh.getD i 0))
    if 2 * l ≤ n then (c1, c, n + 1 - l, 1, d) else (c1, b, l, m + 1, d0)

/-- Where a codeword is wrong and by what: none when no pattern of at most 4 errors explains it. -/
def rsErrors (w : List Nat) : Option (List (Nat × Nat)) :=
  let syn := rsSyndromes w
  if syn.all (· == 0) then some []
  else
    let r := (List.range 8).foldl (rsSearchStep syn) ([1], [1], 0, 1, 1)
    let loc := r.1
    let l := r.2.2.1
    let omega := (rsPolyMul syn loc).take 8
    let odd := loc.mapIdx (fun i c => if i % 2 = 1 then c else 0)
    let errs := (List.range 128).filterMap (fun e =>
      let x := rsExp e
      let xi := rsInv x
      if rsEval loc.reverse xi = 0 then
        let den := rsMul x (rsEval (odd.drop 1).reverse xi)
        some (127 - e, rsMul (rsMul (rsMul x x) (rsEval omega.reverse xi)) (rsInv den))
      else none)
    if l ≤ 4 ∧ errs.length = l then some errs else none

/-! ## A flit's parity -/

/-- The data symbols of codeword j. -/
def flitData (f : List Byte) (j : Nat) : List Nat := (List.range 120).map (fun i => (f.getD (4 * i + j) 0).toNat)

/-- The 512 bytes of a flit from its first 480. -/
def flitSeal (f : List Byte) : List Byte :=
  let ps := (List.range 4).map (fun j => rsParity (flitData f j))
  f ++ (List.range 32).map (fun n => byteOf ((ps.getD (n % 4) []).getD (n / 4) 0))

/-- A flit corrected, with the bytes that were corrected. A codeword with more than 4 errors is left as it came. -/
def flitCorrect (f : List Byte) : List Byte × Nat :=
  (List.range 4).foldl (fun acc j =>
    let w := (List.range 128).map (fun i => (f.getD (4 * i + j) 0).toNat)
    match rsErrors w with
    | some es => (es.foldl (fun g e => g.set (4 * e.1 + j) ((g.getD (4 * e.1 + j) 0) ^^^ byteOf e.2)) acc.1, acc.2 + es.length)
    | none => acc) (f, 0)

end Sys2Proof.Machine
end

