-- ==== Sys2Proof/Machine/Zaled.lean ====
section
/-! DEFINITION. Zaled ports: link states, flits, replay, credits, sideband, peer authentication, and frames (R303 to R312, R349). -/

namespace Sys2Proof.Machine

def modZ (s : State) (p : PortId) (f : Zld → Zld) : State := { s with zld := vmod s.zld p f }

/-- The tenant whose Reduce share holds a port, and the partition that its entries go to. -/
def portShare (s : State) (p : PortId) : Option TenantId := allTenants.find? (fun t => bitOf s.red.shares[t].ports p.1)
def portPart (s : State) (p : PortId) : PartId := match portShare s p with
  | some t => tenantPart t
  | none => mgmt

/-! ## Flits (R305) -/

/-- The fields of a flit header (Table 11.3). `resv` is the reserved bits. -/
structure FlitHdr where
  type : Nat
  seq : Nat
  ack : Nat
  ackv : Bool
  rply : Bool
  sof : Bool
  eof : Bool
  tag : Bool
  resv : Nat
  credit : Nat
  len : Nat
  deriving DecidableEq, Repr

def parseFlit (f : List Byte) : FlitHdr :=
  let x := ofBe (f.take 8)
  { type := bitsOf x 63 60, seq := bitsOf x 59 48, ack := bitsOf x 47 36, ackv := bitOf x 35, rply := bitOf x 34, sof := bitOf x 33,
    eof := bitOf x 32, tag := bitOf x 31, resv := bitsOf x 30 28 + 8 * bitsOf x 15 9, credit := bitsOf x 27 16, len := bitsOf x 8 0 }

def flitHead (h : FlitHdr) : List Byte :=
  beBytes 8 (h.type * 2 ^ 60 + h.seq * 2 ^ 48 + h.ack * 2 ^ 36 + b2n h.ackv * 2 ^ 35 + b2n h.rply * 2 ^ 34 + b2n h.sof * 2 ^ 33 +
    b2n h.eof * 2 ^ 32 + b2n h.tag * 2 ^ 31 + h.credit * 2 ^ 16 + h.len)

/-- The 512 bytes of a flit. -/
def flitBytes (h : FlitHdr) (payload : List Byte) : List Byte :=
  let b := flitHead h ++ padTo 464 payload
  flitSeal (b ++ beBytes 8 (crc64 b))

/-- Do bytes 0 to 471 match the crc field? -/
def flitCrcOk (f : List Byte) : Bool := ofBe (bslice f 472 8) == crc64 (f.take 472)

/-- Send one flit: it carries the latest ACK and CREDIT, and RPLY when a replay is to be asked for (R306). Flags: 1 SOF, 2 EOF, 4 TAG. -/
def sendFlit (s : State) (p : PortId) (type seq flags : Nat) (payload : List Byte) : State :=
  let z := s.zld[p]
  let h : FlitHdr := {
    type := type, seq := seq, ack := (z.rxNext + 4095) % 4096, ackv := z.rxAny, rply := z.rplyDue, sof := bitOf flags 0,
    eof := bitOf flags 1, tag := bitOf flags 2, resv := 0, credit := z.freed % 4096, len := payload.length }
  emitOut (modZ s p (fun z => { z with rplyDue := false })) (.flit p (flitBytes h payload))

def sendIdle (s : State) (p : PortId) : State := sendFlit s p 0 0 0 []

/-- Send a DATA or SIDEBAND flit and hold it in the replay buffer. -/
def sendKept (s : State) (p : PortId) (type flags : Nat) (payload : List Byte) : State :=
  let seq := s.zld[p].txSeq
  modZ (sendFlit s p type seq flags payload) p (fun z => { z with
    replayBuf := z.replayBuf ++ [(seq, byteOf type :: byteOf flags :: payload)],
    txSeq := (seq + 1) % 4096,
    since := if z.replayBuf = [] then s.alm.t else z.since,
    dataSent := if type = 1 then z.dataSent + 1 else z.dataSent })

/-- Send again every flit that no ACK covers (R306); DATA passes only in UP (R304). -/
def resendAll (s : State) (p : PortId) : State :=
  (s.zld[p].replayBuf.filter (fun e => s.zld[p].state == .up || e.2.getD 0 0 != 1)).foldl (fun s e => sendFlit s p ((e.2.getD 0 0).toNat) e.1 ((e.2.getD 1 0).toNat) (e.2.drop 2)) s

/-! ## The sideband (R312) -/

/-- A message: its 16-byte header and body. -/
def sbMessage (type id : Nat) (body : List Byte) : List Byte :=
  [1, byteOf type] ++ beBytes 2 body.length ++ beBytes 4 id ++ List.replicate 8 0 ++ body

/-- The flags of piece k of n. -/
def sbFlags (k n : Nat) : Nat := b2n (k == 0) + 2 * b2n (k + 1 == n)

def sbStates (z : Zld) : Bool := z.state == .hello || z.state == .auth || z.state == .up

/-- RETRAIN, trained: the HELLO that names the peer is awaited (R304). -/
def helloDue (z : Zld) : Bool := z.state == .retrain && z.fromRetrain

/-- The flits that R306 lets others than that HELLO keep unacknowledged, so that the HELLO after RETRAIN always has a place of the 256
(notes/assumptions/36.md). -/
def replayRoom : Nat := 255

/-- Send the next waiting message when none is in flight and the replay buffer has room. -/
def sbPump (s : State) (p : PortId) : State :=
  let z := s.zld[p]
  match z.sb with
  | [] => s
  | m :: rest =>
    let fl := chunks 464 m
    if !sbStates z || z.replayBuf.any (fun e => e.2.getD 0 0 == 2) || replayRoom < z.replayBuf.length + fl.length then s
    else (fl.zipIdx).foldl (fun s f => sendKept s p 2 (sbFlags f.2 fl.length) f.1) (modZ s p (fun z => { z with sb := rest }))

def sbQueue (s : State) (p : PortId) (type : Nat) (body : List Byte) : State :=
  sbPump (modZ s p (fun z => { z with sb := z.sb ++ [sbMessage type z.sbId body], sbId := (z.sbId + 1) % 2 ^ 32 })) p

/-- The body of this device's HELLO. -/
def helloBody (p : PortId) : List Byte := deviceId ++ [byteOf p.1, 0] ++ beBytes 2 512 ++ List.replicate 12 0

/-- The first received message of a type, taken out. -/
def sbTake (s : State) (p : PortId) (type : Nat) : Option (List Byte × State) :=
  match s.zld[p].sbIn.find? (fun m => m.1 == type) with
  | none => none
  | some m => some (m.2, modZ s p (fun z => { z with sbIn := z.sbIn.erase m }))

/-! ## Link states (Table 11.1) -/

/-- The link layer as at the start of a link; the enables, the counters of Table 11.12 and the message count stay. -/
def zldFresh (z : Zld) : Zld :=
  { ({} : Zld) with en := z.en, retrain := z.retrain, refused := z.refused, replayCount := z.replayCount, crcFails := z.crcFails,
                    fec := z.fec, disc := z.disc, sbId := z.sbId }

/-- The lanes start to train: unpinned ones adapt, pinned ones keep LANEl_EQ (R303). -/
def lanesTrain (s : State) (p : PortId) : State :=
  { s with lane := vmod s.lane p (fun l => vmap l (fun x => { x with lock := false, adapting := !x.pin, eqCur := if x.pin then x.eq else x.eqCur })) }

/-- One lane has trained: what adaptation found, and the eye, are free values. -/
def laneLock (s : State) (p : PortId) (i : PortId) : State :=
  let e := drawFree s (2 ^ 28)
  let y := drawFree e.2 256
  { y.2 with lane := vmod y.2.lane p (fun l => vmod l i (fun x => { x with
      lock := true, adapting := !x.pin, eqCur := if x.pin then x.eq else word32 e.1, eye := byteOf y.1 })) }
def lanesLock (s : State) (p : PortId) : State := allPorts.foldl (fun s i => laneLock s p i) s

def lanesLost (s : State) (p : PortId) : State :=
  { s with lane := vmod s.lane p (fun l => vmap l (fun x => { x with lock := false, adapting := false })) }

/-- What the port waited for from the DRBG is dropped. -/
def zldForget (s : State) (p : PortId) : State := drbgForget (drbgForget s mgmt (.zldNonce p)) mgmt (.zldProof p)

/-- The SENDs in progress on a port that leaves UP fail (R293). -/
def zldLeave (s : State) (p : PortId) : State := if s.zld[p].state = .up then portDownSends s p else s

/-- DOWN. -/
def zldDown (s : State) (p : PortId) : State :=
  lanesLost (modZ (zldForget (zldLeave s p) p) p (fun z => { zldFresh z with entered := s.alm.t })) p

/-- TRAINING from DOWN or HELLO. -/
def zldTrain (s : State) (p : PortId) : State :=
  lanesTrain (modZ (zldForget s p) p (fun z => { zldFresh z with state := .training, entered := s.alm.t })) p

/-- RETRAIN: sequence, ACK and credit counts stay. -/
def zldRetrain (s : State) (p : PortId) : State :=
  lanesTrain (modZ (zldForget (zldLeave s p) p) p (fun z => { z with
    state := .retrain, fromRetrain := false, late := false, replays := 0, entered := s.alm.t, sbIn := z.sbIn.filter (fun m => m.1 != 1) })) p

/-- RETRAIN with its entries: management and the port's partition. -/
def zldRetrainLogged (s : State) (p : PortId) : State :=
  let s1 := logN s mgmt .zld codeZldRetrain p.1 0
  let s2 := match portShare s p with
    | some t => logN s1 (tenantPart t) .zld codeZldRetrain p.1 0
    | none => s1
  zldRetrain s2 p

/-- A breach of R306 or R307. -/
def zldBreach (s : State) (p : PortId) : State := zldRetrain (logN s (portPart s p) .zld codeZldProto p.1 0) p

/-- A port in MODE 5. -/
def zldMode (s : State) (p : PortId) : Bool := s.eth[p].modeV == 5

/-- ZLDn_CTL.EN (Table 11.1): a change of it. -/
def zldEnEff (s : State) (p : PortId) (on : Bool) : State :=
  if on = s.zld[p].en then s
  else if on then modZ s p (fun z => { z with en := true, refused := false, entered := s.alm.t })
  else modZ (zldDown s p) p (fun z => { z with en := false })

/-- ZLDn_CTL.RETRAIN: a change from 0 to 1 in UP. -/
def retrainEff (s : State) (p : PortId) (on : Bool) : State :=
  let s1 := modZ s p (fun z => { z with retrain := on })
  if on && !s.zld[p].retrain && s.zld[p].state == .up then zldRetrainLogged s1 p else s1

def mayTrain (s : State) (p : PortId) : Bool := !s.pow.inReset && s.pow.refs.getLsbD 1 && zldMode s p && s.zld[p].en && !s.zld[p].refused && s.zld[p].state == .down

/-- ZLD_SIGNAL_PRESENT (R304). -/
def execZldSignalPresent (p : PortId) (s : State) : Res := .next (if mayTrain s p then zldTrain s p else s)

/-- ZLD_TRAIN_RETRY (R304): 100 ms after the port went down. -/
def execZldTrainRetry (p : PortId) (s : State) : Res :=
  .next (if mayTrain s p && elapsed s s.zld[p].entered 100000000 then zldTrain s p else s)

/-- Within `ns` of entering the link state. -/
def soon (s : State) (p : PortId) (ns : Nat) : Bool := !elapsed s s.zld[p].entered (ns + 1)

/-- ZLD_TRAINING_DONE (R304): within 20 ms, HELLO. In RETRAIN the HELLO that names the peer again goes out, under the next SEQ and held for
replay as R306 asks; training that took more than 5 ms is noted. -/
def execZldTrainingDone (p : PortId) (s : State) : Res :=
  let z := s.zld[p]
  .next (if z.state = .training then
      (if soon s p 20000000 then sbQueue (modZ (lanesLock s p) p (fun z => { z with state := .hello, entered := s.alm.t })) p 1 (helloBody p) else s)
    else if z.state = .retrain ∧ !z.fromRetrain then
      let s1 := modZ (lanesLock s p) p (fun z => { z with fromRetrain := true, late := !soon s p 5000000, sbId := (z.sbId + 1) % 2 ^ 32 })
      sendKept s1 p 2 3 (sbMessage 1 z.sbId (helloBody p))
    else s)

/-- ZLD_TRAINING_TIMEOUT (R304): 20 ms in TRAINING. -/
def execZldTrainingTimeout (p : PortId) (s : State) : Res :=
  .next (if s.zld[p].state = .training ∧ elapsed s s.zld[p].entered 20000000 then zldDown (logN s mgmt .zld codeZldTrain p.1 0) p else s)

/-- ALIGNMENT_LOST (R304). -/
def execAlignmentLost (p : PortId) (s : State) : Res := .next (if s.zld[p].state = .up then zldRetrainLogged s p else s)

/-- HELLO_TIMEOUT (R304): 1 ms in HELLO. -/
def execHelloTimeout (p : PortId) (s : State) : Res :=
  .next (if s.zld[p].state = .hello ∧ elapsed s s.zld[p].entered 1000000 then zldTrain s p else s)

/-- RETRAIN_TIMEOUT (R304): 20 ms in RETRAIN without training. -/
def execRetrainTimeout (p : PortId) (s : State) : Res :=
  .next (if s.zld[p].state = .retrain ∧ !s.zld[p].fromRetrain ∧ elapsed s s.zld[p].entered 20000000 then zldDown s p else s)

/-! ## Authentication (R349) -/

/-- The bytes a PROOF signs. -/
def proofDigest (own peer ownId peerId : List Byte) (port : Nat) : List Byte :=
  shake256 (0x0A :: own ++ peer ++ ownId ++ peerId ++ [byteOf port]) 64

/-- The draws of a PROOF's signature are there: it is signed and sent. -/
def zldProofGot (s : State) (p : PortId) (rand : List Byte) : State :=
  match s.zld[p].ownNonce, s.zld[p].peerNonce with
  | some a, some b =>
    let sig := (Config.falconSign identitySk (proofDigest a b deviceId s.zld[p].peerId p.1) rand).take 1280
    sbQueue s p 4 (beBytes 2 sig.length ++ List.replicate 6 0 ++ sig)
  | _, _ => s

/-- Both nonces are known: ask for the signature's draws. -/
def proofStart (s : State) (p : PortId) : State :=
  match s.zld[p].ownNonce, s.zld[p].peerNonce with
  | some _, some _ => (match drbgAsk s mgmt [64, 64] (.zldProof p) with
    | (some r, s1) => zldProofGot s1 p r
    | (none, s1) => s1)
  | _, _ => s

/-- This end's nonce is drawn. -/
def zldNonceGot (s : State) (p : PortId) (n : List Byte) : State :=
  proofStart (sbQueue (modZ s p (fun z => { z with ownNonce := some n })) p 3 n) p

/-- AUTH: the certificate goes out, and a nonce is drawn. -/
def authBegin (s : State) (p : PortId) (body : List Byte) : State :=
  let s1 := modZ s p (fun z => { z with state := .auth, entered := s.alm.t, peerId := body.take 64, peerPort := u8 body 64, credit := be16 body 66 })
  match drbgAsk (sbQueue s1 p 2 Config.certificate) mgmt [32] (.zldNonce p) with
  | (some n, s2) => zldNonceGot s2 p n
  | (none, s2) => s2

/-- Is a HELLO body well-formed: 80 bytes, the reserved ones zero (R9, R312)? -/
def helloOk (body : List Byte) : Bool := body.length == 80 && resvZero body 65 1 && resvZero body 68 12

/-- The link layer as a HELLO from another peer leaves it (Table 11.1): buffers and counts are discarded, but for the HELLOs just exchanged,
from whose SEQs both directions go on (notes/assumptions/36.md). -/
def zldRestart (z : Zld) : Zld :=
  { zldFresh z with replayBuf := z.replayBuf.drop (z.replayBuf.length - 1), txSeq := z.txSeq, since := z.since,
                    rxNext := (z.helloSeq + 1) % 4096, rxAny := true }

/-- HELLO (R312): the peer's identity, port and credit. After a RETRAIN that trained within 5 ms, the verified peer brings the link UP again;
any other HELLO after a RETRAIN leads to AUTH (the same peer after more than 5 ms too: DESIGN CHOICE, Table 11.1 names no state for it,
notes/assumptions/36.md). -/
def execHello (p : PortId) (s : State) : Res :=
  let z := s.zld[p]
  .next (if z.state ≠ .hello ∧ !helloDue z then s else
    match sbTake s p 1 with
    | none => s
    | some (body, s1) =>
      if !helloOk body then logN s1 (portPart s p) .zld codeZldProto p.1 0
      else if z.state = .hello then authBegin s1 p body
      else if z.verified ≠ [] ∧ body.take 64 = z.verified ∧ u8 body 64 = z.peerPort ∧ !z.late then
        modZ s1 p (fun z => { z with state := .up, fromRetrain := false, entered := s.alm.t, since := s.alm.t })
      else authBegin (modZ s1 p zldRestart) p body)

/-- May the root-of-trust processor act on a message of AUTH (Table 13.9)? -/
def authActs (s : State) (p : PortId) : Bool := s.zld[p].state == .auth && !rotBusy s && s.rot.ready

/-- The certificate is Seltone's, names the HELLO's device and its lifecycle is this device's; reserved fields and padding are zero (R9). -/
def certGood (s : State) (c peerId : List Byte) : Bool :=
  c.length == 3176 && resvZero c 3 5 && resvZero c 0x759 7 && resvZero c 0x762 6 &&
  resvZero c (0x768 + u16 c 0x760) (1280 - u16 c 0x760) && u8 c 0 == 1 && u8 c 1 == s.rot.lifecycle && bslice c 0x18 64 == shake256 Config.makerKey 64 && u16 c 0x760 ≤ 1280 &&
  Config.falconVerify Config.makerKey (c.take 0x760) (bslice c 0x768 (u16 c 0x760)) && shake256 (bslice c 0x58 1793) 64 == peerId

/-- IDENT (R349). -/
def execIdent (p : PortId) (s : State) : Res :=
  .next (if !authActs s p then s else
    match sbTake s p 2 with
    | none => s
    | some (c, s1) => modZ s1 p (fun z => { z with certPk := some (bslice c 0x58 1793), certOk := certGood s c z.peerId }))

/-- NONCE (R349). -/
def execNonce (p : PortId) (s : State) : Res :=
  .next (if !authActs s p || s.zld[p].peerNonce.isSome then s else
    match sbTake s p 3 with
    | none => s
    | some (n, s1) => proofStart (modZ s1 p (fun z => { z with peerNonce := some n })) p)

/-- Is the peer verified by its PROOF? -/
def peerGood (z : Zld) (pk own peer body : List Byte) : Bool :=
  z.certOk && peer.length == 32 && be16 body 0 ≤ 1280 && resvZero body 2 6 &&
  Config.falconVerify pk (proofDigest peer own z.peerId deviceId z.peerPort) (bslice body 8 (be16 body 0))

/-- UP with a peer just verified: the counts of R307 start here. -/
def zldUp (s : State) (p : PortId) : State :=
  modZ s p (fun z => { z with state := .up, entered := s.alm.t, verified := z.peerId, freed := 0, peerFreed := 0, dataSent := 0, rxHeld := 0 })

/-- PROOF (R349): UP, or DOWN until EN changes from 0 to 1. -/
def execProof (p : PortId) (s : State) : Res :=
  .next (if !authActs s p then s else
    match s.zld[p].certPk, s.zld[p].ownNonce, s.zld[p].peerNonce, sbTake s p 4 with
    | some pk, some own, some peer, some (body, s1) =>
      if peerGood s.zld[p] pk own peer body then zldUp s1 p
      else modZ (zldDown (logN s1 mgmt .zld codeZldPeer p.1 0) p) p (fun z => { z with refused := true })
    | _, _, _, _ => s)

/-! ## Reception (R306, R307) -/

/-- A replay: in UP, the eighth without an advance of ACK sends the link to RETRAIN. -/
def zldReplay (s : State) (p : PortId) : State :=
  let s1 := modZ s p (fun z => { z with replays := z.replays + 1, replayCount := z.replayCount + 1, since := s.alm.t })
  let s2 := resendAll s1 p
  if 8 ≤ s1.zld[p].replays ∧ s.zld[p].state = .up then zldRetrainLogged s2 p else s2

/-- REPLAY_TIMEOUT (R306): 4 µs with flits unacknowledged and no advance of ACK. -/
def execReplayTimeout (p : PortId) (s : State) : Res :=
  let z := s.zld[p]
  .next (if (sbStates z || helloDue z) && !z.replayBuf.isEmpty && elapsed s z.since 4000 then zldReplay s p else s)

/-- Is an ACK that covers nothing new no breach: has anything been sent on the link, and is its SEQ not beyond the last one sent, that is,
among the 2,048 up to it (R307, notes/assumptions/36.md)? -/
def ackOld (z : Zld) (ack : Nat) : Bool := (z.ackRx.isSome || !z.replayBuf.isEmpty) && decide ((z.txSeq + 4095 - ack) % 4096 < 2048)

/-- An ACK: none for one beyond the last SEQ sent. -/
def takeAck (s : State) (p : PortId) (h : FlitHdr) : Option State :=
  let z := s.zld[p]
  if !h.ackv then some s
  else match z.replayBuf.findIdx? (fun e => e.1 == h.ack) with
    | some k => some (modZ s p (fun z => { z with replayBuf := z.replayBuf.drop (k + 1), ackRx := some h.ack, replays := 0, since := s.alm.t }))
    | none => if ackOld z h.ack then some s else none

/-- A CREDIT: none for one beyond the flits sent. -/
def takeCredit (s : State) (p : PortId) (h : FlitHdr) : Option State :=
  let z := s.zld[p]
  let adv := (h.credit + 4096 - z.peerFreed % 4096) % 4096
  if z.dataSent < z.peerFreed + adv then none else some (modZ s p (fun z => { z with peerFreed := z.peerFreed + adv }))

/-- DATA flits leave the receive buffer. -/
def freeFlits (s : State) (p : PortId) (n : Nat) : State := modZ s p (fun z => { z with rxHeld := z.rxHeld - n, freed := z.freed + n })

/-- A frame is discarded (R310): counted, at most one entry a millisecond a port. -/
def frameDiscard (s : State) (p : PortId) (code : Nat) : State :=
  let s1 := modZ s p (fun z => { z with disc := z.disc + 1 })
  if rateOk s1 (.zldFrame p) 1000000 then logN (rateMark s1 (.zldFrame p)) (portPart s p) .zld code p.1 0 else s1

/-- An accepted DATA flit joins its frame; a run longer than any frame, or without its SOF, is no frame. -/
def dataFlit (s : State) (p : PortId) (h : FlitHdr) (payload : List Byte) : State :=
  let s1 := modZ s p (fun z => { z with rxHeld := z.rxHeld + 1 })
  let z := s.zld[p]
  if h.sof then
    let s2 := if z.inFrame then frameDiscard (freeFlits s1 p z.frame.length) p codeZldProto else s1
    if h.eof then modZ s2 p (fun z => { z with frame := [], inFrame := false, frames := z.frames ++ [[(payload, h.tag)]] })
    else modZ s2 p (fun z => { z with frame := [(payload, h.tag)], inFrame := true })
  else if !z.inFrame then freeFlits s1 p 1
  else if h.eof then modZ s1 p (fun z => { z with frame := [], inFrame := false, frames := z.frames ++ [z.frame ++ [(payload, h.tag)]] })
  else if 142 ≤ z.frame.length + 1 then
    frameDiscard (modZ (freeFlits s1 p (z.frame.length + 1)) p (fun z => { z with frame := [], inFrame := false })) p codeZldProto
  else modZ s1 p (fun z => { z with frame := z.frame ++ [(payload, h.tag)] })

/-- A whole sideband message: kept for its row, or discarded with ZLD_PROTO: unknown, or malformed (R9). A HELLO repeated by a replay after
it served has no further effect. -/
def sbDone (s : State) (p : PortId) (m : List Byte) : State :=
  let type := u8 m 1
  if u8 m 0 = 1 ∧ 1 ≤ type ∧ type ≤ 4 ∧ m.length = 16 + be16 m 2 ∧ resvZero m 8 8 then
    if type = 1 ∧ (s.zld[p].state = .auth ∨ s.zld[p].state = .up) then s else modZ s p (fun z => { z with sbIn := z.sbIn ++ [(type, m.drop 16)] })
  else logN s (portPart s p) .zld codeZldProto p.1 0

/-- An accepted SIDEBAND flit joins its message of at most 16 flits. -/
def sbFlit (s : State) (p : PortId) (h : FlitHdr) (payload : List Byte) : State :=
  let m := if h.sof then some payload else s.zld[p].sbAsm.map (· ++ payload)
  match m with
  | none => s
  | some m =>
    if h.eof then sbDone (modZ s p (fun z => { z with sbAsm := none })) p m
    else modZ s p (fun z => { z with sbAsm := if m.length < 16 * 464 then some m else none })

/-- A DATA or SIDEBAND flit: only the expected SEQ is accepted; DATA passes only in UP. -/
def takeSeq (s : State) (p : PortId) (h : FlitHdr) (payload : List Byte) : State :=
  let z := s.zld[p]
  if h.seq ≠ z.rxNext ∨ (h.type = 1 ∧ z.state ≠ .up) then s
  else if h.type = 1 ∧ 512 ≤ z.rxHeld then zldBreach s p
  else
    let s1 := modZ s p (fun z => { z with rxNext := (z.rxNext + 1) % 4096, rxAny := true })
    let s2 := if h.type = 1 then dataFlit s1 p h payload else sbFlit s1 p h payload
    sendIdle s2 p

/-- A flit that passed its CRC: header rules, ACK, CREDIT, RPLY, then its content. -/
def goodFlit (s : State) (p : PortId) (f : List Byte) : State :=
  let h := parseFlit f
  let payload := bslice f 8 (min 464 h.len)
  if 2 < h.type ∨ h.resv ≠ 0 ∨ 464 < h.len then zldBreach s p
  else match (takeAck s p h).bind (fun s1 => takeCredit s1 p h) with
    | none => zldBreach s p
    | some s1 =>
      let s2 := if h.rply then zldReplay s1 p else s1
      let s3 := if !sbStates s2.zld[p] || h.type = 0 then s2 else takeSeq s2 p h payload
      sbPump s3 p

/-- A flit that passed its CRC in RETRAIN: a HELLO is read whatever its SEQ, since DATA before it may still be missing, and is counted
where it is the expected one; RPLY is answered (R306, notes/assumptions/36.md). -/
def helloFlit (s : State) (p : PortId) (f : List Byte) : State :=
  let h := parseFlit f
  if 2 < h.type ∨ h.resv ≠ 0 ∨ 464 < h.len then zldBreach s p
  else
    let s1 := if h.rply then zldReplay s p else s
    if h.type = 2 ∧ h.sof ∧ h.eof then
      let s2 := modZ s1 p (fun z => { z with
        helloSeq := h.seq, rxNext := if h.seq = z.rxNext then (z.rxNext + 1) % 4096 else z.rxNext, rxAny := z.rxAny || h.seq == z.rxNext })
      sbDone s2 p (bslice f 8 h.len)
    else s1

/-- FLIT_RECEIVE (R305 to R307). A flit whose CRC fails is discarded and a replay asked for. After a retrain only the HELLO passes. -/
def execFlitReceive (p : PortId) (flit : List Byte) (s : State) : Res :=
  let z := s.zld[p]
  .next (if flit.length ≠ 512 ∨ (!sbStates z ∧ !helloDue z) then s else
    let c := flitCorrect flit
    let s1 := modZ s p (fun z => { z with fec := z.fec + word32 c.2 })
    if !flitCrcOk c.1 then sendIdle (modZ s1 p (fun z => { z with crcFails := z.crcFails + 1, rplyDue := true })) p
    else if sbStates z then goodFlit s1 p c.1
    else helloFlit s1 p c.1)

/-! ## Frames (R308 to R311) -/

/-- The flits of a tile of `len` bytes (fuel: a bound on them). -/
def flitsFrom (len : Nat) : Nat → Nat → Nat
  | 0, f => f
  | n + 1, f => if len + 48 + 16 * ceilDiv f 32 ≤ 464 * f then f else flitsFrom len n (f + 1)
def frameFlits (len : Nat) : Nat := flitsFrom len 142 1

/-- The frame header (Table 11.4). -/
structure FrameHdr where
  epoch : Nat
  job : W32
  planId : W64
  step : Nat
  xfer : Nat
  src : Nat
  dst : Nat
  port : Nat
  seq : Nat
  len : Nat
  deriving DecidableEq, Repr

def frameHead (h : FrameHdr) : List Byte :=
  [0x11, 0] ++ beBytes 2 h.epoch ++ beBytes 4 h.job.toNat ++ beBytes 8 h.planId.toNat ++ beBytes 4 h.step ++ beBytes 2 h.xfer ++
  beBytes 2 h.src ++ beBytes 2 h.dst ++ [byteOf h.port, 0] ++ beBytes 4 h.seq ++ beBytes 4 h.len ++ List.replicate 12 0

def parseFrame (b : List Byte) : FrameHdr where
  epoch := be16 b 2
  job := word32 (be32 b 4)
  planId := word64 (ofBe (bslice b 8 8))
  step := be32 b 0x10
  xfer := be16 b 0x14
  src := be16 b 0x16
  dst := be16 b 0x18
  port := u8 b 0x1A
  seq := be32 b 0x1C
  len := be32 b 0x20

/-- The key, the salt and the nonce of a group (R309). -/
def frameX (h : FrameHdr) : List Byte := beBytes 2 h.src ++ beBytes 2 h.dst ++ [byteOf h.port] ++ beBytes 2 h.epoch
def frameKey (k : List Byte) (h : FrameHdr) : List Byte := kmac256 k (frameX h) 32 (ascii "ZLD-FK")
def frameSalt (k : List Byte) (h : FrameHdr) : List Byte := kmac256 k (frameX h) 4 (ascii "ZLD-FS")
def frameNonce (k : List Byte) (h : FrameHdr) (g : Nat) : List Byte := frameSalt k h ++ beBytes 2 h.epoch ++ beBytes 4 h.seq ++ beBytes 2 g

/-- The plaintext of each group: 32 flits less the tag, and in group 0 less the frame header. -/
def frameGroups (b : List Byte) : List (List Byte) := b.take 14784 :: chunks 14832 (b.drop 14784)

/-- The used payloads of a frame's flits, each with TAG. -/
def frameSeal (k : List Byte) (h : FrameHdr) (b : List Byte) : List (List Byte × Bool) :=
  let aad := frameHead h
  ((frameGroups b).mapIdx (fun g pt =>
    let fl := chunks 464 ((if g = 0 then aad else []) ++ gcmSeal (frameKey k h) (frameNonce k h g) aad pt)
    fl.mapIdx (fun i f => (f, i + 1 == fl.length)))).flatten

/-- The job's key K_job, in a JOB slot of the partition (R350). -/
def jobKey (s : State) (p : TenantId) (job : W32) : Option (List Byte) :=
  (s.rot.slots.toList.find? (fun k => match k with
    | some x => x.kind == 2 && x.part == p && x.job == job
    | none => false)).bind (fun k => k.map (·.secret))

/-- Check 1 of R310. -/
def frameFormOk (fr : List (List Byte × Bool)) : Bool :=
  let b := (fr.head?.map (·.1)).getD []
  let h := parseFrame b
  48 ≤ b.length && u8 b 0 == 0x11 && u8 b 1 == 0 && u8 b 0x1B == 0 && resvZero b 0x24 12 && 128 ≤ h.len && h.len ≤ 65600 && h.len % 64 == 0 &&
  fr.length == frameFlits h.len && (fr.map (fun f => f.1.length)).foldl (· + ·) 0 == h.len + 48 + 16 * ceilDiv fr.length 32

/-- Check 2 of R310: the partition, when the frame comes from the job's verified member to this rank. -/
def framePart (s : State) (p : PortId) (h : FrameHdr) : Option TenantId :=
  match portShare s p with
  | none => none
  | some t =>
    match (getPart s t).job, s.sch.parts[t].running with
    | some j, some g =>
      if s.zld[p].state = .up ∧ j.job = h.job ∧ j.members[h.src]? = some s.zld[p].verified ∧ h.dst = g.rank then some t else none
    | _, _ => none

/-- The frame sequence kept for a port, job and source rank; before the first frame the epoch is 1. -/
def rxSeqOf (s : State) (p : PortId) (t : TenantId) (job : W32) (rank : Nat) : ZSeq :=
  (s.zrx.find? (fun z => z.port == p && z.part == t && z.job == job && z.rank == rank)).getD
    { port := p, part := t, job := job, rank := rank, epoch := 1, seq := none }

/-- Check 3 of R310. -/
def frameFresh (z : ZSeq) (h : FrameHdr) : Bool :=
  (h.epoch == z.epoch && (match z.seq with
    | some q => decide (q < h.seq)
    | none => true)) || h.epoch == z.epoch + 1

/-- Check 4 of R310: the tile's bytes when every group's tag verifies. -/
def frameOpen (k : List Byte) (h : FrameHdr) (fr : List (List Byte × Bool)) : Option (List Byte) :=
  let aad := ((fr.head?.map (·.1)).getD []).take 48
  let gs := chunks 32 fr
  let ok := gs.all (fun g => (g.map (·.2)) == (List.range g.length).map (fun i => i + 1 == g.length) && 16 ≤ ((g.getLast?.map (·.1)).getD []).length)
  if !ok then none
  else (gs.zipIdx).foldl (fun acc g => acc.bind (fun b =>
    let body := (g.1.map (·.1)).flatten
    (gcmOpen (frameKey k h) (frameNonce k h g.2) aad (if g.2 = 0 then body.drop 48 else body)).map (b ++ ·))) (some [])

/-- The frame passes to Reduce ingress. -/
def framePass (s : State) (p : PortId) (t : TenantId) (h : FrameHdr) (b : List Byte) : State :=
  let z : ZSeq := { port := p, part := t, job := h.job, rank := h.src, epoch := h.epoch, seq := some h.seq }
  { s with
    zrx := z :: s.zrx.filter (fun y => !(y.port == p && y.part == t && y.job == h.job && y.rank == h.src)),
    red := { s.red with inq := s.red.inq ++
      [{ port := p, part := t, planId := h.planId, step := h.step, xfer := h.xfer, tile := { hdr := parseHdr (b.take 64), payload := b.drop 64 }, origin := none }] } }

/-- The verdict of R310: the code of the check that fails, or the tenant and the tile's bytes. -/
def frameCheck (s : State) (p : PortId) (fr : List (List Byte × Bool)) : Nat × Option (TenantId × List Byte) :=
  let h := parseFrame ((fr.head?.map (·.1)).getD [])
  if !frameFormOk fr then (codeZldProto, none)
  else match framePart s p h with
    | none => (codeZldProto, none)
    | some t =>
      if !frameFresh (rxSeqOf s p t h.job h.src) h then (codeZldAuth, none)
      else match (jobKey s t h.job).bind (fun k => frameOpen k h fr) with
        | none => (codeZldAuth, none)
        | some b => (0, some (t, b))

/-- ZALED_FRAME (R310): the first complete frame is checked, then handed to Reduce ingress or discarded; its flits leave the buffer. -/
def execZaledFrame (p : PortId) (s : State) : Res :=
  .next (match s.zld[p].frames with
    | [] => s
    | fr :: rest =>
      let s1 := freeFlits (modZ s p (fun z => { z with frames := rest })) p fr.length
      let s2 : State := match frameCheck s p fr with
        | (_, some (t, b)) => framePass s1 p t (parseFrame ((fr.head?.map (·.1)).getD [])) b
        | (c, none) => frameDiscard s1 p c
      if s2.zld[p].state = .up then sendIdle s2 p else s2)

end Sys2Proof.Machine
end

