-- ==== Sys2Proof/Machine/Reduce.lean ====
section
/-! DEFINITION. Reduce: tiles sent and taken, and the end of transfers (R272, R288 to R293). -/

namespace Sys2Proof.Machine

/-! ## Egress (R288, R289, R291) -/

/-- The header of the source position, as a tile of the transfer (R290): `k` is its index, `last` the transfer's final tile. -/
def xferHdr (s : State) (b : BayId) (bin : Bin) (pos k : Nat) (last : Bool) : TileHdr :=
  let x : BinStream := { mode := 1, port := 0, cls := 253, firstPos := pos, positions := 1, bins := [bin.index], bound := [(0, bin)] }
  { readHdr s b x bin pos (readNoise s b x bin) with tileIndex := k, last := last }

/-- The presence tile j of a sender's bin (R291). -/
def presenceTile (s : State) (b : BayId) (bin : Bin) (j k : Nat) (last : Bool) : Tile :=
  let n := min 524288 (binContribs bin - 524288 * j)
  { hdr := { ring := 1, job := bin.job, tileIndex := k, count := ceilDiv n 32, last := last },
    payload := locRead s (binLoc b bin) (presenceOff bin + 65536 * j) (ceilDiv n 8) }

/-- The next tile of a SEND: none while it cannot be read. -/
def sendTileOf (s : State) (p : TenantId) (g : Image) (x : Xfer) (k : Nat) (lf : LineFaults) : Option (Tile × State) :=
  let d := dataTiles s p g.job x
  let last := k + 1 == allTiles s p g.job x
  if k < d then
    match xferBin s p x with
    | none => none
    | some (b, bin0) =>
      let pos := x.firstPos + k
      if bin0.t ≤ pos then none
      else
        let s1 := binFaults s b bin0 [(pos * 65536, 65536), (poisonOff bin0 + 2 * pos, 2), (presenceOff bin0, presenceLen bin0)] lf
        let bin := (findBin s1 b bin0.index).getD bin0
        some (readTile s1 b bin pos (xferHdr s1 b bin pos k last), s1)
  else
    match presSource s p g.job x with
    | none => none
    | some (b, bin0) =>
      let s1 := binFaults s b bin0 [(presenceOff bin0, presenceLen bin0)] lf
      some (presenceTile s1 b ((findBin s1 b bin0.index).getD bin0) (k - d) k last, s1)

/-- The bytes of a tile that a frame carries: header and used payload, a multiple of 64, at least 128. -/
def frameBody (t : Tile) : List Byte :=
  let n := max 128 (64 + ceilDiv t.payload.length 64 * 64)
  padTo n (hdrBytes t.hdr ++ t.payload)

/-- The frame sequence of a port and job in sending: the last one used, and the next. -/
def txSeqOf (s : State) (p : PortId) (t : TenantId) (job : W32) : ZSeq :=
  (s.ztx.find? (fun z => z.port == p && z.part == t && z.job == job)).getD { port := p, part := t, job := job, rank := 0, epoch := 1, seq := none }
def nextFrame (z : ZSeq) : ZSeq :=
  match z.seq with
  | none => { z with seq := some 0 }
  | some q => if q + 1 < 2 ^ 31 then { z with seq := some (q + 1) } else { z with epoch := z.epoch + 1, seq := some 0 }

/-- Send a tile as a Zaled frame: none while the peer's credit, the replay buffer or the job key lacks. -/
def sendFrame (s : State) (p : TenantId) (port : PortId) (g : Image) (x : Xfer) (i : Nat) (t : Tile) : Option State :=
  let z := s.zld[port]
  let body := frameBody t
  let f := frameFlits body.length
  match jobKey s p g.job with
  | none => none
  | some k =>
    if z.state ≠ .up ∨ z.credit + z.peerFreed < z.dataSent + f ∨ replayRoom < z.replayBuf.length + f then none
    else
      let q := nextFrame (txSeqOf s port p g.job)
      let h : FrameHdr := {
        epoch := q.epoch, job := g.job, planId := g.planId, step := s.sch.parts[p].step.toNat, xfer := i, src := g.rank, dst := x.peer,
        port := port.1, seq := q.seq.getD 0, len := body.length }
      let fl := frameSeal k h body
      let s1 := { s with ztx := q :: s.ztx.filter (fun y => !(y.port == port && y.part == p && y.job == g.job)) }
      some ((fl.zipIdx).foldl (fun s e => sendKept s port 1 (sbFlags e.2 fl.length + 4 * b2n e.1.2) e.1.1) s1)

/-- Send a tile as a WRD TILE message with shelfmark 0 (R292): none while the channel is not open or is held, or while a tile of the
transfer still waits for its answer, since the tiles of a transfer share one msg_id (R105, notes/assumptions/35.md). -/
def sendWrdTile (s : State) (p : TenantId) (x : Xfer) (i : Nat) (t : Tile) : Option State :=
  match getChan s x.chan with
  | none => none
  | some c =>
    let id := word32 (s.sch.parts[p].step.toNat % 65536 * 65536 + i)
    if c.state ≠ .opened ∨ c.part ≠ tenantPart p ∨ heldOff s x.chan ∨ s.trn.tx.any (fun m => m.chan == x.chan && m.msgId == id && m.shelfmark == 0) then none
    else
      let b := tileBytes t
      some (sendMessage s { chan := x.chan, shelfmark := 0, msgId := id, put := false, winOff := 0, hdr := b.take 64, bytes := b.drop 64, bay := none })

/-- May egress start a tile of this transfer now (R272, R289, R294)? -/
def maySend (s : State) (p : TenantId) (g : Image) (x : Xfer) (r : XferRun) : Bool :=
  let t := stepNow s p g
  x.send && !r.ended && s.sch.parts[p].stepping && xferFrom t x ≤ s.alm.t.toNat && s.alm.t.toNat + g.guardNs ≤ xferTo t x &&
  (if r.sent = 0 then redBegins s p else !redAbort s p) && xferPortUp s x && r.sent < allTiles s p g.job x

/-- REDUCE_SEND_TILE (R289). -/
def execReduceSendTile (p : TenantId) (xfer : Nat) (lf : LineFaults) (s : State) : Res :=
  .next (match slotImage s p, xferRec s p xfer, findRun s p xfer with
    | some g, some x, some r =>
      if !maySend s p g x r then s
      else match sendTileOf s p g x r.sent lf, finOpt 8 x.port with
        | some (t, s1), some port =>
          (match (if x.eth then sendWrdTile s1 p x xfer t else sendFrame s1 p port g x xfer t) with
           | none => s
           | some s2 =>
             let r1 := { r with sent := r.sent + 1 }
             let s3 := modRedShare (putRun s2 r1) p (fun h => { h with tx := h.tx + 1 })
             if r1.sent < allTiles s3 p g.job x then s3 else xferEnd s3 p g xfer x r1)
        | _, _ => s
    | _, _, _ => s)

/-! ## Ingress (R272, R290 to R292) -/

/-- Where a tile falls against the windows of its transfer. -/
inductive TileTime where
  | early | inStep (step : W32) | late
  deriving DecidableEq, Repr

/-- The step a tile names: all 32 bits on Zaled, the low 16 on Ethernet. -/
def stepIs (q : RedTile) (n : Nat) : Bool := if q.origin.isSome then q.step % 65536 == n % 65536 else q.step == n

/-- The window test of R272 on this almanac, for the step in progress, the next one and earlier ones. -/
def tileTime (s : State) (p : TenantId) (g : Image) (x : Xfer) (q : RedTile) : TileTime :=
  let sp := s.sch.parts[p]
  let t := stepNow s p g
  let now := s.alm.t.toNat
  let next := if sp.slot = 0 then sp.t0.toNat else t + 10000 * g.period
  if sp.started && stepIs q sp.step.toNat then
    (if !sp.stepping || xferTo t x < now then .late else if xferFrom t x ≤ now + g.guardNs then .inStep sp.step else .early)
  else if stepIs q (sp.step.toNat + 1) then (if xferFrom next x ≤ now + g.guardNs then .inStep (sp.step + 1) else .early)
  else if q.step < sp.step.toNat then .late else .early

/-- A tile of a transfer is rejected: one XFER_REJECT per transfer per step (Table 10.17). A transfer without a run, or one that no
record names, is known by the plan and the index that its tile carries, and its step is the one in progress (notes/assumptions/35.md). -/
def xferReject (s : State) (p : TenantId) (q : RedTile) (peer : Nat) (run : Option XferRun) : State :=
  match run with
  | some r =>
    if r.rejected then s
    else logEv (putRun s { r with rejected := true }) (tenantPart p) .red codeXferReject (q.planId.toNat % 2 ^ 32) (peer * 65536 + q.xfer) q.step 0
  | none =>
    if s.red.shares[p].rejects.contains (q.planId, q.xfer) then s
    else logEv (modRedShare s p (fun h => { h with rejects := (q.planId, q.xfer) :: h.rejects })) (tenantPart p) .red codeXferReject
      (q.planId.toNat % 2 ^ 32) (peer * 65536 + q.xfer) q.step 0

/-- The RECV record that a tile's plan, transfer index and arrival name. -/
def recvOf (s : State) (p : TenantId) (q : RedTile) : Option (Image × Xfer) :=
  match slotImage s p with
  | none => none
  | some g =>
    match g.xfers[q.xfer]? with
    | none => none
    | some x =>
      let via : Bool := match q.origin with
        | some r => x.eth && x.chan == r.chan
        | none => !x.eth && x.port == q.port.1
      if g.planId = q.planId ∧ !x.send ∧ via then some (g, x) else none

/-- The checks on a data tile: header, job, ring, and the slice offset of its position. -/
def dataTileOk (s : State) (p : TenantId) (x : Xfer) (t : Tile) : Option (BayId × Bin) :=
  match xferBin s p x with
  | none => none
  | some (b, y) =>
    let pos := x.firstPos + t.hdr.tileIndex
    if hdrOk (modsOf s (tenantPart p) t.hdr.job) t.hdr && t.hdr.job == y.job && t.hdr.ring == y.ring && decide (pos < y.t) &&
        t.hdr.sliceOffset == y.base + pos * binCap y then some (b, y) else none

/-- What Reduce ingress finds wrong with a payload (R35), MISFIT before NON_CANONICAL (R443). -/
def ingressCause (r : Ring) (t : Tile) : Option Nat :=
  pickCause none ((if payloadShapeOk r.size t then [] else [codeMisfit]) ++ (if canonicalOk r t then [] else [codeNonCanonical]))

/-- Add a tile into a position of every copy, or enter it in the poison map. -/
def addPosition (s : State) (p : TenantId) (q : RedTile) (b : BayId) (y : Bin) (pos : Nat) : State :=
  let r := binRing s y
  let t := q.tile
  if t.hdr.poison then setPoison s b y pos t.hdr.poisonCause
  else match ingressCause r t with
  | some c => logEv (setPoison s b y pos c) (tenantPart p) .red c (q.port.1 * 65536) t.hdr.tileIndex t.hdr.job.toNat 0
  | none => (binLocs b y).foldl (fun s l =>
    let s1 := addAtLoc s l r.size (ringAdd r) pos t
    if locUe s1 l (pos * 65536) 65536 then setLocPoison s1 b l y pos codeUncorrectableMemory else s1) s

/-- OR a presence tile into a bin (R291). -/
def orPresence (s : State) (b : BayId) (y : Bin) (j : Nat) (t : Tile) : State :=
  let n := min 65536 (ceilDiv (binContribs y) 8 - 65536 * j)
  (binLocs b y).foldl (fun s l =>
    let old := locRead s l (presenceOff y + 65536 * j) n
    let new := (old.zip (padTo n t.payload)).mapIdx (fun i ab => ab.1 ||| (ab.2 &&& byteOf (maskOf 8 ((List.range 8).filter (fun k => 524288 * j + 8 * i + k < binContribs y)))))
    locModify s l (presenceOff y + 65536 * j) new) s

/-- A presence tile reaches the bins of pres_mask; a poisoned one poisons every position of them, and a bitmap that GLEAN_OPEN has
frozen takes nothing (R165). -/
def takePresence (s : State) (p : TenantId) (g : Image) (x : Xfer) (j : Nat) (t : Tile) : State :=
  (presBins s p g.job x).foldl (fun s by_ =>
    if t.hdr.poison then (List.range by_.2.t).foldl (fun s k => setPoison s by_.1 by_.2 k t.hdr.poisonCause) s
    else if by_.2.frozen then s
    else orPresence s by_.1 by_.2 j t) s

/-- A tile is committed: counted, noted in the bitmap, answered. -/
def tileTaken (s : State) (p : TenantId) (g : Image) (x : Xfer) (q : RedTile) (r : XferRun) : State :=
  let r1 := { r with got := insertNat q.tile.hdr.tileIndex r.got }
  let s1 := answerTile (modRedShare (putRun s r1) p (fun h => { h with rx := h.rx + 1 })) q.origin []
  if (List.range (allTiles s1 p g.job x)).all (fun k => r1.got.contains k) then xferEnd s1 p g r1.idx x r1 else s1

/-- The run of a transfer in a step, begun by its first tile. -/
def runOf (s : State) (p : TenantId) (i : Nat) (step : W32) : XferRun × State :=
  match s.red.runs.find? (fun r => r.part == p && r.idx == i && r.step == step) with
  | some r => (r, s)
  | none =>
    let r : XferRun := { part := p, idx := i, step := step }
    (r, modRed s (fun d => { d with runs := d.runs ++ [r] }))

/-- A tile within its window. -/
def takeInWindow (s : State) (p : TenantId) (g : Image) (x : Xfer) (q : RedTile) (step : W32) (lf : LineFaults) : State :=
  let rs := runOf s p q.xfer step
  let r := rs.1
  let s := rs.2
  let k := q.tile.hdr.tileIndex
  let t := q.tile
  if r.got.contains k then (match q.origin with
    | some o => replyAck s o 1 o.segs
    | none => s)
  else if r.ended || redAbort s p || (r.got.isEmpty && !redBegins s p) then xferReject s p q x.peer (some r)
  else if k < dataTiles s p g.job x then
    (match dataTileOk s p x t with
     | none => xferReject s p q x.peer (some r)
     | some (b, y0) =>
       let pos := x.firstPos + k
       let s1 := binFaults s b y0 [(pos * 65536, 65536), (poisonOff y0 + 2 * pos, 2)] lf
       match findBin s1 b y0.index with
       | none => s1
       | some y => tileTaken (addPosition s1 p q b y pos) p g x q r)
  else if k < allTiles s p g.job x ∧ hdrOk [] t.hdr ∧ t.hdr.ring = 1 ∧ t.hdr.job = g.job then
    tileTaken (takePresence s p g x (k - dataTiles s p g.job x) t) p g x q r
  else xferReject s p q x.peer (some r)

/-- REDUCE_INGRESS_TILE (R290): the first tile handed to Reduce ingress. -/
def execReduceIngressTile (lf : LineFaults) (s : State) : Res :=
  .next (match s.red.inq with
    | [] => s
    | q :: rest =>
      let s1 := modRed s (fun d => { d with inq := rest })
      match recvOf s1 q.part q with
      | none => xferReject s1 q.part q 0 none
      | some (g, x) =>
        match tileTime s1 q.part g x q with
        | .late => modRedShare s1 q.part (fun h => { h with late := h.late + 1 })
        | .early => xferReject s1 q.part q x.peer (findRun s1 q.part q.xfer)
        | .inStep n => takeInWindow s1 q.part g x q n lf)

/-! ## The end of a transfer (R272, R293) -/

/-- XFER_RECV_END (R293): the last slot of a RECV has ended. -/
def execXferRecvEnd (p : TenantId) (xfer : Nat) (s : State) : Res :=
  .next (match slotImage s p, xferRec s p xfer, findRun s p xfer with
    | some g, some x, some r =>
      if !x.send && !r.ended && s.sch.parts[p].stepping && xferTo (stepNow s p g) x ≤ s.alm.t.toNat then xferEnd s p g xfer x r else s
    | _, _, _ => s)

/-- XFER_SEND_CUTOFF (R272): the last slot of a SEND less guard_ns has ended. -/
def execXferSendCutoff (p : TenantId) (xfer : Nat) (s : State) : Res :=
  .next (match slotImage s p, xferRec s p xfer, findRun s p xfer with
    | some g, some x, some r =>
      if x.send && !r.ended && s.sch.parts[p].stepping && xferTo (stepNow s p g) x < s.alm.t.toNat + g.guardNs then xferEnd s p g xfer x r else s
    | _, _, _ => s)

/-- ETH_LINK_DOWN (R85): the port or half-port loses its link and trains anew, and the SENDs in progress on a port left without one fail (R293). -/
def ethDown (s : State) (p : PortId) (half : Bool) : State :=
  let s1 := modEth s p (fun e => if ethMode e half then halfLink e half false else if half then { e with link1 := false } else { e with link0 := false })
  if s1.eth[p].link0 || s1.eth[p].link1 then s1 else portDownSends s1 p
def execEthLinkDown (p : PortId) (half : Bool) (s : State) : Res :=
  .next (if (if half then s.eth[p].link1 else s.eth[p].link0) then ethDown s p half else s)

end Sys2Proof.Machine
end

