-- ==== Sys2Proof/Machine/Queues.lean ====
section
/-! DEFINITION. Queues, submission entries, completions and doorbells (R321 to R327, Tables 11.8 to 11.11). -/

namespace Sys2Proof.Machine

/-- The partition of a function, none for the debug path and the root-of-trust processor. -/
def fnPart : Fn → Option PartId
  | .pf => some mgmt
  | .vf n => some (tenantPart n)
  | _ => none

def modQm (s : State) (f : Qm → Qm) : State := { s with qm := f s.qm }
def getQueue (s : State) (q : Nat) : Option Queue := lookup q s.qm.queues
def putQueue (s : State) (q : Nat) (x : Queue) : State := modQm s (fun m => { m with queues := insertKey q x m.queues })
def dropQueue (s : State) (q : Nat) : State := modQm s (fun m => { m with queues := eraseKey q m.queues })
def ringSize (x : Queue) : Nat := 2 ^ x.k

/-! ## MSI-X (Table 11.7) -/

/-- The MSI-X vectors of a partition's function (Table 11.7). -/
def vectorsOf (p : PartId) : Nat := if p = mgmt then 128 else 120

def msixOf (s : State) (p : PartId) (v : Nat) : MsixEntry := (lookup (128 * p.1 + v) s.link.msix).getD {}
def putMsix (s : State) (p : PartId) (v : Nat) (e : MsixEntry) : State :=
  { s with link := { s.link with msix := insertKey (128 * p.1 + v) e s.link.msix } }

/-- Raise a vector: its message goes out, or, while it is masked, its PBA bit is set; nothing while MSI-X is disabled (R318). -/
def raiseMsix (s : State) (p : PartId) (v : Nat) : State :=
  if s.link.msixOff.contains p ∨ vectorsOf p ≤ v then s
  else
    let e := msixOf s p v
    if e.mask then putMsix s p v { e with pending := true } else emitOut s (.msix p v e.addr e.data)

/-- A write of one word of a function's BAR4: a word of its MSI-X table. A vector that is unmasked with its PBA bit set sends its message; a
write of the table enables MSI-X again after a function reset (notes/assumptions/50.md). The PBA is read-only, and the CXL component
registers are written by HDM_DECODER_COMMIT. -/
def msixWrite (s : State) (p : PartId) (off : Nat) (val : W32) : State :=
  let v := off / 16
  if vectorsOf p ≤ v then s
  else
    let e := msixOf s p v
    let k := off / 4 % 4
    let e1 : MsixEntry :=
      if k = 0 then { e with addr := (e.addr &&& 0xFFFFFFFF00000000) ||| word64 val.toNat }
      else if k = 1 then { e with addr := (e.addr &&& 0xFFFFFFFF) ||| word64 (val.toNat * 2 ^ 32) }
      else if k = 2 then { e with data := val }
      else { e with mask := val.getLsbD 0 }
    let s1 := { s with link := { s.link with msixOff := s.link.msixOff.erase p } }
    if e1.pending ∧ !e1.mask then emitOut (putMsix s1 p v { e1 with pending := false }) (.msix p v e1.addr e1.data)
    else putMsix s1 p v e1

/-- Is a queue in a partition's range (R321)? -/
def queueIn (s : State) (p : PartId) (q : Nat) : Bool := s.qm.base[p] ≤ q && q < s.qm.base[p] + s.qm.count[p]

/-- Entries between two ring places. -/
def ringGap (x : Queue) (a b : Nat) : Nat := (b + ringSize x - a) % ringSize x

/-- Is a CQ full: one place of the ring stays empty, so that full and empty differ? -/
def cqFull (x : Queue) : Bool := ringGap x x.head x.tail + 1 == ringSize x

/-- A queue goes to ERROR with an entry in its partition's daybook (Table 11.11). -/
def queueError (s : State) (q : Nat) (x : Queue) (code : Nat) : State :=
  logN (putQueue s q { x with state := .error }) x.part (.qm x.part) code q 0

/-- A doorbell that is discarded: at most one entry a millisecond a function (R322). -/
def doorbellLost (s : State) (fn : Fn) (p : PartId) (q : Nat) : State :=
  if rateOk s (.doorbell fn) 1000000 then logN (rateMark s (.doorbell fn)) p (.qm p) codeQmDoorbell q 0 else s

/-- A doorbell of an ACTIVE queue: the new SQ tail or CQ head, or ERROR. -/
def doorbellMove (s : State) (q : Nat) (x : Queue) (v : Nat) : State :=
  if ringSize x ≤ v then queueError s q x codeQmDoorbell
  else if x.isSq then
    (if ringSize x ≤ ringGap x x.head x.tail + ringGap x x.tail v then queueError s q x codeQmDoorbell else putQueue s q { x with tail := v })
  else if ringGap x x.head x.tail < ringGap x x.head v then queueError s q x codeQmDoorbell
  else putQueue s q { x with head := v }

/-- The queue whose doorbell lies at an offset of a function's BAR2: 8q for the PF, 8 · (q − QM_QBASE) for a VF (R322). -/
def doorbellQueue (s : State) (p : PartId) (off : Nat) : Nat := if p = mgmt then off / 8 else s.qm.base[p] + off / 8

/-- DOORBELL (R322): a write at an offset of BAR2. An 8-byte write gives its low word; the upper word of a doorbell holds nothing. -/
def execDoorbell (fn : Fn) (off : Nat) (val : W32) (s : State) : Res :=
  .next (match fnPart fn with
    | none => s
    | some p =>
      let q := doorbellQueue s p off
      if !partExists s p ∨ off % 8 ≠ 0 ∨ 65536 ≤ off then s
      else match getQueue s q with
        | some x => if queueIn s p q && x.state == .active then doorbellMove s q x (val.toNat % 65536) else doorbellLost s fn p q
        | none => doorbellLost s fn p q)

/-! ## Submission entries (R323, Tables 11.8 and 11.10) -/

/-- The fields of an SQ entry. -/
structure SqEntry where
  opcode : Nat
  argblk : Bool
  fence : Bool
  tag : W32
  argLen : Nat
  resvOk : Bool
  inline : List Byte
  deriving DecidableEq, Repr

def parseEntry (e : List Byte) : SqEntry where
  opcode := u16 e 0
  argblk := bitOf (u8 e 2) 0
  fence := bitOf (u8 e 2) 1
  tag := w32 e 4
  argLen := u16 e 8
  resvOk := u8 e 2 / 4 == 0 && u8 e 3 == 0 && resvZero e 0xA 6
  inline := bslice e 0x10 48

/-- Does the argument block's place fit its length (R323)? Inline arguments are zero-padded. -/
def argPlaceOk (e : SqEntry) : Bool :=
  e.argLen ≤ 4096 && e.argLen % 4 == 0 && (e.argblk == decide (48 < e.argLen)) && resvZero e.inline (if e.argblk then 8 else e.argLen) 48

/-- The bytes of the listed fields of a block of `n` bytes are all that is not zero (R9). -/
def onlyFields (a : List Byte) (n : Nat) (fields : List (Nat × Nat)) : Bool :=
  a.length == n && (List.range n).all (fun i => a.getD i 0 == 0 || fields.any (fun f => f.1 ≤ i && i < f.1 + f.2))

def readClaim (b : List Byte) : Claim := { bay := u8 b 0, lo := u64 b 8, hi := u64 b 16 }
def claimsOk (b : List Byte) : Bool := (chunks 24 b).all (fun c => resvZero c 1 7)

/-- The round's head of the GLEAN commands: job, round, lead bay. -/
def gleanHead : List (Nat × Nat) := [(0, 4), (4, 4), (8, 1)]

/-- A command from its opcode and argument block: none for an unknown opcode, the inner none for a block that breaks R323. -/
def entryInstr (h : CmdHdr) (op : Nat) (a : List Byte) (buf : HostRead) : Option (Option Instr) :=
  let fields (n : Nat) (fs : List (Nat × Nat)) (i : Instr) : Option (Option Instr) := some (if onlyFields a n fs then some i else none)
  if op = 0x0001 then fields 24 [(0, 10), (0xA, 2), (0x10, 8)] (.qCreate h a)
  else if op = 0x0002 then fields 4 [(0, 2)] (.qDelete h (u16 a 0))
  else if op = 0x0101 then
    fields 32 [(0, 14), (0x10, 16)] (.chanCreate h (u32 a 0) (u16 a 4) (u8 a 6) (u8 a 7) (bslice a 8 6) (bslice a 0x10 16))
  else if op = 0x0102 then fields 12 [(0, 10)] (.chanKey h (u32 a 0) (w32 a 4) (u16 a 8))
  else if op = 0x0103 then fields 8 [(0, 5)] (.chanPin h (u32 a 0) ⟨u8 a 4, true⟩)
  else if op = 0x0104 then fields 4 [(0, 4)] (.chanReset h (u32 a 0))
  else if op = 0x0105 then fields 4 [(0, 4)] (.chanFree h (u32 a 0))
  else if op = 0x0106 then fields 64 [(0, 64)] (.winOpen h a)
  else if op = 0x0107 then fields 4 [(0, 4)] (.winClose h (w32 a 0))
  else if op = 0x0108 then fields 4 [(0, 4)] (.winRevoke h (w32 a 0))
  else if op = 0x0201 then fields 64 [(0, 64)] (.binAlloc h a)
  else if op = 0x0202 then fields 16 [(0, 4), (8, 8)] (.binSeal h (w32 a 0) (word64 (u64 a 8)) noFaults)
  else if op = 0x0203 then
    (let n := u16 a 4
     fields (8 + 4 * n) [(0, 6), (8, 4 * n)]
       (.binCombine h (w32 a 0) ((List.range n).map (fun i => w32 a (8 + 4 * i))) noFaults)).map
      (fun i => if 1 ≤ u16 a 4 ∧ u16 a 4 ≤ 64 then i else none)
  else if op = 0x0204 then fields 4 [(0, 4)] (.binDiscard h (w32 a 0))
  else if op = 0x0205 then fields 4 [(0, 4)] (.binFree h (w32 a 0))
  else if op = 0x0301 then
    (let n := u8 a 9
     fields (0x70 + 4 * n) [(0, 10), (0x10, 0x60), (0x70, 4 * n)]
       (.gleanOpen h (w32 a 0) (w32 a 4) (u8 a 8) ⟨u64 a 0x10, noFaults⟩ (u64 a 0x18) (u64 a 0x20) (u64 a 0x28) (bslice a 0x30 64)
         ((List.range n).map (fun i => w32 a (0x70 + 4 * i))))).map (fun i => if 1 ≤ u8 a 9 ∧ u8 a 9 ≤ 16 then i else none)
  else if op = 0x0302 then fields 32 (gleanHead ++ [(0x10, 16)]) (.gleanShares h (w32 a 0) (w32 a 4) (u8 a 8) ⟨u64 a 0x10, noFaults⟩ (u64 a 0x18))
  else if op = 0x0303 then
    (fields 24 (gleanHead ++ [(0xA, 2), (0x10, 8)]) (.gleanExclude h (w32 a 0) (w32 a 4) (u8 a 8) (u16 a 0xA) buf)).map
      (fun i => if 1 ≤ u16 a 0xA ∧ u16 a 0xA ≤ 4096 then i else none)
  else if op = 0x0304 then fields 24 (gleanHead ++ [(0x10, 8)]) (.gleanFinish h (w32 a 0) (w32 a 4) (u8 a 8) (word64 (u64 a 0x10)))
  else if op = 0x0305 then fields 12 gleanHead (.gleanAbort h (w32 a 0) (w32 a 4) (u8 a 8))
  else if op = 0x0401 then fields 16 [(0, 2), (4, 12)] (.latParamLoad h (BitVec.ofNat 16 (u16 a 0)) (u32 a 4) buf)
  else if op = 0x0402 then fields 4 [(0, 4)] (.latParamUnload h (BitVec.ofNat 16 (u16 a 0)) (u16 a 2))
  else if op = 0x0403 then
    fields 96 [(0, 6), (8, 88)] (.latKeyBind h (u8 a 0) (u8 a 1) (u8 a 2) (u8 a 3) (u16 a 4) (w32 a 8) (w32 a 0xC) (u64 a 0x10) (u64 a 0x18) (bslice a 0x20 64))
  else if op = 0x0404 then fields 4 [(0, 2)] (.latKeyUnbind h (u8 a 0) (u8 a 1))
  else if op = 0x0501 then fields 16 [(0, 2), (4, 12)] (.nseParamLoad h (BitVec.ofNat 16 (u16 a 0)) (u32 a 4) buf)
  else if op = 0x0502 then
    (let n := u8 a 8
     fields (0x10 + 24 * n) [(0, 9), (0x10, 24 * n)] (.noiseDraw h (w32 a 0) (w32 a 4) ((chunks 24 (a.drop 0x10)).map readClaim))).map
      (fun i => if 1 ≤ u8 a 8 ∧ u8 a 8 ≤ 16 ∧ claimsOk (a.drop 0x10) then i else none)
  else if op = 0x0503 then
    fields 96 [(0, 1), (8, 88)] (.noiseExport h (u8 a 0) (u64 a 8) (u64 a 0x10) (word64 (u64 a 0x18)) (bslice a 0x20 64))
  else if op = 0x0504 then
    (let n := u8 a 0
     fields (0xA0 + 24 * n) [(0, 1), (8, 152), (0xA0, 24 * n)]
       (.noiseImport h (bslice a 8 152) ((chunks 24 (a.drop 0xA0)).map readClaim))).map
      (fun i => if 1 ≤ u8 a 0 ∧ u8 a 0 ≤ 16 ∧ claimsOk (a.drop 0xA0) then i else none)
  else if op = 0x0505 then fields 4 [(0, 1)] (.noiseClose h (u8 a 0))
  else if op = 0x0506 then
    (let sink : Sink := if u8 a 3 = 1 then .host (word64 (u64 a 0x30)) (word64 (u64 a 0x38)) else .wrd (u32 a 0x30) (w32 a 0x34) (u64 a 0x38)
     fields 64 [(0, 13), (0x10, 4), (0x18, 40)] (.rlsOpen h {
      bay := u8 a 0, source := u8 a 1, level := u8 a 2, job := w32 a 4, round := w32 a 8, seed := u8 a 0xC, presBin := w32 a 0x10,
      lo := u64 a 0x18, hi := u64 a 0x20, region := u64 a 0x28, sink := sink })).map (fun i => if u8 a 3 = 1 ∨ u8 a 3 = 2 then i else none)
  else if op = 0x0507 then fields 16 [(0, 1), (8, 8)] (.rlsResend h (u8 a 0) (u64 a 8))
  else if op = 0x0508 then fields 4 [(0, 1)] (.rlsAbort h (u8 a 0))
  else if op = 0x0601 then fields 80 [(0, 1), (4, 76)] (.schLoad h (u8 a 0) (u32 a 4) (u64 a 8) (bslice a 0x10 64))
  else if op = 0x0602 then fields 8 [(0, 8)] (.schSwap h (word64 (u64 a 0)))
  else if op = 0x0603 then fields 0 [] (.schDiscard h)
  else if op = 0x0604 then fields 4 [(0, 3)] (.schPhase h (BitVec.ofNat 16 (u16 a 0)) (u8 a 2))
  else if op = 0x0605 then fields 0 [] (.schHalt h)
  else none

/-- Is a queue the partition's admin SQ? -/
def adminSq (s : State) (p : PartId) (q : Nat) : Bool := q == s.qm.base[p]

/-- What an entry that was read becomes: a status that completes it at once, or a command. -/
def entryVerdict (s : State) (h : CmdHdr) (e : SqEntry) (args buf : HostRead) : Nat × Option Instr :=
  if !e.resvOk || !argPlaceOk e then (codeQmEntry, none)
  else
    let block : Option (List Byte) := if e.argblk then (match args with
      | .ok b => some (padTo e.argLen b)
      | .failed => none) else some (e.inline.take e.argLen)
    match block with
    | none => (codeQmHostErr, none)
    | some a =>
      match entryInstr h e.opcode a buf with
      | none => (codeQmOpcode, none)
      | some none => (codeQmEntry, none)
      | some (some i) => if e.opcode ≤ 2 ∧ !adminSq s h.part h.sq then (codeQmQstate, none) else (0, some i)

/-- Does a completion wait for a full CQ, so that its SQs stop fetching (R325)? -/
def cqBlocked (s : State) (c : Nat) : Bool :=
  match getQueue s c with
  | none => true
  | some x => x.state != .active || (cqFull x && s.qm.held.any (fun k => match getQueue s k.h.sq with
      | some y => y.cq == c
      | none => false))

/-- The hub fabric and queue manager microcode is in transition: fetching and posting pause (Table 13.9). -/
def qmPaused (s : State) : Bool := s.qm.stopped || (s.rot.comps[(2 : Fin 12)]).active

/-- Commands of a partition in flight. -/
def inFlightOf (s : State) (p : PartId) : Nat := (s.qm.inFlight.filter (fun h => h.part == p)).length

/-- May a queue fetch now (R325)? A DELETING one fetches to complete what it did not dispatch. -/
def mayFetch (s : State) (x : Queue) : Bool :=
  x.isSq && x.head != x.tail && !qmPaused s &&
  (match x.state with
   | .active => !cqBlocked s x.cq && inFlightOf s x.part < 256
   | .deleting _ => true
   | .error => false)

/-! ## Completions (R324, R325) -/

/-- A completion entry (Table 11.9). -/
def cqEntry (c : Completion) (phase : Bool) : List Byte :=
  leBytes 4 c.h.tag.toNat ++ leBytes 2 c.h.sq ++ leBytes 2 c.h.sqHead ++ leBytes 2 c.status ++ leBytes 2 (b2n phase) ++ List.replicate 4 0 ++
  padTo 112 c.result

/-- Raise a CQ's vector; what was unreported is reported. -/
def raiseVector (s : State) (q : Nat) (x : Queue) : State :=
  let s1 := putQueue s q { x with unreported := 0, firstUnreported := none }
  if x.vector = 0xFFFF then s1 else raiseMsix s1 x.part x.vector

/-- Is an SQ other than `q` bound to a CQ? -/
def sqBound (s : State) (cq q : Nat) : Bool := s.qm.queues.any (fun y => y.2.isSq && y.2.cq == cq && y.1 != q)

/-- A deleting SQ with nothing in flight, unfetched or unposted is DISABLED: Q_DELETE completes; an admin SQ takes its CQ
along, unless another SQ is bound to that, when its Q_DELETE is rejected (Table 11.11). -/
def settleSq (s : State) (q : Nat) : State :=
  match getQueue s q with
  | none => s
  | some x =>
    match x.state with
    | .deleting h =>
      if x.head ≠ x.tail ∨ s.qm.inFlight.any (fun k => k.sq == q) ∨ s.qm.held.any (fun k => k.h.sq == q) then s
      else if adminSq s x.part q then (if sqBound s x.cq q then dropQueue s q else dropQueue (dropQueue s q) x.cq)
      else complete (dropQueue s q) h 0 []
    | _ => s

/-- The first completion that waits for a CQ. -/
def heldFor (s : State) (cq : Nat) : Option Completion :=
  s.qm.held.find? (fun k => match getQueue s k.h.sq with
    | some y => y.cq == cq
    | none => false)

/-- Write to host memory for a queue of a partition: through CXL.cache for the PF's rings while it is active, else by CXL.io (R316). -/
def ringWrite (s : State) (p : PartId) (addr : W64) (b : List Byte) : State :=
  if p = mgmt ∧ s.link.cachemem then emitOut s (.cacheWrite addr b) else emitOut s (.hostWrite p addr b)

/-- COMPLETION_POST (R324): the entry is written, the 16 bytes that hold PHASE last, and the vector raised at irq_count entries. -/
def execCompletionPost (cq : Nat) (written : Bool) (s : State) : Res :=
  .next (match getQueue s cq, heldFor s cq with
    | some x, some c =>
      if qmPaused s then s
      else
        let s1 := modQm s (fun m => { m with held := m.held.erase c })
        if x.state = .error then settleSq s1 c.h.sq
        else if cqFull x then s
        else if !written then settleSq (queueError s1 cq x codeQmHostErr) c.h.sq
        else
          let y := { x with tail := (x.tail + 1) % ringSize x, phase := if x.tail + 1 = ringSize x then !x.phase else x.phase,
                            unreported := x.unreported + 1, firstUnreported := some (x.firstUnreported.getD s.alm.t) }
          let at_ := x.ring + word64 (128 * x.tail)
          let s2 := ringWrite (ringWrite s1 x.part (at_ + 16) ((cqEntry c x.phase).drop 16)) x.part at_ ((cqEntry c x.phase).take 16)
          let s3 := modQm s2 (fun m => { m with cmds := vmod m.cmds x.part (· + 1) })
          let s4 := if x.irqCount ≠ 0 ∧ x.irqCount ≤ y.unreported then raiseVector s3 cq y else putQueue s3 cq y
          settleSq s4 c.h.sq
    | _, _ => s)

/-- IRQ_TIMER (R324): irq_time µs after the first unreported entry. -/
def execIrqTimer (cq : Nat) (s : State) : Res :=
  .next (match getQueue s cq with
    | none => s
    | some x =>
      match x.firstUnreported with
      | none => s
      | some t => if x.irqCount ≠ 0 && elapsed s t (1000 * x.irqTime) then raiseVector s cq x else s)

/-! ## Dispatch (R325) -/

/-- The ACTIVE SQs of a partition that have an entry to dispatch; one whose entry waits under FENCE has none. -/
def readySqs (s : State) (p : PartId) : List Nat :=
  (s.qm.queues.filter (fun q => q.2.part == p && q.2.state == .active && mayFetch s q.2 &&
    !(q.2.fenced && s.qm.inFlight.any (fun h => h.sq == q.1)))).map (·.1)

/-- Weighted round robin of a partition's SQs (R325): no other ready SQ has been passed over by this one twice its weight
(notes/assumptions/7.md). -/
def sqTurn (s : State) (p : PartId) (q weight : Nat) : Bool :=
  (readySqs s p).all (fun r => r == q || decide ((s.qm.turns.filter (· == (r, q))).length < 2 * max 1 weight))

/-- An SQ is served: it waits afresh, and every other ready SQ of its partition has been passed over once more. -/
def noteSq (s : State) (p : PartId) (q : Nat) : State :=
  let others := (readySqs s p).filter (· != q)
  let base := s.qm.base[p]
  let kept := s.qm.turns.filter (fun t => t.1 != q && (others.contains t.1 || !(base ≤ t.1 && t.1 < base + s.qm.count[p])))
  modQm s (fun m => { m with turns := kept ++ others.map (fun r => (r, q)) })

/-- A failed read of a ring entry (R320): the SQ goes to ERROR. A DELETING one goes on to its next entry instead, since no completion can
be written for an entry that was not read (DESIGN CHOICE: notes/assumptions/37.md). -/
def ringFailed (s : State) (sq : Nat) (x : Queue) : State :=
  let s1 := { s with link := { s.link with rdFail := s.link.rdFail + 1 } }
  match x.state with
  | .active => queueError s1 sq x codeQmHostErr
  | _ => settleSq (putQueue s1 sq { x with head := (x.head + 1) % ringSize x }) sq

/-- SQ_DISPATCH (R325): fetch the next entry of an SQ and its argument block, and dispatch it. -/
def execSqDispatch (sq : Nat) (entry args buf : HostRead) (s : State) : Res :=
  .next (match getQueue s sq with
    | none => s
    | some x =>
      if !mayFetch s x ∨ (x.state = .active ∧ !sqTurn s x.part sq x.weight) then s
      else match entry with
        | .failed => ringFailed s sq x
        | .ok b =>
          let e := parseEntry b
          if e.fence ∧ x.state = .active ∧ s.qm.inFlight.any (fun h => h.sq == sq) then putQueue s sq { x with fenced := true }
          else
            let head := (x.head + 1) % ringSize x
            let h : CmdHdr := { part := x.part, sq := sq, tag := e.tag, sqHead := head }
            let s0 := if x.state = .active then noteSq s x.part sq else s
            let s1 := modQm (putQueue s0 sq { x with head := head, fenced := false }) (fun m => { m with inFlight := m.inFlight ++ [h] })
            if x.state ≠ .active then complete s1 h codeQmAborted []
            else
              let v := entryVerdict s1 h e args buf
              let s2 := if v.1 = codeQmHostErr then { s1 with link := { s1.link with rdFail := s1.link.rdFail + 1 } } else s1
              match v.2 with
              | none => complete s2 h v.1 []
              | some i => modQm s2 (fun m => { m with dispatched := m.dispatched ++ [i] }))

/-! ## Creating and deleting queues (R321, R327) -/

/-- The queue that Q_CREATE's arguments describe. -/
def parseQueue (p : PartId) (a : List Byte) : Queue where
  part := p
  isSq := u8 a 2 == 1
  k := u8 a 3
  cq := u16 a 4
  ring := word64 (u64 a 0x10)
  vector := u16 a 6
  irqCount := u8 a 8
  weight := u8 a 9
  irqTime := u16 a 0xA

/-- The ranges of Q_CREATE's fields (R322, Table 11.10). -/
def queueArgsOk (p : PartId) (a : List Byte) : Bool :=
  let x := parseQueue p a
  (u8 a 2 == 1 || u8 a 2 == 2) && 4 ≤ x.k && x.k ≤ 16 && x.ring.toNat % 4096 == 0 && (x.vector == 0xFFFF || x.vector < vectorsOf p) &&
  (!x.isSq || 1 ≤ x.weight)

/-- The status of Q_CREATE: the queue is in the range, no admin queue and DISABLED, and an SQ names an ACTIVE CQ of the partition. -/
def qCreateStatus (s : State) (h : CmdHdr) (a : List Byte) : Nat :=
  let x := parseQueue h.part a
  let q := u16 a 0
  if !queueArgsOk h.part a then codeQmEntry
  else if !queueIn s h.part q ∨ q < s.qm.base[h.part] + 2 ∨ (getQueue s q).isSome then codeQmQstate
  else if x.isSq then (match getQueue s x.cq with
    | some c => if c.part = h.part ∧ !c.isSq ∧ c.state = .active then 0 else codeQmQstate
    | none => codeQmQstate)
  else 0

/-- Q_CREATE (R321). -/
def execQCreate (h : CmdHdr) (args : List Byte) (s : State) : Res :=
  let s0 := begun s (.qCreate h args)
  let st := qCreateStatus s0 h args
  .next (if st ≠ 0 then complete s0 h st [] else complete (putQueue s0 (u16 args 0) (parseQueue h.part args)) h 0 [])

/-- The status of Q_DELETE (Table 11.11). -/
def qDeleteStatus (s : State) (h : CmdHdr) (q : Nat) : Nat :=
  if !queueIn s h.part q ∨ q < s.qm.base[h.part] + 2 then codeQmQstate
  else match getQueue s q with
    | none => codeQmQstate
    | some x =>
      match x.state with
      | .deleting _ => codeQmQstate
      | _ => if !x.isSq ∧ s.qm.queues.any (fun y => y.2.isSq && y.2.cq == q) then codeQmQstate else 0

/-- Q_DELETE (R327): a CQ is DISABLED at once, an SQ once every dispatched entry has completed. -/
def execQDelete (h : CmdHdr) (q : Nat) (s : State) : Res :=
  let s0 := begun s (.qDelete h q)
  let st := qDeleteStatus s0 h q
  .next (if st ≠ 0 then complete s0 h st [] else
    match getQueue s0 q with
    | none => complete s0 h codeQmQstate []
    | some x => if x.isSq then settleSq (putQueue s0 q { x with state := .deleting h }) q else complete (dropQueue s0 q) h 0 [])

/-- The admin queues that QM_ADM_CFG describes (Table 11.13): the CQ's vector is raised at each entry. -/
def adminSqOf (s : State) (p : PartId) (c : Nat) : Queue where
  part := p
  isSq := true
  k := bitsOf c 3 0 + 4
  cq := s.qm.base[p] + 1
  ring := s.qm.adm[p].sqAddr
def adminCqOf (s : State) (p : PartId) (c : Nat) : Queue where
  part := p
  isSq := false
  k := bitsOf c 11 8 + 4
  ring := s.qm.adm[p].cqAddr
  vector := if bitsOf c 27 16 < vectorsOf p then bitsOf c 27 16 else 0xFFFF
  irqCount := 1

/-- EN changes from 0 to 1; an admin CQ that outlived its deletion stays as it is. -/
def adminOn (s : State) (p : PartId) (c : Nat) : State :=
  let b := s.qm.base[p]
  let a := adminSqOf s p c
  let d := adminCqOf s p c
  if s.qm.count[p] < 2 ∨ 16 < a.k ∨ 16 < d.k ∨ (getQueue s b).isSome then s
  else putQueue (if (getQueue s (b + 1)).isSome then s else putQueue s (b + 1) d) b a

/-- EN changes from 1 to 0: the admin SQ is deleted, and its CQ with it. -/
def adminOff (s : State) (p : PartId) : State :=
  let b := s.qm.base[p]
  match getQueue s b with
  | none => if sqBound s (b + 1) b then s else dropQueue s (b + 1)
  | some x =>
    match x.state with
    | .deleting _ => s
    | _ => settleSq (putQueue s b { x with state := .deleting { part := p, sq := b, tag := 0, sqHead := 0 } }) b

/-- A write of QM_ADM_CFG: while EN is 1, one that changes another field is discarded (R327). -/
def admCfgEff (s : State) (p : PartId) (val : W32) : State :=
  let old := s.qm.adm[p].cfg
  let v := val &&& 0x8FFF0F0F
  let on := v.msb
  if old.msb ∧ v &&& 0x7FFFFFFF ≠ old &&& 0x7FFFFFFF then s
  else
    let s1 := modQm s (fun m => { m with adm := vmod m.adm p (fun a => { a with cfg := v }) })
    if on ∧ !old.msb then adminOn s1 p v.toNat
    else if !on ∧ old.msb then adminOff s1 p
    else s1

end Sys2Proof.Machine
end

