-- ==== Sys2Proof/Machine/HostLink.lean ====
section
/-! DEFINITION. The host link: PERST#, function resets, TLP and host-read failures, CXL.mem and the HDM decoders (R314 to R320). -/

namespace Sys2Proof.Machine

def modLink (s : State) (f : Link → Link) : State := { s with link := f s.link }

/-! ## Function Level Reset (R318) -/

/-- The Q_DELETEs that wait for queues of a partition. -/
def pendingDeletes (s : State) (p : PartId) : List CmdHdr :=
  s.qm.queues.filterMap (fun q => match q.2.state with
    | .deleting h => if q.2.part = p ∧ s.qm.inFlight.contains h then some h else none
    | _ => none)

/-- Every queue of a partition is DISABLED, completions not yet posted are discarded, MSI-X is disabled and its table as at reset; dispatched
commands run on, and a Q_DELETE ends, its queue being DISABLED. -/
def flrQueues (s : State) (p : PartId) : State :=
  let dels := pendingDeletes s p
  let s1 := modQm s (fun m => { m with
    queues := m.queues.filter (fun q => q.2.part != p), held := m.held.filter (fun c => c.h.part != p),
    dead := m.dead ++ m.inFlight.filter (fun h => h.part == p && !m.dead.contains h),
    adm := vmod m.adm p (fun a => { a with cfg := a.cfg &&& 0x7FFFFFFF }) })
  modLink (dels.foldl (fun s h => complete s h 0 []) s1)
    (fun l => { l with msixOff := if l.msixOff.contains p then l.msixOff else l.msixOff ++ [p], msix := l.msix.filter (fun e => e.1 / 128 != p.1) })

/-- FUNC_RESET names the function: 0 for the PF, n for VF n. -/
def funcReset (s : State) (p : PartId) : State :=
  logN (flrQueues s p) p (.qm p) codeFuncReset (if p = mgmt then 0 else p.1 + 1) 0

/-- VF_FLR (R318). -/
def execVfFlr (n : TenantId) (s : State) : Res := .next (funcReset s (tenantPart n))

/-- An FLR of the PF: its own queues, VF Enable, and every VF in the same way. -/
def pfFlrAll (s : State) : State :=
  (tenantsLive s).foldl funcReset (modLink (funcReset s mgmt) (fun l => { l with vfEnable := false }))

/-- PF_FLR (R318). -/
def execPfFlr (s : State) : Res := .next (pfFlrAll s)

/-! ## The link (R314, R320, R385, R386) -/

/-- The link is lost: the queue manager stops, and releases to HOST sinks fail. -/
def hostLost (s : State) : State :=
  let s1 := modQm (modLink s (fun l => { l with up := false, cachemem := false, width := 0, rate := 0 })) (fun m => { m with stopped := true })
  allBays.foldl (fun s b => match s.bays[b].release.cur with
    | some r => (match r.args.sink with
      | .host _ _ => sinkFail s b
      | .wrd _ _ _ => s)
    | none => s) s1

/-- May the link come up: PERST# high, the 100 MHz reference present, the device out of reset? -/
def linkCan (s : State) : Bool := !s.link.perst && s.pow.refs.getLsbD 2 && !s.pow.inReset && !s.link.up

/-- The link at its trained width and rate; CXL.cache and CXL.mem need 32 GT/s or more (Table 15.11). -/
def linkUp (s : State) (width rate : Nat) : State :=
  if linkCan s ∧ 1 ≤ width ∧ width ≤ 8 ∧ 1 ≤ rate ∧ rate ≤ 6 then
    modQm (modLink s (fun l => { l with up := true, width := width, rate := rate, cachemem := decide (5 ≤ rate) })) (fun m => { m with stopped := false })
  else s

/-- PERST_ASSERT (R385). -/
def execPerstAssert (s : State) : Res :=
  .next (if s.link.perst then s else pfFlrAll (hostLost (modLink s (fun l => { l with perst := true, memQ := [] }))))

/-- PERST_DEASSERT (R386). -/
def execPerstDeassert (width rate : Nat) (s : State) : Res :=
  .next (if s.link.perst then linkUp (modLink s (fun l => { l with perst := false })) width rate else s)

/-- CXL_LINK_DOWN (R320). -/
def execCxlLinkDown (s : State) : Res := .next (if s.link.up then hostLost s else s)

/-- CXL_LINK_UP (R314). -/
def execCxlLinkUp (width rate : Nat) (s : State) : Res := .next (linkUp s width rate)

/-- TLP_MALFORMED (R320). -/
def execTlpMalformed (requester : W16) (s : State) : Res :=
  .next (logN (emitOut (modLink s (fun l => { l with badTlp := l.badTlp + 1 })) (.aer requester)) mgmt .cxl codeCxlProto 0 0)

/-! ## Host reads that fail (R320) -/

/-- The queue entry that a command came from. -/
def hdrOf : Instr → Option CmdHdr
  | .qCreate h _ | .qDelete h _ | .chanCreate h _ _ _ _ _ _ | .chanKey h _ _ _ | .chanPin h _ _ | .chanReset h _ | .chanFree h _
  | .winOpen h _ | .winClose h _ | .winRevoke h _ | .binAlloc h _ | .binSeal h _ _ _ | .binCombine h _ _ _ | .binDiscard h _
  | .binFree h _ | .gleanOpen h _ _ _ _ _ _ _ _ _ | .gleanShares h _ _ _ _ _ | .gleanExclude h _ _ _ _ _ | .gleanFinish h _ _ _ _
  | .gleanAbort h _ _ _ | .latParamLoad h _ _ _ | .latParamUnload h _ _ | .latKeyBind h _ _ _ _ _ _ _ _ _ _ | .latKeyUnbind h _ _
  | .nseParamLoad h _ _ _ | .noiseDraw h _ _ _ | .noiseExport h _ _ _ _ _ | .noiseImport h _ _ | .noiseClose h _ | .rlsOpen h _
  | .rlsResend h _ _ | .rlsAbort h _ | .schLoad h _ _ _ _ | .schSwap h _ | .schDiscard h | .schPhase h _ _ | .schHalt h => some h
  | _ => none

/-- HOST_READ_FAIL (R320): a ring read sends its queue to ERROR; a read for a dispatched command completes it with QM_HOST_ERR. -/
def execHostReadFail (target : HostReadTarget) (s : State) : Res :=
  let s1 := modLink s (fun l => { l with rdFail := l.rdFail + 1 })
  .next (match target with
    | .ring q => (match getQueue s q with
      | some x => if x.isSq ∧ x.state = .active then queueError s1 q x codeQmHostErr else s
      | none => s)
    | .command h => (match s.qm.dispatched.find? (fun i => hdrOf i == some h) with
      | some i => complete (begun s1 i) h codeQmHostErr []
      | none => s))

/-! ## CXL.mem (R317) -/

/-- Does a decoder's range lie wholly within one bay of the management partition, in units of 256 MiB? -/
def hdmRangeOk (s : State) (base size : Nat) : Bool :=
  match finOpt 16 (base / 2 ^ 37) with
  | some b => base % 2 ^ 28 == 0 && size % 2 ^ 28 == 0 && 0 < size && base % 2 ^ 37 + size ≤ 2 ^ 37 && s.bays[b].owner == mgmt
  | none => false

/-- HDM_DECODER_COMMIT (R317); `dec` chooses decoder 1. -/
def execHdmDecoderCommit (dec : Bool) (base size : Nat) (s : State) : Res :=
  let d : Hdm := { base := base, size := size, committed := hdmRangeOk s base size, error := !hdmRangeOk s base size }
  .next (modLink s (fun l => if dec then { l with hdm1 := d } else { l with hdm0 := d }))

def hdmCovers (d : Hdm) (a : Nat) : Bool := d.committed && d.base ≤ a && a < d.base + d.size

/-- Does a committed decoder cover any byte of a bay? -/
def bayDecoded (s : State) (b : BayId) : Bool :=
  [s.link.hdm0, s.link.hdm1].any (fun d => d.committed && d.base / 2 ^ 37 == b.1)

/-- The bay that a device physical address of a committed decoder names, while CXL.mem is active. -/
def hdmBay (s : State) (dpa : Nat) : Option BayId :=
  if s.link.cachemem && (hdmCovers s.link.hdm0 dpa || hdmCovers s.link.hdm1 dpa) then
    (match finOpt 16 (dpa / 2 ^ 37) with
     | some b => if s.bays[b].owner = mgmt then some b else none
     | none => none)
  else none

/-- A read: the line, with CXL poison where it is uncorrectable or its stack is not in service. -/
def cxlRead (s : State) (b : BayId) (a : Nat) : State :=
  let ue := !stackReady s.bays[b].mem || (lineUe s.bays[b].mem a && !lineClosed s b a)
  emitOut s (.readData (openRead s b (lineAddr a) 64) ue)

/-- A write of a line, or of less of one by read-merge-write at the bank adder; none on a closed line. -/
def cxlWrite (s : State) (b : BayId) (a : Nat) (data : List Byte) : State :=
  if lineClosed s b a then s
  else modMem s b (fun m => if data.length = 64 then dramWrite m a data else dramModify m a data)

/-- A request served: its write data, or none for a read. -/
def cxlServe (s : State) (r : Nat × Option (List Byte)) : State :=
  match hdmBay s r.1 with
  | none => s
  | some b => (match r.2 with
    | none => cxlRead s b (r.1 % 2 ^ 37)
    | some d => cxlWrite s b (r.1 % 2 ^ 37) d)

/-- A request, which waits while its stack is in self-refresh. -/
def cxlRequest (s : State) (b : BayId) (r : Nat × Option (List Byte)) (lf : LineFaults) : State :=
  if s.bays[b].mem.selfRefresh then modLink s (fun l => { l with memQ := l.memQ ++ [r] })
  else cxlServe (readFaults s b [(lineAddr (r.1 % 2 ^ 37), 64)] lf) r

/-- The waiting requests of a stack that left self-refresh. -/
def cxlDrain (s : State) (b : BayId) : State :=
  let mine := s.link.memQ.filter (fun r => r.1 / 2 ^ 37 == b.1)
  mine.foldl cxlServe (modLink s (fun l => { l with memQ := l.memQ.filter (fun r => r.1 / 2 ^ 37 != b.1) }))

/-- CXL_MEM_READ (R317). -/
def execCxlMemRead (dpa : Nat) (lf : LineFaults) (s : State) : Res :=
  .next (match hdmBay s dpa with
    | none => s
    | some b => cxlRequest s b (dpa, none) lf)

/-- CXL_MEM_WRITE (R317): bytes of one line. -/
def execCxlMemWrite (dpa : Nat) (data : List Byte) (lf : LineFaults) (s : State) : Res :=
  .next (match hdmBay s dpa with
    | none => s
    | some b => if data.length = 0 ∨ 64 < dpa % 64 + data.length then s else cxlRequest s b (dpa, some data) lf)

end Sys2Proof.Machine
end

