-- ==== Sys2Proof/Machine/Trust.lean ====
section
/-! DEFINITION. The mailbox of the root-of-trust processor, identity and attestation, and the life of a partition
(R331 to R338, R343, R355, R356). -/

namespace Sys2Proof.Machine

/-! ## The mailbox (R343, R356, Table 12.20) -/

def modRot (s : State) (f : Rot → Rot) : State := { s with rot := f s.rot }
def modMbx (s : State) (f : Mbx → Mbx) : State := modRot s (fun r => { r with mbx := f r.mbx })

/-- Did the start of Table 12.4 fail? -/
def startFailed (s : State) : Bool := s.rot.identityErr || s.rot.firmwareErr

/-- A command ends: a response longer than the buffer gives RSP_SHORT and is not written; the vector of MBX_VECTOR is raised. -/
def mbxDone (s : State) (status : Nat) (resp : List Byte) : State :=
  let m := s.rot.mbx
  let short := decide (m.rspLen < resp.length)
  let s1 := modMbx s (fun m => { m with
    go := false, busy := false, done := true, isHeld := false, running := none,
    status := if short then codeRspShort else status, used := if short then 0 else resp.length })
  let s2 := if short ∨ resp = [] then s1 else emitOut s1 (.mailbox m.rsp resp)
  if m.vector.msb then raiseMsix s2 mgmt (m.vector.toNat % 128) else s2

/-- Does the request that GO started name this opcode and partition, and is it still to be run? -/
def mbxMatch (s : State) (op : Nat) (part : Option Nat) : Bool :=
  let m := s.rot.mbx
  m.busy && m.running.isNone && m.curOp.toNat % 65536 == op && (match part with
    | some p => bitsOf m.curOp.toNat 20 16 == p
    | none => true)

/-- Does a row carry a request of the length that MBX_REQ_LEN named at GO? Requests that reach the model in parsed form carry no length
(notes/assumptions/38.md). -/
def reqFits (s : State) (i : Instr) : Bool :=
  let is (n : Nat) : Bool := n == s.rot.mbx.curLen
  match i with
  | .attest _ nonce => is nonce.length
  | .partCreate _ layout => is layout.length
  | .jobCreate _ record => is record.length
  | .jobKeyWrap _ req => is req.length
  | .jobKeyAccept _ req => is req.length
  | .keyLoad _ blob => is blob.length
  | .ownerKeyLoad _ pkg key => is (pkg.length + key.length)
  | _ => true

/-- Run the requested command, or hold it while the processor's own firmware activates. -/
def mbxGate (s : State) (i : Instr) (op : Nat) (part : Option Nat) (run : State → State) : State :=
  if !mbxMatch s op part || !reqFits s i then s
  else if rotBusy s then modMbx s (fun m => { m with running := some i, isHeld := true })
  else run (modMbx s (fun m => { m with running := some i }))

/-- Ask an instance for what a command draws; it goes on at once, or when the instance serves it. -/
def mbxAsk (s : State) (p : PartId) (sizes : List Nat) (i : Instr) (cont : List Byte → State → State) : State :=
  match drbgAsk s p sizes (.mailbox i) with
  | (some b, s1) => cont b s1
  | (none, s1) => s1

/-- A Falcon signature's field: at most 1,280 bytes. -/
def falconSig (body rand : List Byte) : List Byte := (Config.falconSign identitySk body rand).take 1280

/-- The signature stored zero-padded behind its length. -/
def sigFieldOk (pk body : List Byte) (len : Nat) (field : List Byte) : Bool := len ≤ 1280 && Config.falconVerify pk body (field.take len)

/-! ## IDENTITY_GET and ATTEST -/

def runIdentityGet (s : State) : State :=
  if s.rot.identityErr then mbxDone s codeIdentityFail [] else if s.rot.firmwareErr then mbxDone s codeFwBad [] else mbxDone s 0 Config.certificate

/-- IDENTITY_GET (R343, R338). -/
def execIdentityGet (s : State) : Res := .next (mbxGate s .identityGet 0x0001 none runIdentityGet)

/-- The component whose image a partial reset reloads: that of the station's page, the DRAM interface for a bay, none for a core. -/
def prstComponent (s : State) : Nat :=
  if !s.pow.prstGo then 0
  else if s.pow.prstKind = 3 then 8
  else if s.pow.prstKind = 2 then (match s.pow.prstUnit with
    | 2 => 9
    | 3 => 10
    | 4 => 10
    | 5 => 11
    | _ => 12)
  else 0

def anyActive (s : State) : Bool := s.rot.comps.toList.any (·.active)
def inTransition (s : State) : Bool := anyActive s || s.pow.prstGo

/-- A component entry (Table 12.17). -/
def compEntry (s : State) (i : Nat) (c : FwComp) : List Byte :=
  let pend := c.active || prstComponent s == i + 1
  let img := if c.active then c.accepted.getD (c.svn, c.digest) else (c.svn, c.digest)
  [byteOf (i + 1), if pend then 2 else 1, 0, 0] ++ leBytes 4 img.1 ++ leBytes 4 c.minSvn ++ List.replicate 4 0 ++ padTo 64 img.2

def almStateNo : AlmState → Nat
  | .free => 0
  | .acquire => 1
  | .locked => 2
  | .holdover => 3

/-- The layout of a partition as a report carries it: DEBUG as it stands. -/
def layoutNow (x : Partition) : List Byte := match x.layout with
  | v :: f :: rest => v :: (f ||| byteOf (2 * b2n x.debug)) :: rest
  | l => l

/-- The signed bytes of a report (Table 12.14). -/
def reportHead (s : State) (part : PartId) (nonce : List Byte) (imm : Bool) : List Byte :=
  let x : Partition := match partTenant part with
    | some p => getPart s p
    | none => {}
  let digests (j : Job) : List Byte := padTo 64 j.digest
  [(1 : Byte), if part = mgmt then 2 else 1] ++ leBytes 2 (if imm && inTransition s then b2n (anyActive s) + 2 * b2n s.pow.prstGo + 4 else 0) ++
  [byteOf part.1, byteOf s.rot.lifecycle, byteOf (almStateNo s.alm.state), 12] ++ leBytes 8 s.alm.t.toNat ++ leBytes 4 x.gen.toNat ++
  leBytes 4 (b2n (s.rot.lifecycle == 1) + 2 * b2n x.debug) ++ leBytes 4 ((x.job.map (fun j => j.job.toNat)).getD 0) ++ List.replicate 4 (0 : Byte) ++
  padTo 64 nonce ++ deviceId ++ shake256 (Config.fuses s.rot.lifecycle (s.rot.comps.toList.map (·.minSvn))) 64 ++ padTo 64 (layoutNow x) ++ padTo 64 ((x.job.map digests).getD []) ++
  padTo 64 (if part = mgmt then [] else shake256 x.pekEk 64) ++
  padTo 64 (match x.job with
    | some j => if j.ek = [] then [] else shake256 j.ek 64
    | none => []) ++
  padTo 64 (match runningImage s part with
    | some g => g.digest
    | none => []) ++
  (s.rot.comps.toList.mapIdx (compEntry s)).flatten

/-- The report, signed. -/
def attestDone (part : PartId) (nonce : List Byte) (rand : List Byte) (s : State) : State :=
  let head := reportHead s part nonce s.rot.mbx.imm
  let sig := falconSig head rand
  mbxDone s 0 (head ++ leBytes 2 sig.length ++ List.replicate 30 (0 : Byte) ++ padTo 1280 sig)

/-- ATTEST, when it may be signed now. -/
def attestSign (part : Nat) (nonce : List Byte) (s : State) : State :=
  match finOpt 17 part with
  | none => mbxDone s codePartState []
  | some p =>
    let ok := match partTenant p with
      | some t => (getPart s t).state == .active
      | none => true
    if !ok then mbxDone s codePartState [] else mbxAsk s p [64, 64] (.attest part nonce) (attestDone p nonce)

def runAttest (part : Nat) (nonce : List Byte) (s : State) : State :=
  if inTransition s && !s.rot.mbx.imm then modMbx s (fun m => { m with isHeld := true }) else attestSign part nonce s

/-- ATTEST (R355, R356): held while a component is in transition, unless IMMEDIATE is set. -/
def execAttest (part : Nat) (nonce : List Byte) (s : State) : Res := .next (mbxGate s (.attest part nonce) 0x0002 (some part) (runAttest part nonce))

/-- The ATTEST that is held, once no component is in transition. -/
def attestRelease (s : State) : State :=
  match s.rot.mbx.running with
  | some (.attest part nonce) =>
    if s.rot.mbx.isHeld && !inTransition s then attestSign part nonce (modMbx s (fun m => { m with isHeld := false })) else s
  | _ => s

/-- ATTEST_HELD_RELEASE (R356). -/
def execAttestHeldRelease (s : State) : Res := .next (attestRelease s)

/-! ## Layouts (Table 12.1, R333) -/

def popBays (d : List Byte) : Nat := popcount 16 (u16 d 2)

/-- Every field in its range, reserved fields zero. -/
def layoutOk (d : List Byte) : Bool :=
  let n := popBays d
  d.length == 64 && u8 d 0 == 1 && u8 d 1 < 2 && 1 ≤ n && 1 ≤ u8 d 6 && u8 d 7 ≤ 64 && 64 ≤ u16 d 8 && 2 ≤ u16 d 0xA &&
  u16 d 8 + u16 d 0xA ≤ 8192 && resvZero d 0xE 2 && u16 d 0xC + u32 d 0x10 ≤ 65536 && u32 d 0x14 + u32 d 0x18 ≤ 262144 &&
  u16 d 0x1E ≤ 255 && 28 * n ≤ u16 d 0x24 && u16 d 0x24 ≤ 78 * n &&
  (List.range 8).all (fun i => bitOf (u8 d 4) i || u8 d (0x26 + i) == 0) && resvZero d 0x2E 18

/-- The other tenants that exist. -/
def otherTenants (s : State) (p : TenantId) : List TenantId := allTenants.filter (fun t => t != p && (getPart s t).state != .free)

def rangesCross (a an b bn : Nat) : Bool := a < b + bn && b < a + an && an != 0 && bn != 0

/-- Sum a number over partitions. -/
def sumOver (l : List TenantId) (f : TenantId → Nat) : Nat := (l.map f).foldl (· + ·) 0

/-- The power limit of R364: cap, other tenants' budgets, the new budget, and the bays that no tenant would hold. -/
def powerFits (s : State) (p : TenantId) (d : List Byte) : Bool :=
  let others := otherTenants s p
  let u := (allBays.filter (fun b => s.bays[b].owner == mgmt && !bitOf (u16 d 2) b.1)).length
  sumOver others (fun t => (getPart s t).powerW) + u16 d 0x24 + 150 + 28 * u ≤ s.pow.cap

/-- The WEIGHT fields of a port's valid rows beside a partition's own (R120). -/
def portWeight (s : State) (n : PortId) (p : TenantId) : Nat :=
  sumOver (allTenants.filter (fun t => t != p && (s.eth[n].wr.rows[t]).valid)) (fun t => (s.eth[n].wr.rows[t]).weight)

/-- The conflicts of R333. -/
def layoutFree (s : State) (p : TenantId) (d : List Byte) : Bool :=
  let others := otherTenants s p
  allBays.all (fun b => !bitOf (u16 d 2) b.1 || (s.bays[b].owner == mgmt && !s.bays[b].mem.failed && !bayDecoded s b)) &&
  others.all (fun t =>
    !rangesCross (u16 d 8) (u16 d 0xA) s.qm.base[tenantPart t] s.qm.count[tenantPart t] &&
    !rangesCross (u16 d 0xC) (u32 d 0x10) s.wins.base[t] s.wins.count[t] &&
    !rangesCross (u32 d 0x14) (u32 d 0x18) (getShare s t).chBase (getShare s t).chCount &&
    (u8 d 5) &&& s.red.shares[t].ports == 0) &&
  (u8 d 5) &&& (u8 d 4) == 0 &&
  sumOver others (fun t => (getShare s t).contexts) + u16 d 0x1C ≤ 4096 &&
  sumOver others (fun t => (getShare s t).staging) + u16 d 0x1E ≤ 256 &&
  sumOver others (fun t => (getShare s t).missKib) + u16 d 0x20 ≤ 4096 &&
  sumOver others (fun t => (getShare s t).trackers) + u16 d 0x22 ≤ 4096 &&
  sumOver others (fun t => s.wins.count[t]) + u32 d 0x10 ≤ 65536 &&
  sumOver others (fun t => (getShare s t).chCount) + u32 d 0x18 ≤ 262144 &&
  sumOver others (fun t => s.qm.count[tenantPart t]) + u16 d 0xA ≤ 8192 &&
  sumOver others (fun t => s.qm.share[tenantPart t]) + u8 d 6 ≤ 248 &&
  sumOver others (fun t => (getPart s t).slotQuota) + u8 d 7 ≤ 64 &&
  powerFits s p d &&
  allPorts.all (fun n => !bitOf (u8 d 4) n.1 || portWeight s n p + u8 d (0x26 + n.1) ≤ 256)

/-! ## PART_CREATE (R332 to R334) -/

/-- Lines of the SRAM of a bay count as never written (R62). -/
def clearSram (s : State) (b : BayId) : State :=
  modBay s b (fun y => { y with mem := { y.mem with store := [], storeWritten := [] }, cores := vmap y.cores (fun k => { k with ls := [], lsWritten := [] }) })

/-- A bay goes to a partition: its SRAM is cleared, and a trained stack is zeroed first, whether or not the bay has failed since (R147,
R388). Bins that the management partition left in the bay stay, and with them their indices (DESIGN CHOICE: the spec does not say
what becomes of them, notes/assumptions/38.md). -/
def takeBay (s : State) (p : TenantId) (b : BayId) : State :=
  let s1 := modBay (clearSram s b) b (fun y => { y with owner := tenantPart p })
  if s.bays[b].mem.trained then askScrub s1 b 0 stackSize (.partCreate p) else s1

/-- The shares and address rows of a layout. -/
def writeShares (s : State) (p : TenantId) (d : List Byte) : State :=
  let q := tenantPart p
  let s1 := modTrn s (fun t => { t with shares := vmod t.shares p (fun _ => {
    contexts := u16 d 0x1C, staging := u16 d 0x1E, trackers := u16 d 0x22, missKib := u16 d 0x20, chBase := u32 d 0x14, chCount := u32 d 0x18 }) })
  let s2 := { s1 with
    wins := { s1.wins with base := vmod s1.wins.base p (fun _ => u16 d 0xC), count := vmod s1.wins.count p (fun _ => u32 d 0x10) },
    qm := { s1.qm with base := vmod s1.qm.base q (fun _ => u16 d 8), count := vmod s1.qm.count q (fun _ => u16 d 0xA),
                       share := vmod s1.qm.share q (fun _ => u8 d 6), adm := vmod s1.qm.adm q (fun _ => {}) } }
  let s3 := modRedShare s2 p (fun _ => { ports := u8 d 5 })
  allPorts.foldl (fun s n => if bitOf (u8 d 4) n.1 then
      modEth s n (fun e => ethRow e p (fun _ => { valid := true, weight := u8 d (0x26 + n.1) }))
    else s) s3

/-- The partition key pair is drawn (R348). -/
def partKeyGot (p : TenantId) (b : List Byte) (s : State) : State :=
  let kp := Config.kemKeyGen (b.take 32) (b.drop 32)
  modPart s p (fun x => if x.state = .creating then { x with pekEk := kp.1, pekDk := kp.2 } else x)

/-- PART_CREATE accepted (Table 12.2). -/
def partBegin (p : TenantId) (d : List Byte) (s : State) : State :=
  let s1 := modPart s p (fun x => {
    state := .creating, layout := d, conf := bitOf (u8 d 1) 0, bays := BitVec.ofNat 16 (u16 d 2), ethPorts := u8 d 4, reducePorts := u8 d 5,
    slotQuota := u8 d 7, powerW := u16 d 0x24, gen := x.gen + 1 })
  let s2 := writeShares ((allBays.filter (fun b => bitOf (u16 d 2) b.1)).foldl (fun s b => takeBay s p b) s1) p d
  let s3 := { s2 with dbk := vmod s2.dbk (tenantPart p) (fun _ => {}), dbkIn := s2.dbkIn.filter (fun e => e.1 != tenantPart p) }
  mbxAsk (modDrbg s3 (tenantPart p) (fun _ => { live := true })) (tenantPart p) [64] (.partCreate p.1 d) (partKeyGot p)

def runPartCreate (part : Nat) (layout : List Byte) (s : State) : State :=
  match finOpt 16 part with
  | none => mbxDone s codePartBad []
  | some p =>
    if !layoutOk layout then mbxDone s codePartBad []
    else if (getPart s p).state ≠ .free then mbxDone s codePartState []
    else if !layoutFree s p layout then mbxDone s codePartConflict []
    else partBegin p layout s

/-- PART_CREATE (R333). -/
def execPartCreate (part : Nat) (layout : List Byte) (s : State) : Res :=
  .next (mbxGate s (.partCreate part layout) 0x0010 (some part) (runPartCreate part layout))

/-- PART_CREATE_COMPLETE (R334): every stack zeroed and the partition key drawn. -/
def execPartCreateComplete (p : TenantId) (s : State) : Res :=
  .next (if (getPart s p).state ≠ .creating ∨ scrubLeft s (.partCreate p) ∨ (getDrbg s (tenantPart p)).waiting ≠ [] then s
    else
      let s1 := modLink (modPart s p (fun x => { x with state := .active })) (fun l => { l with vfEnable := true, msixOff := l.msixOff.erase (tenantPart p) })
      mbxDone s1 0 (leBytes 4 (getPart s p).gen.toNat))

/-! ## Destroying a job (R349) -/

/-- Key slots, except those that a test drops. -/
def dropSlots (s : State) (test : KeySlot → Bool) : State :=
  modRot s (fun r => { r with slots := vmap r.slots (fun o => match o with
    | some k => if test k then none else some k
    | none => none) })

/-- Zero a region of a stack before any other use. -/
def zeroRegion (s : State) (b : BayId) (base len : Nat) : State := modMem s b (fun m => dramZero m base len)

/-- The job goes: its windows, channels, key slots, bitmaps, counters, seeds, frame sequences and round,
and its regions are zeroed. -/
def jobDrop (s : State) (p : TenantId) (cause : Nat) : State :=
  match (getPart s p).job with
  | none => s
  | some j =>
    let wins := (s.wins.tab.filter (fun w => w.2.part == tenantPart p && w.2.job == j.job)).map (·.1)
    let s1 := wins.foldl (fun s i => revokeWin s i cause) s
    let chans := (s1.trn.chans.filter (fun c => c.2.part == tenantPart p && c.2.linkJob == j.job && c.2.linkKey.isSome)).map (·.1)
    let s2 := dropSlots (chans.foldl dropChan s1) (fun k => k.part == p && k.job == j.job)
    let s3 := modRot s2 (fun r => { r with reveals := r.reveals.filter (fun x => !(x.part == p && x.job == j.job)),
                                           attempts := r.attempts.filter (fun x => !(x.part == p && x.job == j.job)) })
    let s4 := (baysOf s3 (tenantPart p)).foldl (fun s b =>
      modBay s b (fun y => { y with noise := { y.noise with seeds := y.noise.seeds.filter (fun o => o.job != j.job) } })) s3
    let gone (z : ZSeq) : Bool := z.part == p && z.job == j.job
    let s5 := { s4 with zrx := s4.zrx.filter (fun z => !gone z), ztx := s4.ztx.filter (fun z => !gone z) }
    let s6 := match finOpt 16 (bitsOf j.region 40 37) with
      | some b => zeroRegion s5 b (j.region % 2 ^ 37) 65536
      | none => s5
    let s7 := match j.working with
      | some (b, base, len) => zeroRegion s6 b base len
      | none => s6
    let s8 := allBays.foldl (fun s b => match s.bays[b].round with
      | some r => if r.part = tenantPart p ∧ r.job = j.job then idleRound s b else s
      | none => s) s7
    modPart s8 p (fun x => { x with job := none })

/-! ## PART_DESTROY (R335) -/

/-- A release in SIGNING or EMITTING emits nothing more. -/
def stopRelease (s : State) (b : BayId) : State :=
  match s.bays[b].release.cur with
  | some r => if s.bays[b].release.state = .signing ∨ s.bays[b].release.state = .emitting then releaseAbort s b r else s
  | none => s

/-- The teardown, in the order of R335. -/
def partTeardown (s : State) (p : TenantId) : State :=
  let q := tenantPart p
  let bays := baysOf s q
  let s1 := (bays.flatMap bayStations).foldl (fun s r => modSt s r (fun x => { x with abort := true })) s
  let s2 := intakeAbortNow (modShare s1 p (fun h => { h with abort := true })) p
  let s3 := redAbortNow (modRedShare s2 p (fun h => { h with abort := true })) p
  let s4 := flrQueues (bays.foldl stopRelease s3) q
  let s5 := ((s4.wins.tab.filter (fun w => w.2.part == q)).map (·.1)).foldl (fun s i => revokeWin s i 3) s4
  let s6 := ((s5.trn.chans.filter (fun c => c.2.part == q)).map (·.1)).foldl dropChan s5
  let s7 := dropSlots (jobDrop s6 p 3) (fun k => k.part == p)
  let s8 := modDrbg (modPart s7 p (fun x => { x with state := .destroying, pekDk := [], pekEk := [] })) q (fun _ => {})
  let s9 := allPorts.foldl (fun s n => modEth s n (fun e => ethRow e p (fun _ => {}))) s8
  let s10 := (allPorts.filter (fun n => bitOf s9.red.shares[p].ports n.1)).foldl (fun s n => zldEnEff s n false) s9
  let s11 := modRed (modSch s10 p (fun _ => {})) (fun r => { r with runs := r.runs.filter (fun x => x.part != p), inq := r.inq.filter (fun x => x.part != p) })
  let s12 := modRot s11 (fun r => { r with signQ := r.signQ.filter (fun x => x.1 != q) })
  bays.foldl (fun s b => if s.bays[b].mem.trained then askScrub s b 0 stackSize (.partDestroy p) else s) s12

def runPartDestroy (part : Nat) (s : State) : State :=
  match finOpt 16 part with
  | none => mbxDone s codePartState []
  | some p => if (getPart s p).state ≠ .active then mbxDone s codePartState [] else partTeardown s p

/-- PART_DESTROY (R335). -/
def execPartDestroy (part : Nat) (s : State) : Res := .next (mbxGate s (.partDestroy part) 0x0011 (some part) (runPartDestroy part))

/-- A station instance as its bay returns: a fence stays. -/
def freshSt (x : Station) : Station := if x.st = .fenced then { st := .fenced, fault := x.fault } else {}

/-- A bay as it returns to the management partition: its memory is zeroed, its errors, fences and clocks stay. -/
def freshBay (y : Bay) : Bay :=
  { ({} : Bay) with
    mem := { y.mem with
      store := [], storeWritten := [], bins := [], inFlight := [], streams := [], shareSet := 0, added := 0, dups := 0, poisonSet := 0,
      binGen := y.mem.bins.foldl (fun g b => insertKey b.1 (nextGen ((lookup b.1 g).getD 1)) g) y.mem.binGen },
    bin := freshSt y.bin, msk := freshSt y.msk, shr := freshSt y.shr, lat := freshSt y.lat, nse := freshSt y.nse, rls := freshSt y.rls,
    cores := vmap y.cores (fun k => { ({} : Core) with ctl := freshSt k.ctl, faultBits := k.faultBits, lsCe := k.lsCe }), pow := y.pow }

/-- PART_DESTROY_COMPLETE (R334): every stack zeroed. -/
def execPartDestroyComplete (p : TenantId) (s : State) : Res :=
  .next (if (getPart s p).state ≠ .destroying ∨ scrubLeft s (.partDestroy p) then s
    else
      let q := tenantPart p
      let bays := baysOf s q
      let inBays (r : StationRef) : Bool := match stBay r with
        | some b => bays.contains b
        | none => false
      let s1 := bays.foldl (fun s b => modBay s b freshBay) s
      let s2 := { s1 with tokFlight := s1.tokFlight.filter (fun t => !inBays t.1), credFlight := s1.credFlight.filter (fun t => !inBays t.1) }
      let s3 := modRedShare (modTrn s2 (fun t => { t with shares := vmod t.shares p (fun _ => {}) })) p (fun _ => {})
      let s4 := { s3 with
        wins := { s3.wins with base := vmod s3.wins.base p (fun _ => 0), count := vmod s3.wins.count p (fun _ => 0) },
        qm := { s3.qm with base := vmod s3.qm.base q (fun _ => 0), count := vmod s3.qm.count q (fun _ => 0), share := vmod s3.qm.share q (fun _ => 0),
                           inFlight := s3.qm.inFlight.filter (fun h => h.part != q), dead := s3.qm.dead.filter (fun h => h.part != q),
                           cmds := vmod s3.qm.cmds q (fun _ => 0), adm := vmod s3.qm.adm q (fun _ => {}) },
        coreSel := vmod s3.coreSel p (fun _ => 0) }
      mbxDone (modPart s4 p (fun x => { gen := x.gen })) 0 [])

/-! ## DEBUG_ENABLE (R342) -/

def runDebugEnable (part : Nat) (s : State) : State :=
  match finOpt 16 part with
  | none => mbxDone s codePartState []
  | some p =>
    let x := getPart s p
    if x.state ≠ .active ∨ x.conf ∨ 2 < s.rot.lifecycle then mbxDone s codePartState []
    else mbxDone (modPart s p (fun x => { x with debug := true })) 0 []

/-- DEBUG_ENABLE (R342). -/
def execDebugEnable (part : Nat) (s : State) : Res := .next (mbxGate s (.debugEnable part) 0x0012 (some part) (runDebugEnable part))

end Sys2Proof.Machine
end

