-- ==== Sys2Proof/Machine/Keys.lean ====
section
/-! DEFINITION. Jobs, their keys, key slots and blobs, model delivery and firmware images (R341, R344 to R354). -/

namespace Sys2Proof.Machine

/-! ## Key slots (R350, R351) -/

/-- Place a secret in a free key slot; the slot's index. -/
def addSlot (s : State) (k : KeySlot) : Nat × State :=
  match freeSlot s with
  | some i => (i.1, modRot s (fun r => { r with slots := vmod r.slots i (fun _ => some k) }))
  | none => (0, s)

/-- A slot of the partition. -/
def mySlot (s : State) (p : TenantId) (slot : Nat) : Option (Fin 64 × KeySlot) :=
  match finOpt 64 slot with
  | some i => (match s.rot.slots[i] with
    | some k => if k.part = p then some (i, k) else none
    | none => none)
  | none => none

/-- The blob key (Table 12.5). -/
def blobKey (s : State) : List Byte := kmac256 (kmac256 Config.rootSecret [] 32 (ascii "WY-KWK")) s.rot.bootNonce 32 (ascii "WYBLOB")

/-- The header of a slot's blob (Table 12.16). -/
def blobHead (k : KeySlot) : List Byte :=
  [(1 : Byte), byteOf k.kind, byteOf k.secret.length, byteOf k.part.1] ++ leBytes 4 k.gen.toNat ++ leBytes 4 k.job.toNat ++
  leBytes 4 k.round.toNat ++ leBytes 2 k.attempt ++ List.replicate 14 (0 : Byte)

/-- A slot's blob (R351). -/
def keyBlob (s : State) (k : KeySlot) : List Byte := blobHead k ++ kwWrap (blobKey s) (blobHead k ++ k.secret)

/-- The slot that a blob holds, if it unwraps and its headers agree and name the partition and its generation (R351). -/
def openKeyBlob (s : State) (p : TenantId) (b : List Byte) : Option KeySlot :=
  let head := b.take 32
  match kwUnwrap (blobKey s) (b.drop 32) with
  | none => none
  | some pt =>
    if pt.take 32 = head ∧ head.length = 32 ∧ u8 b 0 = 1 ∧ pt.length = 32 + u8 b 2 ∧ u8 b 3 = p.1 ∧ resvZero b 0x12 14 ∧ w32 b 4 = (getPart s p).gen then
      some { kind := u8 b 1, secret := pt.drop 32, part := p, gen := w32 b 4, job := w32 b 8, round := w32 b 0xC, attempt := u16 b 0x10 }
    else none

/-- Run a command on an ACTIVE tenant partition; PART_STATE for any other. -/
def onActive (s : State) (part : Nat) (run : TenantId → State) : State :=
  match finOpt 16 part with
  | none => mbxDone s codePartState []
  | some p => if (getPart s p).state = .active then run p else mbxDone s codePartState []

def runKeyLoad (part : Nat) (blob : List Byte) (s : State) : State :=
  onActive s part (fun p => match openKeyBlob s p blob with
    | none => mbxDone s codeBlobBad []
    | some k =>
      if !slotRoom s p 1 then mbxDone s codeSlotFull [] else
        let r := addSlot s k
        mbxDone r.2 0 [byteOf r.1])

/-- KEY_LOAD (R351). -/
def execKeyLoad (part : Nat) (blob : List Byte) (s : State) : Res :=
  .next (mbxGate s (.keyLoad part blob) 0x0030 (some part) (runKeyLoad part blob))

def runKeyExport (part slot : Nat) (s : State) : State :=
  onActive s part (fun p => match mySlot s p slot with
    | none => mbxDone s codeSlotAbsent []
    | some (_, k) => mbxDone s 0 (keyBlob s k))

/-- KEY_EXPORT (R351). -/
def execKeyExport (part slot : Nat) (s : State) : Res :=
  .next (mbxGate s (.keyExport part slot) 0x0031 (some part) (runKeyExport part slot))

/-- Is a slot in use under R352? -/
def slotInUse (s : State) (p : TenantId) (i : Nat) (k : KeySlot) : Bool :=
  let q := tenantPart p
  if k.kind = 2 then
    (match runningImage s q with
     | some g => g.xfers != []
     | none => false) || allBays.any (fun b => s.bays[b].owner == q && s.bays[b].noise.seeds.any (fun o => o.job == k.job))
  else if k.kind = 3 then
    allBays.any (fun b => match s.bays[b].round with
      | some r => r.part == q && r.state != .idle
      | none => false)
  else if k.kind = 4 then seedUsed s q i
  else false

def runKeyUnload (part slot : Nat) (s : State) : State :=
  onActive s part (fun p => match mySlot s p slot with
    | none => mbxDone s codeSlotAbsent []
    | some (i, k) => if slotInUse s p slot k then mbxDone s codeSlotInUse [] else mbxDone (closeSeed s i) 0 [])

/-- KEY_UNLOAD (R352). -/
def execKeyUnload (part slot : Nat) (s : State) : Res :=
  .next (mbxGate s (.keyUnload part slot) 0x0032 (some part) (runKeyUnload part slot))

/-! ## Jobs (R344, R345, R349) -/

/-- The masking record of a job record (Table 06.1). -/
def parseMaskRec (b : List Byte) : MaskRec where
  mode := u8 b 1
  ring := u8 b 3
  t := u16 b 4
  d := u16 b 6
  h := u16 b 8
  n := u32 b 0xC
  f := u32 b 0x10
  raw := b.take 32

/-- The masking record's own ranges, and its ring beside the format descriptor (R151). -/
def maskRecOk (format : Nat) (b : List Byte) : Bool :=
  let m := parseMaskRec b
  u8 b 0 == 1 && u8 b 2 == 1 && resvZero b 0xA 2 && resvZero b 0x14 12 && 1 ≤ m.n && m.n ≤ 1048576 && m.f ≤ m.n &&
  (if m.mode = 0 then m.t == 0 && m.d == 0 && m.h == 0 && 1 ≤ m.f
   else m.mode == 1 && 1 ≤ m.t && m.t ≤ 1024 && 1 ≤ m.d && m.d ≤ 256 && m.t ≤ m.h && m.h ≤ 2048 && max m.t 2 ≤ m.f) &&
  (if format = 0 then m.ring == 0 && m.mode == 0 else 1 ≤ m.ring && m.ring ≤ 3 && m.ring == bitsOf format 15 8) &&
  m.n * m.h ≤ 2 ^ 30

/-- Where the member table starts in a job record. -/
def membersAt (r : List Byte) : Nat := 0xC0 + linesOf (8 * u8 r 0xA) * 64

/-- The job that a record gives (Table 12.10). -/
def parseJob (r : List Byte) : Job :=
  let nmod := u8 r 0xA
  { job := w32 r 4, lead := bitOf (u8 r 1) 0, domain := u16 r 2, rank := u16 r 8, format := word64 (u64 r 0x10),
    mask := parseMaskRec (bslice r 0x20 32), moduli := readElems r 0xC0 8 nmod, region := u64 r 0x18, ownerKey := bslice r 0x40 64,
    members := chunks 64 (bslice r (membersAt r) (64 * u16 r 2)),
    digest := shake256 ((9 : Byte) :: (r.take 1 ++ [(0 : Byte)] ++ bslice r 2 6 ++ [(0 : Byte), 0] ++ bslice r 0xA 14 ++
      List.replicate 8 (0 : Byte) ++ r.drop 0x20)) 64,
    moduliDigest := if nmod = 0 then List.replicate 64 0 else shake256 (bslice r 0xC0 (8 * nmod)) 64 }

/-- R31 for one entry of the modulus table. -/
def jobModulusOk (q : Nat) : Bool := 2 ^ 27 ≤ q && q < 2 ^ 60 && q % 8192 == 1

/-- The bay and address of the job region. -/
def jobRegionOk (s : State) (p : TenantId) (region : Nat) : Bool :=
  region / 2 ^ 41 == 0 && region % 65536 == 0 && (match finOpt 16 (bitsOf region 40 37) with
    | some b => holdsBay s (tenantPart p) b
    | none => false)

/-- Every check of R344. -/
def jobRecordOk (s : State) (p : TenantId) (r : List Byte) : Bool :=
  let j := parseJob r
  let nmod := u8 r 0xA
  let fmt := j.format.toNat
  r.length == membersAt r + 64 * j.domain && u8 r 0 == 1 && u8 r 1 < 2 && (!j.lead || j.rank == 0) && 1 ≤ j.domain && j.domain ≤ 1024 &&
  j.job != 0 && j.rank < j.domain && nmod ≤ 48 && resvZero r 0xB 5 && resvZero r (0xC0 + 8 * nmod) (membersAt r - (0xC0 + 8 * nmod)) &&
  j.moduli.all jobModulusOk && (fmt == 0 || fmtOk fmt) && !(fmt == 0 && nmod == 0) && maskRecOk fmt (bslice r 0x20 32) &&
  shake256 (r.drop (membersAt r)) 64 == bslice r 0x80 64 && j.members.getD j.rank [] == deviceId &&
  jobRegionOk s p j.region && (fmt == 0 || headroomOk fmt j.mask.n 0)

/-- The job's two keys are placed, and its share key pair is generated from the seed (R345, R346): K_job, then the seed. -/
def installKeys (s : State) (p : TenantId) (keys : List Byte) : State :=
  match (getPart s p).job with
  | none => s
  | some j =>
    let slot (kind : Nat) (sec : List Byte) : KeySlot := { kind := kind, secret := sec, part := p, gen := (getPart s p).gen, job := j.job }
    let s1 := (addSlot (addSlot s (slot 2 (keys.take 32))).2 (slot 3 (bslice keys 32 64))).2
    let ek := (Config.kemKeyGen (bslice keys 32 32) (bslice keys 64 32)).1
    modPart s1 p (fun x => { x with job := some { j with ek := ek } })

/-- The job is created; its member table goes to job_region. -/
def jobInstall (s : State) (p : TenantId) (r : List Byte) : State :=
  let j := parseJob r
  let s1 := modPart s p (fun x => { x with job := some j })
  match finOpt 16 (bitsOf j.region 40 37) with
  | some b => modMem s1 b (fun m => dramWrite m (j.region % 2 ^ 37) (r.drop (membersAt r)))
  | none => s1

def jobEk (s : State) (p : TenantId) : List Byte := match (getPart s p).job with
  | some j => j.ek
  | none => []

/-- JOB_CREATE with LEAD, once the instance has served its draws: 32 and 64 bytes. -/
def jobKeysGot (p : TenantId) (record : List Byte) (b : List Byte) (s : State) : State :=
  let s1 := installKeys (jobInstall s p record) p b
  mbxDone s1 0 (jobEk s1 p)

def runJobCreate (part : Nat) (record : List Byte) (s : State) : State :=
  onActive s part (fun p =>
    if !jobRecordOk s p record then mbxDone s codeJobBad []
    else if (getPart s p).job.isSome then mbxDone s codeJobState []
    else if !(parseJob record).lead then mbxDone (jobInstall s p record) 0 []
    else if !slotRoom s p 2 then mbxDone s codeSlotFull []
    else mbxAsk s (tenantPart p) [32, 64] (.jobCreate part record) (jobKeysGot p record))

/-- JOB_CREATE (R344, R345). -/
def execJobCreate (part : Nat) (record : List Byte) (s : State) : Res :=
  .next (mbxGate s (.jobCreate part record) 0x0020 (some part) (runJobCreate part record))

/-- JOB_DESTROY's conditions (R349). -/
def jobBusy (s : State) (p : TenantId) : Bool :=
  (runningImage s (tenantPart p)).isSome || (baysOf s (tenantPart p)).any (fun b => s.bays[b].release.state != .idle) ||
  allBays.any (fun b => s.bays[b].mem.bins.any (fun x => x.2.part == tenantPart p))

def runJobDestroy (part : Nat) (s : State) : State :=
  onActive s part (fun p =>
    if (getPart s p).job.isNone then mbxDone s codeJobState []
    else if jobBusy s p then mbxDone s codeJobBusy []
    else mbxDone (jobDrop s p 3) 0 [])

/-- JOB_DESTROY (R349). -/
def execJobDestroy (part : Nat) (s : State) : Res := .next (mbxGate s (.jobDestroy part) 0x0021 (some part) (runJobDestroy part))

/-! ## Job keys to the members (R346) -/

/-- The reserved fields of a report are zero (R9, Tables 12.14 and 12.17). -/
def reportResvOk (rep : List Byte) : Bool :=
  u8 rep 0 == 1 && decide (u16 rep 2 < 8) && decide (u32 rep 0x14 < 4) && resvZero rep 0x1C 4 && resvZero rep 0x5E2 30 &&
  resvZero rep (0x600 + u16 rep 0x5E0) (1280 - u16 rep 0x5E0) &&
  (List.range 12).all (fun i => resvZero rep (0x220 + 80 * i + 2) 2 && resvZero rep (0x220 + 80 * i + 12) 4)

/-- Does a member's report, with its keys, meet R346? -/
def memberReportOk (s : State) (p : TenantId) (j : Job) (rank : Nat) (rep pk ek : List Byte) : Bool :=
  let id := shake256 pk 64
  let life := u8 rep 5
  reportResvOk rep && j.members.getD rank [] == id && rank < j.domain && bslice rep 0x60 64 == id && rep.length == 2816 &&
  sigFieldOk pk (rep.take 0x5E0) (u16 rep 0x5E0) (rep.drop 0x600) && (life == 2 || (life == 1 && s.rot.lifecycle == 1)) &&
  u16 rep 2 % 4 == 0 && (List.range 12).all (fun i => u8 rep (0x220 + 80 * i + 1) == 1) && bslice rep 0x120 64 == j.digest &&
  bitOf (u8 rep 0xE1) 0 == (getPart s p).conf && bslice rep 0x160 64 == shake256 ek 64

/-- A signature as a field: length, reserved bytes, the signature zero-padded. -/
def sigTail (sig : List Byte) : List Byte := leBytes 2 sig.length ++ List.replicate 6 (0 : Byte) ++ padTo 1280 sig

/-- JOB_KEY_WRAP, once the instance has served its draws: 32 bytes for the encapsulation, 128 for the signature. -/
def jobWrapGot (p : TenantId) (req : List Byte) (b : List Byte) (s : State) : State :=
  let rank := u16 req 0
  match (getPart s p).job, jobSecret s (tenantPart p) 2 ((getPart s p).job.map (·.job) |>.getD 0), jobSecret s (tenantPart p) 3 ((getPart s p).job.map (·.job) |>.getD 0) with
  | some j, some kj, some seed =>
    let e := Config.kemEncaps (bslice req 4617 1568) (b.take 32)
    let kek := kmac256 e.2 (j.digest ++ leBytes 2 rank) 32 (ascii "WYJKEY")
    let body := [(1 : Byte), 0, 0, 0] ++ leBytes 4 j.job.toNat ++ leBytes 2 rank ++ List.replicate 6 (0 : Byte) ++ j.digest ++ deviceId ++
      padTo 1568 e.1 ++ padTo 104 (kwWrap kek (kj ++ seed))
    mbxDone s 0 (body ++ sigTail (falconSig body (b.drop 32)))
  | _, _, _ => mbxDone s codeSlotAbsent []

def runJobKeyWrap (part : Nat) (req : List Byte) (s : State) : State :=
  onActive s part (fun p => match (getPart s p).job with
    | none => mbxDone s codeJobState []
    | some j =>
      if !j.lead then mbxDone s codeJobState []
      else if req.length ≠ 6185 ∨ !resvZero req 2 6 ∨ !memberReportOk s p j (u16 req 0) (bslice req 8 2816) (bslice req 2824 1793) (bslice req 4617 1568) then
        mbxDone s codeMemberMismatch []
      else if (jobSecret s (tenantPart p) 2 j.job).isNone ∨ (jobSecret s (tenantPart p) 3 j.job).isNone then mbxDone s codeSlotAbsent []
      else mbxAsk s (tenantPart p) [32, 64, 64] (.jobKeyWrap part req) (jobWrapGot p req))

/-- JOB_KEY_WRAP (R346). -/
def execJobKeyWrap (part : Nat) (req : List Byte) (s : State) : Res :=
  .next (mbxGate s (.jobKeyWrap part req) 0x0022 (some part) (runJobKeyWrap part req))

/-- Version, job and reserved fields of a job key package (R9, Table 12.11). -/
def jobPackageOk (j : Job) (pkg : List Byte) : Bool :=
  u8 pkg 0 == 1 && resvZero pkg 1 3 && w32 pkg 4 == j.job && resvZero pkg 0xA 6 && resvZero pkg 0x71A 6

/-- The 96 bytes that a package of Table 12.11 carries to this member. -/
def openJobPackage (s : State) (p : TenantId) (j : Job) (pkg : List Byte) : Option (List Byte) :=
  let ss := Config.kemDecaps (getPart s p).pekDk (bslice pkg 0x90 1568)
  let kek := kmac256 ss (bslice pkg 0x10 64 ++ bslice pkg 8 2) 32 (ascii "WYJKEY")
  match kwUnwrap kek (bslice pkg 0x6B0 104) with
  | some keys => if jobPackageOk j pkg ∧ keys.length = 96 ∧ bslice pkg 0x10 64 = j.digest ∧ u16 pkg 8 = j.rank then some keys else none
  | none => none

def runJobKeyAccept (part : Nat) (req : List Byte) (s : State) : State :=
  onActive s part (fun p => match (getPart s p).job with
    | none => mbxDone s codeJobState []
    | some j =>
      let pkg := req.take 3104
      let pk := req.drop 3104
      if j.lead ∨ j.ek ≠ [] then mbxDone s codeJobState []
      else if pkg.length ≠ 3104 ∨ j.members.getD 0 [] ≠ shake256 pk 64 ∨ !sigFieldOk pk (pkg.take 0x718) (u16 pkg 0x718) (pkg.drop 0x720) then
        mbxDone s codeSigFail []
      else match openJobPackage s p j pkg with
        | none => mbxDone s codeMemberMismatch []
        | some keys =>
          if !slotRoom s p 2 then mbxDone s codeSlotFull [] else
            let s1 := installKeys s p keys
            mbxDone s1 0 (jobEk s1 p))

/-- JOB_KEY_ACCEPT (R346). -/
def execJobKeyAccept (part : Nat) (req : List Byte) (s : State) : Res :=
  .next (mbxGate s (.jobKeyAccept part req) 0x0023 (some part) (runJobKeyAccept part req))

/-! ## Link keys (R347) -/

/-- The peer's keys and signatures check out for a job. -/
def linkPeerOk (j : Job) (r : LinkReq) : Bool :=
  let job := leBytes 4 j.job.toNat
  Config.falconVerify r.peerKey (shake256 ((0xC : Byte) :: job ++ leBytes 4 r.chan ++ r.ek) 64) r.ekSig &&
  (if r.kind = 1 then shake256 r.ownerKey 64 == j.ownerKey &&
      Config.falconVerify r.ownerKey (shake256 ((0xB : Byte) :: job ++ shake256 r.peerKey 64) 64) r.ownerSig
   else r.kind == 2 && r.rank < j.domain && j.members.getD r.rank [] == shake256 r.peerKey 64)

/-- May the channel take a link key: it belongs to the partition and is UNKEYED or RESET? -/
def linkChanOk (s : State) (p : TenantId) (chan : Nat) : Bool :=
  match getChan s chan with
  | some x => x.part == tenantPart p && (x.state == .unkeyed || x.state == .reset)
  | none => false

/-- LINK_ESTABLISH, once the instance has served its draws: 32 bytes for the encapsulation, 128 for the signature. -/
def linkGot (p : TenantId) (r : LinkReq) (b : List Byte) (s : State) : State :=
  match (getPart s p).job with
  | none => mbxDone s codeSigFail []
  | some j =>
    if !linkChanOk s p r.chan then mbxDone s codeLinkState [] else
      let e := Config.kemEncaps r.ek (b.take 32)
      let t := shake256 (r.ek ++ e.1 ++ leBytes 4 j.job.toNat ++ leBytes 4 r.chan) 64
      let k := kmac256 e.2 t 32 (ascii "WYLINK")
      mbxDone (modChan s r.chan (fun x => { x with linkKey := some k, linkJob := j.job })) 0 (e.1 ++ sigTail (falconSig (t ++ deviceId) (b.drop 32)))

def runLinkEstablish (part : Nat) (r : LinkReq) (s : State) : State :=
  onActive s part (fun p =>
    if !linkChanOk s p r.chan then mbxDone s codeLinkState []
    else match (getPart s p).job with
      | none => mbxDone s codeSigFail []
      | some j =>
        if !linkPeerOk j r then mbxDone s codeSigFail []
        else mbxAsk s (tenantPart p) [32, 64, 64] (.linkEstablish part r) (linkGot p r))

/-- LINK_ESTABLISH (R347). -/
def execLinkEstablish (part : Nat) (r : LinkReq) (s : State) : Res :=
  .next (mbxGate s (.linkEstablish part r) 0x0024 (some part) (runLinkEstablish part r))

/-! ## Owner keys and model delivery (R353, R354) -/

/-- The owner of a package, with its signature, is the job's (R353). -/
def ownerSigOk (j : Job) (pkg ownerKey : List Byte) : Bool :=
  pkg.length == 2976 && shake256 ownerKey 64 == j.ownerKey && sigFieldOk ownerKey (pkg.take 0x698) (u16 pkg 0x698) (pkg.drop 0x6A0)

/-- The data key of an owner key package made for this partition; reserved fields are zero (R9, Table 12.12). -/
def openOwnerPackage (s : State) (p : TenantId) (j : Job) (pkg : List Byte) : Option (List Byte) :=
  if u8 pkg 0 = 1 ∧ u8 pkg 1 = 1 ∧ resvZero pkg 2 2 ∧ resvZero pkg 9 3 ∧ resvZero pkg 0x69A 6 ∧ w32 pkg 4 = j.job ∧ u8 pkg 8 = p.1 ∧ w32 pkg 0xC = (getPart s p).gen then
    let ss := Config.kemDecaps (getPart s p).pekDk (bslice pkg 0x50 1568)
    match kwUnwrap (kmac256 ss (bslice pkg 0x10 64 ++ bslice pkg 4 4) 32 (ascii "WYOWNER")) (bslice pkg 0x670 40) with
    | some k => if k.length = 32 then some k else none
    | none => none
  else none

def runOwnerKeyLoad (part : Nat) (pkg ownerKey : List Byte) (s : State) : State :=
  onActive s part (fun p => match (getPart s p).job with
    | none => mbxDone s codeMemberMismatch []
    | some j =>
      if !ownerSigOk j pkg ownerKey then mbxDone s codeSigFail []
      else match openOwnerPackage s p j pkg with
        | none => mbxDone s codeMemberMismatch []
        | some key =>
          if !slotRoom s p 1 then mbxDone s codeSlotFull [] else
            let k : KeySlot := { kind := 1, secret := key, part := p, gen := (getPart s p).gen, job := j.job }
            let r := addSlot s k
            mbxDone r.2 0 (byteOf r.1 :: keyBlob r.2 k))

/-- OWNER_KEY_LOAD (R353). -/
def execOwnerKeyLoad (part : Nat) (pkg ownerKey : List Byte) (s : State) : Res :=
  .next (mbxGate s (.ownerKeyLoad part pkg ownerKey) 0x0033 (some part) (runOwnerKeyLoad part pkg ownerKey))

/-- The chunks of an encrypted object, each opened (R354); fuel: their number. -/
def openChunks (key head body : List Byte) (len : Nat) : Nat → Nat → Option (List Byte)
  | 0, _ => some []
  | f + 1, i =>
    let n := min 1048576 (len - 1048576 * i)
    match gcmOpen key (bslice head 0x18 8 ++ leBytes 4 i) head (bslice body (1048640 * i) (n + 16)) with
    | some pt => (openChunks key head body len f (i + 1)).map (fun rest => pt ++ rest)
    | none => none

/-- The rest of each chunk slot behind the tag is zero (R354). -/
def slotRestOk (len n : Nat) (body : List Byte) : Bool :=
  (List.range n).all (fun i => allZero (bslice body (1048640 * i + min 1048576 (len - 1048576 * i) + 16) (1048640 - (min 1048576 (len - 1048576 * i) + 16))))

/-- The plaintext of an encrypted object; version, reserved fields and the rest of the slots are as Table and text give them (R9, R354). -/
def openObject (key : List Byte) (job : W32) (obj : List Byte) : Option (List Byte) :=
  let head := obj.take 64
  let n := ceilDiv (u64 head 0x10) 1048576
  if u8 head 0 = 1 ∧ resvZero head 1 3 ∧ resvZero head 0x20 32 ∧ slotRestOk (u64 head 0x10) n (obj.drop 64) ∧ w32 head 4 = job ∧ u32 head 0xC = n ∧ 64 + 1048640 * (n - 1) ≤ obj.length then openChunks key head (obj.drop 64) (u64 head 0x10) n 0 else none

/-- Zero a span of the stack, closed lines left alone. -/
def openZero (s : State) (b : BayId) (a n : Nat) : State :=
  let cl := closedSpans s b
  modMem s b (fun m => { m with dram := m.dram.filter (fun c => c.1 < a || a + n ≤ c.1 || inSpans cl (lineAddr c.1) || lineFenced m c.1),
                                poisoned := m.poisoned.filter (fun x => x < a || a + n ≤ x + 63 || inSpans cl x || lineFenced m x) })

def runModelLoad (part : Nat) (r : ModelReq) (lf : LineFaults) (s0 : State) : State :=
  onActive s0 part (fun p =>
    let q := tenantPart p
    let bad (s : State) : State := mbxDone (logN s mgmt .rtp codeDeliverAuth r.dstBay 0) codeDeliverAuth []
    let s := match finOpt 16 r.srcBay with
      | some sb => if holdsBay s0 q sb ∧ r.src + r.srcLen ≤ stackSize then readFaults s0 sb [(r.src, r.srcLen)] lf else s0
      | none => s0
    match mySlot s p r.slot, finOpt 16 r.srcBay, finOpt 16 r.dstBay with
    | some (_, k), some sb, some db =>
      if k.kind ≠ 1 then mbxDone s codeSlotAbsent []
      else if !holdsBay s q db || stackSize < r.dst + r.dstLen then bad s
      else
        let obj : Option (List Byte) :=
          if !holdsBay s q sb || stackSize < r.src + r.srcLen || spanUe s.bays[sb].mem r.src r.srcLen != [] then none
          else openObject k.secret k.job (openRead s sb r.src r.srcLen)
        (match obj, (getPart s p).job with
         | some pt, some j => if j.job = k.job ∧ pt.length ≤ r.dstLen then mbxDone (openWrite s db r.dst pt) 0 [] else bad (openZero s db r.dst r.dstLen)
         | _, _ => bad (openZero s db r.dst r.dstLen))
    | none, _, _ => mbxDone s codeSlotAbsent []
    | _, _, _ => bad s)

/-- MODEL_LOAD (R354). -/
def execModelLoad (part : Nat) (r : Reads ModelReq) (s : State) : Res :=
  .next (mbxGate s (.modelLoad part r) 0x0034 (some part) (runModelLoad part r.arg r.lf))

/-! ## Firmware images (R341) -/

def modComp (s : State) (i : Fin 12) (f : FwComp → FwComp) : State := modRot s (fun r => { r with comps := vmod r.comps i f })

/-- The updatable component of an id: 0x02 to 0x0C. -/
def compOf (id : Nat) : Option (Fin 12) := if 2 ≤ id then finOpt 12 (id - 1) else none

def runFwUpdate (comp : Nat) (img : FwImage) (s : State) : State :=
  match compOf comp with
  | none => mbxDone (logN s mgmt .rtp codeFwBad comp 0) codeFwBad []
  | some i =>
    if !Config.falconVerify Config.firmwareKey img.body img.sig then mbxDone (logN s mgmt .rtp codeFwBad comp 0) codeFwBad []
    else if img.svn < (s.rot.comps[i]).minSvn then mbxDone s codeFwRollback []
    else mbxDone (modComp s i (fun c => { c with accepted := some (img.svn, shake256 img.body 64) })) 0 []

/-- FW_UPDATE (R341). -/
def execFwUpdate (comp : Nat) (img : FwImage) (s : State) : Res := .next (mbxGate s (.fwUpdate comp img) 0x0040 none (runFwUpdate comp img))

def runFwSvnCommit (comp : Nat) (s : State) : State :=
  match compOf comp with
  | none => mbxDone (logN s mgmt .rtp codeFwBad comp 0) codeFwBad []
  | some i =>
    let c := s.rot.comps[i]
    if c.svn ≤ c.minSvn then mbxDone s 0 []
    else if 32 ≤ c.raises then mbxDone (logN s mgmt .rtp codeFwBad comp 0) codeFwBad []
    else mbxDone (modComp s i (fun c => { c with minSvn := c.svn, raises := c.raises + 1 })) 0 []

/-- FW_SVN_COMMIT (R341): at most 32 raises for a component. -/
def execFwSvnCommit (comp : Nat) (s : State) : Res := .next (mbxGate s (.fwSvnCommit comp) 0x0041 none (runFwSvnCommit comp))

/-! ## Commands that waited -/

/-- Run the mailbox command that was held while the processor's own firmware activated (R356). -/
def mbxRun (i : Instr) (s : State) : State :=
  match i with
  | .identityGet => runIdentityGet s
  | .attest part nonce => runAttest part nonce s
  | .partCreate part layout => runPartCreate part layout s
  | .partDestroy part => runPartDestroy part s
  | .debugEnable part => runDebugEnable part s
  | .jobCreate part record => runJobCreate part record s
  | .jobDestroy part => runJobDestroy part s
  | .jobKeyWrap part req => runJobKeyWrap part req s
  | .jobKeyAccept part req => runJobKeyAccept part req s
  | .linkEstablish part r => runLinkEstablish part r s
  | .keyLoad part blob => runKeyLoad part blob s
  | .keyExport part slot => runKeyExport part slot s
  | .keyUnload part slot => runKeyUnload part slot s
  | .ownerKeyLoad part pkg owner => runOwnerKeyLoad part pkg owner s
  | .modelLoad part r => runModelLoad part r.arg r.lf s
  | .fwUpdate comp img => runFwUpdate comp img s
  | .fwSvnCommit comp => runFwSvnCommit comp s
  | _ => s

/-- What a mailbox command does once its instance has served what it asked for. -/
def mbxCont (i : Instr) (b : List Byte) (s : State) : State :=
  match i with
  | .attest part nonce => (match finOpt 17 part with
    | some p => attestDone p nonce b s
    | none => s)
  | .partCreate part _ => (match finOpt 16 part with
    | some p => partKeyGot p b s
    | none => s)
  | .jobCreate part record => (match finOpt 16 part with
    | some p => jobKeysGot p record b s
    | none => s)
  | .jobKeyWrap part req => (match finOpt 16 part with
    | some p => jobWrapGot p req b s
    | none => s)
  | .linkEstablish part r => (match finOpt 16 part with
    | some p => linkGot p r b s
    | none => s)
  | _ => s

end Sys2Proof.Machine
end

