-- ==== Sys2Proof/Machine/EntropyEvents.lean ====
section
/-! DEFINITION. What follows a conditioned block: instantiation, reseeding and the requests that waited (R203, R206 to R210). -/

namespace Sys2Proof.Machine

/-! ## Who asked -/

/-- The boot nonce of Table 12.4: the mailbox is READY once it is drawn, unless the start failed. -/
def bootGot (b : List Byte) (s : State) : State := modRot s (fun r => { r with bootNonce := b, ready := !(r.identityErr || r.firmwareErr) })

/-- A consumer goes on with what its instance generated (Table 08.2). -/
def drbgCont (w : DrbgWait) (b : List Byte) (s : State) : State :=
  match w with
  | .draw h job round claims => drawDone s h job round claims b
  | .sign bay => modCur s bay (fun r => { r with rand := some b })
  | .mailbox i => mbxCont i b s
  | .boot => bootGot b s
  | .zldNonce p => zldNonceGot s p b
  | .zldProof p => zldProofGot s p b

/-- Serve the waiting requests of an instance in order of arrival, as long as it can generate (fuel: their number). -/
def drbgServeAll (p : PartId) : Nat → State → State
  | 0, s => s
  | n + 1, s =>
    match drbgServe s p with
    | (some (w, b), s1) => drbgServeAll p n (drbgCont w b s1)
    | (none, s1) => s1

def serveWaiting (s : State) (p : PartId) : State := drbgServeAll p (getDrbg s p).waiting.length s

/-- Give the blocks of the pool to the instances that wait, in rotation; an instance that stalls waits for DRBG_RESUME (fuel). -/
def feedInstances : Nat → State → State
  | 0, s => s
  | n + 1, s =>
    match nextInstance s with
    | none => s
    | some p =>
      let d := getDrbg s p
      if d.stalled then s
      else if !d.seeded then (if s.rng.pool.length < 2 then s else feedInstances n (serveWaiting (drbgInstantiate s p) p))
      else if s.rng.pool = [] then s
      else feedInstances n (serveWaiting (drbgReseedWith s p) p)

/-- Where a block goes: to the pool while an instance waits, else to the software FIFO while that has room, else to the pool. -/
def keepBlock (s : State) (block : List Byte) : State :=
  let waits := (nextInstance s).isSome
  modRng s (fun r =>
    if !waits && decide (r.fifo.length + 32 ≤ 64) then { r with fifo := r.fifo ++ block, blocks := r.blocks + 1 }
    else { r with pool := r.pool ++ [block], blocks := r.blocks + 1 })

/-- CONDITIONED_BLOCK (R203, R204): a window of 1,024 samples; one that passes both tests gives a block. -/
def execConditionedBlock (raw : List Bool) (s : State) : Res :=
  .next (if s.pow.inReset || !s.rng.srcEn || s.rng.startup || s.rng.latched || !s.rng.valid || raw.length != 1024 then s
    else
      let r := healthWindow s raw
      if r.1 then feedInstances 17 (keepBlock r.2 (sha3_256 (rawBytes raw))) else r.2)

/-- DRBG_RESUME (R209): VALID has returned, and the stalled instance whose turn it is reseeds and serves its waiting requests. -/
def execDrbgResume (p : PartId) (s : State) : Res :=
  .next (if !s.rng.valid || s.rng.pool == [] || nextInstance s != some p || !(getDrbg s p).stalled then s
    else serveWaiting (logN (drbgReseedWith s p) p .rng codeDrbgResume p.1 0) p)

end Sys2Proof.Machine
end

