-- ==== Sys2Proof/Machine/RegMap.lean ====
section
/-! DEFINITION. The register map: the kind of every register (Table 00.3 and the tables of every page), the addresses of the PF and
VF functions, and which function reaches which page (R414 to R416, R421, R422). -/

namespace Sys2Proof.Machine

/-! ## Kinds -/

/-- The kinds of a register that exists; a reserved offset has none. -/
inductive RegKind where
  | ro | rw | mw | grd | unlock
  deriving DecidableEq, Repr

/-- A row of a register table: `count` registers from `off`, `stride` bytes apart. -/
structure RegRow where
  kind : RegKind
  off : Nat
  count : Nat
  stride : Nat
  deriving DecidableEq, Repr

def regRun (kind : RegKind) (off count : Nat) : RegRow := ⟨kind, off, count, 4⟩
def regArr (kind : RegKind) (off count stride : Nat) : RegRow := ⟨kind, off, count, stride⟩

/-- The common header (Table 15.4). -/
def headRows : List RegRow := [regRun .ro 0x000 2, regRun .mw 0x008 1, regRun .ro 0x00C 2, regRun .unlock 0x014 1, regRun .ro 0x018 1]

/-- The port blocks of a station page (Table 03.9). -/
def portRows : List RegRow := [regRun .ro 0x100 64]

/-- The share blocks of a hub engine's page: CTRL, then `n` read-only registers. -/
def shareRows (n : Nat) : List RegRow := regArr .mw 0x400 16 0x20 :: (List.range n).map (fun i => regArr .ro (0x404 + 4 * i) 16 0x20)

/-- The block-specific registers of each page. -/
def pageRows : Page → List RegRow
  | .dev => [regRun .ro 0x100 7, regRun .rw 0x11C 1]
  | .pwr => [regRun .grd 0x100 1, regRun .ro 0x104 3, regRun .grd 0x110 1, regRun .ro 0x114 2, regRun .ro 0x200 17]
  | .clk => [regRun .ro 0x100 1, regRun .rw 0x200 16, regRun .ro 0x240 16]
  | .alm => [regRun .ro 0x100 2, regRun .grd 0x108 3, regRun .ro 0x114 3, regRun .rw 0x120 1, regRun .ro 0x124 4]
  | .sch => [regRun .ro 0x200 128]
  | .rtp => [regRun .rw 0x100 1, regRun .mw 0x104 1, regRun .rw 0x108 6, regRun .ro 0x120 2, regRun .rw 0x128 1]
  | .rng => [regRun .grd 0x100 1, regRun .ro 0x104 7, regRun .ro 0x200 17]
  | .nvm => [regRun .grd 0x100 1, regRun .ro 0x104 1]
  | .part => [regRun .ro 0x100 3, regRun .ro 0x200 64]
  | .qm _ => [regRun .ro 0x100 2, regRun .rw 0x108 5, regRun .ro 0x11C 5, regArr .ro 0x200 17 0x10, regArr .ro 0x204 17 0x10]
  | .eth _ => [regRun .grd 0x100 1, regRun .rw 0x104 4, regRun .ro 0x114 5, regArr .grd 0x200 16 0x20, regArr .grd 0x204 16 0x20,
      regArr .grd 0x208 16 0x20, regArr .grd 0x20C 16 0x20, regArr .grd 0x210 16 0x20, regArr .grd 0x214 16 0x20]
  | .lane _ => [regArr .rw 0x100 8 0x20, regArr .rw 0x104 8 0x20, regArr .ro 0x108 8 0x20, regArr .ro 0x10C 8 0x20, regArr .ro 0x110 8 0x20]
  | .trn => [regRun .rw 0x200 3, regRun .grd 0x20C 2, regRun .ro 0x214 5] ++ shareRows 6
  | .win => [regRun .ro 0x100 64]
  | .zld => regArr .mw 0x100 8 0x20 :: (List.range 6).map (fun i => regArr .ro (0x104 + 4 * i) 8 0x20)
  | .red => regRun .ro 0x200 1 :: shareRows 6
  | .cxl => [regRun .ro 0x100 5]
  | .dbk _ => [regRun .ro 0x100 3, regRun .rw 0x10C 1, regRun .ro 0x110 2, regRun .ro 0x200 8]
  | .dbg => [regRun .rw 0x100 3, regRun .grd 0x10C 1, regRun .ro 0x110 3]
  | .thm => [regRun .rw 0x100 1, regRun .ro 0x104 4, regRun .ro 0x200 16]
  | .lvl => [regRun .rw 0x100 3, regRun .ro 0x10C 2, regRun .ro 0x200 16]
  | .view _ => [regRun .ro 0x100 3, regRun .rw 0x10C 1, regRun .ro 0x110 1]
  | .bay _ => [regRun .ro 0x100 8]
  | .mem _ => [regRun .ro 0x100 6, regRun .rw 0x118 1, regRun .ro 0x11C 2]
  | .st _ .bin => [regRun .ro 0x200 6]
  | .st _ .msk => [regRun .ro 0x200 5]
  | .st _ .shr => [regRun .ro 0x200 9]
  | .st _ .lat => [regRun .ro 0x200 16, regArr .ro 0x240 8 0x10, regArr .ro 0x244 8 0x10, regArr .ro 0x248 8 0x10, regRun .ro 0x2C0 5]
  | .st _ .nse => [regRun .ro 0x200 13]
  | .st _ .rls => [regRun .ro 0x200 6]
  | .core _ => [regRun .ro 0x200 10]

/-- The station whose page it is. -/
def pageStation : Page → Option StationRef
  | .st b k => some (.bay b k)
  | .core c => some (.core c)
  | .trn => some .trn
  | .red => some .red
  | _ => none

def rowHas (o : Nat) (r : RegRow) : Bool := r.off ≤ o && (o - r.off) % r.stride == 0 && (o - r.off) / r.stride < r.count

/-- The kind of the register at an offset of a page; none where the offset is reserved. -/
def regKind (pg : Page) (off : Nat) : Option RegKind :=
  ((headRows ++ (if (pageStation pg).isSome then portRows else []) ++ pageRows pg).find? (rowHas off)).map (·.kind)

/-! ## Addresses -/

/-- A port of a list of eight pages. -/
def portAt (f : PortId → Page) (i : Nat) : Option Page := (finOpt 8 i).map f

/-- The hub page at an index (Table 15.2). -/
def hubPage (i : Nat) : Option Page :=
  if 0x0A ≤ i ∧ i < 0x12 then portAt .eth (i - 0x0A)
  else if 0x12 ≤ i ∧ i < 0x1A then portAt .lane (i - 0x12)
  else if i < 0x0A then [Page.dev, .pwr, .clk, .alm, .sch, .rtp, .rng, .nvm, .part, .qm mgmt][i]?
  else [Page.trn, .win, .zld, .red, .cxl, .dbk mgmt, .dbg, .thm, .lvl][i - 0x1A]?

/-- The page of a bay other than its cores (Table 15.3). -/
def bayPage (b : BayId) (k : Nat) : Option Page :=
  [Page.bay b, .mem b, .st b .bin, .st b .msk, .st b .shr, .st b .lat, .st b .nse, .st b .rls][k]?

/-- The page and offset of an address of PF BAR0 (Table 15.1). -/
def pfPage (a : Nat) : Option (Page × Nat) :=
  let at' (p : Option Page) : Option (Page × Nat) := p.map (fun p => (p, a % 0x1000))
  if a < 0x23000 then at' (hubPage (a / 0x1000))
  else if a < 0x1000000 ∨ 0x2000000 ≤ a then none
  else
    let k := a % 0x100000 / 0x1000
    match finOpt 16 (a / 0x100000 - 0x10) with
    | none => none
    | some b => if k < 8 then at' (bayPage b k) else if k < 0x10 then none else at' ((finOpt 50 (k - 0x10)).map (fun c => .core ⟨b, c⟩))

/-- The bay shown in the core aperture of a VF (R421). -/
def selBay (s : State) (n : TenantId) : BayId := ⟨s.coreSel[n].toNat, s.coreSel[n].isLt⟩

/-- The page and offset of an address of the BAR0 of a VF (Table 15.8). -/
def vfPage (s : State) (n : TenantId) (a : Nat) : Option (Page × Nat) :=
  let at' (p : Option Page) : Option (Page × Nat) := p.map (fun p => (p, a % 0x1000))
  if a < 0x4000 then at' ([Page.view n, .dbk (tenantPart n), .qm (tenantPart n), .win][a / 0x1000]?)
  else if a < 0x10000 then none
  else if a < 0x90000 then (match finOpt 16 ((a - 0x10000) / 0x8000) with
    | some b => at' (bayPage b (a % 0x8000 / 0x1000))
    | none => none)
  else if a < 0xA0000 then none
  else at' ((finOpt 50 ((a - 0xA0000) / 0x1000)).map (fun c => .core ⟨selBay s n, c⟩))

/-- The page and offset that a function addresses. -/
def regAddr (s : State) (fn : Fn) (a : Nat) : Option (Page × Nat) :=
  match fn with
  | .vf n => vfPage s n a
  | _ => pfPage a

/-- Does a function reach a page? The PF, the root-of-trust processor and the DBG path reach every hub page and every bay page; a VF
the pages of its own partition, while that exists (R315, R421, R422). -/
def reaches (s : State) (fn : Fn) (pg : Page) : Bool :=
  match fn with
  | .vf n =>
    partExists s (tenantPart n) && (match pg with
      | .view m => m == n
      | .dbk p => p == tenantPart n
      | .qm p => p == tenantPart n
      | .win => true
      | .bay b => holdsBay s (tenantPart n) b
      | .mem b => holdsBay s (tenantPart n) b
      | .st b _ => holdsBay s (tenantPart n) b
      | .core c => holdsBay s (tenantPart n) c.bay
      | _ => false)
  | _ =>
    match pg with
    | .view _ => false
    | .dbk p => p == mgmt
    | .qm p => p == mgmt
    | _ => true

end Sys2Proof.Machine
end

