-- ==== Sys2Proof/Machine/Power.lean ====
section
/-! DEFINITION. Rails, budgets, the coolant, the governor and trip, the load leveller, the shed stages and the reference clocks
(R362 to R384). -/

namespace Sys2Proof.Machine

def modPow (s : State) (f : Power → Power) : State := { s with pow := f s.pow }
def modBayPow (s : State) (b : BayId) (f : BayPower → BayPower) : State := modBay s b (fun y => { y with pow := f y.pow })

/-- Sum a number over the bays. -/
def overBays (f : BayId → Nat) : Nat := (allBays.map f).foldl (· + ·) 0

/-! ## Budgets (R364, R366) -/

/-- The tenants' power budgets together. -/
def tenantPower (s : State) : Nat := ((allTenants.filter (fun t => (getPart s t).state != .free)).map (fun t => (getPart s t).powerW)).foldl (· + ·) 0

/-- The bays that no tenant partition holds. -/
def freeBays (s : State) : Nat := (allBays.filter (fun b => s.bays[b].owner == mgmt)).length

/-- The bay budget in mW (R364), between 28 W and 78 W. -/
def bayBudget (s : State) (b : BayId) : Nat :=
  let raw := match partTenant s.bays[b].owner with
    | some t => (getPart s t).powerW * 1000 / max 1 (baysOf s s.bays[b].owner).length
    | none => (s.pow.cap - 150 - tenantPower s) * 1000 / max 1 (freeBays s)
  max 28000 (min 78000 raw)

/-! ## Clock codes (R365, R369 to R371) -/

/-- The clock code in force: the slowest that any source asks for. -/
def effCode (s : State) (b : BayId) : Nat :=
  let q := s.bays[b].pow
  max q.fsel.toNat (max q.budgetCode (max (if q.fix then 0 else q.govCode) (if 2 ≤ s.pow.stage then 3 else 0)))

/-- Are clock codes and fallow load frozen, while the manager's firmware activates (Table 13.9)? -/
def clocksFrozen (s : State) : Bool := (s.rot.comps[(6 : Fin 12)]).active

/-- A code one step faster, none once the ceiling is reached. -/
def stepUp (ceiling code : Nat) : Nat := if code - 1 ≤ ceiling then 0 else code - 1

/-! ## LEVEL_SHORT (R376) -/

/-- A bay's share of LVL_FLOOR in mW, before its budget limits it (R373). -/
def floorShare (s : State) : Nat := (s.pow.floor.toNat - 150) * 1000 / 16
def bayFloor (s : State) (b : BayId) : Nat := if s.pow.floor = 0 then 0 else min (floorShare s) (bayBudget s b)

/-- The causes of Table 13.3. With no fallow class enabled, CAPACITY holds while some bay's work is below its floor. -/
def levelCauses (s : State) : Nat :=
  b2n (allBays.any (fun b => !s.bays[b].mem.trained && !s.bays[b].mem.failed) || (s.pow.floor != 0 && !elapsed s s.pow.floorSince 10000000)) +
  2 * b2n (s.pow.cap < s.pow.floor.toNat) +
  4 * b2n (s.pow.floor != 0 && allBays.any (fun b => bayBudget s b < floorShare s)) +
  8 * b2n (s.pow.stage != 0 || s.pow.fallowBack) +
  16 * b2n (s.pow.trip || allBays.any (fun b => s.bays[b].pow.govCode != 0)) +
  32 * b2n (s.pow.floor != 0 && s.pow.cls == 0 && allBays.any (fun b => s.bays[b].pow.work < bayFloor s b))

/-- Bring LVL_STAT up to date; an entry when LEVEL_SHORT sets or clears. BRINGUP counts only while LVL_FLOOR is non-zero. -/
def levelUpdate (s : State) : State :=
  let c := levelCauses s
  let short : Bool := decide (2 ≤ c) || (s.pow.floor != 0 && c != 0)
  let s1 := modPow s (fun p => { p with causes := BitVec.ofNat 6 c, levelShort := short })
  if short = s.pow.levelShort then s1 else logN s1 mgmt .lvl codeLevelShort 0 (b2n short * 2 ^ 31 + c)

/-- Every fallow load off at once (R375). -/
def fallowOff (s : State) : State :=
  modPow (allBays.foldl (fun s b => modBayPow s b (fun q => { q with fallow := 0 })) s) (fun p => { p with hubFallow := 0 })

/-! ## Rails (R362) -/

/-- The nominal of a rail other than the bay rails, in mV, in the order of Table 13.1. -/
def railNominal (r : Fin 7) : Nat := [1100, 1800, 750, 850, 1200, 1800, 3300].getD r.1 0

/-- RAIL_WARN (R362): a DRAM, hub or SerDes rail (the first five) below −5 %. -/
def execRailWarn (rail : Fin 7) (mv : Nat) (s : State) : Res :=
  .next (if s.pow.inReset || 5 ≤ rail.1 || railNominal rail * 19 ≤ mv * 20 || s.pow.railWarn.contains rail then s
    else logN (modPow s (fun p => { p with railWarn := p.railWarn ++ [rail] })) mgmt .pwr codeRailWarn rail.1 mv)

/-- RAIL_IN_TOLERANCE (R362, R13). -/
def execRailInTolerance (rail : Fin 7) (s : State) : Res :=
  .next (modPow s (fun p => { p with railWarn := p.railWarn.filter (· != rail) }))

/-- BUDGET_THROTTLE (R365, R371): the bay's clock goes down one code; at code 4 the request only ends the episode. -/
def execBudgetThrottle (b : BayId) (s : State) : Res :=
  .next (if s.pow.inReset || clocksFrozen s then s
    else if 4 ≤ effCode s b then modBayPow s b (fun q => { q with episode := false })
    else
      let s1 := modBayPow s b (fun q => { q with budgetCode := effCode s b + 1, episode := true })
      if s.bays[b].pow.episode then s1
      else logN s1 s.bays[b].owner .pwr codeBudgetThrottle b.1 ((s.bays[b].pow.work + s.bays[b].pow.fallow) / 1000))

/-- BUDGET_RECOVER (R365): the bay steps back up one code, and the episode ends at its ceiling. -/
def execBudgetRecover (b : BayId) (s : State) : Res :=
  .next (if clocksFrozen s || s.bays[b].pow.budgetCode == 0 then s
    else modBayPow s b (fun q =>
      let c := stepUp q.fsel.toNat q.budgetCode
      { q with budgetCode := c, episode := q.episode && c != 0 }))

/-- PWR_CAP as written (R366): refused with CAP_REFUSED where it would fall below the budgets, discarded outside 600 W to 1,400 W. -/
def capEff (s : State) (val : W32) : State :=
  let w := val.toNat % 2048
  if w < tenantPower s + 150 + 28 * freeBays s then logN s mgmt .pwr codeCapRefused 0 w
  else if w < 600 ∨ 1400 < w then s
  else levelUpdate (modPow s (fun p => { p with cap := w }))

/-! ## Coolant, governor and trip (R368 to R372) -/

/-- COOLANT_HIGH (R368): a reading of the inlet sensor, which THM_INLET reports; `long` says that it has been above 55 °C for 1 s. A
reading at or below 55 °C clears the cause. -/
def execCoolantHigh (inlet : InletReading) (s : State) : Res :=
  let hot := decide (880 < inlet.inlet) && (inlet.long || s.pow.coolant)
  let s1 := modPow s (fun p => { p with inlet := inlet.inlet, coolant := hot })
  .next (if s.pow.inReset then s else if hot ∧ !s.pow.coolant then logN s1 mgmt .thm codeCoolantHigh 0 inlet.inlet else s1)

/-- The governor on one bay (R369 to R371): what its Tj asks for. -/
def governBay (s : State) (b : BayId) (tj : Nat) : State :=
  let tgt := 16 * s.pow.tgt.toNat
  let q := s.bays[b].pow
  let s0 := modBayPow s b (fun q => { q with tj := tj })
  if tgt < tj then
    if !q.govFallowOff then modBayPow s0 b (fun q => { q with govFallowOff := true, fallow := 0, coolSince := none })
    else if q.fix ∨ 4 ≤ effCode s b then modBayPow s0 b (fun q => { q with coolSince := none })
    else
      let c := effCode s b + 1
      let s1 := modBayPow s0 b (fun q => { q with govCode := c, coolSince := none })
      let s2 := if s.pow.govActive then s1 else logN (modPow s1 (fun p => { p with govActive := true })) mgmt .thm codeThermalGov b.1 tj
      if c = 4 then logN s2 mgmt .thm codeThermalGov b.1 tj else s2
  else if tj + 48 < tgt then
    match q.coolSince with
    | none => modBayPow s0 b (fun q => { q with coolSince := some s.alm.t })
    | some t =>
      if !elapsed s t 10000000 then s0
      else modBayPow s0 b (fun q => { q with coolSince := some s.alm.t, govCode := stepUp q.fsel.toNat q.govCode,
                                             govFallowOff := q.govFallowOff && q.govCode != 0 })
  else modBayPow s0 b (fun q => { q with coolSince := none })

/-- The last bay back at its ceiling ends the governor's episode (R369). -/
def governEnd (s : State) : State :=
  if s.pow.govActive ∧ allBays.all (fun b => s.bays[b].pow.govCode == 0) then
    logN (modPow s (fun p => { p with govActive := false })) mgmt .thm codeThermalGov 0 0
  else s

/-- The junctions as they were last read: trip ends once all have stayed below 95 °C for 1 s (R372). -/
def noteCool (s : State) : State :=
  let cool := allBays.all (fun b => s.bays[b].pow.tj < 1520) && s.pow.hubTj < 1520
  modPow s (fun p => { p with tripCool := if p.trip && cool then some (p.tripCool.getD s.alm.t) else none })

/-- GOVERNOR_EVALUATE (R369): the Tj of each bay, then of the hub. While the clocks are frozen the readings alone are taken. -/
def execGovernorEvaluate (tj : List Nat) (s : State) : Res :=
  let s1 := modPow s (fun p => { p with hubTj := tj.getD 16 p.hubTj })
  .next (if s.pow.inReset then s
    else if clocksFrozen s then noteCool (allBays.foldl (fun s b => modBayPow s b (fun q => { q with tj := tj.getD b.1 q.tj })) s1)
    else levelUpdate (governEnd (noteCool (allBays.foldl (fun s b => governBay s b (tj.getD b.1 s.bays[b].pow.tj)) s1))))

/-! ## Shed stages (R377 to R381) -/

/-- An entry into or exit from a stage; stages 3 and 4 reach every tenant (R381). -/
def shedLog (s : State) (code stage : Nat) : State :=
  if 3 ≤ stage then logWide s (mgmt :: tenantsLive s) .pwr code stage 0 0 0 else logN s mgmt .pwr code stage 0

/-- Every stack in service is told to enter self-refresh, after its queues drain (R72). -/
def wantSelfRefresh (s : State) : State :=
  allBays.foldl (fun s b => modMem s b (fun m => if m.trained && !m.failed && !m.selfRefresh then { m with selfRefreshWanted := true } else m)) s

/-- Every stack leaves self-refresh, and the requests that waited are served (R317). -/
def leaveSelfRefresh (s : State) : State :=
  allBays.foldl (fun s b =>
    let s1 := modMem s b (fun m => { m with selfRefresh := false, selfRefreshWanted := false })
    if s.bays[b].mem.selfRefresh then cxlDrain s1 b else s1) s

/-- A stage is entered: its actions come into force (Table 13.4). -/
def shedEnter (s : State) (stage : Nat) : State :=
  let s1 := modPow s (fun p => { p with stage := stage, shedTimer := s.alm.t, undoing := false, holdSince := none, fallowBack := false })
  levelUpdate (shedLog (if stage = 4 then wantSelfRefresh (fallowOff s1) else fallowOff s1) codeShedEnter stage)

/-- A dip on a bay rail is noted. -/
def railDip (s : State) (b : BayId) (mv : Nat) : State :=
  modPow (modBayPow s b (fun q => { q with mv := mv })) (fun p => { p with
    below := true, undoing := false, holdSince := none,
    dips := p.dips.filter (fun d => !elapsed s d.1 1000000000) ++ [(s.alm.t, mv, b.1)] })

/-- SHED_STAGE_ENTER (R378): stage 1. -/
def execShedStageEnter (b : BayId) (mv : Nat) (s : State) : Res :=
  .next (if s.pow.inReset || s.pow.stage != 0 || 684 ≤ mv then s else shedEnter (railDip s b mv) 1)

/-- How long a stage lasts below warning before the next one, in ns. -/
def shedTime (stage : Nat) : Nat := if stage = 1 then 20000 else if stage = 2 then 100000 else 1000000

/-- SHED_ESCALATE (R378): the stage's time has passed below warning, or a rail is below 0.662 V. -/
def execShedEscalate (b : BayId) (mv : Nat) (s : State) : Res :=
  .next (if s.pow.inReset || 684 ≤ mv then s
    else if mv < 662 ∧ s.pow.stage < 3 then shedEnter (railDip s b mv) 3
    else if s.pow.below ∧ 1 ≤ s.pow.stage ∧ s.pow.stage < 4 ∧ elapsed s s.pow.shedTimer (shedTime s.pow.stage) then
      shedEnter (railDip s b mv) (s.pow.stage + 1)
    else s)

/-- BAY_RAIL_BELOW_WARNING (R378, R379): below warning again, the undoing stops and the timer starts again. -/
def execBayRailBelowWarning (b : BayId) (mv : Nat) (s : State) : Res :=
  .next (if s.pow.stage = 0 ∨ 684 ≤ mv then s
    else if s.pow.below then railDip s b mv
    else modPow (railDip s b mv) (fun p => { p with shedTimer := s.alm.t }))

/-- BAY_RAIL_ABOVE_RECOVERY (R379): every bay rail above 0.694 V, so the hold starts. -/
def execBayRailAboveRecovery (s : State) : Res :=
  .next (if s.pow.stage = 0 then s else modPow s (fun p => { p with below := false, holdSince := some (p.holdSince.getD s.alm.t) }))

/-- SHED_RECOVER_HOLD (R379): the hold of 10 ms ends, and undoing begins. -/
def execShedRecoverHold (s : State) : Res :=
  .next (match s.pow.holdSince with
    | some t =>
      if s.pow.stage = 0 || s.pow.below || s.pow.trip || s.pow.undoing || !elapsed s t 10000000 then s
      else modPow s (fun p => { p with undoing := true, lastUndo := s.alm.t - 1000000 })
    | none => s)

/-- SHED_STAGE_UNDO (R379): one stage each millisecond. -/
def execShedStageUndo (s : State) : Res :=
  .next (if !s.pow.undoing || s.pow.below || s.pow.trip || s.pow.stage == 0 || !elapsed s s.pow.lastUndo 1000000 then s
    else
      let n := s.pow.stage
      let s1 := modPow s (fun p => { p with stage := n - 1, lastUndo := s.alm.t, undoing := n != 1,
                                            holdSince := if n = 1 then none else p.holdSince, fallowBack := n == 1 && p.floor != 0 })
      levelUpdate (shedLog (if n = 4 then leaveSelfRefresh s1 else s1) codeShedExit n))

/-- THERMAL_TRIP (R372): a junction (bay 0 to 15, hub 16) at 105 °C. Stage 4 applies at once, and every bay clock stops. -/
def execThermalTrip (unit tj : Nat) (s : State) : Res :=
  .next (if s.pow.inReset || tj < 1680 || 16 < unit then s
    else
      let s1 := modPow (match finOpt 16 unit with
        | some b => modBayPow s b (fun q => { q with tj := tj })
        | none => modPow s (fun p => { p with hubTj := tj })) (fun p => { p with tripCool := none })
      if s.pow.trip then s1 else
      let s2 := logWide (modPow s1 (fun p => { p with trip := true, undoing := false })) (mgmt :: tenantsLive s) .thm codeThermalTrip unit tj 0 0
      if s.pow.stage = 4 then levelUpdate s2 else shedEnter s2 4)

/-- THERMAL_TRIP_END (R372): every junction has stayed below 95 °C for 1 s. -/
def execThermalTripEnd (s : State) : Res :=
  .next (if !s.pow.trip || !(match s.pow.tripCool with | some t => elapsed s t 1000000000 | none => false) then s
    else levelUpdate (modPow s (fun p => { p with trip := false, tripCool := none, undoing := !p.below, lastUndo := s.alm.t - 1000000 })))

/-- THERMTRIP_ASSERT (R372): a junction at 110 °C; THERMTRIP_N stays asserted until reset. -/
def execThermtripAssert (unit tj : Nat) (s : State) : Res :=
  .next (if s.pow.inReset || tj < 1760 || 16 < unit then s else modPow s (fun p => { p with thermtrip := true }))

/-! ## The load leveller (R373 to R376) -/

/-- The fallow load that a bay should run, in mW. -/
def fallowGoal (s : State) (b : BayId) : Nat :=
  let q := s.bays[b].pow
  if s.pow.stage ≠ 0 ∨ s.pow.trip ∨ q.govFallowOff ∨ s.pow.cls = 0 then 0 else bayFloor s b - q.work

/-- The hub's fallow load holds it at 150 W while LVL_FLOOR is non-zero. -/
def hubGoal (s : State) : Nat := if s.pow.stage ≠ 0 ∨ s.pow.trip ∨ s.pow.floor = 0 ∨ s.pow.cls = 0 then 0 else 150000 - s.pow.hubW

/-- Move a fallow load toward its goal by at most `left`; the new load and what is left. -/
def slewTo (cur goal left : Nat) : Nat × Nat :=
  if cur ≤ goal then (cur + min left (goal - cur), left - min left (goal - cur)) else (cur - min left (cur - goal), left - min left (cur - goal))

/-- The package power in mW. -/
def packagePower (s : State) : Nat := overBays (fun b => s.bays[b].pow.work + s.bays[b].pow.fallow) + s.pow.hubW + s.pow.hubFallow

/-- Has a millisecond passed since the leveller last moved the fallow load (R375)? -/
def mayAdjust (s : State) : Bool := match s.pow.adjusted with
  | some t => elapsed s t 1000000
  | none => true

/-- LEVELLER_ADJUST (R373, R375): one millisecond's adjustment; the work of each bay, then of the hub, in mW. -/
def execLevellerAdjust (work : List Nat) (s : State) : Res :=
  .next (if s.pow.inReset || clocksFrozen s || !mayAdjust s then s
    else
      let s1 := modPow (allBays.foldl (fun s b => modBayPow s b (fun q => { q with work := work.getD b.1 q.work })) s)
        (fun p => { p with hubW := work.getD 16 p.hubW })
      let hub := slewTo s1.pow.hubFallow (hubGoal s1) (1000 * s1.pow.slew.toNat)
      let s2 := modPow s1 (fun p => { p with hubFallow := hub.1 })
      let r := allBays.foldl (fun (a : State × Nat) b =>
        let x := slewTo a.1.bays[b].pow.fallow (fallowGoal a.1 b) a.2
        (modBayPow a.1 b (fun q => { q with fallow := x.1 }), x.2)) (s2, hub.2)
      let back := !allBays.all (fun b => r.1.bays[b].pow.fallow == fallowGoal r.1 b)
      levelUpdate (modPow r.1 (fun p => { p with pkg := packagePower r.1, fallowBack := p.fallowBack && back, adjusted := some s.alm.t })))

/-! ## Reference clocks (R384) -/

/-- REF_LOST (R384): bit 0 the 25 MHz reference, 1 the 156.25 MHz, 2 the 100 MHz. -/
def execRefLost (ref : Fin 3) (s : State) : Res :=
  .next (if s.pow.inReset || !s.pow.refs.getLsbD ref.1 then s
    else
      let s1 := logN (modPow s (fun p => { p with refs := p.refs &&& ~~~(1#3 <<< ref.1) })) mgmt .clk codeRefLost ref.1 0
      if ref.1 = 1 then
        allPorts.foldl (fun s p =>
          let s2 : State := if s.eth[p].link0 then ethDown s p false else s
          let s3 : State := if s2.eth[p].link1 then ethDown s2 p true else s2
          if s3.zld[p].state == .down then s3 else zldDown s3 p) s1
      else if ref.1 = 2 ∧ s1.link.up then hostLost s1
      else s1)

/-- REF_RESTORED (R384). -/
def execRefRestored (ref : Fin 3) (s : State) : Res :=
  .next (if s.pow.inReset || s.pow.refs.getLsbD ref.1 then s
    else logN (modPow s (fun p => { p with refs := p.refs ||| (1#3 <<< ref.1) })) mgmt .clk codeRefRestored ref.1 0)

end Sys2Proof.Machine
end

