-- ==== Sys2Proof/Machine/Units.lean ====
section
/-! DEFINITION. The units behind the GRD registers: the daybook queues, the debug unit, the NVM settings, the SerDes lanes and the
partial resets (R390 to R393, R425, R427, R428, R433, R434). -/

namespace Sys2Proof.Machine

/-! ## The daybook (R427, R433, R434) -/

def modDbk (s : State) (p : PartId) (f : Dbk → Dbk) : State := { s with dbk := vmod s.dbk p f }

/-- The most entries that a queue holds. -/
abbrev dbkSize : Nat := 1024

/-- Put an entry in a queue: the oldest leaves a full one and counts as lost. -/
def dbkPut (d : Dbk) (e : Entry) : Dbk :=
  if dbkSize ≤ d.entries.length then { d with entries := d.entries.drop 1 ++ [(d.next, e)], next := d.next + 1, lost := d.lost + 1 }
  else { d with entries := d.entries ++ [(d.next, e)], next := d.next + 1 }

/-- DAYBOOK_ENTRY_WRITE (R434): the entry at the head of the input buffer; one that was not accepted in time is dropped, and still
takes its sequence number. -/
def execDaybookEntryWrite (inTime : Bool) (s : State) : Res :=
  .next (match s.dbkIn with
    | [] => s
    | (p, e) :: rest => modDbk { s with dbkIn := rest } p (fun d => if inTime then dbkPut d e else { d with next := d.next + 1, lost := d.lost + 1 }))

/-- DBK_TAKE (R427): every held entry at or before `q` leaves. -/
def dbkTakeEff (s : State) (p : PartId) (q : W32) : State :=
  modDbk s p (fun d => { d with take := q, entries := d.entries.filter (fun e => 2 ^ 31 ≤ (q - e.1).toNat) })

/-- The 32 bytes of an entry (Table 16.1). -/
def entryBytes (e : Entry) : List Byte :=
  leBytes 8 e.time.toNat ++ leBytes 4 e.source.toNat ++ leBytes 2 e.code ++ [byteOf e.part, byteOf e.sev] ++ leBytes 4 e.d0.toNat ++
  leBytes 4 e.d1.toNat ++ leBytes 4 e.d2.toNat ++ leBytes 4 e.d3.toNat

/-- The daybook that a function reads; none for a VF whose partition does not exist. -/
def dbkFor (s : State) (fn : Fn) : Option PartId :=
  match fnPart fn with
  | some p => if partExists s p then some p else none
  | none => some mgmt

/-- DBK_E0_READ (R427): the oldest held entry goes to the snapshot, and its first word is read. -/
def execDbkE0Read (fn : Fn) (s : State) : Res :=
  .next (match dbkFor s fn with
    | none => emitOut s (.readData (leBytes 4 0) false)
    | some p =>
      let snap := s.dbk[p].entries.head?
      emitOut (modDbk s p (fun d => { d with snap := snap }))
        (.readData (match snap with
          | some e => (entryBytes e.2).take 4
          | none => leBytes 4 0) false))

/-! ## The debug unit (R428) -/

def modDbg (s : State) (f : Dbg → Dbg) : State := { s with dbg := f s.dbg }

/-- A core register by its DBG address; an address that names none reads zero. -/
def dbgReg (k : Core) (a : Nat) : W64 :=
  if a < 0x40 then coreS k (BitVec.ofNat 6 a)
  else if 0x100 ≤ a ∧ a < 0x500 then
    (coreV k (BitVec.ofNat 5 ((a - 0x100) / 32))).toList.getD ((a - 0x100) % 32) 0
  else if 0x500 ≤ a ∧ a < 0x520 then
    let m := k.m[predIx (BitVec.ofNat 3 ((a - 0x500) / 4))]
    [m.m, m.mprime, m.mu, m.r2].getD ((a - 0x500) % 4) 0
  else if 0x520 ≤ a ∧ a < 0x528 then coreP k (BitVec.ofNat 3 (a - 0x520))
  else if a = 0x528 then word64 k.pc
  else 0

/-- Eight bytes of the bay store, closed lines as zeros. -/
def dbgStore (s : State) (b : BayId) (a : Nat) : List Byte :=
  if storeSize < a + 8 ∨ inSpans (closedSram s b) (lineAddr a) then List.replicate 8 0 else memRead s.bays[b].mem.store a 8

/-- What READ gives, none where it is refused: space 0 needs a halted core, the others an address that is a multiple of 8. -/
def dbgRead (s : State) (b : BayId) (c : CoreIx) (space a : Nat) : Option W64 :=
  let k := s.bays[b].cores[c]
  if space = 0 then (if k.halted then some (dbgReg k a) else none)
  else if a % 8 ≠ 0 then none
  else if space = 1 then some (word64 (ofLe (if localSize < a + 8 then [] else localGet s ⟨b, c⟩ k a 8)))
  else if space = 2 then some (word64 (ofLe (dbgStore s b a)))
  else some (word64 (ofLe (if stackSize < a + 8 then [] else openRead s b a 8)))

/-- A command is refused (R428). -/
def dbgRefuse (s : State) (cmd : Nat) : State :=
  logEv (modDbg s (fun d => { d with done := true, refused := true, data := 0 })) mgmt .dbg codeDbgRefused s.dbg.target.toNat
    (s.dbg.addr.toNat % 2 ^ 32) (s.dbg.addr.toNat / 2 ^ 32) cmd

/-- A write of DBG_CMD starts a command: 1 READ, 2 HALT, 3 RESUME, 4 STEP. -/
def dbgEff (s0 : State) (cmd : Nat) : State :=
  let s := modDbg s0 (fun d => { d with cmd := BitVec.ofNat 3 cmd })
  let t := s.dbg.target.toNat
  if cmd = 0 ∨ 4 < cmd then s
  else match finOpt 16 (bitsOf t 27 24), finOpt 50 (bitsOf t 21 16) with
    | some b, some c =>
      if !debugOpen s s.bays[b].owner then dbgRefuse s cmd
      else
        let id : CoreId := ⟨b, c⟩
        let ok (s : State) (d : W64) : State := modDbg s (fun x => { x with done := true, refused := false, data := d, haltedBit := (getCore s id).halted })
        if cmd = 1 then (match dbgRead s b c (t % 4) s.dbg.addr.toNat with
          | some d => ok s d
          | none => dbgRefuse s cmd)
        else if cmd = 2 then ok (modCore s id (fun k => { k with halted := true, stepping := false })) s.dbg.data
        else if cmd = 3 then ok (modCore s id (fun k => { k with halted := false, stepping := false })) s.dbg.data
        else ok (modCore s id (fun k => { k with stepping := k.halted })) s.dbg.data
    | _, _ => dbgRefuse s cmd

/-! ## Persistent settings (R392, R393) -/

/-- The current values of the registers of Table 13.11. -/
def settingsNow (s : State) : Settings where
  cap := s.pow.cap
  floor := s.pow.floor
  slew := s.pow.slew
  cls := s.pow.cls
  tgt := s.pow.tgt
  clk := vmap s.bays (fun y => (y.pow.fix, y.pow.fsel))
  almMode := s.alm.mode
  ppsOff := s.alm.ppsOff
  holdPpb := s.alm.holdPpb
  patrol := vmap s.bays (fun y => (y.mem.patrolEn, y.mem.patrolHours))
  ethMode := vmap s.eth (fun e => e.wr.mode)
  ethMtu := vmap s.eth (fun e => e.wr.mtu)
  ethUdp := vmap s.eth (fun e => e.wr.udp)
  ethMac := vmap s.eth (fun e => (e.wr.macLo, e.wr.macHi))
  msgTmo := s.trn.msgTmo
  holdMin := s.trn.holdMin
  violLim := s.trn.violLim

/-- A port takes its stored configuration, and an Ethernet port begins training. -/
def ethApply (g : Settings) (e : Eth) (p : PortId) : Eth :=
  let e1 := ethSettle { e with wr := { e.wr with mode := g.ethMode[p], mtu := g.ethMtu[p], udp := g.ethUdp[p], macLo := g.ethMac[p].1, macHi := g.ethMac[p].2 } }
  ethTrain e1

/-- The settings record is applied (R393). -/
def settingsApply (s : State) (g : Settings) : State :=
  let s1 := modPow s (fun p => { p with cap := g.cap, floor := g.floor, slew := g.slew, cls := g.cls, tgt := g.tgt, settingsApplied := true, floorSince := s.alm.t })
  let s2 := allBays.foldl (fun s b =>
    modMem (modBayPow s b (fun q => { q with fix := g.clk[b].1, fsel := g.clk[b].2, fselW := g.clk[b].2 })) b
      (fun m => { m with patrolEn := g.patrol[b].1, patrolHours := g.patrol[b].2 })) s1
  let s3 := allPorts.foldl (fun s p => modEth s p (fun e => ethApply g e p)) s2
  { s3 with alm := { s3.alm with mode := g.almMode, state := if g.almMode = 0 then .free else s3.alm.state, ppsOff := g.ppsOff, holdPpb := g.holdPpb },
            trn := { s3.trn with msgTmo := g.msgTmo, holdMin := g.holdMin, violLim := g.violLim } }

def modNvm (s : State) (f : Nvm → Nvm) : State := { s with nvm := f s.nvm }
def nvmBusy (s : State) : Bool := s.nvm.store || s.nvm.defaults

/-- A write of NVM_CTRL (R392): DEFAULTS stores the reset values, STORE the current ones; nothing starts while a store runs. -/
def nvmEff (s : State) (val : Nat) : State :=
  if nvmBusy s then s
  else if bitOf val 1 then modNvm s (fun n => { n with defaults := true, store := bitOf val 0, writing := {} })
  else if bitOf val 0 then modNvm s (fun n => { n with store := true, writing := settingsNow s })
  else s

/-- NVM_STORE_COMPLETE (R392): a copy that verifies takes over; STORE_FAIL for one that does not. -/
def execNvmStoreComplete (verified : Bool) (s : State) : Res :=
  .next (if !nvmBusy s then s
    else
      let s1 := modNvm s (fun n => { n with store := false, defaults := false, stores := n.stores + 1 })
      if verified then modNvm s1 (fun n => if n.useB then { n with a := some n.writing, useB := false, settingsBad := false, storeFail := false }
        else { n with b := some n.writing, useB := true, settingsBad := false, storeFail := false })
      else logN (modNvm s1 (fun n => { n with storeFail := true })) mgmt .nvm codeStoreFail 0 0)

/-! ## SerDes lanes (R391, R425) -/

def modLane (s : State) (p l : PortId) (f : Lane → Lane) : State := { s with lane := vmod s.lane p (fun v => vmod v l f) }

/-- The tap magnitudes of an equalisation word: |PRE2| + |PRE1| + MAIN + |POST1|. -/
def eqSum (w : W32) : Nat :=
  let v := w.toNat
  (signed 6 (bitsOf v 23 18)).natAbs + (signed 6 (bitsOf v 17 12)).natAbs + bitsOf v 11 6 + (signed 6 (bitsOf v 5 0)).natAbs

/-- A pinned lane uses LANEl_EQ and does not adapt, unless its taps exceed 63 together. -/
def laneSettle (x : Lane) : Lane := if x.pin && eqSum x.eq ≤ 63 then { x with eqCur := x.eq, adapting := false } else { x with adapting := x.lock }

/-- A write of LANEl_CTL: PIN, and a change of RECAL from 0 to 1. -/
def laneCtlEff (s : State) (p l : PortId) (val : Nat) : State :=
  let x := s.lane[p][l]
  let on := bitOf val 30
  let s1 := modLane s p l (fun x => laneSettle { x with pin := bitOf val 31, recal := on })
  if !on || x.recal || x.recalBusy then s1
  else if zldMode s p then (if s.zld[p].state = .up then zldRetrainLogged s1 p else s1)
  else if ethMode s.eth[p] false then modLane s1 p l (fun x => { x with recalBusy := true })
  else s1

/-- A write of LANEl_EQ. -/
def laneEqEff (s : State) (p l : PortId) (val : W32) : State := modLane s p l (fun x => laneSettle { x with eq := val &&& 0x0FFFFFFF })

/-- LANE_RECAL_COMPLETE (R391): the equalisation and eye that the lane finds are free values; a pinned lane keeps LANEl_EQ. -/
def execLaneRecalComplete (p l : PortId) (s : State) : Res :=
  .next (if !(s.lane[p][l]).recalBusy then s
    else
      let q := drawFree s (2 ^ 28)
      let e := drawFree q.2 256
      modLane e.2 p l (fun x => laneSettle { x with recalBusy := false, eqCur := word32 q.1, eye := byteOf e.1 }))

/-! ## Partial resets (R390) -/

/-- The unit that a request names. -/
inductive PrstUnit where
  | core (c : CoreId)
  | station (b : BayId) (k : StKind)
  | bay (b : BayId)
  deriving DecidableEq, Repr

/-- The station of a code of Table 10.5. -/
def kindOfCode (n : Nat) : Option StKind := [(2, StKind.bin), (3, .msk), (4, .shr), (5, .lat), (6, .nse), (7, .rls)].find? (fun p => p.1 == n) |>.map (·.2)
def codeOfKind : StKind → Nat
  | .bin => 2
  | .msk => 3
  | .shr => 4
  | .lat => 5
  | .nse => 6
  | .rls => 7

/-- PWR_PRST's KIND, BAY and UNIT (Tables 13.10 and 13.13). -/
def prstUnitOf (val : Nat) : Option PrstUnit :=
  match finOpt 16 (bitsOf val 11 8) with
  | none => none
  | some b =>
    let u := val % 64
    let kind := bitsOf val 15 12
    if kind = 1 then (finOpt 50 u).map (fun c => .core ⟨b, c⟩)
    else if kind = 2 then (kindOfCode u).map (fun k => .station b k)
    else if kind = 3 then (if u = 0 then some (.bay b) else none)
    else none

/-- Does an image of some partition, running or staged, name the bay? -/
def bayNamed (s : State) (b : BayId) : Bool :=
  let names (g : Option Image) : Bool := match g with
    | some g => bitOf g.bays b.1
    | none => false
  allTenants.any (fun t => names s.sch.parts[t].running || names s.sch.parts[t].staged)

/-- The condition of Table 13.10. -/
def prstOk (s : State) : PrstUnit → Bool
  | .core c => (getCore s c).ctl.st == .fenced || (getCore s c).bind.isNone
  | .station b k => (getSt s (.bay b k)).st == .fenced || (stDrained s (.bay b k) && !(getSt s (.bay b k)).enA)
  | .bay b => s.bays[b].mem.bins.isEmpty && !bayNamed s b

/-- The bay of a unit, and the partition told of its reset. -/
def prstBayOf : PrstUnit → BayId
  | .core c => c.bay
  | .station b _ => b
  | .bay b => b
def prstLog (s : State) (code : Nat) (u : PrstUnit) : State := logN s s.bays[prstBayOf u].owner .pwr code (prstBayOf u).1 s.pow.prstLast.toNat

/-- A write of PWR_PRST: GO requests a partial reset; while one runs, the write is discarded. -/
def prstEff (s : State) (val : Nat) : State :=
  if s.pow.prstGo then s
  else
    let s1 := modPow s (fun p => { p with prst := BitVec.ofNat 16 (val % 65536 &&& 0xFF3F) })
    if !bitOf val 31 then s1
    else match prstUnitOf val with
      | none => logN (modPow s1 (fun p => { p with prstFail := true })) (match finOpt 16 (bitsOf val 11 8) with
          | some b => s.bays[b].owner
          | none => mgmt) .pwr codePrstFail (bitsOf val 11 8) (val % 65536)
      | some u =>
        if !prstOk s u then logN (modPow s1 (fun p => { p with prstFail := true })) s.bays[prstBayOf u].owner .pwr codePrstFail (prstBayOf u).1 (val % 65536)
        else
          let s2 := modPow s1 (fun p => { p with
            prstGo := true, prstFail := false, prstLast := BitVec.ofNat 16 (val % 65536 &&& 0xFF3F), prstKind := bitsOf val 15 12, prstBay := (prstBayOf u).1, prstUnit := val % 64 })
          match u with
          | .bay b => askScrub (modMem s2 b (fun m => { m with trained := false, training := true, selfRefresh := false, selfRefreshWanted := false })) b 0 stackSize .prst
          | _ => s2

end Sys2Proof.Machine
end

