-- ==== Sys2Proof/Machine/Registers.lean ====
section
/-! DEFINITION. Register writes: the lock of a page, writes that wait for a component in transition, and the effect of each register
that software can write (R10 to R12, R77, R120, R315, R336, R417 to R422). -/

namespace Sys2Proof.Machine

/-! ## The lock of a page (R11, R12, R418) -/

def lockOf (s : State) (pg : Page) : Lock := (s.locks.find? (fun l => l.page == pg)).getD { page := pg }

/-- Keep a page's lock; one that is locked with nothing discarded is not listed. -/
def putLock (s : State) (l : Lock) : State :=
  let rest := s.locks.filter (fun x => x.page != l.page)
  { s with locks := if l.unlocked || l.discards != 0 then l :: rest else rest }

def setLock (s : State) (pg : Page) (unlocked : Bool) : State := putLock s { lockOf s pg with unlocked := unlocked }

/-- The key of PG_UNLOCK. -/
abbrev unlockKey : W32 := 0x0000A55A

/-- The requester's number in a GRD_LOCKED entry (Table 16.5). -/
def fnNo : Fn → Nat
  | .pf => 0
  | .vf n => n.1 + 1
  | .rot => 0x20
  | .dbg => 0x21

/-- A GRD write to a locked page is discarded and counted; one entry for each page each millisecond. -/
def grdLocked (s : State) (fn : Fn) (pg : Page) (off : Nat) (val : W32) : State :=
  let l := lockOf s pg
  let n := min (2 ^ 32 - 1) (l.discards + 1)
  if rateOk s (.grd pg) 1000000 then
    putLock (logEv (rateMark s (.grd pg)) (pageOwner s pg) pg codeGrdLocked off val.toNat (fnNo fn) n) { l with discards := 0 }
  else putLock s { l with discards := n }

/-! ## Writes of single registers -/

/-- An MW write merges the bits that its mask selects (Table 00.3). -/
def mwMerge (old val : Nat) : Nat :=
  let mask := val / 65536
  ((List.range 16).map (fun i => 2 ^ i * b2n (if bitOf mask i then bitOf val i else bitOf old i))).foldl (· + ·) 0

/-- EN, ABORT and DRAIN_REQ as bits 15 to 13. -/
def ctlBits (en abort drain : Bool) : Nat := b2n en * 2 ^ 15 + b2n abort * 2 ^ 14 + b2n drain * 2 ^ 13

/-- PG_CTRL of a station page (Table 03.6): the bits reach the station by STATION_CONTROL_ARRIVE. -/
def stationCtlEff (s : State) (r : StationRef) (val : Nat) : State :=
  modSt s r (fun x =>
    let v := mwMerge (ctlBits x.en x.abort x.drain) val
    { x with en := bitOf v 15, abort := bitOf v 14, drain := bitOf v 13 })

/-- SHAREp_CTRL of Intake (R111). -/
def intakeShareEff (s : State) (p : TenantId) (val : Nat) : State :=
  let h := getShare s p
  let v := mwMerge (ctlBits h.en h.abort h.drain) val
  intakePump (intakeAbortNow (modShare s p (fun h => { h with en := bitOf v 15, abort := bitOf v 14, drain := bitOf v 13 })) p)

/-- SHAREp_CTRL of Reduce (R294). -/
def reduceShareEff (s : State) (p : TenantId) (val : Nat) : State :=
  let h := s.red.shares[p]
  let v := mwMerge (ctlBits h.en h.abort h.drain) val
  redAbortNow (modRedShare s p (fun h => { h with en := bitOf v 15, abort := bitOf v 14, drain := bitOf v 13 })) p

/-- ZLDn_CTL (Table 11.12). -/
def zldCtlEff (s : State) (p : PortId) (val : Nat) : State :=
  let z := s.zld[p]
  let v := mwMerge (b2n z.en * 2 ^ 15 + b2n z.retrain * 2 ^ 14) val
  retrainEff (zldEnEff s p (bitOf v 15)) p (bitOf v 14)

/-- MBX_CTRL (R343, Table 12.20): GO starts the command that MBX_OP names then, with a request of MBX_REQ_LEN bytes; GO written while BUSY
is discarded, IMMEDIATE is not. An opcode that Table 12.9 does not list ends at once with a
status the spec does not name, a free value; before the start of Table 12.4 has ended, and after one that failed but for
IDENTITY_GET, GO is discarded. -/
def mbxCtlEff (s : State) (val : Nat) : State :=
  let m := s.rot.mbx
  let v := mwMerge (b2n m.go * 2 ^ 15 + b2n m.imm * 2 ^ 14) val
  let op := m.op.toNat % 65536
  let s1 := modMbx s (fun m => { m with imm := bitOf v 14 })
  if m.busy then (if bitOf val 31 && bitOf val 15 then logN s1 mgmt .rtp codeMbxBusy op 0 else s1)
  else
    if !bitOf v 15 then s1
    else if !s.rot.ready && !(startFailed s && op == 1) then s1
    else
      let s2 := modMbx s1 (fun m => { m with go := true, busy := true, done := false, used := 0, curOp := m.op, curLen := m.reqLen })
      if [0x0001, 0x0002, 0x0010, 0x0011, 0x0012, 0x0020, 0x0021, 0x0022, 0x0023, 0x0024, 0x0030, 0x0031, 0x0032, 0x0033, 0x0034, 0x0040, 0x0041].contains op then s2
      else
        let d := drawFree s2 65536
        mbxDone d.2 d.1 []

/-- The registers of the RTP page (Table 12.19). -/
def rtpEff (s : State) (off : Nat) (val : W32) : State :=
  let lo (old : W64) (mask : W32) : W64 := (old &&& 0xFFFFFFFF00000000) ||| word64 (val &&& mask).toNat
  let hi (old : W64) : W64 := (old &&& 0xFFFFFFFF) ||| word64 (val.toNat * 2 ^ 32)
  if off = 0x104 then mbxCtlEff s val.toNat
  else modMbx s (fun m =>
    if off = 0x100 then { m with op := val &&& 0x001FFFFF }
    else if off = 0x108 then { m with req := lo m.req 0xFFFFFFC0 }
    else if off = 0x10C then { m with req := hi m.req }
    else if off = 0x110 then { m with reqLen := val.toNat % 2 ^ 18 }
    else if off = 0x114 then { m with rsp := lo m.rsp 0xFFFFFFC0 }
    else if off = 0x118 then { m with rsp := hi m.rsp }
    else if off = 0x11C then { m with rspLen := val.toNat % 2 ^ 18 }
    else if off = 0x128 then { m with vector := val &&& 0x8000007F }
    else m)

/-- The registers of a QM page (Table 11.13): while EN is 1, only a write that changes nothing else of them takes effect (R327). -/
def qmEff (s : State) (p : PartId) (off : Nat) (val : W32) : State :=
  let a := s.qm.adm[p]
  let lo (old : W64) : W64 := (old &&& 0xFFFFFFFF00000000) ||| word64 (val &&& 0xFFFFF000).toNat
  let hi (old : W64) : W64 := (old &&& 0xFFFFFFFF) ||| word64 (val.toNat * 2 ^ 32)
  let put (f : AdmCfg → AdmCfg) : State := if a.cfg.msb then s else modQm s (fun m => { m with adm := vmod m.adm p f })
  if off = 0x108 then put (fun a => { a with sqAddr := lo a.sqAddr })
  else if off = 0x10C then put (fun a => { a with sqAddr := hi a.sqAddr })
  else if off = 0x110 then put (fun a => { a with cqAddr := lo a.cqAddr })
  else if off = 0x114 then put (fun a => { a with cqAddr := hi a.cqAddr })
  else admCfgEff s p val

/-- A port takes a new configuration; a change of the mode in force drops its links, and an Ethernet mode begins training. -/
def ethPut (s : State) (p : PortId) (f : EthCfg → EthCfg) : State :=
  let old := s.eth[p]
  let e := ethSettle { old with wr := f old.wr }
  let s1 := modEth s p (fun _ => e)
  if e.modeV = old.modeV then s1
  else
    let s2 : State := if old.link0 then ethDown s1 p false else s1
    let s3 : State := if old.link1 then ethDown s2 p true else s2
    let s4 : State := if s3.zld[p].state == .down then s3 else zldDown s3 p
    modEth s4 p ethTrain

/-- An address register of row `p` (Table 04.13, R336): `fn` is its writer, `k` the register's place in the row. -/
def addrEff (s : State) (fn : Fn) (n : PortId) (p : TenantId) (k : Nat) (val : W32) : State :=
  let row := (s.eth[n]).wr.rows[p]
  let v := val.toNat
  let held : Bool := partExists s (tenantPart p) && fn != .rot
  let put (f : AddrRow → AddrRow) : State := ethPut s n (fun c => { c with rows := vmod c.rows p f })
  if held && !row.valid then s
  else if k = 0 then
    (if held && (bitOf v 31 != row.valid || bitsOf v 23 16 != row.weight) then s
     else put (fun r => { r with valid := bitOf v 31, v6 := bitOf v 30, v4 := bitOf v 29, untagged := bitOf v 28, weight := bitsOf v 23 16, vlan := v % 4096 }))
  else if k = 1 then put (fun r => { r with ip4 := val })
  else match finOpt 4 (k - 2) with
    | some i => put (fun r => { r with ip6 := vmod r.ip6 i (fun _ => val) })
    | none => s

/-- The registers of an ETH page (Table 04.12). -/
def ethEff (s : State) (fn : Fn) (p : PortId) (off : Nat) (val : W32) : State :=
  if 0x200 ≤ off then (match finOpt 16 ((off - 0x200) / 0x20) with
    | some t => addrEff s fn p t (off % 0x20 / 4) val
    | none => s)
  else ethPut s p (fun c =>
    if off = 0x100 then { c with mode := BitVec.ofNat 3 val.toNat }
    else if off = 0x104 then { c with mtu := BitVec.ofNat 14 val.toNat }
    else if off = 0x108 then { c with udp := BitVec.ofNat 16 val.toNat }
    else if off = 0x10C then { c with macLo := val }
    else { c with macHi := BitVec.ofNat 16 val.toNat })

/-- The registers of the TRN page (Table 04.14). -/
def trnEff (s : State) (off : Nat) (val : W32) : State :=
  if 0x400 ≤ off then (match finOpt 16 ((off - 0x400) / 0x20) with
    | some p => intakeShareEff s p val.toNat
    | none => s)
  else modTrn s (fun t =>
    if off = 0x200 then { t with msgTmo := if val.toNat % 2 ^ 24 = 0 then t.msgTmo else BitVec.ofNat 24 val.toNat }
    else if off = 0x204 then { t with holdMin := BitVec.ofNat 16 val.toNat }
    else if off = 0x208 then { t with violLim := BitVec.ofNat 16 val.toNat }
    else if off = 0x20C then { t with ctxValid := bitOf val.toNat 0, ctxBase := (t.ctxBase &&& 0xFFFFFFFF00000000) ||| word64 (val &&& 0xFC000000).toNat }
    else { t with ctxBase := (t.ctxBase &&& 0xFFFFFFFF) ||| word64 (val.toNat * 2 ^ 32) })

/-- The registers of the ALM page (Tables 10.13, 10.14): a reserved MODE keeps the mode. -/
def almEff (s : State) (off : Nat) (val : W32) : State :=
  let v := val.toNat
  let put (f : Alm → Alm) : State := { s with alm := f s.alm }
  if off = 0x108 then almSetEff (almModeEff s (v % 4)) (bitOf v 2)
  else if off = 0x10C then put (fun a => { a with setSec := val })
  else if off = 0x110 then (if -500000 ≤ val.toInt ∧ val.toInt ≤ 500000 then put (fun a => { a with ppsOff := val.toInt }) else s)
  else put (fun a => { a with holdPpb := BitVec.ofNat 20 v })

/-- CLK_BAYb (Table 13.12, R370): a reserved code keeps the one before. -/
def clkEff (s : State) (b : BayId) (val : Nat) : State :=
  let c : BitVec 3 := BitVec.ofNat 3 val
  modBayPow s b (fun q => { q with fix := bitOf val 31, fselW := c, fsel := if 4 < c.toNat then q.fsel else c })

/-- THM_TGT: 70 to 100 °C. -/
def tgtEff (s : State) (val : Nat) : State :=
  let v := val % 128
  if 70 ≤ v ∧ v ≤ 100 then modPow s (fun p => { p with tgt := BitVec.ofNat 7 v }) else s

/-- The registers of the LVL page: a value out of range is discarded; a floor that was off starts its ramp. -/
def lvlEff (s : State) (off val : Nat) : State :=
  if off = 0x100 then
    let v := val % 2048
    if v = 0 ∨ (200 ≤ v ∧ v ≤ 1400) then
      levelUpdate (modPow s (fun p => { p with floor := BitVec.ofNat 11 v, floorSince := if p.floor = 0 then s.alm.t else p.floorSince }))
    else s
  else if off = 0x104 then (if 1 ≤ val % 256 ∧ val % 256 ≤ 200 then modPow s (fun p => { p with slew := byteOf val }) else s)
  else levelUpdate (modPow s (fun p => { p with cls := BitVec.ofNat 4 val }))

/-- RNG_CTRL (Table 08.12). -/
def rngEff (s : State) (val : Nat) : State := restartEff (srcEnEff s (bitOf val 0)) (bitOf val 1)

/-- The registers of the DBG page (Table 15.16). -/
def dbgPageEff (s : State) (off : Nat) (val : W32) : State :=
  if off = 0x10C then dbgEff s (val.toNat % 8)
  else modDbg s (fun d =>
    if off = 0x100 then { d with target := val &&& 0x0F3F0003 }
    else if off = 0x104 then { d with addr := (d.addr &&& 0xFFFFFFFF00000000) ||| word64 val.toNat }
    else { d with addr := (d.addr &&& 0xFFFFFFFF) ||| word64 (val.toNat * 2 ^ 32) })

/-- MEM_PATROL: a period of 1 to 65,535 hours. -/
def patrolEff (s : State) (b : BayId) (val : Nat) : State :=
  if val % 65536 = 0 then s else modMem s b (fun m => { m with patrolEn := bitOf val 31, patrolHours := BitVec.ofNat 16 val })

/-- The effect of a write that reaches a writable register of a page. -/
def regWrite (s : State) (fn : Fn) (pg : Page) (off : Nat) (val : W32) : State :=
  if off = 0x008 then (match pageStation pg with
    | some r => stationCtlEff s r val.toNat
    | none => s)
  else match pg with
    | .dev => { s with scratch := val }
    | .pwr => if off = 0x100 then capEff s val else prstEff s val.toNat
    | .clk => (match finOpt 16 ((off - 0x200) / 4) with
      | some b => clkEff s b val.toNat
      | none => s)
    | .alm => almEff s off val
    | .rtp => rtpEff s off val
    | .rng => rngEff s val.toNat
    | .nvm => nvmEff s val.toNat
    | .qm p => qmEff s p off val
    | .eth p => ethEff s fn p off val
    | .lane p => (match finOpt 8 ((off - 0x100) / 0x20) with
      | some l => if off % 0x20 = 0 then laneCtlEff s p l val.toNat else laneEqEff s p l val
      | none => s)
    | .trn => trnEff s off val
    | .zld => (match finOpt 8 ((off - 0x100) / 0x20) with
      | some p => zldCtlEff s p val.toNat
      | none => s)
    | .red => (match finOpt 16 ((off - 0x400) / 0x20) with
      | some p => reduceShareEff s p val.toNat
      | none => s)
    | .dbk p => dbkTakeEff s p val
    | .dbg => dbgPageEff s off val
    | .thm => tgtEff s val.toNat
    | .lvl => lvlEff s off val.toNat
    | .view n => { s with coreSel := vmod s.coreSel n (fun _ => BitVec.ofNat 4 val.toNat) }
    | .mem b => patrolEff s b val.toNat
    | _ => s

/-! ## A write on the bus (R10 to R12, R417 to R422) -/

/-- The component that runs a page's block (Tables 15.2 and 15.3), 0 for none. -/
def pageComp : Page → Nat
  | .dev | .alm | .sch | .qm _ | .cxl | .dbk _ | .dbg | .view _ => 3
  | .pwr | .clk | .thm | .lvl => 7
  | .rtp | .rng | .nvm | .part => 2
  | .eth _ | .trn | .win => 4
  | .lane _ => 6
  | .zld | .red => 5
  | .bay _ | .core _ => 0
  | .mem _ => 8
  | .st _ .bin => 9
  | .st _ .msk | .st _ .shr => 10
  | .st _ .lat => 11
  | .st _ .nse | .st _ .rls => 12

/-- Do writes to a page wait for its component's transition (R420)? Station microcode switches instance by instance, as each drains,
and its pages take writes meanwhile: notes/assumptions/40.md. -/
def pageWaits (s : State) (pg : Page) : Bool :=
  match finOpt 12 (pageComp pg - 1) with
  | some i => 2 ≤ pageComp pg && pageComp pg ≤ 8 && (s.rot.comps[i]).active
  | none => false

/-- A write of a register, by kind: notes/assumptions/40.md. -/
def busWrite (s : State) (fn : Fn) (pg : Page) (off : Nat) (val : W32) : State :=
  if s.pow.inReset || !reaches s fn pg then s
  else match regKind pg off with
    | none => s
    | some .unlock => setLock s pg (val == unlockKey)
    | some .ro => setLock s pg false
    | some k =>
      let s1 := setLock s pg false
      if k == .grd && !(lockOf s pg).unlocked then grdLocked s1 fn pg off val
      else if pageWaits s pg then modRot s1 (fun r => { r with deferred := r.deferred ++ [(fn, pg, off, val)] })
      else regWrite s1 fn pg off val

/-- The writes that waited for a component, in the order in which they arrived. -/
def applyDeferred (s : State) : State :=
  let mine := s.rot.deferred.filter (fun w => !pageWaits s w.2.1)
  mine.foldl (fun s w => regWrite s w.1 w.2.1 w.2.2.1 w.2.2.2)
    (modRot s (fun r => { r with deferred := r.deferred.filter (fun w => pageWaits s w.2.1) }))

/-- An MW write of one bit: its mask, and the bit. -/
def mwBit (i : Nat) (on : Bool) : W32 := word32 (2 ^ (16 + i) + b2n on * 2 ^ i)

/-! ## The rows -/

/-- A 4-byte write at an address of a function's BAR0 (the PF's map for the DBG path and the root of trust) or BAR4 (R315); an address that
names no register, or is no multiple of 4, has no effect. -/
def barWrite (s : State) (fn : Fn) (bar4 : Bool) (addr : Nat) (val : W32) : State :=
  if bar4 then
    (match fnPart fn with
     | some p => if s.pow.inReset || !partExists s p || addr % 4 != 0 then s else msixWrite s p addr val
     | none => s)
  else match regAddr s fn addr with
    | some (pg, off) => if off % 4 = 0 then busWrite s fn pg off val else s
    | none => s

/-- REGISTER_WRITE (R10, R315): a write of 4 bytes, or of 8 naturally aligned ones: two writes of 4 bytes, the
lower first (DESIGN CHOICE: R315 names no order, notes/assumptions/50.md). -/
def execRegisterWrite (fn : Fn) (addr : BarAddr) (val : BarData) (s : State) : Res :=
  .next (match val.hi with
    | none => barWrite s fn addr.bar4 addr.addr val.lo
    | some v => if addr.addr % 8 = 0 then barWrite (barWrite s fn addr.bar4 addr.addr val.lo) fn addr.bar4 (addr.addr + 4) v else s)

/-- PG_UNLOCK (R11). -/
def execPgUnlock (fn : Fn) (pg : Page) (val : W32) (s : State) : Res := .next (busWrite s fn pg 0x014 val)

/-- BAR_ACCESS_MALFORMED (R315): only a size other than 4 or 8, or an address that is no multiple of it, is malformed. -/
def execBarAccessMalformed (fn : Fn) (bar2 : Bool) (isRead : Bool) (addr size : Nat) (s : State) : Res :=
  let bar := if bar2 then 2 else 0
  .next (if s.pow.inReset || ((size == 4 || size == 8) && addr % size == 0) then s
    else
      let s1 := if isRead then emitOut (modLink s (fun l => { l with urSent := l.urSent + 1 })) .unsupported else s
      logN s1 mgmt .cxl codeCxlAccess (fnNo fn) bar)

/-- STATION_EN (R77, R78). -/
def execStationEn (fn : Fn) (st : StationRef) (on : Bool) (s : State) : Res := .next (busWrite s fn (stPage st) 0x008 (mwBit 15 on))
/-- STATION_ABORT (R77, R79). -/
def execStationAbort (fn : Fn) (st : StationRef) (on : Bool) (s : State) : Res := .next (busWrite s fn (stPage st) 0x008 (mwBit 14 on))
/-- STATION_DRAIN_REQ (R77, R78). -/
def execStationDrainReq (fn : Fn) (st : StationRef) (on : Bool) (s : State) : Res := .next (busWrite s fn (stPage st) 0x008 (mwBit 13 on))

/-- INTAKE_SHARE_EN (R111). -/
def execIntakeShareEn (fn : Fn) (p : TenantId) (on : Bool) (s : State) : Res := .next (busWrite s fn .trn (0x400 + p.1 * 0x20) (mwBit 15 on))
/-- INTAKE_SHARE_ABORT (R111). -/
def execIntakeShareAbort (fn : Fn) (p : TenantId) (on : Bool) (s : State) : Res := .next (busWrite s fn .trn (0x400 + p.1 * 0x20) (mwBit 14 on))
/-- INTAKE_SHARE_DRAIN_REQ (R111). -/
def execIntakeShareDrainReq (fn : Fn) (p : TenantId) (on : Bool) (s : State) : Res := .next (busWrite s fn .trn (0x400 + p.1 * 0x20) (mwBit 13 on))

/-- REDUCE_SHARE_EN (R294). -/
def execReduceShareEn (fn : Fn) (p : TenantId) (on : Bool) (s : State) : Res := .next (busWrite s fn .red (0x400 + p.1 * 0x20) (mwBit 15 on))
/-- REDUCE_SHARE_ABORT (R294). -/
def execReduceShareAbort (fn : Fn) (p : TenantId) (on : Bool) (s : State) : Res := .next (busWrite s fn .red (0x400 + p.1 * 0x20) (mwBit 14 on))
/-- REDUCE_SHARE_DRAIN_REQ (R294). -/
def execReduceShareDrainReq (fn : Fn) (p : TenantId) (on : Bool) (s : State) : Res := .next (busWrite s fn .red (0x400 + p.1 * 0x20) (mwBit 13 on))

/-- SRC_EN (R205): RNG_CTRL written with RESTART as it stands. -/
def execSrcEn (fn : Fn) (on : Bool) (s : State) : Res := .next (busWrite s fn .rng 0x100 (word32 (b2n on + 2 * b2n s.rng.restart)))
/-- RESTART (R206): RNG_CTRL written with SRC_EN as it stands. -/
def execRestart (fn : Fn) (on : Bool) (s : State) : Res := .next (busWrite s fn .rng 0x100 (word32 (b2n s.rng.srcEn + 2 * b2n on)))

/-- ALM_MODE (R265): ALM_CTRL written with SET as it stands. -/
def execAlmMode (fn : Fn) (mode : BitVec 2) (s : State) : Res := .next (busWrite s fn .alm 0x108 (word32 (mode.toNat + 4 * b2n s.alm.set)))
/-- ALM_SET (R269): ALM_CTRL written with MODE as it stands. -/
def execAlmSet (fn : Fn) (on : Bool) (s : State) : Res := .next (busWrite s fn .alm 0x108 (word32 (s.alm.mode.toNat + 4 * b2n on)))

/-- ZLD_EN (R304). -/
def execZldEn (fn : Fn) (port : PortId) (on : Bool) (s : State) : Res := .next (busWrite s fn .zld (0x100 + port.1 * 0x20) (mwBit 15 on))
/-- RETRAIN (R304). -/
def execRetrain (fn : Fn) (port : PortId) (on : Bool) (s : State) : Res := .next (busWrite s fn .zld (0x100 + port.1 * 0x20) (mwBit 14 on))

/-- QM_ADM_CFG_EN (R327): the QM page that the function sees. -/
def execQmAdmCfgEn (fn : Fn) (val : W32) (s : State) : Res := .next (busWrite s fn (.qm ((fnPart fn).getD mgmt)) 0x118 val)

/-- PWR_CAP_WRITE (R366). -/
def execPwrCapWrite (fn : Fn) (val : W32) (s : State) : Res := .next (busWrite s fn .pwr 0x100 val)

/-- A PWR_PRST request: GO, KIND, BAY and UNIT. -/
def prstWord (kind bay unit : Nat) : W32 := word32 (2 ^ 31 + kind * 2 ^ 12 + bay * 2 ^ 8 + unit)

/-- PRST_CORE (R390). -/
def execPrstCore (fn : Fn) (c : CoreId) (s : State) : Res := .next (busWrite s fn .pwr 0x110 (prstWord 1 c.bay.1 c.core.1))
/-- PRST_STATION (R390). -/
def execPrstStation (fn : Fn) (b : BayId) (k : StKind) (s : State) : Res := .next (busWrite s fn .pwr 0x110 (prstWord 2 b.1 (codeOfKind k)))
/-- PRST_BAY (R390). -/
def execPrstBay (fn : Fn) (b : BayId) (s : State) : Res := .next (busWrite s fn .pwr 0x110 (prstWord 3 b.1 0))

/-- NVM_STORE (R392). -/
def execNvmStore (fn : Fn) (s : State) : Res := .next (busWrite s fn .nvm 0x100 1)
/-- NVM_DEFAULTS (R392). -/
def execNvmDefaults (fn : Fn) (s : State) : Res := .next (busWrite s fn .nvm 0x100 2)

/-- LANE_RECAL (R425): LANEl_CTL written with RECAL = 1 and PIN as it stands. -/
def execLaneRecal (fn : Fn) (p lane : PortId) (s : State) : Res :=
  .next (busWrite s fn (.lane p) (0x100 + lane.1 * 0x20) (word32 (2 ^ 30 + b2n (s.lane[p][lane]).pin * 2 ^ 31)))

/-- DBK_TAKE (R427): the DBK page that the function sees. -/
def execDbkTake (fn : Fn) (seq : W32) (s : State) : Res := .next (busWrite s fn (.dbk ((fnPart fn).getD mgmt)) 0x10C seq)

/-- DBG_READ (R428): command 1. -/
def execDbgRead (s : State) : Res := .next (busWrite s .dbg .dbg 0x10C 1)
/-- DBG_HALT (R428): command 2. -/
def execDbgHalt (s : State) : Res := .next (busWrite s .dbg .dbg 0x10C 2)
/-- DBG_RESUME (R428): command 3. -/
def execDbgResume (s : State) : Res := .next (busWrite s .dbg .dbg 0x10C 3)
/-- DBG_STEP (R428): command 4. -/
def execDbgStep (s : State) : Res := .next (busWrite s .dbg .dbg 0x10C 4)

end Sys2Proof.Machine
end

