-- ==== Sys2Proof/Machine/Bringup.lean ====
section
/-! DEFINITION. Reset and bring-up, firmware activation, the end of a partial reset, and the device's own timers on the wire and on
I3C (R108, R118, R338, R356, R385 to R390, R393, R403). -/

namespace Sys2Proof.Machine

/-! ## Reset and release (R385, R386) -/

/-- A firmware component across a device reset: its images and fuses stay; an image of the DRAM interface that waits for a reset
runs now (Table 13.9). -/
def compAfterReset (i : Nat) (c : FwComp) : FwComp :=
  if i = 7 ∧ c.active then
    (match c.accepted with
     | some (svn, d) => { c with svn := svn, digest := d, accepted := none, active := false, switched := [] }
     | none => { c with active := false, switched := [] })
  else { c with active := false, switched := [] }

/-- DEVICE_RESET (Table 13.7): everything but NVM and fuses is lost; a store in progress leaves the previous settings in force. -/
def execDeviceReset (_ : ResetCause) (s : State) : Res :=
  .next { State.reset with
    pending := s.pending, out := s.out, free := s.free,
    nvm := { s.nvm with store := false, defaults := false },
    rot := { State.reset.rot with comps := vmapIdx s.rot.comps compAfterReset, lifecycle := s.rot.lifecycle },
    link := { State.reset.link with perst := s.link.perst, i3cSa := s.link.i3cSa } }

/-- The settings record to apply: the copy in use, else the other; none where neither verifies. -/
def settingsOf (n : Nvm) (ok : Bool) : Option Settings :=
  if !ok then none else if n.useB then n.b.or n.a else n.a.or n.b

/-- The images that NVM holds at the first start of this model: notes/assumptions/12.md. -/
def compAtStart (i : Nat) (c : FwComp) : FwComp :=
  if c.digest = [] then { c with svn := Config.fwSvn i, minSvn := Config.fwMin i, digest := Config.fwDigest i } else c

/-- The root-of-trust start (Table 12.4): the first step that fails ends it. -/
def rotStart (s : State) (r : RotStart) : State :=
  let idBad := !(r.rootOk && r.identityOk)
  let fwBad := !idBad && !(r.rotFwOk && r.microcodeOk)
  let s1 := modRot s (fun x => { x with identityErr := idBad, firmwareErr := fwBad, comps := vmapIdx x.comps compAtStart })
  let s2 := if idBad then logN s1 mgmt .rtp codeIdentityFail 0 0 else if fwBad then logN s1 mgmt .rtp codeFwBad 0 0 else s1
  if !r.rootOk then s2
  else match drbgAsk s2 mgmt [32] .boot with
    | (some b, s3) => bootGot b s3
    | (none, s3) => s3

/-- Bays in training. -/
def trainBays (s : State) (bs : List BayId) : State :=
  bs.foldl (fun s b => modMem s b (fun m => if m.trained || m.failed then m else { m with training := true })) s

def groupBays (g : Nat) : List BayId := allBays.filter (fun b => b.1 / 4 == g)

/-- RESET_RELEASE (R386, Table 13.8, Table 12.4, R393): the management partition's instance, the settings record, the queue range
0 to 63 of the management partition (notes/assumptions/41.md), and the training of bays 0 to 3. -/
def execResetRelease (r : RotStart) (s : State) : Res :=
  .next (if !s.pow.inReset then s
    else
      let s1 := modPow s (fun p => { p with inReset := false, running := true, refs := 7 })
      let s2 := modDrbg s1 mgmt (fun d => { d with live := true })
      let s3 : State := match settingsOf s.nvm r.nvmOk with
        | some g => settingsApply s2 g
        | none => modNvm (settingsApply s2 {}) (fun n => { n with settingsBad := true })
      let s4 := modQm s3 (fun m => { m with base := vmod m.base mgmt (fun _ => 0), count := vmod m.count mgmt (fun _ => 64), share := vmod m.share mgmt (fun _ => 8) })
      levelUpdate (trainBays (rotStart s4 r) (groupBays 0)))

/-! ## Stack training (R386, R388) -/

/-- A bay in training for a partial reset, not for bring-up. -/
def prstTrains (s : State) (b : BayId) : Bool := s.pow.prstGo && s.pow.prstKind == 3 && s.pow.prstBay == b.1

/-- One stack of the group finishes: a trained one is zeroed before it is put in service, a failed one fails its bay. -/
def stackTrained (s : State) (b : BayId) (ok : Bool) : State :=
  if ok then askScrub (modMem s b memTrained) b 0 stackSize .trained
  else failBay (modMem s b (fun m => { m with training := false, trainFail := true })) b (.mem b)

/-- STACK_TRAINING_COMPLETE (R386): the group's stacks finish, and the next group starts; bit b of `passed` is bay b. -/
def execStackTrainingComplete (group : Fin 4) (passed : W16) (s : State) : Res :=
  let mine := (groupBays group.1).filter (fun b => s.bays[b].mem.training && !prstTrains s b)
  .next (if s.pow.inReset || mine.isEmpty then s
    else levelUpdate (trainBays (mine.foldl (fun s b => stackTrained s b (passed.getLsbD b.1)) s) (groupBays (group.1 + 1))))

/-! ## Live update (R356, R389) -/

/-- FW_ACTIVATE (R389): an accepted image begins activation; that of Zaled and Reduce waits until no slot program is RUNNING, and takes
every port that is UP through RETRAIN. -/
def execFwActivate (comp : Fin 12) (s : State) : Res :=
  let c := s.rot.comps[comp]
  .next (if s.pow.inReset || comp.1 == 0 || c.accepted.isNone || c.active || (comp.1 == 4 && slotTenants s != []) then s
    else
      let s1 := modComp s comp (fun c => { c with active := true, switched := [] })
      if comp.1 = 4 then allPorts.foldl (fun s p => if s.zld[p].state == .up then zldRetrainLogged s p else s) s1 else s1)

/-- The station instances that a component's microcode runs in, each with its number. -/
def compStations (i : Nat) : List (Nat × StationRef) :=
  let kinds : List StKind := if i = 8 then [.bin] else if i = 9 then [.msk, .shr] else if i = 10 then [.lat] else if i = 11 then [.nse, .rls] else []
  allBays.flatMap (fun b => kinds.zipIdx.map (fun k => (2 * b.1 + k.2, StationRef.bay b k.1)))

/-- May a station instance switch to the new microcode now (Table 13.9)? -/
def mayReload (s : State) (r : StationRef) : Bool := (getSt s r).st == .fenced || (stDrained s r && !(getSt s r).enA)

/-- Note the station instances that switch now. -/
def compNote (s : State) (comp : Fin 12) : State :=
  modComp s comp (fun c => { c with switched :=
    (c.switched ++ ((compStations comp.1).filter (fun r => mayReload s r.2)).map (·.1)).dedup })

/-- Does every instance run the new image? -/
def compDone (s : State) (comp : Fin 12) : Bool :=
  let c := s.rot.comps[comp]
  if comp.1 = 7 then allBays.all (fun b => c.switched.contains b.1)
  else (compStations comp.1).all (fun r => c.switched.contains r.1)

/-- The new image runs: its SVN and digest are the running ones, and the writes that waited take effect. -/
def compRuns (s : State) (comp : Fin 12) : State :=
  applyDeferred (modComp s comp (fun c => match c.accepted with
    | some (svn, d) => { c with svn := svn, digest := d, accepted := none, active := false, switched := [] }
    | none => { c with active := false, switched := [] }))

/-- The mailbox command that waited for the processor's own firmware. -/
def heldCommand (s : State) : State :=
  match s.rot.mbx.running with
  | some i => if s.rot.mbx.isHeld then mbxRun i (modMbx s (fun m => { m with isHeld := false })) else s
  | none => s

/-- FW_ACTIVATION_COMPLETE (R356, Table 13.9): at once for the hub's components; for the DRAM interface and the station microcode once
every instance has switched. -/
def execFwActivationComplete (comp : Fin 12) (s : State) : Res :=
  .next (if !(s.rot.comps[comp]).active then s
    else
      let s1 := compNote s comp
      if !compDone s1 comp then s1
      else
        let s2 := compRuns s1 comp
        if comp.1 = 1 then heldCommand s2 else if comp.1 = 3 then intakePump s2 else s2)

/-! ## The end of a partial reset (R390) -/

/-- A station instance as its reload leaves it: OFF, without fence or PG_ERR. -/
def reloadSt (x : Station) : Station := { x with st := .off, fault := false, config := false, stall := false, firing := none }

/-- The unit returns to service. -/
def prstGood (s : State) (u : PrstUnit) : State :=
  match u with
  | .core c => modCore s c (fun k => { k with
      ctl := { reloadSt k.ctl with ready := false }, bind := none, run := .stopped, firing := none, faultBits := 0, moved := false, dma := Vector.replicate 4 [] })
  | .station b k => modSt s (.bay b k) reloadSt
  | .bay b =>
    let s1 := stackInService s b
    if (s1.rot.comps[(7 : Fin 12)]).active then modComp s1 7 (fun c => { c with switched := (c.switched ++ [b.1]).dedup }) else s1

/-- The self-test failed: the unit stays, or becomes, fenced or failed. -/
def prstBad (s : State) (u : PrstUnit) : State :=
  match u with
  | .core c => modCore s c (fun k => { k with faultBits := k.faultBits ||| 16, ctl := { k.ctl with fault := true, st := .fenced } })
  | .station b k => modSt s (.bay b k) (fun x => { x with fault := true, st := .fenced })
  | .bay b => failBay (modMem s b (fun m => { m with training := false, trainFail := true, scrub := m.scrub.filter (fun q => q.why != .prst) })) b (.mem b)

/-- PRST_COMPLETE (R390): a bay's reset that passed ends once its stack is zeroed. -/
def execPrstComplete (passed : Bool) (s : State) : Res :=
  .next (if !s.pow.prstGo then s
    else match prstUnitOf s.pow.prstLast.toNat with
      | none => s
      | some u =>
        if passed && s.pow.prstKind == 3 && s.bays[prstBayOf u].mem.scrub.any (fun q => q.why == .prst) then s
        else
          let s1 := modPow (if passed then prstGood s u else prstBad s u) (fun p => { p with prstGo := false, prstFail := !passed })
          levelUpdate (prstLog s1 (if passed then codePrstDone else codePrstFail) u))

/-! ## Sending on WRD channels (R108, R118) -/

/-- The lowest segment of an own message that the peer has not acknowledged. -/
def lowestUnacked (m : TxMsg) : List Nat := ((txSegs m).filter (fun k => !bitOf m.acked k)).take 1

/-- RETRANSMISSION_TIMEOUT (R108, R118): segments that never went out are sent; else the lowest unacknowledged segment goes again with RETX
and ACKREQ, and the answer to it tells which others the peer lacks. Nothing goes while the peer's HOLD runs, nor once it refused. -/
def execRetransmissionTimeout (chan : Nat) (msgId : W32) (s : State) : Res :=
  .next (match s.trn.tx.find? (fun m => m.chan == chan && m.msgId == msgId) with
    | some m =>
      let unsent := (txSegs m).filter (fun k => !bitOf m.sent k)
      if m.refused || heldOff s chan then s
      else if unsent = [] then sendSegs s m (lowestUnacked m) { retx := true, ackreq := true }
      else sendSegs s m unsent {}
    | none => s)

/-- One round of the reference algorithm: rates in bytes per second, rtt in ns; no raise while the peer's ACKs carry PRESSURE. -/
def rateStep (x : Chan) (rttNs ce : Nat) (frac : Rat) : Chan :=
  let unit : Rat := 8192 * 1000000000 / (rttNs : Rat)
  let alpha := x.alpha + (frac - x.alpha) / 16
  let r1 := if 0 < ce then x.rate * (1 - alpha / 2) else if x.pressed then x.rate else x.rate + unit
  { x with alpha := alpha, rate := max r1 (unit / 100) }

/-- RATE_UPDATE (R118): with no segment acknowledged the fraction is a free value. -/
def execRateUpdate (chan rttNs ce acked : Nat) (s : State) : Res :=
  .next (match getChan s chan with
    | some x =>
      if x.state != .opened || rttNs == 0 then s
      else if acked = 0 then
        let d := drawFree s (2 ^ 32)
        putChan d.2 chan (rateStep x rttNs ce ((d.1 : Rat) / 4294967296))
      else putChan s chan (rateStep x rttNs ce ((ce : Rat) / (acked : Rat)))
    | none => s)

/-! ## I3C (R403) -/

/-- I3C_DYNAMIC_ADDRESS (R403): SETDASA at the static address 0x48 + 2·SA1 + SA0, or ENTDAA, while the target has no dynamic address. -/
def execI3cDynamicAddress (r : I3cAssign) (s : State) : Res :=
  .next (if s.pow.inReset || s.link.i3cDyn.isSome then s
    else match r with
      | .setdasa st dyn => if st.toNat = 0x48 + s.link.i3cSa.toNat then modLink s (fun l => { l with i3cDyn := some dyn }) else s
      | .entdaa dyn => modLink s (fun l => { l with i3cDyn := some dyn }))

end Sys2Proof.Machine
end

