-- ==== Sys2Proof/Machine/CoreAlu.lean ====
section
/-! DEFINITION. The scalar, predicate, branch and control-register instructions (R245, R248). -/

namespace Sys2Proof.Machine

/-- sd = f (sa, sb), with its issue cycles of Table 09.5. -/
def aluOp (s : State) (i : Instr) (c : CoreId) (sd sa sb : BitVec 6) (f : W64 → W64 → W64) : Res :=
  issue s c i (fun k => retire (modCore s c (fun _ => putS k sd (f (coreS k sa) (coreS k sb)))) c 1)

def execAdd (c : CoreId) (sd sa sb : BitVec 6) (s : State) : Res := aluOp s (.add c sd sa sb) c sd sa sb (fun a b => a + b)
def execSub (c : CoreId) (sd sa sb : BitVec 6) (s : State) : Res := aluOp s (.sub c sd sa sb) c sd sa sb (fun a b => a - b)
def execAnd (c : CoreId) (sd sa sb : BitVec 6) (s : State) : Res := aluOp s (.and c sd sa sb) c sd sa sb (fun a b => a &&& b)
def execOr (c : CoreId) (sd sa sb : BitVec 6) (s : State) : Res := aluOp s (.or c sd sa sb) c sd sa sb (fun a b => a ||| b)
def execXor (c : CoreId) (sd sa sb : BitVec 6) (s : State) : Res := aluOp s (.xor c sd sa sb) c sd sa sb (fun a b => a ^^^ b)
/-- Shifts use sb[5:0]. -/
def execSll (c : CoreId) (sd sa sb : BitVec 6) (s : State) : Res := aluOp s (.sll c sd sa sb) c sd sa sb (fun a b => a <<< (b.toNat % 64))
def execSrl (c : CoreId) (sd sa sb : BitVec 6) (s : State) : Res := aluOp s (.srl c sd sa sb) c sd sa sb (fun a b => a >>> (b.toNat % 64))
def execSra (c : CoreId) (sd sa sb : BitVec 6) (s : State) : Res := aluOp s (.sra c sd sa sb) c sd sa sb (fun a b => a.sshiftRight (b.toNat % 64))
def execMul (c : CoreId) (sd sa sb : BitVec 6) (s : State) : Res := aluOp s (.mul c sd sa sb) c sd sa sb (fun a b => a * b)
def execMulhu (c : CoreId) (sd sa sb : BitVec 6) (s : State) : Res :=
  aluOp s (.mulhu c sd sa sb) c sd sa sb (fun a b => word64 (a.toNat * b.toNat / 2 ^ 64))
def execSltu (c : CoreId) (sd sa sb : BitVec 6) (s : State) : Res :=
  aluOp s (.sltu c sd sa sb) c sd sa sb (fun a b => if a.toNat < b.toNat then 1 else 0)
def execSlt (c : CoreId) (sd sa sb : BitVec 6) (s : State) : Res :=
  aluOp s (.slt c sd sa sb) c sd sa sb (fun a b => if a.toInt < b.toInt then 1 else 0)
/-- CMOVNZ: sd keeps its value where sb is 0. -/
def execCmovnz (c : CoreId) (sd sa sb : BitVec 6) (s : State) : Res :=
  issue s c (.cmovnz c sd sa sb) (fun k =>
    retire (modCore s c (fun _ => if coreS k sb = 0 then k else putS k sd (coreS k sa))) c 1)
def execMinu (c : CoreId) (sd sa sb : BitVec 6) (s : State) : Res :=
  aluOp s (.minu c sd sa sb) c sd sa sb (fun a b => if b.toNat < a.toNat then b else a)
def execMaxu (c : CoreId) (sd sa sb : BitVec 6) (s : State) : Res :=
  aluOp s (.maxu c sd sa sb) c sd sa sb (fun a b => if a.toNat < b.toNat then b else a)

/-- sd = f (sa). -/
def immOp (s : State) (i : Instr) (c : CoreId) (sd sa : BitVec 6) (f : W64 → W64) : Res :=
  issue s c i (fun k => retire (modCore s c (fun _ => putS k sd (f (coreS k sa)))) c 1)

def execAddi (c : CoreId) (sd sa : BitVec 6) (imm : BitVec 14) (s : State) : Res :=
  immOp s (.addi c sd sa imm) c sd sa (fun a => a + imm.signExtend 64)
def execAndi (c : CoreId) (sd sa : BitVec 6) (imm : BitVec 14) (s : State) : Res :=
  immOp s (.andi c sd sa imm) c sd sa (fun a => a &&& imm.signExtend 64)
def execOri (c : CoreId) (sd sa : BitVec 6) (imm : BitVec 14) (s : State) : Res :=
  immOp s (.ori c sd sa imm) c sd sa (fun a => a ||| imm.signExtend 64)
def execXori (c : CoreId) (sd sa : BitVec 6) (imm : BitVec 14) (s : State) : Res :=
  immOp s (.xori c sd sa imm) c sd sa (fun a => a ^^^ imm.signExtend 64)
def execSlli (c : CoreId) (sd sa sh : BitVec 6) (s : State) : Res := immOp s (.slli c sd sa sh) c sd sa (fun a => a <<< sh.toNat)
def execSrli (c : CoreId) (sd sa sh : BitVec 6) (s : State) : Res := immOp s (.srli c sd sa sh) c sd sa (fun a => a >>> sh.toNat)
def execSrai (c : CoreId) (sd sa sh : BitVec 6) (s : State) : Res := immOp s (.srai c sd sa sh) c sd sa (fun a => a.sshiftRight sh.toNat)
/-- LUI: sext(imm20) · 2^12. -/
def execLui (c : CoreId) (sd : BitVec 6) (imm : BitVec 20) (s : State) : Res :=
  immOp s (.lui c sd imm) c sd 0 (fun _ => imm.signExtend 64 <<< (12 : Nat))

/-! ## Branches and jumps -/

/-- pc + 4 · sext(off) as the pc's target, or one outside the local store. -/
def branchTo (k : Core) (off : Int) : Nat :=
  let t : Int := k.pc + 4 * off
  if t < 0 then localSize else t.toNat

/-- If the condition holds, pc = pc + 4 · sext(off14). -/
def branchOp (s : State) (i : Instr) (c : CoreId) (sa sb : BitVec 6) (off : BitVec 14) (cond : W64 → W64 → Bool) : Res :=
  issue s c i (fun k => if cond (coreS k sa) (coreS k sb) then retireTo s c 3 (branchTo k off.toInt) else retire s c 1)

def execBeq (c : CoreId) (sa sb : BitVec 6) (off : BitVec 14) (s : State) : Res := branchOp s (.beq c sa sb off) c sa sb off (fun a b => a == b)
def execBne (c : CoreId) (sa sb : BitVec 6) (off : BitVec 14) (s : State) : Res := branchOp s (.bne c sa sb off) c sa sb off (fun a b => a != b)
def execBltu (c : CoreId) (sa sb : BitVec 6) (off : BitVec 14) (s : State) : Res :=
  branchOp s (.bltu c sa sb off) c sa sb off (fun a b => a.toNat < b.toNat)
def execBgeu (c : CoreId) (sa sb : BitVec 6) (off : BitVec 14) (s : State) : Res :=
  branchOp s (.bgeu c sa sb off) c sa sb off (fun a b => b.toNat ≤ a.toNat)
def execBlt (c : CoreId) (sa sb : BitVec 6) (off : BitVec 14) (s : State) : Res :=
  branchOp s (.blt c sa sb off) c sa sb off (fun a b => a.toInt < b.toInt)
def execBge (c : CoreId) (sa sb : BitVec 6) (off : BitVec 14) (s : State) : Res :=
  branchOp s (.bge c sa sb off) c sa sb off (fun a b => b.toInt ≤ a.toInt)

/-- JAL: sd = pc + 4; pc = pc + 4 · sext(imm20). -/
def execJal (c : CoreId) (sd : BitVec 6) (imm : BitVec 20) (s : State) : Res :=
  issue s c (.jal c sd imm) (fun k =>
    retireTo (modCore s c (fun _ => putS k sd (word64 (k.pc + 4)))) c 3 (branchTo k imm.toInt))

/-- JALR: sd = pc + 4; pc = sa + sext(imm14). -/
def execJalr (c : CoreId) (sd sa : BitVec 6) (imm : BitVec 14) (s : State) : Res :=
  issue s c (.jalr c sd sa imm) (fun k =>
    retireTo (modCore s c (fun _ => putS k sd (word64 (k.pc + 4)))) c 3 (coreS k sa + imm.signExtend 64).toNat)

/-! ## Control registers (Table 09.2) -/

def readCsr (c : CoreId) (k : Core) (n : Nat) : W64 :=
  if n = 0 then word64 (c.bay.1 * 256 + c.core.1)
  else if n = 1 then k.fmt
  else if n = 2 then word64 k.cycles
  else if n = 3 then k.firings
  else word64 (Config.csrUnlisted n)

def execCsrr (c : CoreId) (sd : BitVec 6) (csr : BitVec 14) (s : State) : Res :=
  issue s c (.csrr c sd csr) (fun k => retire (modCore s c (fun _ => putS k sd (readCsr c k csr.toNat))) c 1)

/-- CSRW: FMT takes a well-formed descriptor, another is FORMAT (R248); the other registers are RO. -/
def execCsrw (c : CoreId) (sv : BitVec 6) (csr : BitVec 14) (s : State) : Res :=
  issue s c (.csrw c sv csr) (fun k =>
    if csr.toNat ≠ 1 then retire s c 1
    else if fmtOk (coreS k sv).toNat then retire (modCore s c (fun k => { k with fmt := coreS k sv })) c 1
    else kernelError s c 7)

/-! ## Predicates -/

def predOp (s : State) (i : Instr) (c : CoreId) (pd pa pb : BitVec 3) (f : W64 → W64 → W64) : Res :=
  issue s c i (fun k => retire (modCore s c (fun _ => putP k pd (f (coreP k pa) (coreP k pb)))) c 1)

def execPand (c : CoreId) (pd pa pb : BitVec 3) (s : State) : Res := predOp s (.pand c pd pa pb) c pd pa pb (fun a b => a &&& b)
def execPor (c : CoreId) (pd pa pb : BitVec 3) (s : State) : Res := predOp s (.por c pd pa pb) c pd pa pb (fun a b => a ||| b)
def execPxor (c : CoreId) (pd pa pb : BitVec 3) (s : State) : Res := predOp s (.pxor c pd pa pb) c pd pa pb (fun a b => a ^^^ b)
def execPnot (c : CoreId) (pd pa pb : BitVec 3) (s : State) : Res := predOp s (.pnot c pd pa pb) c pd pa pb (fun a _ => ~~~a)
def execPset (c : CoreId) (pd pa pb : BitVec 3) (s : State) : Res := predOp s (.pset c pd pa pb) c pd pa pb (fun _ _ => BitVec.allOnes 64)
def execPclr (c : CoreId) (pd pa pb : BitVec 3) (s : State) : Res := predOp s (.pclr c pd pa pb) c pd pa pb (fun _ _ => 0)

end Sys2Proof.Machine
end

