-- ==== Sys2Proof/Machine/CoreVec.lean ====
section
/-! DEFINITION. The vector instructions: modular, integer, comparison, scalar-vector, conversion and fp32 (R239, R245 to R249). -/

namespace Sys2Proof.Machine

/-- The new register: each element of the view from its place, the old element and the elements of va and vb, under pr. -/
def vecResult (k : Core) (f : VrFields) (g : Nat → Nat → Nat → Nat → Nat) : Vector W64 32 :=
  let b := viewSize f.w
  let old := viewElems b (coreV k f.vd)
  let xs := viewElems b (coreV k f.va)
  let ys := viewElems b (coreV k f.vb)
  viewPack b (predElems (coreP k f.pr) old ((old.zip (xs.zip ys)).mapIdx (fun i e => g i e.1 e.2.1 e.2.2)))

/-- vd = g, in `n` issue cycles. -/
def vecOp (s : State) (i : Instr) (c : CoreId) (f : VrFields) (n : Nat) (g : Nat → Nat → Nat → Nat → Nat) : Res :=
  issue s c i (fun k => retire (modCore s c (fun _ => putV k f.vd (vecResult k f g))) c n)

/-! ## Modular arithmetic (R246, with R36, R37, R40 and R41) -/

/-- One correction of R37: subtract m from a value of m or more; exact. -/
def correctAt (limit m t : Int) : Int := if t < limit then t else t - m
def ringAddRaw (m a b : Int) : Int := correctAt m m (a + b)
def ringSubRaw (m a b : Int) : Int := if a - b < 0 then a - b + m else a - b
def ringNegRaw (m a : Int) : Int := if a = 0 then 0 else m - a
/-- Barrett's reduction of R40 with the modulus register's mu. -/
def barrett (m mu t : Nat) : Int :=
  let k := Nat.log2 m + 1
  let q3 := t / 2 ^ (k - 1) * mu / 2 ^ (k + 1)
  correctAt m m (correctAt (2 * m : Nat) m ((t : Int) - (q3 * m : Nat)))
/-- Montgomery's reduction of R41. -/
def redc (r m mprime t : Nat) : Int :=
  let u := t % r * mprime % r
  correctAt m m (((t + u * m) / r : Nat) : Int)

/-- R for a view. -/
def montRadix (w : Bool) : Nat := if w then 2 ^ 32 else 2 ^ 64

/-- A modular instruction: MODULUS where m[mr] is not VALID or of the other width (R246); the result taken modulo the view. -/
def modOp (s : State) (i : Instr) (c : CoreId) (f : VrFields) (g : MReg → Nat → Nat → Nat → Int) : Res :=
  issue s c i (fun k =>
    let r := k.m[predIx f.mr]
    if !r.valid || r.w32 != f.w then kernelError s c 6
    else retire (modCore s c (fun _ => putV k f.vd (vecResult k f (fun _ d a b => wrapInt (8 * viewSize f.w) (g r d a b))))) c 1)

def mulRaw (r : MReg) (a b : Nat) : Int := barrett r.m.toNat r.mu.toNat (a * b)
def redcRaw (r : MReg) (t : Nat) : Int := redc (montRadix r.w32) r.m.toNat r.mprime.toNat t

def execVmadd (c : CoreId) (f : VrFields) (s : State) : Res := modOp s (.vmadd c f) c f (fun r _ a b => ringAddRaw r.m.toNat a b)
def execVmsub (c : CoreId) (f : VrFields) (s : State) : Res := modOp s (.vmsub c f) c f (fun r _ a b => ringSubRaw r.m.toNat a b)
def execVmneg (c : CoreId) (f : VrFields) (s : State) : Res := modOp s (.vmneg c f) c f (fun r _ a _ => ringNegRaw r.m.toNat a)
def execVmmul (c : CoreId) (f : VrFields) (s : State) : Res := modOp s (.vmmul c f) c f (fun r _ a b => mulRaw r a b)
def execVmmac (c : CoreId) (f : VrFields) (s : State) : Res :=
  modOp s (.vmmac c f) c f (fun r d a b => ringAddRaw r.m.toNat d (mulRaw r a b))
def execVmont (c : CoreId) (f : VrFields) (s : State) : Res := modOp s (.vmont c f) c f (fun r _ a b => redcRaw r (a * b))
def execVmmacm (c : CoreId) (f : VrFields) (s : State) : Res :=
  modOp s (.vmmacm c f) c f (fun r d a b => ringAddRaw r.m.toNat d (redcRaw r (a * b)))
def execVtom (c : CoreId) (f : VrFields) (s : State) : Res := modOp s (.vtom c f) c f (fun r _ a _ => redcRaw r (a * r.r2.toNat))
def execVfromm (c : CoreId) (f : VrFields) (s : State) : Res := modOp s (.vfromm c f) c f (fun r _ a _ => redcRaw r a)

/-! ## Integer arithmetic, wrapping in the view width -/

/-- The bits of a view's element. -/
def viewBits (w : Bool) : Nat := 8 * viewSize w

def execVadd (c : CoreId) (f : VrFields) (s : State) : Res := vecOp s (.vadd c f) c f 1 (fun _ _ a b => (a + b) % 2 ^ viewBits f.w)
def execVsub (c : CoreId) (f : VrFields) (s : State) : Res :=
  vecOp s (.vsub c f) c f 1 (fun _ _ a b => (a + 2 ^ viewBits f.w - b) % 2 ^ viewBits f.w)
def execVmul (c : CoreId) (f : VrFields) (s : State) : Res := vecOp s (.vmul c f) c f 1 (fun _ _ a b => a * b % 2 ^ viewBits f.w)
def execVmulhu (c : CoreId) (f : VrFields) (s : State) : Res := vecOp s (.vmulhu c f) c f 1 (fun _ _ a b => a * b / 2 ^ viewBits f.w)
def execVand (c : CoreId) (f : VrFields) (s : State) : Res := vecOp s (.vand c f) c f 1 (fun _ _ a b => Nat.land a b)
def execVor (c : CoreId) (f : VrFields) (s : State) : Res := vecOp s (.vor c f) c f 1 (fun _ _ a b => Nat.lor a b)
def execVxor (c : CoreId) (f : VrFields) (s : State) : Res := vecOp s (.vxor c f) c f 1 (fun _ _ a b => Nat.xor a b)

/-- VSEL: every element is written, from va where the pr bit is set, else from vb. -/
def execVsel (c : CoreId) (f : VrFields) (s : State) : Res :=
  issue s c (.vsel c f) (fun k =>
    let b := viewSize f.w
    let new := predElems (coreP k f.pr) (viewElems b (coreV k f.vb)) (viewElems b (coreV k f.va))
    retire (modCore s c (fun _ => putV k f.vd (viewPack b new))) c 1)

/-- A shift amount: the low 6 or 5 bits of vb's element. -/
def shiftOf (w : Bool) (b : Nat) : Nat := b % viewBits w
def execVsll (c : CoreId) (f : VrFields) (s : State) : Res :=
  vecOp s (.vsll c f) c f 1 (fun _ _ a b => a * 2 ^ shiftOf f.w b % 2 ^ viewBits f.w)
def execVsrl (c : CoreId) (f : VrFields) (s : State) : Res := vecOp s (.vsrl c f) c f 1 (fun _ _ a b => a / 2 ^ shiftOf f.w b)
def execVsra (c : CoreId) (f : VrFields) (s : State) : Res :=
  vecOp s (.vsra c f) c f 1 (fun _ _ a b => wrapInt (viewBits f.w) (signed (viewBits f.w) a / 2 ^ shiftOf f.w b))

/-! ## Comparisons into a predicate -/

/-- pd bit i = the condition on element i, under pr; bits beyond the view's count are cleared. -/
def cmpOp (s : State) (i : Instr) (c : CoreId) (f : VrFields) (cond : Nat → Nat → Bool) : Res :=
  issue s c i (fun k =>
    let b := viewSize f.w
    let pd : BitVec 3 := f.vd.truncate 3
    let old := coreP k pd
    let pr := coreP k f.pr
    let bits := ((viewElems b (coreV k f.va)).zip (viewElems b (coreV k f.vb))).mapIdx (fun i e =>
      if pr.getLsbD i then cond e.1 e.2 else old.getLsbD i)
    retire (modCore s c (fun _ => putP k pd (word64 (bits.foldr (fun x acc => 2 * acc + b2n x) 0)))) c 1)

def execVcmpEq (c : CoreId) (f : VrFields) (s : State) : Res := cmpOp s (.vcmpEq c f) c f (fun a b => a == b)
def execVcmpNe (c : CoreId) (f : VrFields) (s : State) : Res := cmpOp s (.vcmpNe c f) c f (fun a b => a != b)
def execVcmpLtu (c : CoreId) (f : VrFields) (s : State) : Res := cmpOp s (.vcmpLtu c f) c f (fun a b => a < b)
def execVcmpGeu (c : CoreId) (f : VrFields) (s : State) : Res := cmpOp s (.vcmpGeu c f) c f (fun a b => b ≤ a)
def execVcmpLt (c : CoreId) (f : VrFields) (s : State) : Res :=
  cmpOp s (.vcmpLt c f) c f (fun a b => signed (viewBits f.w) a < signed (viewBits f.w) b)
def execVcmpGe (c : CoreId) (f : VrFields) (s : State) : Res :=
  cmpOp s (.vcmpGe c f) c f (fun a b => signed (viewBits f.w) b ≤ signed (viewBits f.w) a)
def execVcmpFlt (c : CoreId) (f : VrFields) (s : State) : Res := cmpOp s (.vcmpFlt c f) c f fpLt
def execVcmpFeq (c : CoreId) (f : VrFields) (s : State) : Res := cmpOp s (.vcmpFeq c f) c f fpEq
def execVcmpFun (c : CoreId) (f : VrFields) (s : State) : Res := cmpOp s (.vcmpFun c f) c f fpUn

/-! ## Vector with a scalar -/

/-- Each element from its place, va's element and the scalar. -/
def vecScalar (s : State) (i : Instr) (c : CoreId) (f : VsFields) (g : Nat → Nat → Nat → Nat) : Res :=
  issue s c i (fun k =>
    let b := viewSize f.w
    let x := (coreS k f.sa).toNat
    let new := (viewElems b (coreV k f.va)).mapIdx (fun i e => g i e x % 2 ^ viewBits f.w)
    retire (modCore s c (fun _ => putV k f.vd (viewPack b (predElems (coreP k f.pr) (viewElems b (coreV k f.vd)) new)))) c 1)

def execVbcast (c : CoreId) (f : VsFields) (s : State) : Res := vecScalar s (.vbcast c f) c f (fun _ _ x => x)
def execVadds (c : CoreId) (f : VsFields) (s : State) : Res := vecScalar s (.vadds c f) c f (fun _ e x => e + x)
def execVslls (c : CoreId) (f : VsFields) (s : State) : Res := vecScalar s (.vslls c f) c f (fun _ e x => e * 2 ^ (x % 64))
def execVsrls (c : CoreId) (f : VsFields) (s : State) : Res := vecScalar s (.vsrls c f) c f (fun _ e x => e / 2 ^ (x % 64))
def execVsras (c : CoreId) (f : VsFields) (s : State) : Res :=
  vecScalar s (.vsras c f) c f (fun _ e x => wrapInt (viewBits f.w) (signed (viewBits f.w) e / 2 ^ (x % 64)))
def execViota (c : CoreId) (f : VsFields) (s : State) : Res := vecScalar s (.viota c f) c f (fun i _ x => x + i)

/-! ## Conversions (R248) -/

/-- The view that FMT's ring asks for. -/
def fmtView (fmt : W64) : Bool := (fmtRingOf fmt.toNat).size == 4

/-- A conversion whose FMT and w fit, whose part lies in a register of `b`-byte elements (0: no part is used); else FORMAT or
ILLEGAL. -/
def cvtOp (s : State) (i : Instr) (c : CoreId) (f : VrFields) (b : Nat) (g : Core → State) : Res :=
  issue s c i (fun k =>
    let e := if f.w then 64 else 32
    if k.fmt = 0 ∨ fmtView k.fmt ≠ f.w then kernelError s c 7
    else if b ≠ 0 ∧ 256 < b * (e * (f.vb.toNat + 1)) then kernelError s c 1
    else g k)

/-- Encode the fp32 values of part q into ring elements (R43); a NaN sets the firing's NAN flag. -/
def encodePart (s : State) (c : CoreId) (f : VrFields) (k : Core) (b : Nat) (widen : Nat → Nat) : State :=
  let e := if f.w then 64 else 32
  let xs := (((viewElems b (coreV k f.va)).drop (e * f.vb.toNat)).take e).map widen
  let pr := coreP k f.pr
  let nan := (xs.mapIdx (fun i x => pr.getLsbD i && fIsNan x)).any id
  let new := xs.map (fun x => (encodeReal k.fmt.toNat x).getD 0)
  let z := viewSize f.w
  retire (modCore s c (fun _ =>
    let k1 := putV k f.vd (viewPack z (predElems pr (viewElems z (coreV k f.vd)) new))
    if nan then { k1 with firing := k1.firing.map (fun x => { x with nan := true }) } else k1)) c 1

def execFtor (c : CoreId) (f : VrFields) (s : State) : Res := cvtOp s (.ftor c f) c f 4 (fun k => encodePart s c f k 4 id)
def execBtor (c : CoreId) (f : VrFields) (s : State) : Res := cvtOp s (.btor c f) c f 2 (fun k => encodePart s c f k 2 (fun x => x * 2 ^ 16))

/-- The signed value of a ring element under FMT (R44). -/
def fmtSigned (k : Core) (x : Nat) : Int := ringSigned (fmtRingOf k.fmt.toNat) x

/-- Decode va's ring elements into part q of vd (R45). -/
def decodePart (s : State) (c : CoreId) (f : VrFields) (k : Core) (b : Nat) : State :=
  let e := if f.w then 64 else 32
  let xs := (viewElems (viewSize f.w) (coreV k f.va)).map (fun x => decodeReal (if b = 4 then 24 else 8) (fmtF k.fmt.toNat) (fmtSigned k x))
  let old := viewElems b (coreV k f.vd)
  let q := e * f.vb.toNat
  let part := predElems (coreP k f.pr) ((old.drop q).take e) xs
  retire (modCore s c (fun _ => putV k f.vd (viewPack b (old.take q ++ part ++ old.drop (q + e))))) c 1

def execRtof (c : CoreId) (f : VrFields) (s : State) : Res := cvtOp s (.rtof c f) c f 4 (fun k => decodePart s c f k 4)
def execRtob (c : CoreId) (f : VrFields) (s : State) : Res := cvtOp s (.rtob c f) c f 2 (fun k => decodePart s c f k 2)

/-- Element by element. -/
def mapPart (s : State) (c : CoreId) (f : VrFields) (k : Core) (g : Nat → Nat) : State :=
  retire (modCore s c (fun _ => putV k f.vd (vecResult k f (fun _ _ a _ => g a)))) c 1

/-- RTOS: the signed integer of R44, two's complement in the view. -/
def execRtos (c : CoreId) (f : VrFields) (s : State) : Res :=
  cvtOp s (.rtos c f) c f 0 (fun k => mapPart s c f k (fun a => wrapInt (viewBits f.w) (fmtSigned k a)))
/-- STOR: v mod the ring's modulus. -/
def execStor (c : CoreId) (f : VrFields) (s : State) : Res :=
  cvtOp s (.stor c f) c f 0 (fun k => mapPart s c f k (fun a => (signed (viewBits f.w) a % ((fmtRingOf k.fmt.toNat).m : Int)).toNat))

/-! ## fp32 (R249); with w = 0 an element is a free value (notes/assumptions/21.md) -/

def fpOp (s : State) (i : Instr) (c : CoreId) (f : VrFields) (fn n : Nat) (g : Nat → Nat → Nat → Nat) : Res :=
  vecOp s i c f n (fun _ d a b => if f.w then g d a b else Config.fpWide fn a b d % 2 ^ 64)

def execVfadd (c : CoreId) (f : VrFields) (s : State) : Res := fpOp s (.vfadd c f) c f 0 1 (fun _ a b => fpAdd a b)
def execVfsub (c : CoreId) (f : VrFields) (s : State) : Res := fpOp s (.vfsub c f) c f 1 1 (fun _ a b => fpSub a b)
def execVfmul (c : CoreId) (f : VrFields) (s : State) : Res := fpOp s (.vfmul c f) c f 2 1 (fun _ a b => fpMul a b)
def execVffma (c : CoreId) (f : VrFields) (s : State) : Res := fpOp s (.vffma c f) c f 3 1 (fun d a b => fpFma a b d)
def execVfdiv (c : CoreId) (f : VrFields) (s : State) : Res := fpOp s (.vfdiv c f) c f 4 16 (fun _ a b => fpDiv a b)
def execVfsqrt (c : CoreId) (f : VrFields) (s : State) : Res := fpOp s (.vfsqrt c f) c f 5 16 (fun _ a _ => fpSqrt a)
def execVfmin (c : CoreId) (f : VrFields) (s : State) : Res := fpOp s (.vfmin c f) c f 6 1 (fun _ a b => fpMin a b)
def execVfmax (c : CoreId) (f : VrFields) (s : State) : Res := fpOp s (.vfmax c f) c f 7 1 (fun _ a b => fpMax a b)
def execVfabs (c : CoreId) (f : VrFields) (s : State) : Res := fpOp s (.vfabs c f) c f 8 1 (fun _ a _ => fpAbs a)
def execVfneg (c : CoreId) (f : VrFields) (s : State) : Res := fpOp s (.vfneg c f) c f 9 1 (fun _ a _ => fpNeg a)

end Sys2Proof.Machine
end

