-- ==== Sys2Proof/Machine/Dispatch.lean ====
section
/-! DEFINITION. The meaning of each command, one arm per constructor. -/

namespace Sys2Proof.Machine

def exec (i : Instr) (s : State) : Host.Outcome State Fault Refusal :=
  match i with
  | .registerWrite fn addr val => Sys2Proof.Machine.execRegisterWrite fn addr val s
  | .pgUnlock fn page val => Sys2Proof.Machine.execPgUnlock fn page val s
  | .barAccessMalformed fn bar2 isRead addr size => Sys2Proof.Machine.execBarAccessMalformed fn bar2 isRead addr size s
  | .stationEn fn st on => Sys2Proof.Machine.execStationEn fn st on s
  | .stationAbort fn st on => Sys2Proof.Machine.execStationAbort fn st on s
  | .stationDrainReq fn st on => Sys2Proof.Machine.execStationDrainReq fn st on s
  | .stationControlArrive st => Sys2Proof.Machine.execStationControlArrive st s
  | .stall st out => Sys2Proof.Machine.execStall st out s
  | .stationFault st => Sys2Proof.Machine.execStationFault st s
  | .tokenArrive st port => Sys2Proof.Machine.execTokenArrive st port s
  | .creditArrive st port => Sys2Proof.Machine.execCreditArrive st port s
  | .firingEnd st => Sys2Proof.Machine.execFiringEnd st s
  | .selfRefreshEnter b => Sys2Proof.Machine.execSelfRefreshEnter b s
  | .frameReceive p half frame => Sys2Proof.Machine.execFrameReceive p half frame s
  | .ethLinkUp p half => Sys2Proof.Machine.execEthLinkUp p half s
  | .ethLinkDown p half => Sys2Proof.Machine.execEthLinkDown p half s
  | .wrdPacketReceive => Sys2Proof.Machine.execWrdPacketReceive s
  | .contextFetchComplete chan authentic => Sys2Proof.Machine.execContextFetchComplete chan authentic s
  | .oldEpochExpiry chan => Sys2Proof.Machine.execOldEpochExpiry chan s
  | .messageTimeout chan shelfmark msgId => Sys2Proof.Machine.execMessageTimeout chan shelfmark msgId s
  | .putWriteComplete chan shelfmark msgId => Sys2Proof.Machine.execPutWriteComplete chan shelfmark msgId s
  | .chanCreate h chan vlan portMask paths mac peer => Sys2Proof.Machine.execChanCreate h chan vlan portMask paths mac peer s
  | .chanKey h chan job epoch => Sys2Proof.Machine.execChanKey h chan job epoch s
  | .chanPin h chan pin => Sys2Proof.Machine.execChanPin h chan pin s
  | .chanReset h chan => Sys2Proof.Machine.execChanReset h chan s
  | .chanFree h chan => Sys2Proof.Machine.execChanFree h chan s
  | .winOpen h desc => Sys2Proof.Machine.execWinOpen h desc s
  | .winClose h shelfmark => Sys2Proof.Machine.execWinClose h shelfmark s
  | .winRevoke h shelfmark => Sys2Proof.Machine.execWinRevoke h shelfmark s
  | .windowExpiry index => Sys2Proof.Machine.execWindowExpiry index s
  | .intakeShareEn fn p on => Sys2Proof.Machine.execIntakeShareEn fn p on s
  | .intakeShareAbort fn p on => Sys2Proof.Machine.execIntakeShareAbort fn p on s
  | .intakeShareDrainReq fn p on => Sys2Proof.Machine.execIntakeShareDrainReq fn p on s
  | .binAddTile b port => Sys2Proof.Machine.execBinAddTile b port s
  | .tileAddComplete b index entry lf => Sys2Proof.Machine.execTileAddComplete b index entry lf s
  | .binStreamApply b port lf => Sys2Proof.Machine.execBinStreamApply b port lf s
  | .binReadEmit b out lf => Sys2Proof.Machine.execBinReadEmit b out lf s
  | .patrolScrubRead b line found => Sys2Proof.Machine.execPatrolScrubRead b line found s
  | .pseudoChannelFence b pc trainingFailed => Sys2Proof.Machine.execPseudoChannelFence b pc trainingFailed s
  | .binAlloc h desc => Sys2Proof.Machine.execBinAlloc h desc s
  | .binSeal h handle buffer lf => Sys2Proof.Machine.execBinSeal h handle buffer lf s
  | .binCombine h target sources lf => Sys2Proof.Machine.execBinCombine h target sources lf s
  | .binCombineComplete h => Sys2Proof.Machine.execBinCombineComplete h s
  | .binDiscard h handle => Sys2Proof.Machine.execBinDiscard h handle s
  | .binFree h handle => Sys2Proof.Machine.execBinFree h handle s
  | .binInFlightDrained b index => Sys2Proof.Machine.execBinInFlightDrained b index s
  | .scrubZeroComplete b => Sys2Proof.Machine.execScrubZeroComplete b s
  | .gleanOpen h job round lead graphRegion graphLen workRegion workLen digest handles => Sys2Proof.Machine.execGleanOpen h job round lead graphRegion graphLen workRegion workLen digest handles s
  | .gleanShares h job round lead region len => Sys2Proof.Machine.execGleanShares h job round lead region len s
  | .gleanExclude h job round lead count buf => Sys2Proof.Machine.execGleanExclude h job round lead count buf s
  | .gleanFinish h job round lead buffer => Sys2Proof.Machine.execGleanFinish h job round lead buffer s
  | .gleanAbort h job round lead => Sys2Proof.Machine.execGleanAbort h job round lead s
  | .reconstructionComplete lead => Sys2Proof.Machine.execReconstructionComplete lead s
  | .maskPositionEmit b => Sys2Proof.Machine.execMaskPositionEmit b s
  | .maskingComplete lead => Sys2Proof.Machine.execMaskingComplete lead s
  | .latParamLoad h mask len buf => Sys2Proof.Machine.execLatParamLoad h mask len buf s
  | .paramConstantsComplete b => Sys2Proof.Machine.execParamConstantsComplete b s
  | .latParamUnload h mask paramSet => Sys2Proof.Machine.execLatParamUnload h mask paramSet s
  | .latKeyBind h bay index kind level paramSet src dst region len digest => Sys2Proof.Machine.execLatKeyBind h bay index kind level paramSet src dst region len digest s
  | .keyCheckComplete b index => Sys2Proof.Machine.execKeyCheckComplete b index s
  | .latKeyUnbind h bay index => Sys2Proof.Machine.execLatKeyUnbind h bay index s
  | .latticeGather b port => Sys2Proof.Machine.execLatticeGather b port s
  | .latticeCompute b pipe => Sys2Proof.Machine.execLatticeCompute b pipe s
  | .latticeSamplesReady b pipe => Sys2Proof.Machine.execLatticeSamplesReady b pipe s
  | .latticeEmit b pipe => Sys2Proof.Machine.execLatticeEmit b pipe s
  | .conditionedBlock raw => Sys2Proof.Machine.execConditionedBlock raw s
  | .startupTestComplete raw => Sys2Proof.Machine.execStartupTestComplete raw s
  | .srcEn fn on => Sys2Proof.Machine.execSrcEn fn on s
  | .restart fn on => Sys2Proof.Machine.execRestart fn on s
  | .rngDataRead => Sys2Proof.Machine.execRngDataRead s
  | .drbgResume p => Sys2Proof.Machine.execDrbgResume p s
  | .nseParamLoad h mask len buf => Sys2Proof.Machine.execNseParamLoad h mask len buf s
  | .noiseDraw h job round claims => Sys2Proof.Machine.execNoiseDraw h job round claims s
  | .noiseExport h seed lo hi buffer target => Sys2Proof.Machine.execNoiseExport h seed lo hi buffer target s
  | .noiseImport h blob claims => Sys2Proof.Machine.execNoiseImport h blob claims s
  | .noiseClose h seed => Sys2Proof.Machine.execNoiseClose h seed s
  | .noiseAddTile b port => Sys2Proof.Machine.execNoiseAddTile b port s
  | .noiseSampleTile b out => Sys2Proof.Machine.execNoiseSampleTile b out s
  | .rlsOpen h a => Sys2Proof.Machine.execRlsOpen h a s
  | .rlsResend h bay region => Sys2Proof.Machine.execRlsResend h bay region s
  | .rlsAbort h bay => Sys2Proof.Machine.execRlsAbort h bay s
  | .releaseAdmit b port => Sys2Proof.Machine.execReleaseAdmit b port s
  | .releaseSigned b => Sys2Proof.Machine.execReleaseSigned b s
  | .releaseEmitComplete b => Sys2Proof.Machine.execReleaseEmitComplete b s
  | .releaseSinkFail b => Sys2Proof.Machine.execReleaseSinkFail b s
  | .illegalInstruction c word => Sys2Proof.Machine.execIllegalInstruction c word s
  | .add c sd sa sb => Sys2Proof.Machine.execAdd c sd sa sb s
  | .sub c sd sa sb => Sys2Proof.Machine.execSub c sd sa sb s
  | .and c sd sa sb => Sys2Proof.Machine.execAnd c sd sa sb s
  | .or c sd sa sb => Sys2Proof.Machine.execOr c sd sa sb s
  | .xor c sd sa sb => Sys2Proof.Machine.execXor c sd sa sb s
  | .sll c sd sa sb => Sys2Proof.Machine.execSll c sd sa sb s
  | .srl c sd sa sb => Sys2Proof.Machine.execSrl c sd sa sb s
  | .sra c sd sa sb => Sys2Proof.Machine.execSra c sd sa sb s
  | .mul c sd sa sb => Sys2Proof.Machine.execMul c sd sa sb s
  | .mulhu c sd sa sb => Sys2Proof.Machine.execMulhu c sd sa sb s
  | .sltu c sd sa sb => Sys2Proof.Machine.execSltu c sd sa sb s
  | .slt c sd sa sb => Sys2Proof.Machine.execSlt c sd sa sb s
  | .cmovnz c sd sa sb => Sys2Proof.Machine.execCmovnz c sd sa sb s
  | .minu c sd sa sb => Sys2Proof.Machine.execMinu c sd sa sb s
  | .maxu c sd sa sb => Sys2Proof.Machine.execMaxu c sd sa sb s
  | .addi c sd sa imm => Sys2Proof.Machine.execAddi c sd sa imm s
  | .andi c sd sa imm => Sys2Proof.Machine.execAndi c sd sa imm s
  | .ori c sd sa imm => Sys2Proof.Machine.execOri c sd sa imm s
  | .xori c sd sa imm => Sys2Proof.Machine.execXori c sd sa imm s
  | .slli c sd sa sh => Sys2Proof.Machine.execSlli c sd sa sh s
  | .srli c sd sa sh => Sys2Proof.Machine.execSrli c sd sa sh s
  | .srai c sd sa sh => Sys2Proof.Machine.execSrai c sd sa sh s
  | .lui c sd imm => Sys2Proof.Machine.execLui c sd imm s
  | .ld c sd sa imm => Sys2Proof.Machine.execLd c sd sa imm s
  | .lw c sd sa imm => Sys2Proof.Machine.execLw c sd sa imm s
  | .sd c sv sa imm => Sys2Proof.Machine.execSd c sv sa imm s
  | .sw c sv sa imm => Sys2Proof.Machine.execSw c sv sa imm s
  | .beq c sa sb off => Sys2Proof.Machine.execBeq c sa sb off s
  | .bne c sa sb off => Sys2Proof.Machine.execBne c sa sb off s
  | .bltu c sa sb off => Sys2Proof.Machine.execBltu c sa sb off s
  | .bgeu c sa sb off => Sys2Proof.Machine.execBgeu c sa sb off s
  | .blt c sa sb off => Sys2Proof.Machine.execBlt c sa sb off s
  | .bge c sa sb off => Sys2Proof.Machine.execBge c sa sb off s
  | .jal c sd imm => Sys2Proof.Machine.execJal c sd imm s
  | .jalr c sd sa imm => Sys2Proof.Machine.execJalr c sd sa imm s
  | .csrr c sd csr => Sys2Proof.Machine.execCsrr c sd csr s
  | .csrw c sv csr => Sys2Proof.Machine.execCsrw c sv csr s
  | .vmadd c f => Sys2Proof.Machine.execVmadd c f s
  | .vmsub c f => Sys2Proof.Machine.execVmsub c f s
  | .vmneg c f => Sys2Proof.Machine.execVmneg c f s
  | .vmmul c f => Sys2Proof.Machine.execVmmul c f s
  | .vmmac c f => Sys2Proof.Machine.execVmmac c f s
  | .vmont c f => Sys2Proof.Machine.execVmont c f s
  | .vmmacm c f => Sys2Proof.Machine.execVmmacm c f s
  | .vtom c f => Sys2Proof.Machine.execVtom c f s
  | .vfromm c f => Sys2Proof.Machine.execVfromm c f s
  | .vadd c f => Sys2Proof.Machine.execVadd c f s
  | .vsub c f => Sys2Proof.Machine.execVsub c f s
  | .vmul c f => Sys2Proof.Machine.execVmul c f s
  | .vmulhu c f => Sys2Proof.Machine.execVmulhu c f s
  | .vand c f => Sys2Proof.Machine.execVand c f s
  | .vor c f => Sys2Proof.Machine.execVor c f s
  | .vxor c f => Sys2Proof.Machine.execVxor c f s
  | .vsel c f => Sys2Proof.Machine.execVsel c f s
  | .vsll c f => Sys2Proof.Machine.execVsll c f s
  | .vsrl c f => Sys2Proof.Machine.execVsrl c f s
  | .vsra c f => Sys2Proof.Machine.execVsra c f s
  | .vcmpEq c f => Sys2Proof.Machine.execVcmpEq c f s
  | .vcmpNe c f => Sys2Proof.Machine.execVcmpNe c f s
  | .vcmpLtu c f => Sys2Proof.Machine.execVcmpLtu c f s
  | .vcmpGeu c f => Sys2Proof.Machine.execVcmpGeu c f s
  | .vcmpLt c f => Sys2Proof.Machine.execVcmpLt c f s
  | .vcmpGe c f => Sys2Proof.Machine.execVcmpGe c f s
  | .vcmpFlt c f => Sys2Proof.Machine.execVcmpFlt c f s
  | .vcmpFeq c f => Sys2Proof.Machine.execVcmpFeq c f s
  | .vcmpFun c f => Sys2Proof.Machine.execVcmpFun c f s
  | .vbcast c f => Sys2Proof.Machine.execVbcast c f s
  | .vadds c f => Sys2Proof.Machine.execVadds c f s
  | .vslls c f => Sys2Proof.Machine.execVslls c f s
  | .vsrls c f => Sys2Proof.Machine.execVsrls c f s
  | .vsras c f => Sys2Proof.Machine.execVsras c f s
  | .viota c f => Sys2Proof.Machine.execViota c f s
  | .vld c v sa imm pr => Sys2Proof.Machine.execVld c v sa imm pr s
  | .vst c v sa imm pr => Sys2Proof.Machine.execVst c v sa imm pr s
  | .ftor c f => Sys2Proof.Machine.execFtor c f s
  | .btor c f => Sys2Proof.Machine.execBtor c f s
  | .rtof c f => Sys2Proof.Machine.execRtof c f s
  | .rtob c f => Sys2Proof.Machine.execRtob c f s
  | .rtos c f => Sys2Proof.Machine.execRtos c f s
  | .stor c f => Sys2Proof.Machine.execStor c f s
  | .vfadd c f => Sys2Proof.Machine.execVfadd c f s
  | .vfsub c f => Sys2Proof.Machine.execVfsub c f s
  | .vfmul c f => Sys2Proof.Machine.execVfmul c f s
  | .vffma c f => Sys2Proof.Machine.execVffma c f s
  | .vfdiv c f => Sys2Proof.Machine.execVfdiv c f s
  | .vfsqrt c f => Sys2Proof.Machine.execVfsqrt c f s
  | .vfmin c f => Sys2Proof.Machine.execVfmin c f s
  | .vfmax c f => Sys2Proof.Machine.execVfmax c f s
  | .vfabs c f => Sys2Proof.Machine.execVfabs c f s
  | .vfneg c f => Sys2Proof.Machine.execVfneg c f s
  | .pand c pd pa pb => Sys2Proof.Machine.execPand c pd pa pb s
  | .por c pd pa pb => Sys2Proof.Machine.execPor c pd pa pb s
  | .pxor c pd pa pb => Sys2Proof.Machine.execPxor c pd pa pb s
  | .pnot c pd pa pb => Sys2Proof.Machine.execPnot c pd pa pb s
  | .pset c pd pa pb => Sys2Proof.Machine.execPset c pd pa pb s
  | .pclr c pd pa pb => Sys2Proof.Machine.execPclr c pd pa pb s
  | .mld c md w sa imm => Sys2Proof.Machine.execMld c md w sa imm s
  | .fire c masks => Sys2Proof.Machine.execFire c masks s
  | .fireClaim c => Sys2Proof.Machine.execFireClaim c s
  | .tslot c sd port => Sys2Proof.Machine.execTslot c sd port s
  | .tend c => Sys2Proof.Machine.execTend c s
  | .tendComplete c => Sys2Proof.Machine.execTendComplete c s
  | .tpois c => Sys2Proof.Machine.execTpois c s
  | .dcopy c sdst ssrc slen ch => Sys2Proof.Machine.execDcopy c sdst ssrc slen ch s
  | .dadd c sdst ssrc slen ch => Sys2Proof.Machine.execDadd c sdst ssrc slen ch s
  | .dsub c sdst ssrc slen ch => Sys2Proof.Machine.execDsub c sdst ssrc slen ch s
  | .dwait c sdst ssrc slen ch => Sys2Proof.Machine.execDwait c sdst ssrc slen ch s
  | .dfence c sdst ssrc slen ch => Sys2Proof.Machine.execDfence c sdst ssrc slen ch s
  | .brk c => Sys2Proof.Machine.execBrk c s
  | .dmaComplete c ch lf => Sys2Proof.Machine.execDmaComplete c ch lf s
  | .watchdog c => Sys2Proof.Machine.execWatchdog c s
  | .coreFault c kind => Sys2Proof.Machine.execCoreFault c kind s
  | .coreRemap b => Sys2Proof.Machine.execCoreRemap b s
  | .ppsEdge => Sys2Proof.Machine.execPpsEdge s
  | .ppsWindowMissed => Sys2Proof.Machine.execPpsWindowMissed s
  | .almMode fn mode => Sys2Proof.Machine.execAlmMode fn mode s
  | .almSet fn on => Sys2Proof.Machine.execAlmSet fn on s
  | .almTimeRead => Sys2Proof.Machine.execAlmTimeRead s
  | .almCapRead => Sys2Proof.Machine.execAlmCapRead s
  | .slotStart p => Sys2Proof.Machine.execSlotStart p s
  | .schLoad h bay len region digest => Sys2Proof.Machine.execSchLoad h bay len region digest s
  | .schLoadComplete p => Sys2Proof.Machine.execSchLoadComplete p s
  | .schSwap h t0 => Sys2Proof.Machine.execSchSwap h t0 s
  | .schDiscard h => Sys2Proof.Machine.execSchDiscard h s
  | .schPhase h mask set => Sys2Proof.Machine.execSchPhase h mask set s
  | .schHalt h => Sys2Proof.Machine.execSchHalt h s
  | .swapDrainStart p => Sys2Proof.Machine.execSwapDrainStart p s
  | .swapCheck p => Sys2Proof.Machine.execSwapCheck p s
  | .swapBoundary p => Sys2Proof.Machine.execSwapBoundary p s
  | .reduceSendTile p xfer lf => Sys2Proof.Machine.execReduceSendTile p xfer lf s
  | .reduceIngressTile lf => Sys2Proof.Machine.execReduceIngressTile lf s
  | .xferRecvEnd p xfer => Sys2Proof.Machine.execXferRecvEnd p xfer s
  | .reduceShareEn fn p on => Sys2Proof.Machine.execReduceShareEn fn p on s
  | .reduceShareAbort fn p on => Sys2Proof.Machine.execReduceShareAbort fn p on s
  | .reduceShareDrainReq fn p on => Sys2Proof.Machine.execReduceShareDrainReq fn p on s
  | .zldEn fn port on => Sys2Proof.Machine.execZldEn fn port on s
  | .retrain fn port on => Sys2Proof.Machine.execRetrain fn port on s
  | .zldSignalPresent port => Sys2Proof.Machine.execZldSignalPresent port s
  | .zldTrainingDone port => Sys2Proof.Machine.execZldTrainingDone port s
  | .zldTrainingTimeout port => Sys2Proof.Machine.execZldTrainingTimeout port s
  | .zldTrainRetry port => Sys2Proof.Machine.execZldTrainRetry port s
  | .alignmentLost port => Sys2Proof.Machine.execAlignmentLost port s
  | .hello port => Sys2Proof.Machine.execHello port s
  | .helloTimeout port => Sys2Proof.Machine.execHelloTimeout port s
  | .ident port => Sys2Proof.Machine.execIdent port s
  | .nonce port => Sys2Proof.Machine.execNonce port s
  | .proof port => Sys2Proof.Machine.execProof port s
  | .retrainTimeout port => Sys2Proof.Machine.execRetrainTimeout port s
  | .flitReceive port flit => Sys2Proof.Machine.execFlitReceive port flit s
  | .replayTimeout port => Sys2Proof.Machine.execReplayTimeout port s
  | .zaledFrame port => Sys2Proof.Machine.execZaledFrame port s
  | .perstAssert => Sys2Proof.Machine.execPerstAssert s
  | .perstDeassert width rate => Sys2Proof.Machine.execPerstDeassert width rate s
  | .vfFlr n => Sys2Proof.Machine.execVfFlr n s
  | .pfFlr => Sys2Proof.Machine.execPfFlr s
  | .tlpMalformed requester => Sys2Proof.Machine.execTlpMalformed requester s
  | .hostReadFail target => Sys2Proof.Machine.execHostReadFail target s
  | .cxlLinkDown => Sys2Proof.Machine.execCxlLinkDown s
  | .cxlMemRead dpa lf => Sys2Proof.Machine.execCxlMemRead dpa lf s
  | .cxlMemWrite dpa data lf => Sys2Proof.Machine.execCxlMemWrite dpa data lf s
  | .hdmDecoderCommit dec base size => Sys2Proof.Machine.execHdmDecoderCommit dec base size s
  | .doorbell fn off val => Sys2Proof.Machine.execDoorbell fn off val s
  | .sqDispatch sq entry args buf => Sys2Proof.Machine.execSqDispatch sq entry args buf s
  | .completionPost cq written => Sys2Proof.Machine.execCompletionPost cq written s
  | .irqTimer cq => Sys2Proof.Machine.execIrqTimer cq s
  | .qCreate h args => Sys2Proof.Machine.execQCreate h args s
  | .qDelete h q => Sys2Proof.Machine.execQDelete h q s
  | .qmAdmCfgEn fn val => Sys2Proof.Machine.execQmAdmCfgEn fn val s
  | .identityGet => Sys2Proof.Machine.execIdentityGet s
  | .attest part nonce => Sys2Proof.Machine.execAttest part nonce s
  | .attestHeldRelease => Sys2Proof.Machine.execAttestHeldRelease s
  | .partCreate part layout => Sys2Proof.Machine.execPartCreate part layout s
  | .partCreateComplete p => Sys2Proof.Machine.execPartCreateComplete p s
  | .partDestroy part => Sys2Proof.Machine.execPartDestroy part s
  | .partDestroyComplete p => Sys2Proof.Machine.execPartDestroyComplete p s
  | .debugEnable part => Sys2Proof.Machine.execDebugEnable part s
  | .jobCreate part record => Sys2Proof.Machine.execJobCreate part record s
  | .jobDestroy part => Sys2Proof.Machine.execJobDestroy part s
  | .jobKeyWrap part req => Sys2Proof.Machine.execJobKeyWrap part req s
  | .jobKeyAccept part req => Sys2Proof.Machine.execJobKeyAccept part req s
  | .linkEstablish part r => Sys2Proof.Machine.execLinkEstablish part r s
  | .keyLoad part blob => Sys2Proof.Machine.execKeyLoad part blob s
  | .keyExport part slot => Sys2Proof.Machine.execKeyExport part slot s
  | .keyUnload part slot => Sys2Proof.Machine.execKeyUnload part slot s
  | .ownerKeyLoad part pkg ownerKey => Sys2Proof.Machine.execOwnerKeyLoad part pkg ownerKey s
  | .modelLoad part r => Sys2Proof.Machine.execModelLoad part r s
  | .fwUpdate comp img => Sys2Proof.Machine.execFwUpdate comp img s
  | .fwSvnCommit comp => Sys2Proof.Machine.execFwSvnCommit comp s
  | .fwActivate comp => Sys2Proof.Machine.execFwActivate comp s
  | .fwActivationComplete comp => Sys2Proof.Machine.execFwActivationComplete comp s
  | .deviceReset cause => Sys2Proof.Machine.execDeviceReset cause s
  | .resetRelease r => Sys2Proof.Machine.execResetRelease r s
  | .stackTrainingComplete group passed => Sys2Proof.Machine.execStackTrainingComplete group passed s
  | .railWarn rail mv => Sys2Proof.Machine.execRailWarn rail mv s
  | .budgetThrottle b => Sys2Proof.Machine.execBudgetThrottle b s
  | .budgetRecover b => Sys2Proof.Machine.execBudgetRecover b s
  | .pwrCapWrite fn val => Sys2Proof.Machine.execPwrCapWrite fn val s
  | .coolantHigh inlet => Sys2Proof.Machine.execCoolantHigh inlet s
  | .governorEvaluate tj => Sys2Proof.Machine.execGovernorEvaluate tj s
  | .thermalTrip unit tj => Sys2Proof.Machine.execThermalTrip unit tj s
  | .thermalTripEnd => Sys2Proof.Machine.execThermalTripEnd s
  | .thermtripAssert unit tj => Sys2Proof.Machine.execThermtripAssert unit tj s
  | .levellerAdjust work => Sys2Proof.Machine.execLevellerAdjust work s
  | .shedStageEnter b mv => Sys2Proof.Machine.execShedStageEnter b mv s
  | .shedEscalate b mv => Sys2Proof.Machine.execShedEscalate b mv s
  | .shedRecoverHold => Sys2Proof.Machine.execShedRecoverHold s
  | .shedStageUndo => Sys2Proof.Machine.execShedStageUndo s
  | .refLost ref => Sys2Proof.Machine.execRefLost ref s
  | .refRestored ref => Sys2Proof.Machine.execRefRestored ref s
  | .prstCore fn c => Sys2Proof.Machine.execPrstCore fn c s
  | .prstStation fn b k => Sys2Proof.Machine.execPrstStation fn b k s
  | .prstBay fn b => Sys2Proof.Machine.execPrstBay fn b s
  | .prstComplete passed => Sys2Proof.Machine.execPrstComplete passed s
  | .nvmStore fn => Sys2Proof.Machine.execNvmStore fn s
  | .nvmDefaults fn => Sys2Proof.Machine.execNvmDefaults fn s
  | .nvmStoreComplete verified => Sys2Proof.Machine.execNvmStoreComplete verified s
  | .laneRecal fn p lane => Sys2Proof.Machine.execLaneRecal fn p lane s
  | .laneRecalComplete p lane => Sys2Proof.Machine.execLaneRecalComplete p lane s
  | .dbkE0Read fn => Sys2Proof.Machine.execDbkE0Read fn s
  | .dbkTake fn seq => Sys2Proof.Machine.execDbkTake fn seq s
  | .daybookEntryWrite inTime => Sys2Proof.Machine.execDaybookEntryWrite inTime s
  | .dbgRead => Sys2Proof.Machine.execDbgRead s
  | .dbgHalt => Sys2Proof.Machine.execDbgHalt s
  | .dbgResume => Sys2Proof.Machine.execDbgResume s
  | .dbgStep => Sys2Proof.Machine.execDbgStep s
  | .xferSendCutoff p xfer => Sys2Proof.Machine.execXferSendCutoff p xfer s
  | .bayRailBelowWarning b mv => Sys2Proof.Machine.execBayRailBelowWarning b mv s
  | .bayRailAboveRecovery => Sys2Proof.Machine.execBayRailAboveRecovery s
  | .railInTolerance rail => Sys2Proof.Machine.execRailInTolerance rail s
  | .cxlLinkUp width rate => Sys2Proof.Machine.execCxlLinkUp width rate s
  | .retransmissionTimeout chan msgId => Sys2Proof.Machine.execRetransmissionTimeout chan msgId s
  | .rateUpdate chan rttNs ce acked => Sys2Proof.Machine.execRateUpdate chan rttNs ce acked s
  | .i3cDynamicAddress r => Sys2Proof.Machine.execI3cDynamicAddress r s

end Sys2Proof.Machine
end

