-- ==== Sys2Proof/Machine/Views.lean ====
section
/-! DEFINITION. What a read of each register returns (R8, R10, R82, R416, R419, R421 and the register tables of every page). Reads that
change state have rows of their own (ALM_TIME_READ, ALM_CAP_READ, RNG_DATA_READ, DBK_E0_READ). -/

namespace Sys2Proof.Machine

/-- Is the page one of a partition in confidential mode, so that its performance counters read zero (R82)? -/
def pageConf (s : State) (pg : Page) : Bool :=
  match partTenant (pageOwner s pg) with
  | some t => (getPart s t).conf
  | none => false

/-- A performance counter. -/
def perf (s : State) (pg : Page) (n : Nat) : Nat := if pageConf s pg then 0 else n

def lo32 (w : W64) : Nat := w.toNat % 2 ^ 32
def hi32 (w : W64) : Nat := w.toNat / 2 ^ 32
/-- A signed number in 32 bits, saturating. -/
def sat32 (i : Int) : Nat := wrapInt 32 (clampInt (-2147483648) 2147483647 i)
/-- A Bool for each of a list, as bits from 0. -/
def bitList (l : List Bool) : Nat := (l.zipIdx.map (fun p => b2n p.1 * 2 ^ p.2)).foldl (· + ·) 0

/-! ## PG_REV, PG_STAT and PG_ERR -/

/-- The number of a page's block instance among those that its component's microcode runs in. -/
def pageUnit : Page → Nat
  | .mem b => b.1
  | .st b .shr => 2 * b.1 + 1
  | .st b .rls => 2 * b.1 + 1
  | .st b _ => 2 * b.1
  | _ => 0

/-- PG_REV (Table 15.5). -/
def pageRev (s : State) (pg : Page) : Nat :=
  match finOpt 12 (pageComp pg - 1) with
  | none => 0
  | some i =>
    let c := s.rot.comps[i]
    let svn := if c.active ∧ c.switched.contains (pageUnit pg) then (c.accepted.map (·.1)).getD c.svn else c.svn
    if pageComp pg = 0 then 0 else pageComp pg * 2 ^ 24 + svn % 2 ^ 24

/-- Does a queue of a partition stand in ERROR? -/
def queuesIn (s : State) (p : PartId) (t : QState → Bool) : List Nat := (s.qm.queues.filter (fun q => q.2.part == p && t q.2.state)).map (·.1)
def qErr : QState → Bool
  | .error => true
  | _ => false
def qActive : QState → Bool
  | .active => true
  | _ => false

/-- FENCED and PC_FENCED of a MEM page: a pseudo-channel is fenced, or the bay is failed (R126). -/
def memFenced (m : BayMem) : Bool := !m.pcFenced.isEmpty || m.failed

/-- PG_ERR of every page. -/
def pageErr (s : State) (pg : Page) : Nat :=
  match pageStation pg with
  | some r => stErr s r
  | none =>
    match pg with
    | .pwr => bitList [!s.pow.railWarn.isEmpty, Config.sensed 3 0 s.alm.t.toNat % 2 == 1]
    | .clk => bitList [false, allBays.any (fun b => 4 < s.bays[b].pow.fselW.toNat)]
    | .alm => bitList [s.alm.state == .holdover]
    | .sch => bitList [false, s.sch.config]
    | .rtp => bitList [s.rot.identityErr, s.rot.firmwareErr]
    | .rng => bitList [s.rng.latched]
    | .nvm => bitList [s.nvm.settingsBad, s.nvm.storeFail, 10000 < Config.nvmStores + s.nvm.stores]
    | .qm p => bitList [!(queuesIn s p qErr).isEmpty]
    | .eth p => bitList [false, !ethCfgOk s.eth[p].wr]
    | .lane p => bitList [allPorts.any (fun l => (s.lane[p][l]).pin && 63 < eqSum (s.lane[p][l]).eq)]
    | .zld => bitList (allPorts.map (fun p => zldMode s p && s.zld[p].en && s.zld[p].state == .down))
    | .cxl => bitList [!s.link.perst && !s.link.up]
    | .thm => bitList [s.pow.trip, s.pow.coolant, Config.sensed 5 0 s.alm.t.toNat % 2 == 1]
    | .bay b => bitList [s.bays[b].mem.failed]
    | .mem b => bitList [s.bays[b].mem.trainFail, memFenced s.bays[b].mem]
    | _ => 0

/-- Are both admin queues of a partition ACTIVE? -/
def adminReady (s : State) (p : PartId) : Bool :=
  let ok (i : Nat) : Bool := match getQueue s i with
    | some q => q.part == p && qActive q.state
    | none => false
  decide (2 ≤ s.qm.count[p]) && ok s.qm.base[p] && ok (s.qm.base[p] + 1)

/-- The bits of PG_STAT other than ERR, on a page that is not a station page. -/
def pageStatBits (s : State) : Page → List Bool
  | .dev => [s.pow.settingsApplied && s.rot.ready]
  | .pwr | .clk | .lvl => [s.pow.running]
  | .thm => [s.pow.running, false, false, false, s.pow.govActive, s.pow.trip]
  | .alm => [s.alm.state == .locked, s.alm.set]
  | .sch => [!s.pow.inReset]
  | .rtp => [s.rot.ready]
  | .rng => [s.rng.valid, s.rng.startup]
  | .nvm => [s.pow.running, nvmBusy s]
  | .qm p => [adminReady s p]
  | .zld => [allPorts.all (fun p => !zldMode s p || s.zld[p].state == .up)]
  | .cxl => [s.link.up]
  | .dbk p => [true, false, false, false, !s.dbk[p].entries.isEmpty]
  | .view n => [(getPart s n).state == .active]
  | .bay b => [!s.bays[b].mem.failed, false, false, false, !stackReady s.bays[b].mem, s.bays[b].mem.failed,
      allCores.any (fun c => (s.bays[b].cores[c]).ctl.st == .fenced)]
  | .mem b => [stackReady s.bays[b].mem, !s.bays[b].mem.scrub.isEmpty, s.bays[b].mem.inFlight.isEmpty, false, s.bays[b].mem.selfRefresh,
      s.bays[b].mem.training, memFenced s.bays[b].mem]
  | _ => []

/-- PG_STAT of every page; bit 3 is the OR of PG_ERR (R419). -/
def pageStat (s : State) (pg : Page) : Nat :=
  match pageStation pg with
  | some r => stStat s r
  | none => bitList (pageStatBits s pg) + 8 * b2n (pageErr s pg != 0)

/-- PG_CTRL. -/
def pageCtrl (s : State) (pg : Page) : Nat :=
  match pageStation pg with
  | some r => ctlBits (getSt s r).en (getSt s r).abort (getSt s r).drain
  | none => 0

/-! ## Port blocks (Tables 03.9, 03.10) -/

def portCfg (conn unord : Bool) (cls stream : Nat) : Nat := b2n conn * 2 ^ 31 + b2n unord * 2 ^ 30 + cls % 256 * 2 ^ 16 + stream % 65536

/-- Word k of port n's block. -/
def portReg (s : State) (pg : Page) (r : StationRef) (n k : Nat) : Nat :=
  let x := getSt s r
  match finOpt 8 n, finOpt 8 (n - 8) with
  | some p, _ =>
    let i := x.ins[p]
    [portCfg i.conn i.unord i.cls i.stream, i.pool % 256 * 2 ^ 16 + i.avail % 256 * 2 ^ 8 + i.held.length % 256, perf s pg i.tiles.toNat, perf s pg i.poisons.toNat].getD k 0
  | none, some q =>
    let o := x.outs[q]
    let pool := match o.cons with
      | some (c, p) => (getIn s c p).pool
      | none => 0
    [portCfg o.conn o.unord o.cls o.stream, pool % 256 * 2 ^ 16 + outCredits s r q % 256 * 2 ^ 8, perf s pg o.tiles.toNat, perf s pg o.poisons.toNat].getD k 0
  | none, none => 0

/-! ## Hub pages -/

def addrWord (a : AddrRow) : Nat :=
  b2n a.valid * 2 ^ 31 + b2n a.v6 * 2 ^ 30 + b2n a.v4 * 2 ^ 29 + b2n a.untagged * 2 ^ 28 + a.weight % 256 * 2 ^ 16 + a.vlan % 4096

def ethReg (s : State) (p : PortId) (off : Nat) : Nat :=
  let e := s.eth[p]
  if 0x200 ≤ off then (match finOpt 16 ((off - 0x200) / 0x20) with
    | some t =>
      let a := e.wr.rows[t]
      ([addrWord a, a.ip4.toNat] ++ a.ip6.toList.map (·.toNat)).getD (off % 0x20 / 4) 0
    | none => 0)
  else [e.wr.mode.toNat, e.wr.mtu.toNat, e.wr.udp.toNat, e.wr.macLo.toNat, e.wr.macHi.toNat,
    bitList [e.link0, e.link1, e.training || e.training1, (e.link0 || e.link1) && Config.sensed 1 p.1 s.alm.t.toNat % 2 == 1], e.rxFrames.toNat, e.rxDiscard.toNat, e.txFrames.toNat,
    e.pauseRx.toNat].getD ((off - 0x100) / 4) 0

def laneReg (s : State) (p : PortId) (off : Nat) : Nat :=
  match finOpt 8 ((off - 0x100) / 0x20) with
  | some l =>
    let x := s.lane[p][l]
    [b2n x.pin * 2 ^ 31 + b2n x.recal * 2 ^ 30, x.eq.toNat, x.eqCur.toNat, b2n x.lock * 2 ^ 31 + b2n x.adapting * 2 ^ 30 + b2n x.recalBusy * 2 ^ 29 + x.eye.toNat,
     Config.sensed 2 (8 * p.1 + l.1) s.alm.t.toNat % 2 ^ 32].getD (off % 0x20 / 4) 0
  | none => 0

/-- SHAREp_STAT of Intake, as PG_STAT [7:0] (Table 03.7). A staged or tracked message is a held token; the firing of Intake that lasts is a
PUT message being written; a complete tile that may be handed on stalls once it has waited 1 ms for a credit. -/
def intakeShareStat (s : State) (p : TenantId) : Nat :=
  let mine := s.trn.msgs.filter (fun m => m.part == tenantPart p)
  let held := !mine.isEmpty
  let busy := mine.any (fun m => m.put && segsFull m)
  let stall := mine.any (fun m => mayHand s m && elapsed s m.lastT 1000000)
  bitList [s.sch.parts[p].running.isSome && s.trn.ctl.ready, busy, !busy && !((shareDrain s p || shareAbort s p) && held), stErr s .trn != 0, held, stall, shareAbort s p,
    s.trn.ctl.st == .fenced]

/-- The registers of the TRN page; the miss buffer in use is shown in KiB, rounded up (DESIGN CHOICE: Table 04.14 names no rounding,
notes/assumptions/24.md), and TRN_CTX_BASE.VALID reads 0 while CXL.cache is off (R314). -/
def trnReg (s : State) (off : Nat) : Nat :=
  if 0x400 ≤ off then (match finOpt 16 ((off - 0x400) / 0x20) with
    | some p =>
      let h := getShare s p
      [ctlBits h.en h.abort h.drain, intakeShareStat s p, h.contexts * 2 ^ 16 + h.staging, h.trackers * 2 ^ 16 + h.missKib, h.chBase, h.chCount,
       (cachedOf s p).length * 2 ^ 16 + stagingUsed s p].getD (off % 0x20 / 4) 0
    | none => 0)
  else
    let miss := (s.trn.miss.map (fun x => missRoom x.2)).foldl (· + ·) 0
    [s.trn.msgTmo.toNat, s.trn.holdMin.toNat, s.trn.violLim.toNat, lo32 s.trn.ctxBase / 2 ^ 26 * 2 ^ 26 + b2n (canSpill s), hi32 s.trn.ctxBase,
     ceilDiv miss 1024 * 2 ^ 16 + s.trn.fetching.length, (allTenants.map (stagingUsed s)).foldl (· + ·) 0 * 2 ^ 16 + (s.trn.msgs.filter (·.put)).length,
     s.trn.holds.toNat, s.trn.noReply.toNat, s.trn.suppressed.toNat].getD ((off - 0x200) / 4) 0

/-- The WIN page: through a VF, the rows of other partitions read zero (R122). -/
def winReg (s : State) (fn : Fn) (off : Nat) : Nat :=
  match finOpt 16 ((off - 0x100) / 0x10) with
  | some p =>
    let mine := match fn with
      | .vf n => n == p
      | _ => true
    if !mine then 0
    else [s.wins.base[p], s.wins.count[p], (s.wins.tab.filter (fun w => w.2.part == tenantPart p)).length, b2n s.wins.pend[p]].getD (off % 0x10 / 4) 0
  | none => 0

/-- Is a transfer of the share in progress: begun by a tile or, where the share begins transfers, by its first slot, and not ended? -/
def redBusy (s : State) (p : TenantId) : Bool :=
  s.red.runs.any (fun r => r.part == p && !r.ended && (r.sent != 0 || !r.got.isEmpty ||
    (match xferRec s p r.idx with
     | some x => r.step == s.sch.parts[p].step && inProgress s p x && redBegins s p
     | none => false)))

/-- SHAREp_STAT of Reduce, as PG_STAT [7:0] (Table 03.7). A transfer in progress is its firing and a tile at ingress its held token,
which waits for no output credit, so STALL is 0. -/
def reduceShareStat (s : State) (p : TenantId) : Nat :=
  let held := s.red.inq.any (fun t => t.part == p)
  bitList [s.sch.parts[p].running.isSome && s.red.ctl.ready, redBusy s p, !redBusy s p && !((redDrain s p || redAbort s p) && held),
    stErr s .red != 0, held, false, s.red.ctl.abortA || s.red.shares[p].abort, s.red.ctl.st == .fenced]

def redReg (s : State) (off : Nat) : Nat :=
  if 0x400 ≤ off then (match finOpt 16 ((off - 0x400) / 0x20) with
    | some p =>
      let h := s.red.shares[p]
      let conf := (getPart s p).conf
      [ctlBits h.en h.abort h.drain, reduceShareStat s p, h.ports, if conf then 0 else h.tx.toNat, if conf then 0 else h.rx.toNat, h.fail.toNat, h.late.toNat].getD
        (off % 0x20 / 4) 0
    | none => 0)
  else (allTenants.map (fun p => (s.sch.parts[p].running.map (fun g => g.xfers.length)).getD 0)).foldl (· + ·) 0 % 65536

def zldStateNo : ZldState → Nat
  | .down => 0
  | .training => 1
  | .hello => 2
  | .auth => 3
  | .up => 4
  | .retrain => 5

def zldReg (s : State) (off : Nat) : Nat :=
  match finOpt 8 ((off - 0x100) / 0x20) with
  | some p =>
    let z := s.zld[p]
    [b2n z.en * 2 ^ 15 + b2n z.retrain * 2 ^ 14, z.peerPort % 16 * 2 ^ 8 + zldStateNo z.state, u32 (padTo 4 z.verified) 0, z.replayCount.toNat, z.crcFails.toNat,
     z.fec.toNat, z.disc.toNat].getD (off % 0x20 / 4) 0
  | none => 0

/-- A QM page: the rows from 0x200 read zero through a VF (R329). -/
def qmReg (s : State) (fn : Fn) (p : PartId) (off : Nat) : Nat :=
  let a := s.qm.adm[p]
  if 0x200 ≤ off then (match fn, finOpt 17 ((off - 0x200) / 0x10) with
    | .vf _, _ => 0
    | _, some q => [s.qm.count[q] * 2 ^ 16 + s.qm.base[q], s.qm.share[q]].getD (off % 0x10 / 4) 0
    | _, none => 0)
  else
    let bad := queuesIn s p qErr
    [s.qm.base[p], s.qm.count[p], lo32 a.sqAddr, hi32 a.sqAddr, lo32 a.cqAddr, hi32 a.cqAddr, a.cfg.toNat,
     b2n (!bad.isEmpty) * 2 ^ 31 + bad.headD 0 * 2 ^ 16 + (queuesIn s p qActive).length, s.qm.share[p], vectorsOf p,
     (s.qm.inFlight.filter (fun h => h.part == p)).length, s.qm.cmds[p].toNat].getD ((off - 0x100) / 4) 0

def almReg (s : State) (off : Nat) : Nat :=
  let a := s.alm
  [lo32 a.t, hi32 a.timeLatch, a.mode.toNat + 4 * b2n a.set, a.setSec.toNat, sat32 a.ppsOff,
   almStateNo a.state + min 255 a.outliers * 2 ^ 8 + min 255 a.missed * 2 ^ 16, sat32 a.phase, sat32 a.trim, a.holdPpb.toNat, almUncert a,
   lo32 a.cap, hi32 a.capLatch, a.pulses.toNat].getD ((off - 0x100) / 4) 0

def schStateNo : SchState → Nat
  | .none => 0
  | .running => 1
  | .swapPending => 2
  | .halted => 3

/-- The share sets in force in the bays of a tenant, four bits each, for eight bays from `b0`. -/
def phaseWord (s : State) (p : TenantId) (b0 : Nat) : Nat :=
  (allBays.map (fun b => if b0 ≤ b.1 ∧ b.1 < b0 + 8 ∧ s.bays[b].owner = tenantPart p then s.bays[b].mem.shareSet % 16 * 16 ^ (b.1 - b0) else 0)).foldl (· + ·) 0

def schReg (s : State) (off : Nat) : Nat :=
  match finOpt 16 ((off - 0x200) / 0x20) with
  | some p =>
    let x := s.sch.parts[p]
    [b2n x.timeHold * 2 ^ 7 + b2n x.remapped * 2 ^ 6 + b2n x.staged.isSome * 2 ^ 5 + schStateNo x.state, u32 (padTo 4 ((x.running.map (·.digest)).getD [])) 0,
     lo32 x.t0, hi32 x.t0, x.step.toNat, phaseWord s p 0, phaseWord s p 8, x.last % 65536].getD (off % 0x20 / 4) 0
  | none => 0

def rtpReg (s : State) (off : Nat) : Nat :=
  let m := s.rot.mbx
  [m.op.toNat, b2n m.go * 2 ^ 15 + b2n m.imm * 2 ^ 14, lo32 m.req, hi32 m.req, m.reqLen, lo32 m.rsp, hi32 m.rsp, m.rspLen,
   m.status % 65536 * 2 ^ 16 + bitList [m.done, m.busy, m.isHeld], m.used, m.vector.toNat].getD ((off - 0x100) / 4) 0

/-- The RNG page; RNG_DATA shows what the next read would return. -/
def rngReg (s : State) (off : Nat) : Nat :=
  let r := s.rng
  if 0x200 ≤ off then (match finOpt 17 ((off - 0x200) / 4) with
    | some p => b2n r.drbg[p].seeded * 2 ^ 31 + b2n r.drbg[p].stalled * 2 ^ 30 + r.drbg[p].reqs % 2 ^ 21
    | none => 0)
  else [b2n r.srcEn + 2 * b2n r.restart, bitList [r.valid, r.aptFail, r.rctFail, r.latched, r.startup],
    if r.startup || r.latched then 0 else u32 (padTo 4 r.fifo) 0, b2n r.empty * 2 ^ 31 + r.emptyCnt.toNat, 0x29, 0x0400031B, r.fails.toNat, r.blocks.toNat].getD
      ((off - 0x100) / 4) 0

def slotsUsed (s : State) (t : KeySlot → Bool) : Nat := (s.rot.slots.toList.filter (fun o => match o with
  | some k => t k
  | none => false)).length

def partStateNo : PartState → Nat
  | .free => 0
  | .creating => 1
  | .active => 2
  | .destroying => 3

def partReg (s : State) (off : Nat) : Nat :=
  if 0x200 ≤ off then (match finOpt 16 ((off - 0x200) / 0x10) with
    | some p =>
      let x := getPart s p
      [b2n x.conf * 2 ^ 31 + b2n x.debug * 2 ^ 30 + partStateNo x.state * 2 ^ 28 + x.bays.toNat, x.gen.toNat, (x.job.map (fun j => j.job.toNat)).getD 0,
       slotsUsed s (fun k => k.part == p) * 2 ^ 8 + x.slotQuota].getD (off % 0x10 / 4) 0
    | none => 0)
  else [bitList (allBays.map (fun b => s.bays[b].owner == mgmt)), s.rot.lifecycle, slotsUsed s (fun _ => true)].getD ((off - 0x100) / 4) 0

def devReg (s : State) (off : Nat) : Nat :=
  [0xB0, Config.serial % 2 ^ 32, Config.serial / 2 ^ 32 % 2 ^ 32, u32 deviceId 0, 0x10320840,
   bitList (allBays.map (fun b => stackReady s.bays[b].mem)), bitList (allBays.map (fun b => s.bays[b].mem.failed)), s.scratch.toNat].getD ((off - 0x100) / 4) 0

/-- W from mW. -/
def watts (mw : Nat) : Nat := mw / 1000

/-- The lowest bay-rail reading of the last second with its bay; 0 where no row gave one (notes/assumptions/4.md). -/
def lowestDip (s : State) : Nat × Nat :=
  ((s.pow.dips.filter (fun d => !elapsed s d.1 1000000000)).map (·.2)).foldl (fun m d => if m.1 = 0 ∨ d.1 < m.1 then d else m) (0, 0)

def pwrReg (s : State) (off : Nat) : Nat :=
  let q := s.pow
  if 0x200 ≤ off then (match finOpt 16 ((off - 0x200) / 4) with
    | some b => s.bays[b].pow.mv % 65536 * 2 ^ 16 + watts (s.bays[b].pow.work + s.bays[b].pow.fallow) % 128
    | none => watts (q.hubW + q.hubFallow) % 256)
  else [q.cap, watts q.pkg % 2048, q.stage + bitList [q.below, q.holdSince.isSome && !q.undoing, q.stage != 0] * 2 ^ 5, (lowestDip s).2 * 2 ^ 16 + (lowestDip s).1 % 65536,
    b2n q.prstGo * 2 ^ 31 + q.prst.toNat, b2n q.prstGo * 2 ^ 31 + b2n q.prstFail * 2 ^ 30 + q.prstLast.toNat, tenantPower s].getD ((off - 0x100) / 4) 0

def clkReg (s : State) (off : Nat) : Nat :=
  if off = 0x100 then s.pow.refs.toNat
  else if off < 0x240 then (match finOpt 16 ((off - 0x200) / 4) with
    | some b => b2n s.bays[b].pow.fix * 2 ^ 31 + s.bays[b].pow.fselW.toNat
    | none => 0)
  else (match finOpt 16 ((off - 0x240) / 4) with
    | some b =>
      let q := s.bays[b].pow
      effCode s b + bitList [q.budgetCode != 0, q.govCode != 0 && !q.fix, decide (2 ≤ s.pow.stage), s.pow.trip] * 2 ^ 7
    | none => 0)

/-- The hottest junction: bay 0 to 15, hub 16, with its temperature. -/
def hottest (s : State) : Nat × Nat :=
  (allBays.map (fun (b : BayId) => (b.1, s.bays[b].pow.tj)) ++ [(16, s.pow.hubTj)]).foldl (fun (m x : Nat × Nat) => if m.2 < x.2 then x else m) (0, 0)

def thmReg (s : State) (off : Nat) : Nat :=
  if 0x200 ≤ off then (match finOpt 16 ((off - 0x200) / 4) with
    | some b => s.bays[b].pow.tj % 65536
    | none => 0)
  else [s.pow.tgt.toNat, (hottest s).1 * 2 ^ 16 + (hottest s).2 % 65536, s.pow.inlet % 65536, Config.sensed 4 0 s.alm.t.toNat % 65536, s.pow.hubTj % 65536].getD
    ((off - 0x100) / 4) 0

def lvlReg (s : State) (off : Nat) : Nat :=
  if 0x200 ≤ off then (match finOpt 16 ((off - 0x200) / 4) with
    | some b => watts (bayFloor s b) % 128 * 2 ^ 16 + watts s.bays[b].pow.fallow % 128
    | none => 0)
  else [s.pow.floor.toNat, s.pow.slew.toNat, s.pow.cls.toNat, b2n s.pow.levelShort * 2 ^ 31 + s.pow.causes.toNat,
    watts (overBays (fun b => s.bays[b].pow.fallow) + s.pow.hubFallow) % 2048].getD ((off - 0x100) / 4) 0

def nvmReg (s : State) (off : Nat) : Nat := if off = 0x100 then bitList [s.nvm.store, s.nvm.defaults] else (Config.nvmStores + s.nvm.stores) % 2 ^ 32

def cxlReg (s : State) (off : Nat) : Nat :=
  let l := s.link
  [b2n l.up * 2 ^ 31 + b2n l.cachemem * 2 ^ 30 + l.width % 16 * 2 ^ 16 + l.rate % 16, l.urSent.toNat, l.badTlp.toNat, l.rdFail.toNat, min 4095 l.memQ.length].getD
    ((off - 0x100) / 4) 0

/-- A DBK page; DBK_E0 shows the snapshot here, and takes a new one in DBK_E0_READ. -/
def dbkReg (s : State) (p : PartId) (off : Nat) : Nat :=
  let d := s.dbk[p]
  if 0x200 ≤ off then (match d.snap with
    | some e => u32 (entryBytes e.2) (off - 0x200)
    | none => 0)
  else [d.entries.length, d.lost.toNat, ((d.entries.head?.map (·.1)).getD d.next).toNat, d.take.toNat, b2n d.snap.isSome * 2 ^ 31,
    (match d.snap with
     | some e => e.1.toNat
     | none => 0)].getD ((off - 0x100) / 4) 0

def dbgPageReg (s : State) (off : Nat) : Nat :=
  let d := s.dbg
  [d.target.toNat, lo32 d.addr, hi32 d.addr, d.cmd.toNat, lo32 d.data, hi32 d.data, b2n d.done * 2 ^ 31 + b2n d.refused * 2 ^ 30 + b2n d.haltedBit * 2 ^ 29].getD
    ((off - 0x100) / 4) 0

def viewReg (s : State) (n : TenantId) (off : Nat) : Nat :=
  let x := getPart s n
  [n.1, x.gen.toNat, x.bays.toNat, s.coreSel[n].toNat, bitList [x.conf, x.debug]].getD ((off - 0x100) / 4) 0

/-! ## Bay pages -/

/-- A bit for each core of a bay. -/
def coreBits (s : State) (b : BayId) (f : Core → Bool) : Nat := bitList (allCores.map (fun c => f (s.bays[b].cores[c])))

/-- The slots of a bay's input pools that now hold a token. -/
def baySlotsHeld (s : State) (b : BayId) : Nat := ((bayStations b).map (fun r => ((getSt s r).ins.toList.map (fun i => i.busy.length)).foldl (· + ·) 0)).foldl (· + ·) 0

def bayReg (s : State) (b : BayId) (off : Nat) : Nat :=
  let f := coreBits s b (fun k => k.ctl.st == .fenced)
  let u := coreBits s b (fun k => k.bind.isSome)
  [f % 2 ^ 32, f / 2 ^ 32, u % 2 ^ 32, u / 2 ^ 32, s.bays[b].slots, perf s (.bay b) (baySlotsHeld s b), s.bays[b].mem.storeCe.toNat, s.bays[b].mem.storeUe.toNat].getD
    ((off - 0x100) / 4) 0

/-- MEM_SCRUB: the units of 2 MiB that the running zeroing has done are a free value, at most those of its span. -/
def scrubStat (s : State) (b : BayId) : Nat :=
  match s.bays[b].mem.scrub with
  | q :: _ => 2 ^ 31 + Config.sensed 6 b.1 s.alm.t.toNat % (ceilDiv q.len 2097152 + 1)
  | [] => 0

def memReg (s : State) (b : BayId) (off : Nat) : Nat :=
  let m := s.bays[b].mem
  let f : Nat := (m.pcFenced.map (fun (c : Fin 64) => 2 ^ c.1)).foldl (· + ·) 0
  [m.ce.toNat, m.ue.toNat, m.ueAddr % 2 ^ 32 / 64 * 64, m.ueAddr / 2 ^ 32, f % 2 ^ 32, f / 2 ^ 32, b2n m.patrolEn * 2 ^ 31 + m.patrolHours.toNat,
   scrubStat s b, perf s (.mem b) (Config.sensed 0 b.1 s.alm.t.toNat % 1025)].getD ((off - 0x100) / 4) 0

/-- The share set of a bay that runs no image of its owner (R445), in the order of Table 10.7: bank adders, Bin READ streams, Core DMA
reads, Lattice, Reduce egress, Release, Share. -/
def restShares : List Nat := [512, 256, 64, 64, 0, 64, 64]

/-- The share set in force in a bay: its image's (Table 10.7, R281), or R445's where the owner runs no image there or the image names
no shares for it. -/
def shareSetOf (s : State) (b : BayId) : List Nat :=
  match runningImage s s.bays[b].owner with
  | some g => if bitOf g.bays b.1 then ((lookup b.1 g.shares).map (fun l => l.getD s.bays[b].mem.shareSet [])).getD restShares else restShares
  | none => restShares

/-- BIN_SHARE: the bank adders' share in force (R149); 0 while the stack is not trained, as after reset (Table 05.10). -/
def adderShare (s : State) (b : BayId) : Nat := if s.bays[b].mem.trained then (shareSetOf s b).headD 0 else 0

def binReg (s : State) (b : BayId) (off : Nat) : Nat :=
  let m := s.bays[b].mem
  [m.bins.length, m.inFlight.length, adderShare s b, perf s (.st b .bin) m.added.toNat, perf s (.st b .bin) m.dups.toNat, m.poisonSet.toNat].getD ((off - 0x200) / 4) 0

def mskReg (s : State) (b : BayId) (off : Nat) : Nat :=
  let m := s.bays[b].mask
  [m.batches.toNat, m.batch.length, m.pos, perf s (.st b .msk) (lo32 m.stream), perf s (.st b .msk) (hi32 m.stream)].getD ((off - 0x200) / 4) 0

/-- The SHR page: the round that the bay leads. -/
def shrReg (s : State) (b : BayId) (off : Nat) : Nat :=
  match s.bays[b].round with
  | none => 0
  | some r =>
    [r.job.toNat, r.round.toNat, r.presence.length, r.floor, r.accepted.length, r.rejected.toNat, (r.secrets.map (·.1)).dedup.length,
     (stillNeeded r).length, r.seeds.toNat].getD ((off - 0x200) / 4) 0

def latReg (s : State) (b : BayId) (off : Nat) : Nat :=
  let l := s.bays[b].lattice
  if off < 0x240 then (match l.psets[(off - 0x200) / 0x10]? with
    | some p => [b2n p.ready * 2 ^ 31 + p.id, p.k * 2 ^ 16 + p.l * 2 ^ 8 + p.logn, p.job.toNat,
        ((imagePipes s b).filter (fun d => d.paramSet == p.id)).length].getD (off % 0x10 / 4) 0
    | none => 0)
  else if off < 0x2C0 then (match finOpt 8 ((off - 0x240) / 0x10) with
    | some k => (match l.keys[k] with
      | some x => [b2n (!x.checking) * 2 ^ 31 + b2n x.checking * 2 ^ 30 + x.kind * 2 ^ 28 + x.level * 2 ^ 16 + x.paramSet, x.src.toNat, x.dst.toNat].getD (off % 0x10 / 4) 0
      | none => 0)
    | none => 0)
  else [perf s (.st b .lat) l.cts.toNat, perf s (.st b .lat) (lo32 l.muls), perf s (.st b .lat) (hi32 l.muls), l.nbPoison.toNat, l.mismatch.toNat].getD
    ((off - 0x2C0) / 4) 0

def nseReg (s : State) (b : BayId) (off : Nat) : Nat :=
  let n := s.bays[b].noise
  let o := n.seeds.getLast?
  let rc := n.recs.getLast?
  let f (g : OpenSeed → Nat) : Nat := (o.map g).getD 0
  [f (fun x => x.job.toNat), f (fun x => x.round.toNat), f (fun x => 2 ^ 31 + x.attempt), f (fun x => x.lo % 2 ^ 32), f (fun x => x.lo / 2 ^ 32), f (fun x => x.hi % 2 ^ 32),
   f (fun x => x.hi / 2 ^ 32), f (fun x => x.mark % 2 ^ 32), f (fun x => x.mark / 2 ^ 32),
   (rc.map (fun x => x.addDist * 2 ^ 8 + x.dists.length)).getD 0, (rc.map (fun x => (x.dists.map (fun d => d.t0.length + d.t1.length)).foldl (· + ·) 0)).getD 0,
   perf s (.st b .nse) (lo32 n.samples), perf s (.st b .nse) (hi32 n.samples)].getD ((off - 0x200) / 4) 0

def rlsReg (s : State) (b : BayId) (off : Nat) : Nat :=
  let r := s.bays[b].release
  let f (g : Release → Nat) : Nat := (r.cur.map g).getD 0
  [f (fun x => x.args.job.toNat), f (fun x => x.args.round.toNat), f (fun x => x.tiles.toNat), r.records.toNat, r.refused.toNat, r.lastCode].getD ((off - 0x200) / 4) 0

/-- A CORE page; CORE_PC reads zero in confidential mode (R261). -/
def coreReg (s : State) (c : CoreId) (off : Nat) : Nat :=
  let k := getCore s c
  let pg : Page := .core c
  [(k.bind.map (fun b => b.cls * 2 ^ 16 + b.outMask * 2 ^ 8 + b.inMask)).getD 0, (k.bind.map (fun b => b.job.toNat)).getD 0, perf s pg (k.pc % 2 ^ 20),
   perf s pg k.imgFirings.toNat, perf s pg (lo32 k.busy), perf s pg (hi32 k.busy), k.kerr.toNat, k.kerrLast, k.lsCe.toNat,
   bitList (k.dma.toList.map (fun q => !q.isEmpty))].getD ((off - 0x200) / 4) 0

/-! ## A read -/

/-- A block-specific register that exists. -/
def pageReg (s : State) (fn : Fn) (pg : Page) (off : Nat) : Nat :=
  match pageStation pg with
  | some r => if off < 0x200 then portReg s pg r ((off - 0x100) / 0x10) (off % 0x10 / 4) else (match pg with
    | .trn => trnReg s off
    | .red => redReg s off
    | .st b .bin => binReg s b off
    | .st b .msk => mskReg s b off
    | .st b .shr => shrReg s b off
    | .st b .lat => latReg s b off
    | .st b .nse => nseReg s b off
    | .st b .rls => rlsReg s b off
    | .core c => coreReg s c off
    | _ => 0)
  | none =>
    match pg with
    | .dev => devReg s off
    | .pwr => pwrReg s off
    | .clk => clkReg s off
    | .alm => almReg s off
    | .sch => schReg s off
    | .rtp => rtpReg s off
    | .rng => rngReg s off
    | .nvm => nvmReg s off
    | .part => partReg s off
    | .qm p => qmReg s fn p off
    | .eth p => ethReg s p off
    | .lane p => laneReg s p off
    | .win => winReg s fn off
    | .zld => zldReg s off
    | .cxl => cxlReg s off
    | .dbk p => dbkReg s p off
    | .dbg => dbgPageReg s off
    | .thm => thmReg s off
    | .lvl => lvlReg s off
    | .view n => viewReg s n off
    | .bay b => bayReg s b off
    | .mem b => memReg s b off
    | _ => 0

/-- The header of a page (Table 15.4). -/
def headReg (s : State) (pg : Page) (off : Nat) : Nat :=
  [(pgId pg).toNat, pageRev s pg, pageCtrl s pg, pageStat s pg, pageErr s pg, 0, (pageOwner s pg).1].getD (off / 4) 0

/-- The tenant whose share a row of a hub page shows (Tables 04.14, 04.15, 10.15 and 10.16). -/
def rowTenant (pg : Page) (off : Nat) : Option TenantId :=
  match pg with
  | .trn => if 0x400 ≤ off then finOpt 16 ((off - 0x400) / 0x20) else none
  | .red => if 0x400 ≤ off then finOpt 16 ((off - 0x400) / 0x20) else none
  | .sch => if 0x200 ≤ off then finOpt 16 ((off - 0x200) / 0x20) else none
  | .win => if 0x100 ≤ off then finOpt 16 ((off - 0x100) / 0x10) else none
  | _ => none

/-- Table 12.3, row 1: the debug path reads the bays, stations and hub shares of a partition only where debug is open to it. -/
def debugHides (s : State) (fn : Fn) (pg : Page) (off : Nat) : Bool :=
  fn == .dbg && !debugOpen s (match pg, rowTenant pg off with
    | _, some p => tenantPart p
    | .bay b, _ => s.bays[b].owner
    | .mem b, _ => s.bays[b].owner
    | .st b _, _ => s.bays[b].owner
    | .core c, _ => s.bays[c.bay].owner
    | _, none => mgmt)

/-- What a read of a register returns: zero for a reserved offset (R8), for a page that the function does not reach (R315), and where
debug is closed (R337). -/
def readReg (s : State) (fn : Fn) (pg : Page) (off : Nat) : W32 :=
  if s.pow.inReset || !reaches s fn pg || debugHides s fn pg off then 0
  else match regKind pg off with
    | none => 0
    | some _ => word32 (if off < 0x100 then headReg s pg off else pageReg s fn pg off)

/-- A read at an address of the function's BAR0. -/
def readAddr (s : State) (fn : Fn) (a : Nat) : W32 :=
  match regAddr s fn a with
  | some (pg, off) => if off % 4 = 0 then readReg s fn pg off else 0
  | none => 0

/-! ## Pins (R372, R377, R403, R408) -/

/-- SAG_N and THERMTRIP_N asserted; both are released during device reset. -/
def sagN (s : State) : Bool := !s.pow.inReset && s.pow.stage != 0
def thermtripN (s : State) : Bool := !s.pow.inReset && s.pow.thermtrip

end Sys2Proof.Machine
end

