-- ==== Sys2Proof/WellFormed.lean ====
section
/-! DEFINITION. Which commands are well-formed: operands that the interfaces of the device can carry. The meanings are total and need
no such premise; a command that is not well-formed is one that no sender can form. -/

namespace Sys2Proof

/-- The host's queue entry: one of 8,192 queues, a ring of at most 65,536 places. -/
def hdrWf (h : CmdHdr) : Bool := h.sq < 8192 && h.sqHead < 65536

/-- A list of a fixed length. -/
def lenIs {α : Type} (n : Nat) (l : List α) : Bool := l.length == n

/-- A partition field of MBX_OP: 5 bits (Table 12.19). -/
def partWf (part : Nat) : Bool := part < 32

/-- The size of BAR0 of a function (Table 11.7). -/
def barSize : Fn → Nat
  | .vf _ => 0x100000
  | _ => 0x4000000

/-- The size of BAR4 of a function (Table 11.7). -/
def bar4Size : Fn → Nat
  | .vf _ => 0x1000
  | _ => 0x20000

/-- A junction: bay 0 to 15, or 16 for the hub. -/
def unitWf (unit : Nat) : Bool := unit ≤ 16

/-- The operands of a command lie in the range that the interface gives them. -/
def wellFormed (i : Instr) : Bool :=
  match i with
  | .qCreate h _ => hdrWf h
  | .qDelete h q => hdrWf h && decide (q < 65536)
  | .attest part nonce => partWf part && lenIs 64 nonce
  | .partCreate part layout => partWf part && lenIs 64 layout
  | .partDestroy part => partWf part
  | .debugEnable part => partWf part
  | .jobCreate part record => partWf part && decide (record.length ≤ 131072)
  | .jobDestroy part => partWf part
  | .jobKeyWrap part req => partWf part && decide (req.length ≤ 131072)
  | .jobKeyAccept part req => partWf part && decide (req.length ≤ 131072)
  | .linkEstablish part _ => partWf part
  | .keyLoad part blob => partWf part && decide (blob.length ≤ 131072)
  | .keyExport part slot => partWf part && decide (slot < 256)
  | .keyUnload part slot => partWf part && decide (slot < 256)
  | .ownerKeyLoad part _ _ => partWf part
  | .modelLoad part r => partWf part && decide (r.arg.slot < 256)
  | .fwUpdate comp img => decide (comp < 256) && decide (img.svn < 2 ^ 32)
  | .fwSvnCommit comp => decide (comp < 256)
  | .registerWrite fn a v => a.addr % (if v.hi.isSome then 8 else 4) == 0 && decide (a.addr < if a.bar4 then bar4Size fn else barSize fn)
  | .doorbell _ off _ => off % 8 == 0 && decide (off < 65536)
  | .barAccessMalformed _ _ _ addr size => !((size == 4 || size == 8) && addr % size == 0)
  | .frameReceive _ _ frame => decide (frame.length ≤ 9234)
  | .patrolScrubRead _ line _ => decide (line < 2 ^ 31)
  | .conditionedBlock raw => lenIs 1024 raw
  | .startupTestComplete raw => lenIs 1024 raw
  | .flitReceive _ flit => lenIs 512 flit
  | .perstDeassert width rate => decide (1 ≤ width) && decide (width ≤ 8) && decide (1 ≤ rate) && decide (rate ≤ 6)
  | .cxlLinkUp width rate => decide (1 ≤ width) && decide (width ≤ 8) && decide (1 ≤ rate) && decide (rate ≤ 6)
  | .cxlMemWrite dpa data _ => decide (0 < data.length) && decide (dpa % 64 + data.length ≤ 64)
  | .governorEvaluate tj => lenIs 17 tj
  | .levellerAdjust work => lenIs 17 work
  | .thermalTrip unit _ => unitWf unit
  | .thermtripAssert unit _ => unitWf unit
  | .rateUpdate _ rttNs _ _ => decide (0 < rttNs)
  | i => kernelFieldsOk i

end Sys2Proof
end

