-- ==== Sys2Proof/Certificates/Slice0/Obligations.lean ====
section
/-! DEFINITION. The statements for the provers: what the commands of the WY16 do, in the words of the spec's numbered rules. -/

open Sys2Proof Sys2Proof.Machine

namespace Sys2Proof.Said

/-! ## Kernel instructions -/

/-- Core `c` issues instruction `i`, and the word after it lies in the local store. -/
def Issues (s : State) (c : CoreId) (i : Instr) : Prop :=
  kernelReady s c i = true ∧ (getCore s c).pc % 4 = 0 ∧ (getCore s c).pc + 4 < localSize

/-- `t` is `s` after an instruction of core `c` that changed the core by `f` and went to `pc`, in at least `least` cycles. The whole
state is given: but for the core's counts and its waits, and the model's count of free values, all else is as it was. -/
def Ended (s : State) (c : CoreId) (least : Nat) (f : Core → Core) (pc : Nat) (t : State) : Prop :=
  ∃ n, least ≤ n ∧ t = modCore { s with free := s.free + 1 } c (fun k =>
    { f k with pc := pc, cycles := k.cycles + n, busy := if k.firing.isSome then k.busy + word64 n else k.busy,
               waitDma := false, stepping := false })

/-- The register and the value of a scalar instruction that only computes (Table 09.5). -/
def scalarOf (s : State) : Instr → Option (CoreId × BitVec 6 × W64)
  | .add c d a b => some (c, d, coreS (getCore s c) a + coreS (getCore s c) b)
  | .sub c d a b => some (c, d, coreS (getCore s c) a - coreS (getCore s c) b)
  | .and c d a b => some (c, d, coreS (getCore s c) a &&& coreS (getCore s c) b)
  | .or c d a b => some (c, d, coreS (getCore s c) a ||| coreS (getCore s c) b)
  | .xor c d a b => some (c, d, coreS (getCore s c) a ^^^ coreS (getCore s c) b)
  | .sll c d a b => some (c, d, coreS (getCore s c) a <<< ((coreS (getCore s c) b).toNat % 64))
  | .srl c d a b => some (c, d, coreS (getCore s c) a >>> ((coreS (getCore s c) b).toNat % 64))
  | .sra c d a b => some (c, d, (coreS (getCore s c) a).sshiftRight ((coreS (getCore s c) b).toNat % 64))
  | .mul c d a b => some (c, d, coreS (getCore s c) a * coreS (getCore s c) b)
  | .mulhu c d a b => some (c, d, ((coreS (getCore s c) a).zeroExtend 128 * (coreS (getCore s c) b).zeroExtend 128).extractLsb' 64 64)
  | .sltu c d a b => some (c, d, BitVec.zeroExtend 64 (BitVec.ofBool ((coreS (getCore s c) a).ult (coreS (getCore s c) b))))
  | .slt c d a b => some (c, d, BitVec.zeroExtend 64 (BitVec.ofBool ((coreS (getCore s c) a).slt (coreS (getCore s c) b))))
  | .cmovnz c d a b => some (c, d, if coreS (getCore s c) b = 0 then coreS (getCore s c) d else coreS (getCore s c) a)
  | .minu c d a b => some (c, d, if (coreS (getCore s c) a).ule (coreS (getCore s c) b) then coreS (getCore s c) a else coreS (getCore s c) b)
  | .maxu c d a b => some (c, d, if (coreS (getCore s c) a).ule (coreS (getCore s c) b) then coreS (getCore s c) b else coreS (getCore s c) a)
  | .addi c d a imm => some (c, d, coreS (getCore s c) a + imm.signExtend 64)
  | .andi c d a imm => some (c, d, coreS (getCore s c) a &&& imm.signExtend 64)
  | .ori c d a imm => some (c, d, coreS (getCore s c) a ||| imm.signExtend 64)
  | .xori c d a imm => some (c, d, coreS (getCore s c) a ^^^ imm.signExtend 64)
  | .slli c d a sh => some (c, d, coreS (getCore s c) a <<< sh.toNat)
  | .srli c d a sh => some (c, d, coreS (getCore s c) a >>> sh.toNat)
  | .srai c d a sh => some (c, d, (coreS (getCore s c) a).sshiftRight sh.toNat)
  | .lui c d imm => some (c, d, imm.signExtend 64 <<< 12)
  | .csrr c d n =>
    if n.toNat < 4 then
      some (c, d, if n = 0 then word64 (c.bay.1 * 256 + c.core.1) else if n = 1 then (getCore s c).fmt
        else if n = 2 then word64 (getCore s c).cycles else (getCore s c).firings)
    else none
  | _ => none

/-- The core, the condition and the offset of a branch. -/
def branchOf (s : State) : Instr → Option (CoreId × Bool × BitVec 14)
  | .beq c a b off => some (c, decide (coreS (getCore s c) a = coreS (getCore s c) b), off)
  | .bne c a b off => some (c, decide (coreS (getCore s c) a ≠ coreS (getCore s c) b), off)
  | .bltu c a b off => some (c, (coreS (getCore s c) a).ult (coreS (getCore s c) b), off)
  | .bgeu c a b off => some (c, (coreS (getCore s c) b).ule (coreS (getCore s c) a), off)
  | .blt c a b off => some (c, (coreS (getCore s c) a).slt (coreS (getCore s c) b), off)
  | .bge c a b off => some (c, (coreS (getCore s c) b).sle (coreS (getCore s c) a), off)
  | _ => none

/-- The core, the register and the value of a predicate instruction. -/
def predOf (s : State) : Instr → Option (CoreId × BitVec 3 × W64)
  | .pand c d a b => some (c, d, coreP (getCore s c) a &&& coreP (getCore s c) b)
  | .por c d a b => some (c, d, coreP (getCore s c) a ||| coreP (getCore s c) b)
  | .pxor c d a b => some (c, d, coreP (getCore s c) a ^^^ coreP (getCore s c) b)
  | .pnot c d a _ => some (c, d, ~~~coreP (getCore s c) a)
  | .pset c d _ _ => some (c, d, BitVec.allOnes 64)
  | .pclr c d _ _ => some (c, d, 0)
  | _ => none

/-- Element `j` of a register in the view of `b` bytes (R239). -/
def velem (b : Nat) (x : Vector W64 32) (j : Nat) : Nat :=
  (x.toList.getD (j / (8 / b)) 0).toNat / 2 ^ (8 * b * (j % (8 / b))) % 2 ^ (8 * b)

/-- How many elements a register has in the view of `b` bytes. -/
def vcount (b : Nat) : Nat := 256 / b

/-- The element that an instruction of format VR computes from the old element and the elements of va and vb, before it is reduced to
the width of the view; for the modular ones the modulus must be VALID and of the view's width. -/
def elementOf (s : State) : Instr → Option (CoreId × VrFields × (Nat → Nat → Nat → Nat))
  | .vadd c f => some (c, f, fun _ a b => a + b)
  | .vsub c f => some (c, f, fun _ a b => a + 2 ^ viewBits f.w - b)
  | .vmul c f => some (c, f, fun _ a b => a * b)
  | .vmulhu c f => some (c, f, fun _ a b => a * b / 2 ^ viewBits f.w)
  | .vand c f => some (c, f, fun _ a b => a &&& b)
  | .vor c f => some (c, f, fun _ a b => a ||| b)
  | .vxor c f => some (c, f, fun _ a b => a ^^^ b)
  | .vsll c f => some (c, f, fun _ a b => a * 2 ^ (b % viewBits f.w))
  | .vsrl c f => some (c, f, fun _ a b => a / 2 ^ (b % viewBits f.w))
  | .vsra c f => some (c, f, fun _ a b => ((signed (viewBits f.w) a / 2 ^ (b % viewBits f.w)) % 2 ^ viewBits f.w).toNat)
  | .vfadd c f => if f.w then some (c, f, fun _ a b => fpAdd a b) else none
  | .vfsub c f => if f.w then some (c, f, fun _ a b => fpSub a b) else none
  | .vfmul c f => if f.w then some (c, f, fun _ a b => fpMul a b) else none
  | .vffma c f => if f.w then some (c, f, fun d a b => fpFma a b d) else none
  | .vfdiv c f => if f.w then some (c, f, fun _ a b => fpDiv a b) else none
  | .vfsqrt c f => if f.w then some (c, f, fun _ a _ => fpSqrt a) else none
  | .vfmin c f => if f.w then some (c, f, fun _ a b => fpMin a b) else none
  | .vfmax c f => if f.w then some (c, f, fun _ a b => fpMax a b) else none
  | .vfabs c f => if f.w then some (c, f, fun _ a _ => fpAbs a) else none
  | .vfneg c f => if f.w then some (c, f, fun _ a _ => fpNeg a) else none
  | .rtos c f => if cvtFits s c f then some (c, f, fun _ a _ => ((fmtSigned (getCore s c) a) % 2 ^ viewBits f.w).toNat) else none
  | .stor c f =>
    if cvtFits s c f then
      some (c, f, fun _ a _ => (signed (viewBits f.w) a % ((fmtRingOf (getCore s c).fmt.toNat).m : Int)).toNat)
    else none
  | _ => none
where
  cvtFits (s : State) (c : CoreId) (f : VrFields) : Bool := (getCore s c).fmt != 0 && fmtView (getCore s c).fmt == f.w

/-- The fp32 instructions with w = 0, for which the spec states no element (notes/assumptions/21.md). -/
def wideFpOf : Instr → Option (CoreId × VrFields)
  | .vfadd c f => if f.w then none else some (c, f)
  | .vfsub c f => if f.w then none else some (c, f)
  | .vfmul c f => if f.w then none else some (c, f)
  | .vffma c f => if f.w then none else some (c, f)
  | .vfdiv c f => if f.w then none else some (c, f)
  | .vfsqrt c f => if f.w then none else some (c, f)
  | .vfmin c f => if f.w then none else some (c, f)
  | .vfmax c f => if f.w then none else some (c, f)
  | .vfabs c f => if f.w then none else some (c, f)
  | .vfneg c f => if f.w then none else some (c, f)
  | _ => none

/-- The value of a modular instruction on canonical operands (R246, Table 02.3, R40, R41): with modulus `m` and Montgomery radix `r`,
old element `d`, elements `a` and `b`, result `e`. A Montgomery result is the canonical value whose product with `r` is the one named. -/
def modularValue (m r d a b e : Nat) : Instr → Prop
  | .vmadd _ _ => a < m → b < m → e = (a + b) % m
  | .vmsub _ _ => a < m → b < m → e = (a + (m - b)) % m
  | .vmneg _ _ => a < m → e = (m - a) % m
  | .vmmul _ _ => a < m → b < m → e = a * b % m
  | .vmmac _ _ => d < m → a < m → b < m → e = (d + a * b) % m
  | .vmont _ _ => a < m → b < m → e < m ∧ e * r % m = a * b % m
  | .vmmacm _ _ => d < m → a < m → b < m → e < m ∧ e * r % m = (d * r + a * b) % m
  | .vtom _ _ => a < m → e = a * r % m
  | .vfromm _ _ => a < m → e < m ∧ e * r % m = a
  | _ => True

/-- The modular instructions. -/
def modularOf : Instr → Option (CoreId × VrFields)
  | .vmadd c f => some (c, f)
  | .vmsub c f => some (c, f)
  | .vmneg c f => some (c, f)
  | .vmmul c f => some (c, f)
  | .vmmac c f => some (c, f)
  | .vmont c f => some (c, f)
  | .vmmacm c f => some (c, f)
  | .vtom c f => some (c, f)
  | .vfromm c f => some (c, f)
  | _ => none

/-- A modulus register that MLD loaded from a descriptor whose constants are those of Table 02.4: m odd, of 28 to 61 bits, below 2^31
in the 32-bit view, with its Barrett and Montgomery constants. -/
def goodModulus (r : MReg) (w : Bool) : Prop :=
  r.valid = true ∧ r.w32 = w ∧ modulusFits w r.m.toNat r.mprime.toNat = true ∧
    r.mu.toNat = 2 ^ (2 * (Nat.log2 r.m.toNat + 1)) / r.m.toNat ∧ r.r2.toNat = (if w then 2 ^ 64 else 2 ^ 128) % r.m.toNat

/-- The core, fields and condition of a comparison. -/
def compareOf : Instr → Option (CoreId × VrFields × (Nat → Nat → Bool))
  | .vcmpEq c f => some (c, f, fun a b => a == b)
  | .vcmpNe c f => some (c, f, fun a b => a != b)
  | .vcmpLtu c f => some (c, f, fun a b => a < b)
  | .vcmpGeu c f => some (c, f, fun a b => b ≤ a)
  | .vcmpLt c f => some (c, f, fun a b => (BitVec.ofNat (viewBits f.w) a).slt (BitVec.ofNat (viewBits f.w) b))
  | .vcmpGe c f => some (c, f, fun a b => (BitVec.ofNat (viewBits f.w) b).sle (BitVec.ofNat (viewBits f.w) a))
  | .vcmpFlt c f => some (c, f, fpLt)
  | .vcmpFeq c f => some (c, f, fpEq)
  | .vcmpFun c f => some (c, f, fpUn)
  | _ => none

/-- The element at place `j` that an instruction of format VS computes from va's element `a` and the scalar `x`. -/
def withScalarOf : Instr → Option (CoreId × VsFields × (Nat → Nat → Nat → Nat))
  | .vbcast c f => some (c, f, fun _ _ x => x)
  | .vadds c f => some (c, f, fun _ a x => a + x)
  | .vslls c f => some (c, f, fun _ a x => a * 2 ^ (x % 64))
  | .vsrls c f => some (c, f, fun _ a x => a / 2 ^ (x % 64))
  | .vsras c f => some (c, f, fun _ a x => ((signed (viewBits f.w) a / 2 ^ (x % 64)) % 2 ^ viewBits f.w).toNat)
  | .viota c f => some (c, f, fun j _ x => x + j)
  | _ => none

/-- The core, register, address and length of a load. -/
def loadOf (s : State) : Instr → Option (CoreId × BitVec 6 × W64 × Nat)
  | .ld c d a imm => some (c, d, coreS (getCore s c) a + imm.signExtend 64, 8)
  | .lw c d a imm => some (c, d, coreS (getCore s c) a + imm.signExtend 64, 4)
  | _ => none

/-- The core, address and length of a store, and the byte it stores at each address. -/
def storeOf (s : State) : Instr → Option (CoreId × Nat × Nat × (Nat → Option Byte))
  | .sd c v a imm =>
    let x := (coreS (getCore s c) a + imm.signExtend 64).toNat
    some (c, x, 8, fun y => if x ≤ y ∧ y < x + 8 then some ((coreS (getCore s c) v).extractLsb' (8 * (y - x)) 8) else none)
  | .sw c v a imm =>
    let x := (coreS (getCore s c) a + imm.signExtend 64).toNat
    some (c, x, 4, fun y => if x ≤ y ∧ y < x + 4 then some ((coreS (getCore s c) v).extractLsb' (8 * (y - x)) 8) else none)
  | .vst c v a imm pr =>
    let x := (coreS (getCore s c) a + 256 * imm.signExtend 64).toNat
    some (c, x, 256, fun y => if x ≤ y ∧ y < x + 256 ∧ (coreP (getCore s c) pr).getLsbD ((y - x) / 8) then
      some (BitVec.ofNat 8 (velem 1 (coreV (getCore s c) v) (y - x))) else none)
  | _ => none

/-- The kernel instructions that name no memory. -/
def touchesNoMemory : Instr → Bool
  | .ld .. => false
  | .lw .. => false
  | .sd .. => false
  | .sw .. => false
  | .vld .. => false
  | .vst .. => false
  | .mld .. => false
  | .dcopy .. => false
  | .dadd .. => false
  | .dsub .. => false
  | i => (encodeKernel i).isSome

/-- Every byte of the three memories of every bay reads in `t` as in `s`, but for the bytes of the bay stores that `but` names. -/
def sameMemoryBut (but : BayId → Nat → Prop) (s t : State) : Prop :=
  ∀ b : BayId, (∀ a, memGet t.bays[b].mem.dram a = memGet s.bays[b].mem.dram a) ∧
    (∀ a, ¬ but b a → memGet t.bays[b].mem.store a = memGet s.bays[b].mem.store a) ∧
    ∀ (k : CoreIx) (a : Nat), memGet (t.bays[b].cores[k]).ls a = memGet (s.bays[b].cores[k]).ls a

/-- Every byte of the three memories of every bay reads in `t` as in `s`. -/
def sameMemory (s t : State) : Prop := sameMemoryBut (fun _ _ => False) s t

/-- Address `a` of the store of bay `b` lies in the first `n` bytes of a slot that core `c`'s open firing holds for output: the slot of
the consumer's pool that the output port's connection names. -/
def heldOut (s : State) (c : CoreId) (n : Nat) (b : BayId) (a : Nat) : Prop :=
  ∃ f h k q p, (getCore s c).firing = some f ∧ h ∈ f.slots ∧ h.port = 8 + Fin.val (n := 8) k ∧ (getOut s (.core c) k).cons = some (q, p) ∧
    stBay q = some b ∧ slotAddr (getIn s q p) h.token.slot ≤ a ∧ a < slotAddr (getIn s q p) h.token.slot + n

/-- Does address `a` of core `c`'s local store lie in a line of an SRAM bin, which is closed (R27, R167)? -/
def lsClosed (s : State) (c : CoreId) (a : Nat) : Bool := inSpans (closedLocal s c) (lineAddr a)

/-- What core `c` reads at address `a` of its local store: a closed line reads zero. -/
def lsByte (s : State) (c : CoreId) (a : Nat) : Byte := if lsClosed s c a then 0 else memGet (getCore s c).ls a

end Sys2Proof.Said

open Sys2Proof.Said

/-- R245, R238, Table 09.5: the scalar instructions that only compute write one register; s0 takes no write. -/
def Sys2Proof.Said.Computed : Prop :=
  ∀ (s : State) (i : Instr) (c : CoreId) (d : BitVec 6) (x : W64), scalarOf s i = some (c, d, x) → Issues s c i →
    ∃ t, exec i s = .next t ∧ Ended s c 1 (fun k => putS k d x) ((getCore s c).pc + 4) t ∧
      ∀ r, coreS (getCore t c) r = if r = d ∧ r ≠ 0 then x else coreS (getCore s c) r

/-- R245: a branch that is taken goes to pc + 4 · sext(off14), in 3 cycles; one that is not taken goes on, in 1. -/
def Sys2Proof.Said.Branches : Prop :=
  ∀ (s : State) (i : Instr) (c : CoreId) (taken : Bool) (off : BitVec 14), branchOf s i = some (c, taken, off) → Issues s c i →
    (taken = false → ∃ t, exec i s = .next t ∧ Ended s c 1 id ((getCore s c).pc + 4) t) ∧
    (taken = true → ∀ p : Nat, (p : Int) = (getCore s c).pc + 4 * off.toInt → p < localSize →
      ∃ t, exec i s = .next t ∧ Ended s c 3 id p t)

/-- R245: JAL and JALR put pc + 4 into sd and go to their target, when that is a word of the local store. -/
def Sys2Proof.Said.Jumps : Prop :=
  ∀ (s : State) (c : CoreId) (d a : BitVec 6),
    (∀ (imm : BitVec 20) (p : Nat), Issues s c (.jal c d imm) → (p : Int) = (getCore s c).pc + 4 * imm.toInt → p < localSize →
      ∃ t, exec (.jal c d imm) s = .next t ∧ Ended s c 3 (fun k => putS k d (word64 (k.pc + 4))) p t) ∧
    (∀ (imm : BitVec 14) (p : Nat), Issues s c (.jalr c d a imm) → p = (coreS (getCore s c) a + imm.signExtend 64).toNat →
      p % 4 = 0 → p < localSize →
      ∃ t, exec (.jalr c d a imm) s = .next t ∧ Ended s c 3 (fun k => putS k d (word64 (k.pc + 4))) p t)

/-- R245: branches, JAL and JALR go where they say, inside the local store. -/
def Obligations.JumpsAndBranchesSetThePc : Prop := Said.Branches ∧ Said.Jumps

/-- R248: CSRW writes FMT with a well-formed descriptor, and another descriptor is a kernel error FORMAT. -/
def Sys2Proof.Said.FormatRegister : Prop :=
  ∀ (s : State) (c : CoreId) (v : BitVec 6), Issues s c (.csrw c v 1) →
    (fmtOk (coreS (getCore s c) v).toNat = true →
      ∃ t, exec (.csrw c v 1) s = .next t ∧ Ended s c 1 (fun k => { k with fmt := coreS (getCore s c) v }) ((getCore s c).pc + 4) t) ∧
    (fmtOk (coreS (getCore s c) v).toNat = false → exec (.csrw c v 1) s = .next (kernelError s c 7))

/-- R245, R238: the predicate instructions write one predicate register; p0 takes no write and reads all ones. -/
def Sys2Proof.Said.PredicateInstructions : Prop :=
  ∀ (s : State) (i : Instr) (c : CoreId) (d : BitVec 3) (x : W64), predOf s i = some (c, d, x) → Issues s c i →
    ∃ t, exec i s = .next t ∧ Ended s c 1 (fun k => putP k d x) ((getCore s c).pc + 4) t ∧
      ∀ r, coreP (getCore t c) r = if r = 0 then BitVec.allOnes 64 else if r = d then x else coreP (getCore s c) r

/-- R238, R239, R245, R248: scalar instructions, predicate instructions and FMT. -/
def Obligations.ScalarInstructionsComputeTheirTable : Prop := Said.Computed ∧ Said.PredicateInstructions ∧ Said.FormatRegister

/-- R245, R239, R249: integer, fp32, RTOS and STOR vector instructions, element by element. An fp32 instruction with w = 0 still runs
and keeps every element that its predicate does not enable; what the others become is the model's free value (log entry 21). -/
def Obligations.VectorInstructionsActElementwise : Prop :=
  (∀ (s : State) (i : Instr) (c : CoreId) (f : VrFields) (g : Nat → Nat → Nat → Nat), elementOf s i = some (c, f, g) → Issues s c i →
    ∃ x t, exec i s = .next t ∧ Ended s c 1 (fun k => putV k f.vd x) ((getCore s c).pc + 4) t ∧
      ∀ j < vcount (viewSize f.w),
        let o := velem (viewSize f.w) (coreV (getCore s c) f.vd) j
        velem (viewSize f.w) x j = if (coreP (getCore s c) f.pr).getLsbD j then
          g o (velem (viewSize f.w) (coreV (getCore s c) f.va) j) (velem (viewSize f.w) (coreV (getCore s c) f.vb) j) % 2 ^ viewBits f.w else o) ∧
  (∀ (s : State) (i : Instr) (c : CoreId) (f : VrFields), wideFpOf i = some (c, f) → Issues s c i →
    ∃ x t, exec i s = .next t ∧ Ended s c 1 (fun k => putV k f.vd x) ((getCore s c).pc + 4) t ∧
      ∀ j < 32, (coreP (getCore s c) f.pr).getLsbD j = false → velem 8 x j = velem 8 (coreV (getCore s c) f.vd) j)

/-- R245: VSEL writes every element, from va where the predicate is set and from vb elsewhere. -/
def Sys2Proof.Said.VectorSelect : Prop :=
  ∀ (s : State) (c : CoreId) (f : VrFields), Issues s c (.vsel c f) →
    ∃ x t, exec (.vsel c f) s = .next t ∧ Ended s c 1 (fun k => putV k f.vd x) ((getCore s c).pc + 4) t ∧
      ∀ j < vcount (viewSize f.w), velem (viewSize f.w) x j =
        velem (viewSize f.w) (coreV (getCore s c) (if (coreP (getCore s c) f.pr).getLsbD j then f.va else f.vb)) j

/-- R246, R40, R41: a modular instruction under a good modulus register gives, for canonical operands, the ring operation or the
reduction that it names; elements that the predicate does not enable stay. -/
def Sys2Proof.Said.ModularResults : Prop :=
  ∀ (s : State) (i : Instr) (c : CoreId) (f : VrFields), modularOf i = some (c, f) → Issues s c i →
    goodModulus (getCore s c).m[predIx f.mr] f.w →
    ∃ x t, exec i s = .next t ∧ Ended s c 1 (fun k => putV k f.vd x) ((getCore s c).pc + 4) t ∧
      ∀ j < vcount (viewSize f.w),
        let v := fun r => velem (viewSize f.w) (coreV (getCore s c) r) j
        if (coreP (getCore s c) f.pr).getLsbD j then
          modularValue (getCore s c).m[predIx f.mr].m.toNat (if f.w then 2 ^ 32 else 2 ^ 64) (v f.vd) (v f.va) (v f.vb) (velem (viewSize f.w) x j) i
        else velem (viewSize f.w) x j = v f.vd

/-- R246: a modular instruction whose modulus register is not VALID or of the other width is a kernel error MODULUS. -/
def Sys2Proof.Said.ModulusError : Prop :=
  ∀ (s : State) (i : Instr) (c : CoreId) (f : VrFields), modularOf i = some (c, f) → kernelReady s c i = true →
    (getCore s c).m[predIx f.mr].valid = false ∨ (getCore s c).m[predIx f.mr].w32 ≠ f.w → exec i s = .next (kernelError s c 6)

/-- R40, R41, R246: modular instructions, and their kernel error MODULUS. -/
def Obligations.ModularInstructionsReduceByTheirModulus : Prop := Said.ModularResults ∧ Said.ModulusError

/-- R245, R239: a comparison writes bit j of pd for each element j that pr enables, keeps the bits of the others, and clears the bits
beyond the view's count. -/
def Sys2Proof.Said.VectorComparisons : Prop :=
  ∀ (s : State) (i : Instr) (c : CoreId) (f : VrFields) (cond : Nat → Nat → Bool), compareOf i = some (c, f, cond) → Issues s c i →
    ∃ x : W64, ∃ t, exec i s = .next t ∧ Ended s c 1 (fun k => putP k (f.vd.truncate 3) x) ((getCore s c).pc + 4) t ∧
      ∀ j < 64, x.getLsbD j =
        (if vcount (viewSize f.w) ≤ j then false
         else if (coreP (getCore s c) f.pr).getLsbD j then
           cond (velem (viewSize f.w) (coreV (getCore s c) f.va) j) (velem (viewSize f.w) (coreV (getCore s c) f.vb) j)
         else (coreP (getCore s c) (f.vd.truncate 3)).getLsbD j)

/-- R245, R239: VBCAST, VADDS, VSLLS, VSRLS, VSRAS and VIOTA, element by element. -/
def Sys2Proof.Said.VectorWithScalar : Prop :=
  ∀ (s : State) (i : Instr) (c : CoreId) (f : VsFields) (g : Nat → Nat → Nat → Nat), withScalarOf i = some (c, f, g) → Issues s c i →
    ∃ x t, exec i s = .next t ∧ Ended s c 1 (fun k => putV k f.vd x) ((getCore s c).pc + 4) t ∧
      ∀ j < vcount (viewSize f.w),
        let o := velem (viewSize f.w) (coreV (getCore s c) f.vd) j
        velem (viewSize f.w) x j = if (coreP (getCore s c) f.pr).getLsbD j then
          g j (velem (viewSize f.w) (coreV (getCore s c) f.va) j) (coreS (getCore s c) f.sa).toNat % 2 ^ viewBits f.w else o

/-- R239, R245: VSEL, the comparisons, and the vector instructions that take a scalar. -/
def Obligations.SelectsAndComparisonsFollowPredicates : Prop := Said.VectorSelect ∧ Said.VectorComparisons ∧ Said.VectorWithScalar

/-- R248, R43, R45: FTOR and BTOR encode, and RTOF and RTOB decode, part q of a register; FMT is not zero and fits w. -/
def Sys2Proof.Said.Converted : Prop :=
  ∀ (s : State) (c : CoreId) (f : VrFields), (getCore s c).fmt ≠ 0 → fmtView (getCore s c).fmt = f.w →
    let k := getCore s c
    let e := vcount (viewSize f.w)
    let q := e * f.vb.toNat
    let wide := fun (b x : Nat) => if b = 4 then x else x * 2 ^ 16
    (∀ (i : Instr) (b : Nat), (i = .ftor c f ∧ b = 4 ∨ i = .btor c f ∧ b = 2) → Issues s c i → b * (q + e) ≤ 256 →
      ∃ x t, exec i s = .next t ∧
        Ended s c 1 (fun k => { putV k f.vd x with firing := k.firing.map (fun y =>
          if ∃ j < e, (coreP k f.pr).getLsbD j ∧ fIsNan (wide b (velem b (coreV k f.va) (q + j))) then { y with nan := true } else y) })
          (k.pc + 4) t ∧
        ∀ j < e, velem (viewSize f.w) x j = if (coreP k f.pr).getLsbD j then
          (encodeReal k.fmt.toNat (wide b (velem b (coreV k f.va) (q + j)))).getD 0 % 2 ^ viewBits f.w
          else velem (viewSize f.w) (coreV k f.vd) j) ∧
    (∀ (i : Instr) (b : Nat), (i = .rtof c f ∧ b = 4 ∨ i = .rtob c f ∧ b = 2) → Issues s c i → b * (q + e) ≤ 256 →
      ∃ x t, exec i s = .next t ∧ Ended s c 1 (fun k => putV k f.vd x) (k.pc + 4) t ∧
        ∀ j < vcount b, velem b x j = if q ≤ j ∧ j < q + e ∧ (coreP k f.pr).getLsbD (j - q) then
          decodeReal (if b = 4 then 24 else 8) (fmtF k.fmt.toNat) (fmtSigned k (velem (viewSize f.w) (coreV k f.va) (j - q))) % 2 ^ (8 * b)
          else velem b (coreV k f.vd) j)

/-- R248: a conversion while FMT is zero, or whose w does not fit FMT's ring, is a kernel error FORMAT; a part beyond the register is
ILLEGAL. -/
def Sys2Proof.Said.ConversionErrors : Prop :=
  ∀ (s : State) (c : CoreId) (f : VrFields) (i : Instr),
    (i = .ftor c f ∨ i = .btor c f ∨ i = .rtof c f ∨ i = .rtob c f ∨ i = .rtos c f ∨ i = .stor c f) → kernelReady s c i = true →
    ((getCore s c).fmt = 0 ∨ fmtView (getCore s c).fmt ≠ f.w → exec i s = .next (kernelError s c 7)) ∧
    ((getCore s c).fmt ≠ 0 → fmtView (getCore s c).fmt = f.w → (i = .ftor c f ∨ i = .rtof c f) →
      64 < vcount (viewSize f.w) * (f.vb.toNat + 1) → exec i s = .next (kernelError s c 1))

/-- R43 to R45, R248: conversions under FMT, and their kernel errors.
What the spec leaves open here is the model's choice: log entry 13. -/
def Obligations.ConversionsFollowFmt : Prop := Said.Converted ∧ Said.ConversionErrors

/-- R245, R240: LD and LW read 8 or 4 little-endian bytes of the local store, and VLD 256 of them under its predicate; the address is
aligned and inside, no DMA will write its lines (R252), and the local store has its canonical form. A line of an SRAM bin reads zero
(R27, R167). -/
def Sys2Proof.Said.LocalLoads : Prop :=
  (∀ (s : State) (i : Instr) (c : CoreId) (d : BitVec 6) (a : W64) (n : Nat), loadOf s i = some (c, d, a, n) → Issues s c i →
    a.toNat % n = 0 → a.toNat + n ≤ localSize → dmaWritesLs (getCore s c) a.toNat n = false → Memory.wf (getCore s c).ls →
    ∃ (x : W64) (t : State), exec i s = .next t ∧ Ended s c 1 (fun k => putS k d x) ((getCore s c).pc + 4) t ∧
      ∀ j < 8, x.extractLsb' (8 * j) 8 = if j < n then lsByte s c (a.toNat + j) else 0) ∧
  (∀ (s : State) (c : CoreId) (v : BitVec 5) (sa : BitVec 6) (imm : BitVec 10) (pr : BitVec 3), Issues s c (.vld c v sa imm pr) →
    let a := (coreS (getCore s c) sa + 256 * imm.signExtend 64).toNat
    a % 256 = 0 → a + 256 ≤ localSize → dmaWritesLs (getCore s c) a 256 = false → Memory.wf (getCore s c).ls →
    ∃ x t, exec (.vld c v sa imm pr) s = .next t ∧ Ended s c 1 (fun k => putV k v x) ((getCore s c).pc + 4) t ∧
      ∀ j < 256, velem 1 x j = if (coreP (getCore s c) pr).getLsbD (j / 8) then (lsByte s c (a + j)).toNat
        else velem 1 (coreV (getCore s c) v) j)

/-- R245, R240, R254: SD, SW and VST store exactly the bytes they name, and set the written bits of exactly those lines; the address is
aligned, inside and no code, and no DMA will read its lines (R252). A line of an SRAM bin takes nothing (R27, R167). -/
def Sys2Proof.Said.LocalStores : Prop :=
  ∀ (s : State) (i : Instr) (c : CoreId) (a n : Nat) (bytes : Nat → Option Byte), storeOf s i = some (c, a, n, bytes) → Issues s c i →
    a % n = 0 → a + n ≤ localSize → codeHit (getCore s c) a n = false → dmaReadsLs (getCore s c) a n = false →
    ∃ m w t, exec i s = .next t ∧ Ended s c 1 (fun k => { k with ls := m, lsWritten := w }) ((getCore s c).pc + 4) t ∧
      (∀ x, memGet m x = if lsClosed s c x then memGet (getCore s c).ls x else (bytes x).getD (memGet (getCore s c).ls x)) ∧
      ∀ l, l ∈ w ↔ l ∈ (getCore s c).lsWritten ∨ ∃ x, (bytes x).isSome ∧ lsClosed s c x = false ∧ x / 64 = l

/-- R240, R245: loads and stores.
What the spec leaves open here is the model's choice: log entry 13. -/
def Obligations.LoadsAndStoresTouchTheNamedBytes : Prop := Said.LocalLoads ∧ Said.LocalStores

/-- R245, R254: a load or store whose address is not aligned is MISALIGNED, one beyond the local store RANGE, a store into code
CODE_WRITE. -/
def Sys2Proof.Said.LocalStoreErrors : Prop :=
  (∀ (s : State) (i : Instr) (c : CoreId) (d : BitVec 6) (a : W64) (n : Nat), loadOf s i = some (c, d, a, n) → kernelReady s c i = true →
    (a.toNat % n ≠ 0 → exec i s = .next (kernelError s c 2)) ∧
    (a.toNat % n = 0 → localSize < a.toNat + n → exec i s = .next (kernelError s c 3))) ∧
  (∀ (s : State) (i : Instr) (c : CoreId) (a n : Nat) (bytes : Nat → Option Byte), storeOf s i = some (c, a, n, bytes) →
    kernelReady s c i = true →
    (a % n ≠ 0 → exec i s = .next (kernelError s c 2)) ∧
    (a % n = 0 → localSize < a + n → exec i s = .next (kernelError s c 3)) ∧
    (a % n = 0 → a + n ≤ localSize → codeHit (getCore s c) a n = true → exec i s = .next (kernelError s c 10)))

/-- R247: MLD loads a modulus descriptor that passes its checks and sets VALID and the width bit; one that fails is a kernel error
MODULUS. -/
def Obligations.ModulusLoadChecksItsDescriptor : Prop :=
  ∀ (s : State) (c : CoreId) (md : BitVec 3) (w : Bool) (sa : BitVec 6) (imm : BitVec 14), Issues s c (.mld c md w sa imm) →
    let a := (coreS (getCore s c) sa + imm.signExtend 64).toNat
    let word := fun j => word64 (ofLe ((List.range 8).map (fun i => lsByte s c (a + 8 * j + i))))
    a % 32 = 0 → a + 32 ≤ localSize → dmaWritesLs (getCore s c) a 32 = false → Memory.wf (getCore s c).ls →
    let r := if w then 2 ^ 32 else 2 ^ 64
    let ok := (word 0).toNat % 2 = 1 ∧ 2 ^ 27 ≤ (word 0).toNat ∧ (word 0).toNat < (if w then 2 ^ 31 else 2 ^ 61) ∧
      (word 0).toNat * (word 1).toNat % r = r - 1
    (ok → ∃ t, exec (.mld c md w sa imm) s = .next t ∧ Ended s c 1 (fun k => { k with m := vmod k.m (predIx md) (fun _ =>
        { m := word 0, mprime := word 1, mu := word 2, r2 := word 3, valid := true, w32 := w }) }) ((getCore s c).pc + 4) t) ∧
    (¬ ok → ∃ t, exec (.mld c md w sa imm) s = .next t ∧ (getCore t c).m[predIx md].valid = false ∧
      (getCore t c).kerr = (getCore s c).kerr + 1 ∧ (getCore t c).kerrLast = 6)

/-- R258, R238: a kernel error counts, is written to the daybook with its reason and pc, ends the firing, and leaves every register at
its value after reset, the CSRs CYCLE and FIRING among them, with the pc at the kernel's entry; the local store and all other memory keep
their contents, but for the header lines of the markers in the firing's output slots. -/
def Sys2Proof.Said.KernelError : Prop :=
  ∀ (s : State) (c : CoreId) (reason : Nat),
    let t := kernelError s c reason
    (getCore t c).kerr = (getCore s c).kerr + 1 ∧ (getCore t c).kerrLast = reason ∧ (getCore t c).firing = none ∧
      (getCore t c).cycles = 0 ∧ (getCore t c).firings = 0 ∧
      (∀ r, coreS (getCore t c) r = 0) ∧ (∀ r, coreP (getCore t c) r = if r = 0 then BitVec.allOnes 64 else 0) ∧
      (∀ r : Fin 8, ((getCore t c).m[r]).valid = false) ∧ (getCore t c).v = Vector.replicate 32 (Vector.replicate 32 0) ∧
      (∀ b, (getCore s c).bind = some b → (getCore t c).pc = b.entry ∧ (getCore t c).fmt = b.fmt ∧ (getCore t c).run = .running) ∧
      (∀ ch : Fin 4, ((getCore t c).dma[ch]).length ≤ 1) ∧ sameMemoryBut (heldOut s c 64) s t ∧
      ∃ l, t.dbkIn = s.dbkIn ++ (dbkOf s s.bays[c.bay].owner,
        { time := s.alm.t, source := pgId (.core c), code := 0x9001, part := (dbkOf s s.bays[c.bay].owner).1, sev := 4,
          d0 := word32 (c.core.1 * 256 + reason), d1 := word32 (getCore s c).pc, d2 := word32 (firstOrdinal (getCore s c)), d3 := 0 }) :: l

/-- R244: a word that Table 09.5 does not list, or that breaks its format, is a kernel error ILLEGAL. R258: a firing that runs too long is
a kernel error WATCHDOG. -/
def Sys2Proof.Said.IllegalAndWatchdog : Prop :=
  (∀ (s : State) (c : CoreId) (w : W32), coreIssues s c = true → coreFetch (getCore s c) = w → decodeKernel c w = none →
    exec (.illegalInstruction c w) s = .next (kernelError s c 1)) ∧
  (∀ (s : State) (c : CoreId), (getCore s c).firing.isSome → (getCore s c).halted = false → stopping (getCore s c).ctl = false →
    exec (.watchdog c) s = .next (kernelError s c 9))

/-- R244, R254, R258: what is a kernel error, and what one does.
What the spec leaves open here is the model's choice: log entry 13. -/
def Obligations.KernelErrorsResetTheRegisters : Prop := Said.LocalStoreErrors ∧ Said.KernelError ∧ Said.IllegalAndWatchdog

/-- R255, R256, R245: FIRE waits for its ports and TEND for the DMA; TSLOT gives the DMA address of a held slot; TPOIS marks the firing;
FIRE and TEND out of place are kernel errors FIRE_STATE, and TSLOT of a slot not held SLOT. -/
def Sys2Proof.Said.FiringInstructions : Prop :=
  (∀ (s : State) (c : CoreId) (masks : W16) (b : Binding), kernelReady s c (.fire c masks) = true → (getCore s c).bind = some b →
    let i := masks.toNat / 256
    let o := masks.toNat % 256
    let fits := (getCore s c).firing = none ∧ masks ≠ 0 ∧ i &&& b.inMask = i ∧ o &&& b.outMask = o
    (fits → exec (.fire c masks) s = .next (modCore s c (fun k => { k with run := .waitFire i o }))) ∧
    (¬ fits → exec (.fire c masks) s = .next (kernelError s c 8))) ∧
  (∀ (s : State) (c : CoreId), kernelReady s c (.tend c) = true →
    ((getCore s c).firing.isSome → exec (.tend c) s = .next (modCore s c (fun k => { k with run := .waitTend }))) ∧
    ((getCore s c).firing = none → exec (.tend c) s = .next (kernelError s c 8))) ∧
  (∀ (s : State) (c : CoreId) (d : BitVec 6) (port : BitVec 4) (f : CoreFiring), Issues s c (.tslot c d port) →
    (getCore s c).firing = some f →
    (∀ h, f.slots.find? (fun h => h.port == port.toNat) = some h → ∃ t, exec (.tslot c d port) s = .next t ∧
      Ended s c 1 (fun k => putS k d (word64 (2 ^ 62 + h.addr))) ((getCore s c).pc + 4) t) ∧
    ((∀ h ∈ f.slots, h.port ≠ port.toNat) → exec (.tslot c d port) s = .next (kernelError s c 5))) ∧
  (∀ (s : State) (c : CoreId), Issues s c (.tpois c) → ∃ t, exec (.tpois c) s = .next t ∧
    Ended s c 1 (fun k => { k with firing := k.firing.map (fun f => { f with tpois := true }) }) ((getCore s c).pc + 4) t)

/-- R255, R256: FIRE_CLAIM takes a token of every input port named and a slot for every output port named, which then reads zero, in one
step, and the core goes on; TEND_COMPLETE ends the firing and counts it. Memory keeps its contents outside the output slots. -/
def Sys2Proof.Said.FiringEvents : Prop :=
  (∀ (s : State) (c : CoreId) (i o : Nat), (getCore s c).run = .waitFire i o → mayFire s (.core c) = true → (getCore s c).halted = false →
    s.bays[c.bay].remapping = none → (getCore s c).pc % 4 = 0 → (getCore s c).pc + 4 < localSize →
    (∀ p ∈ maskPorts8 i, (getIn s (.core c) p).held ≠ []) → (∀ n ∈ maskPorts8 o, outCredits s (.core c) n ≠ 0) →
    ((maskPorts8 o).map (fun n => (getOut s (.core c) n).cons)).Nodup →
    ∃ t f, exec (.fireClaim c) s = .next t ∧ (getCore t c).run = .running ∧ (getCore t c).pc = (getCore s c).pc + 4 ∧
      (getCore t c).firing = some f ∧ f.slots.map (·.port) = (maskPorts8 i).map (·.1) ++ (maskPorts8 o).map (fun n => 8 + n.1) ∧
      (∀ p ∈ maskPorts8 i, (getIn t (.core c) p).held = (getIn s (.core c) p).held.tail) ∧
      sameMemoryBut (fun b a => b = c.bay ∧ ∃ h ∈ f.slots, 8 ≤ h.port ∧ h.addr ≤ a ∧ a < h.addr + 65600) s t ∧
      ∀ h ∈ f.slots, 8 ≤ h.port → ∀ a, h.addr ≤ a → a < h.addr + 65600 → memGet t.bays[c.bay].mem.store a = 0) ∧
  (∀ (s : State) (c : CoreId) (f : CoreFiring), (getCore s c).run = .waitTend → (getCore s c).firing = some f →
    dmaTouchesSlot (getCore s c) = false → stopping (getCore s c).ctl = false → (getCore s c).pc % 4 = 0 →
    (getCore s c).pc + 4 < localSize →
    ∃ t, exec (.tendComplete c) s = .next t ∧ (getCore t c).run = .running ∧ (getCore t c).firing = none ∧
      (getCore t c).firings = (getCore s c).firings + 1 ∧ (getCore t c).imgFirings = (getCore s c).imgFirings + 1 ∧
      (getCore t c).pc = (getCore s c).pc + 4 ∧ sameMemoryBut (heldOut s c 65600) s t)

/-- R428, Table 12.3: BRK halts the core where debug is open, and is a kernel error BREAK elsewhere. -/
def Sys2Proof.Said.Breakpoint : Prop :=
  ∀ (s : State) (c : CoreId), Issues s c (.brk c) →
    (debugOpen s s.bays[c.bay].owner = true → ∃ t, exec (.brk c) s = .next t ∧
      Ended s c 1 (fun k => { k with halted := true }) ((getCore s c).pc + 4) t) ∧
    (debugOpen s s.bays[c.bay].owner = false → exec (.brk c) s = .next (kernelError s c 12))

/-- R255, R256, R428: firings and BRK.
What the spec leaves open here is the model's choice: log entry 13. -/
def Obligations.FiringsClaimAndEndSlots : Prop := Said.FiringInstructions ∧ Said.FiringEvents ∧ Said.Breakpoint

/-- R251, R252: a DMA instruction without an error joins its channel's queue, and while that holds four operations issue stalls; DWAIT
and DFENCE end once the channel or all four are idle, and stall before. -/
def Sys2Proof.Said.DmaInstructions : Prop :=
  ∀ (s : State) (c : CoreId) (dst src len : BitVec 6) (ch : BitVec 2),
    let k := getCore s c
    let n : Fin 4 := ⟨ch.toNat, ch.isLt⟩
    let stalled := modCore s c (fun k => { k with waitDma := true })
    (∀ (i : Instr) (op : Nat), (i = .dcopy c dst src len ch ∧ op = 0 ∨ i = .dadd c dst src len ch ∧ op = 1 ∨ i = .dsub c dst src len ch ∧ op = 2) →
      Issues s c i → dmaError s c k op (coreS k dst) (coreS k src) (coreS k len) = 0 →
      (k.dma[n].length < 4 → ∃ t, exec i s = .next t ∧ Ended s c 1 (fun k => { k with dma := vmod k.dma n (fun q => q ++
        [{ op := op, dst := (coreS k dst).toNat, src := (coreS k src).toNat, len := ((coreS k len).extractLsb' 0 21).toNat,
           ring := ((coreS k len).extractLsb' 56 8).toNat }]) }) (k.pc + 4) t) ∧
      (4 ≤ k.dma[n].length → exec i s = .next stalled)) ∧
    (Issues s c (.dwait c dst src len ch) →
      (k.dma[n] = [] → ∃ t, exec (.dwait c dst src len ch) s = .next t ∧ Ended s c 1 id (k.pc + 4) t) ∧
      (k.dma[n] ≠ [] → exec (.dwait c dst src len ch) s = .next stalled)) ∧
    (Issues s c (.dfence c dst src len ch) →
      ((∀ m : Fin 4, k.dma[m] = []) → ∃ t, exec (.dfence c dst src len ch) s = .next t ∧ Ended s c 1 id (k.pc + 4) t) ∧
      ((∃ m : Fin 4, k.dma[m] ≠ []) → exec (.dfence c dst src len ch) s = .next stalled))

/-- R251, R241: DMA_COMPLETE takes the first operation off its channel; a copy inside the local store moves exactly its bytes, reading
zero from lines of an SRAM bin and writing none to them (R27, R167). -/
def Sys2Proof.Said.DmaComplete : Prop :=
  ∀ (s : State) (c : CoreId) (ch : Fin 4) (o : DmaOp) (rest : List DmaOp) (lf : LineFaults), (getCore s c).dma[ch] = o :: rest →
    s.pow.trip = false → s.bays[c.bay].mem.selfRefresh = false → o.op = 0 → dmaSpace o.src = 0 → dmaSpace o.dst = 0 →
    Memory.wf (getCore s c).ls →
    ∃ t, exec (.dmaComplete c ch lf) s = .next t ∧ (getCore t c).dma[ch] = rest ∧
      ∀ x, memGet (getCore t c).ls x = if dmaOff o.dst ≤ x ∧ x < dmaOff o.dst + o.len ∧ lsClosed s c x = false then
        lsByte s c (dmaOff o.src + (x - dmaOff o.dst)) else memGet (getCore s c).ls x

/-- R251, R252: DMA operations.
What the spec leaves open here is the model's choice: log entry 13. -/
def Obligations.DmaOperationsMoveTheirBytes : Prop := Said.DmaInstructions ∧ Said.DmaComplete

/-- R245, R246, R249: a kernel instruction that names no memory leaves every byte of memory as it was, but for the header lines of the
markers that a kernel error puts into the firing's output slots (R258); one that its core does not issue leaves the whole state. -/
def Obligations.RegisterInstructionsKeepMemory : Prop :=
  ∀ (s t : State) (i : Instr), touchesNoMemory i = true → exec i s = .next t →
    (∀ c, kernelReady s c i = true → sameMemoryBut (heldOut s c 64) s t) ∧ ((∀ c, kernelReady s c i = false) → t = s)


namespace Sys2Proof.Said

/-- Command `i`, taken in state `s`, is carried out: `exec` answers a next state, and `P` holds of it. -/
def Runs (i : Instr) (s : State) (P : State → Prop) : Prop := ∃ t, exec i s = .next t ∧ P t

/-- A write of function `fn` to the register at `off` of page `pg` takes effect: the device is out of reset, the function reaches the
page, no component in transition holds the write back, and a GRD register's page is unlocked (R10, R11, R315, R420). -/
def Open (s : State) (fn : Fn) (pg : Page) (off : Nat) : Prop :=
  s.pow.inReset = false ∧ reaches s fn pg = true ∧ pageWaits s pg = false ∧ (regKind pg off = some .grd → (lockOf s pg).unlocked = true)

/-- The page is locked again by any write but the key's (R11). -/
def relocked (s : State) (pg : Page) : State := setLock s pg false

/-- The queue-manager page and the daybook page that a function sees. -/
def ownPart : Fn → PartId
  | .vf n => tenantPart n
  | _ => mgmt

/-- No fault is newly found in the lines read. -/
def clean : LineFaults := { ue := [], ce := 0 }

end Sys2Proof.Said

/-- R77, R78: EN, ABORT and DRAIN_REQ of a station's PG_CTRL take the value written; nothing else changes until the bits arrive. -/
def Sys2Proof.Said.ControlBits : Prop :=
  ∀ (s : State) (fn : Fn) (r : StationRef) (on : Bool), Open s fn (stPage r) 0x008 →
    exec (.stationEn fn r on) s = .next (modSt (relocked s (stPage r)) r (fun x => { x with en := on })) ∧
    exec (.stationAbort fn r on) s = .next (modSt (relocked s (stPage r)) r (fun x => { x with abort := on })) ∧
    exec (.stationDrainReq fn r on) s = .next (modSt (relocked s (stPage r)) r (fun x => { x with drain := on }))

/-- R78, Table 03.8: the control bits reach the station. DRAIN_REQ without ABORT drains; EN cleared pauses an IDLE or BUSY station; EN
set takes a ready one out of OFF and grants every free slot of its connected pools; a fenced station stays fenced; ABORT takes an idle
Mask station to ABORTING. -/
def Sys2Proof.Said.StationControlArrive : Prop :=
  ∀ (s : State) (r : StationRef),
    let x := getSt s r
    let came := modSt s r (fun x => { x with enA := x.en, abortA := x.abort, drainA := x.drain })
    (x.st = .fenced → exec (.stationControlArrive r) s = .next came) ∧
    (x.st ≠ .fenced → x.abort = false → x.drain = true →
      exec (.stationControlArrive r) s = .next (modSt came r (fun x => { x with st := .draining }))) ∧
    ((x.st = .idle ∨ x.st = .busy) → x.abort = false → x.drain = false → x.en = false →
      exec (.stationControlArrive r) s = .next (modSt came r (fun x => { x with st := .paused }))) ∧
    (x.st = .off → x.abort = false → x.drain = false → x.en = true → x.ready = true →
      (∀ (p : PortId) (q : StationRef) (n : PortId), (x.ins[p]).prod = some (q, n) → stopping (getSt s q) = false ∧ (q = .trn → s.trn.msgs = []) ∧
        ∀ b, q = .bay b .shr → s.bays[b].round = none) →
      Runs (.stationControlArrive r) s (fun t => ((getSt t r).st = .idle ∨ (getSt t r).st = .busy) ∧ (getSt t r).enA = true ∧
        ∀ p : PortId, (x.ins[p]).conn = true → (getIn t r p).avail = (x.ins[p]).pool - (x.ins[p]).busy.length)) ∧
    (∀ b, r = .bay b .msk → x.st = .idle → x.firing = none → x.abort = true →
      exec (.stationControlArrive r) s = .next (modSt came r (fun x => { x with st := .aborting, stall := false })))

/-- R65, R83, R77, R79: a token that arrives at a station that does not stop is held and counted, and one that a core's port still owes to a
firing that left as a marker is consumed; a credit that arrives goes to the producer
and frees its slot; the end of a firing passes its outputs and returns its inputs' credits; a token that has waited 1 ms for a credit
gives one STALL entry. -/
def Sys2Proof.Said.TokensAndCredits : Prop :=
  (∀ (s : State) (r : StationRef) (p : PortId) (k : Token), s.tokFlight.find? (fun f => f.1 == r && f.2.1 == p) = some (r, p, k) →
    stopping (getSt s r) = false → (∀ c, r = .core c → (getIn s r p).owed = 0) →
    Runs (.tokenArrive r p) s (fun t => t.tokFlight = s.tokFlight.erase (r, p, k) ∧ (getIn t r p).held = (getIn s r p).held ++ [k] ∧
      (getIn t r p).tiles = (getIn s r p).tiles + 1 ∧
      (getIn t r p).poisons = (if k.tile.hdr.poison then (getIn s r p).poisons + 1 else (getIn s r p).poisons))) ∧
  (∀ (s : State) (c : CoreId) (p : PortId) (k : Token), s.tokFlight.find? (fun f => f.1 == .core c && f.2.1 == p) = some (.core c, p, k) →
    stopping (getSt s (.core c)) = false → 0 < (getIn s (.core c) p).owed → (getIn s (.core c) p).held = [] →
    Runs (.tokenArrive (.core c) p) s (fun t => t.tokFlight = s.tokFlight.erase (.core c, p, k) ∧ (getIn t (.core c) p).held = [] ∧
      (getIn t (.core c) p).owed = (getIn s (.core c) p).owed - 1)) ∧
  (∀ (s : State) (r q : StationRef) (p n : PortId) (slot : Nat),
    s.credFlight.find? (fun f => f.1 == r && f.2.1 == p) = some (r, p, slot) → (getIn s r p).prod = some (q, n) →
    stopping (getSt s q) = false → q ≠ .trn → (∀ b, q ≠ .bay b .shr) →
    Runs (.creditArrive r p) s (fun t => t.credFlight = s.credFlight.erase (r, p, slot) ∧ (getIn t r p).avail = (getIn s r p).avail + 1 ∧
      (getIn t r p).busy = (getIn s r p).busy.erase slot)) ∧
  (∀ (s : State) (r : StationRef) (f : Firing), (getSt s r).firing = some f →
    Runs (.firingEnd r) s (fun t => (getSt t r).firing = none ∧
      t.tokFlight = s.tokFlight ++ f.outs.filterMap (fun o => (getOut s r o.1).cons.map (fun c => (c.1, c.2, o.2))) ∧
      ((getSt s r).st ≠ .draining → t.credFlight = s.credFlight ++ f.ins.map (fun i => (r, i.1, i.2.slot))))) ∧
  (∀ (s : State) (r : StationRef) (n p : PortId) (since : W64), (getSt s r).stall = false → ((getSt s r).outs[n]).waitSince = some since →
    allPorts.find? (fun p => !((getSt s r).ins[p]).held.isEmpty) = some p → elapsed s since 1000000 = true →
    Runs (.stall r n) s (fun t => (getSt t r).stall = true ∧ ∃ e, t.dbkIn = s.dbkIn ++ [e] ∧ e.2.code = 0x1001 ∧ e.2.d3 = word32 (8 + n.1) ∧
      e.2.source = pgId (stPage r)))

/-- R78, R259: a station fault fences a Mask station that holds nothing with FAULT set; a core fault fences the core with its PG_ERR bit,
stops it, ends its firing and its DMA, and writes CORE_FENCED. -/
def Sys2Proof.Said.StationFaults : Prop :=
  (∀ (s : State) (b : BayId), (getSt s (.bay b .msk)).firing = none → exec (.stationFault (.bay b .msk)) s =
    .next (modSt s (.bay b .msk) (fun x => { x with fault := true, st := .fenced, stall := false }))) ∧
  (∀ (s : State) (c : CoreId) (kind : Fin 5), (getCore s c).firing = none → heldCount s (.core c) = 0 →
    Runs (.coreFault c kind) s (fun t => (getCore t c).ctl.st = .fenced ∧ (getCore t c).ctl.fault = true ∧
      (getCore t c).faultBits = (getCore s c).faultBits ||| (1#5 <<< kind.1) ∧ (getCore t c).run = .stopped ∧
      (∀ ch : Fin 4, (getCore t c).dma[ch] = []) ∧ sameMemory s t ∧ ∃ e, t.dbkIn = s.dbkIn ++ [e] ∧ e.2.code = 0x9002))

/-- R65, R77, R78, R83, R259: tokens, credits, firings, stalls and faults.
What the spec leaves open here is the model's choice: log entry 23. -/
def Obligations.StationEventsMoveTokensAndCredits : Prop := Said.TokensAndCredits ∧ Said.StationFaults

/-- R111, R294: EN, ABORT and DRAIN_REQ of a partition's share of Intake, with no message staged, and of Reduce, with no transfer in its
step, take the value written. -/
def Sys2Proof.Said.ShareControl : Prop :=
  (∀ (s : State) (fn : Fn) (p : TenantId) (on : Bool), Open s fn .trn (0x400 + p.1 * 0x20) → s.trn.msgs = [] →
    exec (.intakeShareEn fn p on) s = .next (modShare (relocked s .trn) p (fun h => { h with en := on })) ∧
    exec (.intakeShareAbort fn p on) s = .next (modShare (relocked s .trn) p (fun h => { h with abort := on })) ∧
    exec (.intakeShareDrainReq fn p on) s = .next (modShare (relocked s .trn) p (fun h => { h with drain := on }))) ∧
  (∀ (s : State) (fn : Fn) (p : TenantId) (on : Bool), Open s fn .red (0x400 + p.1 * 0x20) → s.red.runs = [] →
    exec (.reduceShareEn fn p on) s = .next (modRedShare (relocked s .red) p (fun h => { h with en := on })) ∧
    exec (.reduceShareAbort fn p on) s = .next (modRedShare (relocked s .red) p (fun h => { h with abort := on })) ∧
    exec (.reduceShareDrainReq fn p on) s = .next (modRedShare (relocked s .red) p (fun h => { h with drain := on })))

/-- R77, R78, R111, R294: control bits of stations and shares, and their arrival.
What the spec leaves open here is the model's choice: log entries 23 and 40. -/
def Obligations.StationControlBitsArrive : Prop := Said.ControlBits ∧ Said.StationControlArrive ∧ Said.ShareControl

/-- R10, R11, R12, R418, R315: writes of registers by kind. DEV_SCRATCH and CLK_BAYb take a write; an RO register does not; a GRD register of a
locked page discards it and counts; PG_UNLOCK with its key unlocks the page and with another value locks it; a reserved offset takes
nothing; a write of 8 bytes is two of 4, the lower first; the vector control word of an MSI-X entry masks and unmasks its vector; a
malformed BAR access gives CXL_ACCESS, and a read an Unsupported Request.
What the spec leaves open here is the model's choice: log entries 40 and 50. -/
def Obligations.RegisterWritesFollowTheirKind : Prop :=
  (∀ (s : State) (v : W32), Open s .pf .dev 0x11C → exec (.registerWrite .pf ⟨false, 0x11C⟩ { lo := v }) s = .next { relocked s .dev with scratch := v }) ∧
  (∀ (s : State) (b : BayId) (v : W32), Open s .pf .clk (0x200 + 4 * b.1) → v.toNat % 8 ≤ 4 →
    exec (.registerWrite .pf ⟨false, 0x2200 + 4 * b.1⟩ { lo := v }) s = .next (modBayPow (relocked s .clk) b (fun q =>
      { q with fix := v.getLsbD 31, fselW := v.extractLsb' 0 3, fsel := v.extractLsb' 0 3 }))) ∧
  (∀ (s : State) (fn : Fn) (a off : Nat) (pg : Page) (v : W32), s.pow.inReset = false → regAddr s fn a = some (pg, off) → off % 4 = 0 →
    reaches s fn pg = true → regKind pg off = some .ro → exec (.registerWrite fn ⟨false, a⟩ { lo := v }) s = .next (relocked s pg)) ∧
  (∀ (s : State) (fn : Fn) (a off : Nat) (pg : Page) (v : W32), s.pow.inReset = false → regAddr s fn a = some (pg, off) → off % 4 = 0 →
    reaches s fn pg = true → regKind pg off = some .grd → (lockOf s pg).unlocked = false →
    Runs (.registerWrite fn ⟨false, a⟩ { lo := v }) s (fun t => { t with locks := s.locks, rates := s.rates, dbkIn := s.dbkIn } = s ∧
      (rateOk s (.grd pg) 1000000 = false → (lockOf s pg).discards < 2 ^ 32 - 1 →
        (lockOf t pg).discards = (lockOf s pg).discards + 1 ∧ t.dbkIn = s.dbkIn) ∧
      (rateOk s (.grd pg) 1000000 = true → (lockOf t pg).discards = 0 ∧ ∃ e, t.dbkIn = s.dbkIn ++ [e] ∧ e.2.code = 0x2001 ∧
        e.2.d0 = word32 off ∧ e.2.d1 = v))) ∧
  (∀ (s : State) (fn : Fn) (a off : Nat) (pg : Page) (v : W32), regAddr s fn a = some (pg, off) → regKind pg off = none →
    exec (.registerWrite fn ⟨false, a⟩ { lo := v }) s = .next s) ∧
  (∀ (s t : State) (fn : Fn) (bar4 : Bool) (a : Nat) (lo hi : W32), a % 8 = 0 → exec (.registerWrite fn ⟨bar4, a⟩ { lo := lo }) s = .next t →
    exec (.registerWrite fn ⟨bar4, a⟩ { lo := lo, hi := some hi }) s = exec (.registerWrite fn ⟨bar4, a + 4⟩ { lo := hi }) t) ∧
  (∀ (s : State) (n : TenantId) (k : Nat) (v : W32), s.pow.inReset = false → partExists s (tenantPart n) = true → k < 120 →
    let e := msixOf s (tenantPart n) k
    Runs (.registerWrite (.vf n) ⟨true, 16 * k + 12⟩ { lo := v }) s (fun t => (msixOf t (tenantPart n) k).mask = v.getLsbD 0 ∧
      (msixOf t (tenantPart n) k).addr = e.addr ∧ (msixOf t (tenantPart n) k).data = e.data ∧
      (msixOf t (tenantPart n) k).pending = (e.pending && v.getLsbD 0) ∧
      t.out = (if e.pending ∧ v.getLsbD 0 = false then s.out ++ [.msix (tenantPart n) k e.addr e.data] else s.out))) ∧
  (∀ (s : State) (fn : Fn) (pg : Page) (v : W32), s.pow.inReset = false → reaches s fn pg = true →
    Runs (.pgUnlock fn pg v) s (fun t => (lockOf t pg).unlocked = decide (v = 0x0000A55A) ∧ { t with locks := s.locks } = s)) ∧
  (∀ (s : State) (fn : Fn) (bar2 isRead : Bool) (a n : Nat), s.pow.inReset = false → ((n ≠ 4 ∧ n ≠ 8) ∨ a % n ≠ 0) →
    Runs (.barAccessMalformed fn bar2 isRead a n) s (fun t =>
      t.dbkIn = (logN s mgmt .cxl 0xB010 (fnNo fn) (if bar2 then 2 else 0)).dbkIn ∧
      t.out = (if isRead then s.out ++ [.unsupported] else s.out) ∧
      t.link.urSent = (if isRead then s.link.urSent + 1 else s.link.urSent)))

/-- R429 to R432, R437: an entry carries the time, the page's identity, the code and its severity, and goes to the daybook of its
partition, or to management's when that partition does not exist. -/
def Obligations.EventsCarryTimeSourceAndPartition : Prop :=
  ∀ (s : State) (p : PartId) (src : Page) (code d0 d1 d2 d3 : Nat),
    let q := if p = mgmt ∨ partExists s p = true then p else mgmt
    let t := logEv s p src code d0 d1 d2 d3
    { t with dbkIn := s.dbkIn } = s ∧ ∃ e : Entry, t.dbkIn = s.dbkIn ++ [(q, e)] ∧ e.time = s.alm.t ∧ e.source = pgId src ∧ e.code = code ∧
      e.part = q.1 ∧ e.sev = severityOf code d0 ∧ e.d0 = word32 d0 ∧ e.d1 = word32 d1 ∧ e.d2 = word32 d2 ∧ e.d3 = word32 d3

/-- R427, R433, R434: an entry written joins its queue with the next sequence number; a full queue loses its oldest entry and counts it;
one not accepted in time is lost and takes its number. DBK_TAKE drops every entry at or before the number written. DBK_E0 shows the
oldest entry. -/
def Obligations.DaybookQueuesKeepTheNewestEntries : Prop :=
  (∀ (s : State) (p : PartId) (e : Entry) (rest : List (PartId × Entry)), s.dbkIn = (p, e) :: rest →
    Runs (.daybookEntryWrite true) s (fun t => t.dbkIn = rest ∧ (t.dbk[p]).next = (s.dbk[p]).next + 1 ∧
      ((s.dbk[p]).entries.length < 1024 → (t.dbk[p]).entries = (s.dbk[p]).entries ++ [((s.dbk[p]).next, e)] ∧ (t.dbk[p]).lost = (s.dbk[p]).lost) ∧
      ((s.dbk[p]).entries.length = 1024 → (t.dbk[p]).entries = (s.dbk[p]).entries.tail ++ [((s.dbk[p]).next, e)] ∧
        (t.dbk[p]).lost = (s.dbk[p]).lost + 1)) ∧
    Runs (.daybookEntryWrite false) s (fun t => t.dbkIn = rest ∧ (t.dbk[p]).next = (s.dbk[p]).next + 1 ∧
      (t.dbk[p]).entries = (s.dbk[p]).entries ∧ (t.dbk[p]).lost = (s.dbk[p]).lost + 1)) ∧
  (∀ (s : State) (fn : Fn) (q : W32), fn = .pf ∨ (∃ n, fn = .vf n) → Open s fn (.dbk (ownPart fn)) 0x10C →
    Runs (.dbkTake fn q) s (fun t => (t.dbk[ownPart fn]).take = q ∧
      ∀ e, e ∈ (t.dbk[ownPart fn]).entries ↔ e ∈ (s.dbk[ownPart fn]).entries ∧ (q - e.1).msb = true)) ∧
  (∀ (s : State) (fn : Fn), fn = .pf ∨ (∃ n, fn = .vf n) → partExists s (ownPart fn) = true →
    Runs (.dbkE0Read fn) s (fun t => (t.dbk[ownPart fn]).snap = (s.dbk[ownPart fn]).entries.head? ∧
      (t.dbk[ownPart fn]).entries = (s.dbk[ownPart fn]).entries ∧
      ((s.dbk[ownPart fn]).entries = [] → t.out = s.out ++ [.readData (List.replicate 4 0) false])))

/-- R263, R264, R265, R269, R299, Table 10.1: the almanac's registers, its edges and its missed windows.
What the spec leaves open here is the model's choice: log entry 32. -/
def Obligations.AlmanacFollowsItsEdges : Prop :=
  (∀ (s : State) (fn : Fn) (m : BitVec 2), Open s fn .alm 0x108 →
    (m = 0 → exec (.almMode fn m) s = .next { relocked s .alm with alm := { s.alm with mode := 0, state := .free, trim := 0 } }) ∧
    (m = 1 → s.alm.mode ≠ 1 → exec (.almMode fn m) s = .next { relocked s .alm with
      alm := { s.alm with mode := 1, state := .acquire, integ := 0, good := 0, missed := 0, outliers := 0 } })) ∧
  (∀ (s : State) (fn : Fn) (on : Bool), Open s fn .alm 0x108 → s.alm.mode = 1 →
    exec (.almSet fn on) s = .next { relocked s .alm with alm := { s.alm with set := on } }) ∧
  (∀ s : State, exec .almTimeRead s = .next { s with alm := { s.alm with timeLatch := s.alm.t }, out := s.out ++ [.readData (leBytes 8 s.alm.t.toNat) false] }) ∧
  (∀ s : State, exec .almCapRead s = .next { s with alm := { s.alm with capLatch := s.alm.cap }, out := s.out ++ [.readData (leBytes 8 s.alm.cap.toNat) false] }) ∧
  (∀ (s : State), s.pow.inReset = false → s.alm.state = .locked → s.alm.set = false →
    let e := phaseError s.alm.ppsOff (s.alm.t - 8)
    (e.natAbs ≤ 1000 → Runs .ppsEdge s (fun t => t.alm.cap = s.alm.t - 8 ∧ t.alm.phase = e ∧ t.alm.state = .locked ∧ t.alm.t = s.alm.t ∧
      t.alm.integ = max (-12800000) (min 12800000 (s.alm.integ + e)) ∧
      t.alm.trim = max (-51200000) (min 51200000 (-64 * e - 4 * t.alm.integ)) ∧ t.alm.pulses = s.alm.pulses + 1 ∧ t.alm.missed = 0)) ∧
    (1000 < e.natAbs → s.alm.outliers < 3 → Runs .ppsEdge s (fun t => t.alm.state = .locked ∧ t.alm.outliers = s.alm.outliers + 1 ∧
      t.alm.trim = s.alm.trim ∧ t.dbkIn = s.dbkIn)) ∧
    (1000 < e.natAbs → 3 = s.alm.outliers → Runs .ppsEdge s (fun t => t.alm.state = .acquire ∧ ∃ x, t.dbkIn = s.dbkIn ++ [x] ∧ x.2.code = 0xA011))) ∧
  (∀ s : State, s.pow.inReset = false → s.alm.state = .locked → windowPassed s.alm = true →
    (s.alm.missed < 2 → Runs .ppsWindowMissed s (fun t => t.alm.missed = s.alm.missed + 1 ∧ t.alm.state = .locked)) ∧
    (s.alm.missed = 2 → Runs .ppsWindowMissed s (fun t => t.alm.state = .holdover ∧ t.alm.holdSince = s.alm.t ∧ t.alm.trim = s.alm.trim)))

/-- R203 to R209: the entropy source. SRC_EN, RESTART, the start-up test, conditioned blocks, RNG_DATA and the resumption of a stalled
instance.
What the spec leaves open here is the model's choice: log entry 28. -/
def Obligations.EntropySourceTestsAndDelivers : Prop :=
  (∀ (s : State) (fn : Fn), Open s fn .rng 0x100 →
    (s.rng.srcEn = false → Runs (.srcEn fn true) s (fun t => t.rng.srcEn = true ∧ t.rng.startup = true)) ∧
    Runs (.srcEn fn false) s (fun t => t.rng.srcEn = false ∧ t.rng.valid = false) ∧
    (s.rng.restart = false → Runs (.restart fn true) s (fun t => t.rng.restart = true ∧ t.rng.latched = false ∧ t.rng.rctFail = false ∧
      t.rng.aptFail = false ∧ t.rng.valid = false ∧ t.rng.startup = s.rng.srcEn)) ∧
    Runs (.restart fn false) s (fun t => t.rng.restart = false ∧ t.rng.latched = s.rng.latched)) ∧
  (∀ (s : State) (raw : List Bool), s.rng.srcEn = true → s.rng.startup = true → raw.length = 1024 →
    let bad := (rctRun raw s.rng.runBit s.rng.runLen false).2.2 || aptBad raw
    Runs (.startupTestComplete raw) s (fun t => t.rng.startup = false ∧ (bad = false → t.rng.valid = !s.rng.latched) ∧
      (bad = true → t.rng.latched = true ∧ t.rng.valid = false ∧ t.rng.fifo = [] ∧ t.rng.fails = s.rng.fails + 1 ∧
        ∃ e, t.dbkIn = s.dbkIn ++ [e] ∧ e.2.code = 0x8010 ∧ e.2.sev = 5))) ∧
  (∀ (s : State) (raw : List Bool), s.pow.inReset = false → s.rng.srcEn = true → s.rng.startup = false → s.rng.latched = false →
    s.rng.valid = true → raw.length = 1024 → (rctRun raw s.rng.runBit s.rng.runLen false).2.2 = false → aptBad raw = false →
    nextInstance s = none → s.rng.fifo.length ≤ 32 →
    Runs (.conditionedBlock raw) s (fun t => t.rng.fifo = s.rng.fifo ++ sha3_256 (rawBytes raw) ∧ t.rng.blocks = s.rng.blocks + 1)) ∧
  (∀ s : State, (s.rng.fifo = [] ∨ s.rng.startup = true ∨ s.rng.latched = true → Runs .rngDataRead s (fun t =>
      t.out = s.out ++ [.readData (List.replicate 4 0) false] ∧ t.rng.empty = true ∧ t.rng.emptyCnt = s.rng.emptyCnt + 1 ∧ t.rng.fifo = s.rng.fifo)) ∧
    (4 ≤ s.rng.fifo.length → s.rng.startup = false → s.rng.latched = false → Runs .rngDataRead s (fun t =>
      t.out = s.out ++ [.readData (s.rng.fifo.take 4) false] ∧ t.rng.fifo = s.rng.fifo.drop 4 ∧ t.rng.empty = false))) ∧
  (∀ (s : State) (p : PartId) (a : List Byte) (rest : List (List Byte)), s.rng.valid = true → s.rng.pool = a :: rest → nextInstance s = some p →
    (getDrbg s p).stalled = true → (getDrbg s p).waiting = [] →
    Runs (.drbgResume p) s (fun t => (getDrbg t p).stalled = false ∧ (getDrbg t p).reqs = 0 ∧ t.rng.pool = rest ∧
      ∃ e, t.dbkIn = s.dbkIn ++ [e] ∧ e.2.code = 0x8012))

/-- R304, R306, Table 11.1: the states of a Zaled port. Training done within 20 ms leads to HELLO; in RETRAIN the HELLO that names the peer
goes out under the next SEQ and is held for replay, and training that took more than 5 ms is noted. -/
def Sys2Proof.Said.ZaledLinkStates : Prop :=
  (∀ (s : State) (fn : Fn) (p : PortId), Open s fn .zld (0x100 + p.1 * 0x20) →
    (s.zld[p].en = false → exec (.zldEn fn p true) s = .next (modZ (relocked s .zld) p (fun z => { z with en := true, refused := false, entered := s.alm.t }))) ∧
    (s.zld[p].en = true → Runs (.zldEn fn p false) s (fun t => (t.zld[p]).state = .down ∧ (t.zld[p]).en = false ∧ (t.zld[p]).replayBuf = [])) ∧
    (s.zld[p].retrain = false → s.zld[p].state = .up → Runs (.retrain fn p true) s (fun t => (t.zld[p]).state = .retrain ∧
      (t.zld[p]).retrain = true ∧ (t.zld[p]).txSeq = (s.zld[p]).txSeq ∧ (t.zld[p]).rxNext = (s.zld[p]).rxNext ∧ (t.zld[p]).freed = (s.zld[p]).freed)) ∧
    exec (.retrain fn p false) s = .next (modZ (relocked s .zld) p (fun z => { z with retrain := false }))) ∧
  (∀ (s : State) (p : PortId), mayTrain s p = true →
    Runs (.zldSignalPresent p) s (fun t => (t.zld[p]).state = .training ∧ (t.zld[p]).entered = s.alm.t) ∧
    (elapsed s (s.zld[p]).entered 100000000 = true → Runs (.zldTrainRetry p) s (fun t => (t.zld[p]).state = .training))) ∧
  (∀ (s : State) (p : PortId),
    ((s.zld[p]).state = .training → elapsed s (s.zld[p]).entered 20000001 = false → Runs (.zldTrainingDone p) s (fun t => (t.zld[p]).state = .hello)) ∧
    ((s.zld[p]).state = .retrain → (s.zld[p]).fromRetrain = false → Runs (.zldTrainingDone p) s (fun t => (t.zld[p]).state = .retrain ∧
      (t.zld[p]).fromRetrain = true ∧ (t.zld[p]).late = elapsed s (s.zld[p]).entered 5000001 ∧
      (t.zld[p]).txSeq = ((s.zld[p]).txSeq + 1) % 4096 ∧ (t.zld[p]).replayBuf.map (·.1) = (s.zld[p]).replayBuf.map (·.1) ++ [(s.zld[p]).txSeq])) ∧
    ((s.zld[p]).state = .training → elapsed s (s.zld[p]).entered 20000000 = true →
      Runs (.zldTrainingTimeout p) s (fun t => (t.zld[p]).state = .down ∧ ∃ e l, t.dbkIn = s.dbkIn ++ e :: l ∧ e.2.code = 0xB001)) ∧
    ((s.zld[p]).state = .up → Runs (.alignmentLost p) s (fun t => (t.zld[p]).state = .retrain)) ∧
    ((s.zld[p]).state = .hello → elapsed s (s.zld[p]).entered 1000000 = true → Runs (.helloTimeout p) s (fun t => (t.zld[p]).state = .training)) ∧
    ((s.zld[p]).state = .retrain → (s.zld[p]).fromRetrain = false → elapsed s (s.zld[p]).entered 20000000 = true →
      Runs (.retrainTimeout p) s (fun t => (t.zld[p]).state = .down)))

/-- R312, R349: HELLO, IDENT, NONCE and PROOF. HELLO starts the authentication, or brings a verified peer back up after a retrain; a PROOF that
verifies under the certificate's key brings the link UP, and another one takes it DOWN with ZLD_PEER until EN changes. -/
def Sys2Proof.Said.ZaledAuthentication : Prop :=
  (∀ (s : State) (p : PortId) (body : List Byte) (rest : State), sbTake s p 1 = some (body, rest) → helloOk body = true →
    ((s.zld[p]).state = .hello → Runs (.hello p) s (fun t => (t.zld[p]).state = .auth ∧ (t.zld[p]).peerId = body.take 64)) ∧
    ((s.zld[p]).state = .retrain → (s.zld[p]).fromRetrain = true → (s.zld[p]).verified = body.take 64 → (s.zld[p]).peerPort = (body.getD 64 0).toNat →
      (s.zld[p]).late = false → Runs (.hello p) s (fun t => (t.zld[p]).state = .up)) ∧
    ((s.zld[p]).state = .retrain → (s.zld[p]).fromRetrain = true → (s.zld[p]).verified ≠ body.take 64 ∨ (s.zld[p]).late = true →
      Runs (.hello p) s (fun t => (t.zld[p]).state = .auth ∧ (t.zld[p]).peerId = body.take 64))) ∧
  (∀ (s : State) (p : PortId) (c : List Byte) (rest : State), authActs s p = true → sbTake s p 2 = some (c, rest) →
    Runs (.ident p) s (fun t => (t.zld[p]).certPk = some (bslice c 0x58 1793) ∧ (t.zld[p]).certOk = certGood s c (s.zld[p]).peerId)) ∧
  (∀ (s : State) (p : PortId) (n : List Byte) (rest : State), authActs s p = true → (s.zld[p]).peerNonce = none → sbTake s p 3 = some (n, rest) →
    Runs (.nonce p) s (fun t => (t.zld[p]).peerNonce = some n)) ∧
  (∀ (s : State) (p : PortId) (pk own peer body : List Byte) (rest : State), authActs s p = true → (s.zld[p]).certPk = some pk →
    (s.zld[p]).ownNonce = some own → (s.zld[p]).peerNonce = some peer → sbTake s p 4 = some (body, rest) →
    Runs (.proof p) s (fun t =>
      if peerGood (s.zld[p]) pk own peer body then (t.zld[p]).state = .up ∧ (t.zld[p]).verified = (s.zld[p]).peerId
      else (t.zld[p]).state = .down ∧ (t.zld[p]).refused = true ∧ ∃ e l, t.dbkIn = s.dbkIn ++ e :: l ∧ e.2.code = 0xB002))

/-- R305, R306, R307, R310: a flit whose CRC fails is counted and asks for a replay; of good flits without news of ACK, CREDIT or RPLY an
IDLE flit changes neither SEQ nor buffers, a DATA flit with another SEQ than the expected one is dropped, and one with the expected SEQ that
holds a whole frame is kept and counted; the replay timer sends every unacknowledged flit again that the state lets pass; a frame that fails
its checks is discarded and its flits leave the buffer. -/
def Sys2Proof.Said.ZaledFlits : Prop :=
  (∀ (s : State) (p : PortId) (f : List Byte), sbStates (s.zld[p]) = true → f.length = 512 → flitCrcOk (flitCorrect f).1 = true →
    let z := s.zld[p]
    let g := (flitCorrect f).1
    let h := parseFlit g
    h.resv = 0 → h.len ≤ 464 → h.ackv = false → h.rply = false → h.credit = z.peerFreed % 4096 → z.peerFreed ≤ z.dataSent →
    let kept := fun t : State => (t.zld[p]).state = z.state ∧ (t.zld[p]).crcFails = z.crcFails ∧ (t.zld[p]).freed = z.freed ∧
      (t.zld[p]).peerFreed = z.peerFreed ∧ (t.zld[p]).disc = z.disc ∧ t.dbkIn = s.dbkIn
    let dropped := fun t : State => kept t ∧ (t.zld[p]).rxNext = z.rxNext ∧ (t.zld[p]).rxHeld = z.rxHeld ∧ (t.zld[p]).frames = z.frames
    (h.type = 0 → Runs (.flitReceive p f) s dropped) ∧
    (h.type = 1 → h.seq ≠ z.rxNext → Runs (.flitReceive p f) s dropped) ∧
    (h.type = 1 → h.seq = z.rxNext → z.state = .up → z.rxHeld < 512 → z.inFrame = false → h.sof = true → h.eof = true →
      Runs (.flitReceive p f) s (fun t => kept t ∧ (t.zld[p]).rxNext = (z.rxNext + 1) % 4096 ∧ (t.zld[p]).rxHeld = z.rxHeld + 1 ∧
        (t.zld[p]).frames = z.frames ++ [[(bslice g 8 h.len, h.tag)]]))) ∧
  (∀ (s : State) (p : PortId) (f : List Byte), sbStates (s.zld[p]) = true ∨ helloDue (s.zld[p]) = true → f.length = 512 →
    flitCrcOk (flitCorrect f).1 = false →
    Runs (.flitReceive p f) s (fun t => (t.zld[p]).crcFails = (s.zld[p]).crcFails + 1 ∧ (t.zld[p]).rxNext = (s.zld[p]).rxNext ∧
      t.out.length = s.out.length + 1)) ∧
  (∀ (s : State) (p : PortId), sbStates (s.zld[p]) = true → (s.zld[p]).replayBuf ≠ [] → elapsed s (s.zld[p]).since 4000 = true →
    (s.zld[p]).replays < 7 →
    Runs (.replayTimeout p) s (fun t => (t.zld[p]).replays = (s.zld[p]).replays + 1 ∧ (t.zld[p]).replayCount = (s.zld[p]).replayCount + 1 ∧
      (t.zld[p]).replayBuf = (s.zld[p]).replayBuf ∧ t.out.length = s.out.length +
        ((s.zld[p]).replayBuf.filter (fun e => (s.zld[p]).state == .up || e.2.getD 0 0 != 1)).length)) ∧
  (∀ (s : State) (p : PortId) (fr : List (List Byte × Bool)) (rest : List (List (List Byte × Bool))), (s.zld[p]).frames = fr :: rest →
    Runs (.zaledFrame p) s (fun t => (t.zld[p]).frames = rest ∧ (t.zld[p]).freed = (s.zld[p]).freed + fr.length ∧
      ((frameCheck s p fr).2 = none → (t.zld[p]).disc = (s.zld[p]).disc + 1 ∧ t.red.inq = s.red.inq) ∧
      (∀ q b, (frameCheck s p fr).2 = some (q, b) → (t.zld[p]).disc = (s.zld[p]).disc ∧
        ∃ x, t.red.inq = s.red.inq ++ [x] ∧ x.part = q ∧ x.port = p)))

/-- R304 to R306, R310, R312, R349: the states of a Zaled port, the authentication of its peer, and its flits.
What the spec leaves open here is the model's choice: log entry 36. -/
def Obligations.ZaledPortsTrainAuthenticateAndReplay : Prop := Said.ZaledLinkStates ∧ Said.ZaledAuthentication ∧ Said.ZaledFlits

namespace Sys2Proof.Said

/-- A completion of command `h` with a status waits to be posted, unless an FLR took its queue away; the command is in flight no more. -/
def completes (s t : State) (h : CmdHdr) (status : Nat) (result : List Byte) : Prop :=
  t.qm.inFlight = s.qm.inFlight.erase h ∧
    (h ∉ s.qm.dead → t.qm.held = s.qm.held ++ [{ h := h, status := status, result := result }]) ∧
    (h ∈ s.qm.dead → t.qm.held = s.qm.held)

/-- `t` has one entry more than `s` waiting for a daybook, with this code. -/
def oneEntry (s t : State) (code : Nat) : Prop := ∃ e, t.dbkIn = s.dbkIn ++ [e] ∧ e.2.code = code

/-- `t` has entries that `s` has not, and the first of them has this code. -/
def firstEntry (s t : State) (code : Nat) : Prop := ∃ e l, t.dbkIn = s.dbkIn ++ e :: l ∧ e.2.code = code

end Sys2Proof.Said

/-- R321, R322, R327: the admin queues that QM_ADM_CFG makes, Q_CREATE, Q_DELETE, and doorbells at their offsets of BAR2. -/
def Sys2Proof.Said.QueueCommands : Prop :=
  (∀ (s : State) (v : W32), Open s .pf (.qm mgmt) 0x118 → (s.qm.adm[mgmt]).cfg.msb = false → v.msb = true →
    let b := s.qm.base[mgmt]
    2 ≤ s.qm.count[mgmt] → v.toNat % 16 ≤ 12 → v.toNat / 256 % 16 ≤ 12 → getQueue s b = none → getQueue s (b + 1) = none →
    Runs (.qmAdmCfgEn .pf v) s (fun t =>
      (∃ x, getQueue t b = some x ∧ x.isSq = true ∧ x.k = v.toNat % 16 + 4 ∧ x.cq = b + 1 ∧ x.ring = (s.qm.adm[mgmt]).sqAddr ∧ x.state = .active) ∧
      (∃ x, getQueue t (b + 1) = some x ∧ x.isSq = false ∧ x.k = v.toNat / 256 % 16 + 4 ∧ x.ring = (s.qm.adm[mgmt]).cqAddr))) ∧
  (∀ (s : State) (h : CmdHdr) (a : List Byte), queueArgsOk h.part a = true → queueIn s h.part (u16 a 0) = true →
    s.qm.base[h.part] + 2 ≤ u16 a 0 → getQueue s (u16 a 0) = none → u8 a 2 = 2 →
    Runs (.qCreate h a) s (fun t => getQueue t (u16 a 0) = some (parseQueue h.part a) ∧ completes s t h 0 [])) ∧
  (∀ (s : State) (h : CmdHdr) (q : Nat) (x : Queue), queueIn s h.part q = true → s.qm.base[h.part] + 2 ≤ q → getQueue s q = some x →
    x.isSq = false → x.state = .active → (∀ y ∈ s.qm.queues, y.2.isSq = true → y.2.cq ≠ q) →
    Runs (.qDelete h q) s (fun t => getQueue t q = none ∧ completes s t h 0 [])) ∧
  (∀ (s : State) (n : TenantId) (k : Nat) (x : Queue) (v : W32), partExists s (tenantPart n) = true → k < 8192 →
    let q := s.qm.base[tenantPart n] + k
    getQueue s q = some x → queueIn s (tenantPart n) q = true → x.state = .active →
    (x.isSq = true → v.toNat < ringSize x → ringGap x x.head x.tail + ringGap x x.tail v.toNat < ringSize x → v.toNat < 65536 →
      exec (.doorbell (.vf n) (8 * k) v) s = .next (putQueue s q { x with tail := v.toNat })) ∧
    (ringSize x ≤ v.toNat % 65536 →
      Runs (.doorbell (.vf n) (8 * k) v) s (fun t => getQueue t q = some { x with state := .error } ∧ oneEntry s t 0xB025))) ∧
  (∀ (s : State) (q : Nat) (x : Queue) (v : W32), partExists s mgmt = true → q < 8192 → getQueue s q = some x → queueIn s mgmt q = true →
    x.state = .active → x.isSq = true → v.toNat < ringSize x → ringGap x x.head x.tail + ringGap x x.tail v.toNat < ringSize x →
    v.toNat < 65536 → exec (.doorbell .pf (8 * q) v) s = .next (putQueue s q { x with tail := v.toNat }))

/-- R316, R320, R324, R325: SQ_DISPATCH takes the entry at the head of an SQ whose turn it is and dispatches its command; a failed read of the
ring sends the queue to ERROR, and one for a command completes it with QM_HOST_ERR; COMPLETION_POST writes the 128-byte entry at the tail of
the CQ, the 16 bytes with PHASE last; IRQ_TIMER raises its vector, or leaves it pending while it is masked. -/
def Sys2Proof.Said.QueueFlow : Prop :=
  (∀ (s : State) (q : Nat) (x : Queue) (b : List Byte) (args buf : HostRead) (i : Instr), getQueue s q = some x → mayFetch s x = true →
    x.state = .active → (parseEntry b).fence = false →
    let h : CmdHdr := { part := x.part, sq := q, tag := (parseEntry b).tag, sqHead := (x.head + 1) % ringSize x }
    entryVerdict s h (parseEntry b) args buf = (0, some i) → sqTurn s x.part q x.weight = true →
    Runs (.sqDispatch q (.ok b) args buf) s (fun t => getQueue t q = some { x with head := (x.head + 1) % ringSize x, fenced := false } ∧
      t.qm.inFlight = s.qm.inFlight ++ [h] ∧ t.qm.dispatched = s.qm.dispatched ++ [i])) ∧
  (∀ (s : State) (q : Nat) (x : Queue) (args buf : HostRead), getQueue s q = some x → mayFetch s x = true → x.state = .active →
    sqTurn s x.part q x.weight = true → Runs (.sqDispatch q .failed args buf) s (fun t => getQueue t q = some { x with state := .error } ∧ t.link.rdFail = s.link.rdFail + 1 ∧
      oneEntry s t 0xB024)) ∧
  (∀ (s : State) (q : Nat) (x : Queue), getQueue s q = some x → x.isSq = true → x.state = .active →
    Runs (.hostReadFail (.ring q)) s (fun t => getQueue t q = some { x with state := .error } ∧ t.link.rdFail = s.link.rdFail + 1 ∧
      oneEntry s t 0xB024)) ∧
  (∀ (s : State) (h : CmdHdr) (i : Instr), s.qm.dispatched.find? (fun j => hdrOf j == some h) = some i →
    Runs (.hostReadFail (.command h)) s (fun t => completes s t h 0xB024 [] ∧ t.qm.dispatched = s.qm.dispatched.erase i ∧
      t.link.rdFail = s.link.rdFail + 1)) ∧
  (∀ (s : State) (cq : Nat) (x : Queue) (c : Completion), getQueue s cq = some x → heldFor s cq = some c → qmPaused s = false →
    x.state = .active → x.isSq = false → cqFull x = false → getQueue s c.h.sq ≠ none → (∀ y, getQueue s c.h.sq = some y → y.state = .active) →
    Runs (.completionPost cq true) s (fun t => t.qm.held = s.qm.held.erase c ∧
      (let write := fun a b => if x.part = mgmt ∧ s.link.cachemem = true then Output.cacheWrite a b else Output.hostWrite x.part a b
       let at_ := x.ring + word64 (128 * x.tail)
       ∃ l, t.out = s.out ++ write (at_ + 16) ((cqEntry c x.phase).drop 16) :: write at_ ((cqEntry c x.phase).take 16) :: l) ∧
      ∃ y, getQueue t cq = some y ∧ y.tail = (x.tail + 1) % ringSize x)) ∧
  (∀ (s : State) (cq : Nat) (x : Queue) (since : W64), getQueue s cq = some x → x.firstUnreported = some since → x.irqCount ≠ 0 →
    elapsed s since (1000 * x.irqTime) = true → x.vector < vectorsOf x.part → x.part ∉ s.link.msixOff →
    let e := msixOf s x.part x.vector
    Runs (.irqTimer cq) s (fun t => getQueue t cq = some { x with unreported := 0, firstUnreported := none } ∧
      (e.mask = false → t.out = s.out ++ [.msix x.part x.vector e.addr e.data]) ∧
      (e.mask = true → t.out = s.out ∧ (msixOf t x.part x.vector).pending = true)))

/-- R320 to R327: queues, entries, completions and interrupts.
What the spec leaves open here is the model's choice: log entries 7, 37 and 50. -/
def Obligations.QueueCommandsRunAndComplete : Prop := Said.QueueCommands ∧ Said.QueueFlow

/-- R314, R318, R320, R385, R386: PERST#, the link, malformed TLPs and function resets; a function reset ends a Q_DELETE that waits, and all
other dispatched commands run on. -/
def Sys2Proof.Said.HostLinkEvents : Prop :=
  (∀ s : State, s.link.perst = false → Runs .perstAssert s (fun t => t.link.perst = true ∧ t.link.up = false ∧ t.link.cachemem = false ∧
    t.link.memQ = [] ∧ t.link.vfEnable = false ∧ t.qm.stopped = true)) ∧
  (∀ (s : State) (w r : Nat), s.pow.refs.getLsbD 2 = true → s.pow.inReset = false → s.link.up = false → 1 ≤ w → w ≤ 8 → 1 ≤ r → r ≤ 6 →
    let up := fun (l : Link) => { l with perst := false, up := true, width := w, rate := r, cachemem := decide (5 ≤ r) }
    (s.link.perst = true → exec (.perstDeassert w r) s = .next { s with link := up s.link, qm := { s.qm with stopped := false } }) ∧
    (s.link.perst = false → exec (.cxlLinkUp w r) s = .next { s with link := up s.link, qm := { s.qm with stopped := false } })) ∧
  (∀ s : State, s.link.up = true → Runs .cxlLinkDown s (fun t => t.link.up = false ∧ t.link.width = 0 ∧ t.link.perst = s.link.perst ∧ t.qm.stopped = true)) ∧
  (∀ (s : State) (req : W16), Runs (.tlpMalformed req) s (fun t => t.link = { s.link with badTlp := s.link.badTlp + 1 } ∧
    t.out = s.out ++ [.aer req] ∧ oneEntry s t 0xB011)) ∧
  (∀ (s : State) (n : TenantId), Runs (.vfFlr n) s (fun t =>
    t.qm.queues = s.qm.queues.filter (fun q => q.2.part != tenantPart n) ∧
    t.qm.dispatched = s.qm.dispatched ∧ tenantPart n ∈ t.link.msixOff ∧ t.rot = s.rot ∧ t.bays = s.bays ∧ oneEntry s t 0xB012 ∧
    (∀ k < 128, msixOf t (tenantPart n) k = {}) ∧
    (pendingDeletes s (tenantPart n) = [] → t.qm.inFlight = s.qm.inFlight ∧ t.qm.held = s.qm.held.filter (fun c => c.h.part != tenantPart n)) ∧
    ∀ h, pendingDeletes s (tenantPart n) = [h] → h.part = tenantPart n →
      t.qm.inFlight = s.qm.inFlight.erase h ∧ t.qm.held = s.qm.held.filter (fun c => c.h.part != tenantPart n))) ∧
  (∀ s : State, Runs .pfFlr s (fun t => t.link.vfEnable = false ∧ t.rot = s.rot ∧ t.bays = s.bays ∧
    (∀ q, q ∈ t.qm.queues ↔ q ∈ s.qm.queues ∧ q.2.part ≠ mgmt ∧ partExists s q.2.part = false)))

/-- R317: an HDM decoder commits a range that lies in one bay of the management partition in units of 256 MiB, and else sets its error; a
CXL.mem read gives the 64 bytes of its line, and a write of a whole line stores exactly them. -/
def Sys2Proof.Said.CxlMemory : Prop :=
  (∀ (s : State) (dec : Bool) (base size : Nat), Runs (.hdmDecoderCommit dec base size) s (fun t =>
    let d := if dec then t.link.hdm1 else t.link.hdm0
    d.base = base ∧ d.size = size ∧ d.error = !d.committed ∧
      (d.committed = true ↔ ∃ b : BayId, base / 2 ^ 37 = b.1 ∧ s.bays[b].owner = mgmt ∧ base % 2 ^ 28 = 0 ∧ size % 2 ^ 28 = 0 ∧ 0 < size ∧
        base % 2 ^ 37 + size ≤ 2 ^ 37) ∧
      (if dec then t.link.hdm0 = s.link.hdm0 else t.link.hdm1 = s.link.hdm1))) ∧
  (∀ (s : State) (dpa : Nat) (b : BayId), hdmBay s dpa = some b → s.bays[b].mem.selfRefresh = false → stackReady s.bays[b].mem = true →
    lineUe s.bays[b].mem (dpa % 2 ^ 37) = false → closedSpans s b = [] → Memory.wf s.bays[b].mem.dram →
    Runs (.cxlMemRead dpa clean) s (fun t => sameMemory s t ∧ ∃ l, t.out = s.out ++ [.readData l false] ∧ l.length = 64 ∧
      ∀ j < 64, l.getD j 0 = memGet s.bays[b].mem.dram (lineAddr (dpa % 2 ^ 37) + j))) ∧
  (∀ (s : State) (dpa : Nat) (b : BayId) (data : List Byte), hdmBay s dpa = some b → s.bays[b].mem.selfRefresh = false → dpa % 64 = 0 →
    data.length = 64 → s.bays[b].mem.poisoned.Nodup → lineFenced s.bays[b].mem (dpa % 2 ^ 37) = false → lineClosed s b (dpa % 2 ^ 37) = false →
    Runs (.cxlMemWrite dpa data clean) s (fun t =>
      lineUe t.bays[b].mem (dpa % 2 ^ 37) = false ∧
      ∀ x, memGet t.bays[b].mem.dram x = if dpa % 2 ^ 37 ≤ x ∧ x < dpa % 2 ^ 37 + 64 then data.getD (x - dpa % 2 ^ 37) 0
        else memGet s.bays[b].mem.dram x))

/-- R314, R317, R318, R385: the host link, function resets and CXL.mem.
What the spec leaves open here is the model's choice: log entry 37. -/
def Obligations.HostLinkEventsActOnFunctions : Prop := Said.HostLinkEvents ∧ Said.CxlMemory

/-- R362, R365, R366, R371: rails, the power cap and budget throttling. -/
def Sys2Proof.Said.PowerBudgets : Prop :=
  (∀ (s : State) (v : W32), Open s .pf .pwr 0x100 →
    (tenantPower s + 150 + 28 * freeBays s ≤ v.toNat % 2048 → 600 ≤ v.toNat % 2048 → v.toNat % 2048 ≤ 1400 →
      Runs (.pwrCapWrite .pf v) s (fun t => t.pow.cap = v.toNat % 2048)) ∧
    (tenantPower s + 150 + 28 * freeBays s ≤ v.toNat % 2048 → (v.toNat % 2048 < 600 ∨ 1400 < v.toNat % 2048) →
      Runs (.pwrCapWrite .pf v) s (fun t => t.pow.cap = s.pow.cap ∧ t.dbkIn = s.dbkIn)) ∧
    (v.toNat % 2048 < tenantPower s + 150 + 28 * freeBays s → Runs (.pwrCapWrite .pf v) s (fun t => t.pow.cap = s.pow.cap ∧ oneEntry s t 0xD005))) ∧
  (∀ (s : State) (rail : Fin 7) (mv : Nat), s.pow.inReset = false → rail.1 < 5 → mv * 20 < railNominal rail * 19 → rail ∉ s.pow.railWarn →
    Runs (.railWarn rail mv) s (fun t => t.pow.railWarn = s.pow.railWarn ++ [rail] ∧ oneEntry s t 0xD003)) ∧
  (∀ (s : State) (rail : Fin 7), Runs (.railInTolerance rail) s (fun t => (∀ r, r ∈ t.pow.railWarn ↔ r ∈ s.pow.railWarn ∧ r ≠ rail) ∧ t.dbkIn = s.dbkIn)) ∧
  (∀ (s : State) (b : BayId), s.pow.inReset = false → clocksFrozen s = false → effCode s b < 4 →
    Runs (.budgetThrottle b) s (fun t => effCode t b = effCode s b + 1 ∧ (t.bays[b]).pow.episode = true ∧
      ((s.bays[b]).pow.episode = false → oneEntry s t 0xD004) ∧ ((s.bays[b]).pow.episode = true → t.dbkIn = s.dbkIn))) ∧
  (∀ (s : State) (b : BayId), clocksFrozen s = false → (s.bays[b]).pow.budgetCode ≠ 0 →
    Runs (.budgetRecover b) s (fun t => (t.bays[b]).pow.budgetCode =
      (if (s.bays[b]).pow.budgetCode - 1 ≤ (s.bays[b]).pow.fsel.toNat then 0 else (s.bays[b]).pow.budgetCode - 1) ∧
      ((t.bays[b]).pow.budgetCode = 0 → (t.bays[b]).pow.episode = false)))

/-- R368, R369, R370, R372: the coolant, the governor, the trip and THERMTRIP_N. Temperatures are in 1/16 °C. -/
def Sys2Proof.Said.Thermal : Prop :=
  (∀ (s : State) (x : Nat) (long : Bool), s.pow.inReset = false → Runs (.coolantHigh ⟨x, long⟩) s (fun t => t.pow.inlet = x ∧
    t.pow.coolant = (decide (880 < x) && (long || s.pow.coolant)) ∧ (880 < x → long = true → s.pow.coolant = false → oneEntry s t 0xD008) ∧
    (x ≤ 880 ∨ long = false ∨ s.pow.coolant = true → t.dbkIn = s.dbkIn))) ∧
  (∀ (s : State) (tj : List Nat), s.pow.inReset = false → clocksFrozen s = false → tj.length = 17 →
    Runs (.governorEvaluate tj) s (fun t => t.pow.hubTj = tj.getD 16 0 ∧ ∀ b : BayId, (t.bays[b]).pow.tj = tj.getD b.1 0 ∧
      (16 * s.pow.tgt.toNat < tj.getD b.1 0 → (s.bays[b]).pow.govFallowOff = false → (t.bays[b]).pow.fallow = 0 ∧ (t.bays[b]).pow.govFallowOff = true ∧
        (t.bays[b]).pow.govCode = (s.bays[b]).pow.govCode) ∧
      (16 * s.pow.tgt.toNat < tj.getD b.1 0 → (s.bays[b]).pow.govFallowOff = true → (s.bays[b]).pow.fix = false → effCode s b < 4 →
        (t.bays[b]).pow.govCode = effCode s b + 1) ∧
      ((s.bays[b]).pow.fix = true → 16 * s.pow.tgt.toNat < tj.getD b.1 0 → (t.bays[b]).pow.govCode = (s.bays[b]).pow.govCode))) ∧
  (∀ (s : State) (unit tj : Nat), s.pow.inReset = false → s.pow.trip = false → 1680 ≤ tj → unit ≤ 16 →
    Runs (.thermalTrip unit tj) s (fun t => t.pow.trip = true ∧ t.pow.stage = 4 ∧ firstEntry s t 0xD007 ∧
      ∀ (r : StationRef), stBay r ≠ none → stageLets t r = false)) ∧
  (∀ (s : State) (since : W64), s.pow.trip = true → s.pow.tripCool = some since → elapsed s since 1000000000 = true →
    Runs .thermalTripEnd s (fun t => t.pow.trip = false ∧ t.pow.stage = s.pow.stage)) ∧
  (∀ (s : State) (unit tj : Nat), s.pow.inReset = false → 1760 ≤ tj → unit ≤ 16 →
    exec (.thermtripAssert unit tj) s = .next { s with pow := { s.pow with thermtrip := true } })

/-- R377 to R381, Table 13.4: the shed stages are entered in order as a rail stays low, at once from a deep dip, and undone one each
millisecond after the hold. -/
def Sys2Proof.Said.ShedStages : Prop :=
  (∀ (s : State) (b : BayId) (mv : Nat), s.pow.inReset = false → mv < 684 →
    (s.pow.stage = 0 → Runs (.shedStageEnter b mv) s (fun t => t.pow.stage = 1 ∧ t.pow.below = true ∧ firstEntry s t 0xD001 ∧
      ∀ c : BayId, (t.bays[c]).pow.fallow = 0)) ∧
    (mv < 662 → s.pow.stage < 3 → Runs (.shedEscalate b mv) s (fun t => t.pow.stage = 3 ∧ firstEntry s t 0xD001)) ∧
    (662 ≤ mv → s.pow.below = true → 1 ≤ s.pow.stage → s.pow.stage < 4 → elapsed s s.pow.shedTimer (shedTime s.pow.stage) = true →
      Runs (.shedEscalate b mv) s (fun t => t.pow.stage = s.pow.stage + 1 ∧ t.pow.shedTimer = s.alm.t ∧ firstEntry s t 0xD001)) ∧
    (s.pow.stage ≠ 0 → Runs (.bayRailBelowWarning b mv) s (fun t => t.pow.below = true ∧ t.pow.undoing = false ∧ t.pow.holdSince = none ∧
      t.pow.stage = s.pow.stage ∧ (s.pow.below = false → t.pow.shedTimer = s.alm.t)))) ∧
  (∀ s : State, s.pow.stage ≠ 0 → s.pow.holdSince = none → exec .bayRailAboveRecovery s =
    .next { s with pow := { s.pow with below := false, holdSince := some s.alm.t } }) ∧
  (∀ (s : State) (since : W64), s.pow.holdSince = some since → s.pow.stage ≠ 0 → s.pow.below = false → s.pow.trip = false →
    s.pow.undoing = false → elapsed s since 10000000 = true →
    Runs .shedRecoverHold s (fun t => t.pow.undoing = true ∧ t.pow.stage = s.pow.stage)) ∧
  (∀ s : State, s.pow.undoing = true → s.pow.below = false → s.pow.trip = false → s.pow.stage ≠ 0 → elapsed s s.pow.lastUndo 1000000 = true →
    Runs .shedStageUndo s (fun t => t.pow.stage = s.pow.stage - 1 ∧ t.pow.lastUndo = s.alm.t ∧ firstEntry s t 0xD002 ∧
      (s.pow.stage = 4 → ∀ b : BayId, (t.bays[b]).mem.selfRefresh = false)))

/-- R368 to R372, R377 to R381: temperatures, trips and shed stages.
What the spec leaves open here is the model's choice: log entry 42. -/
def Obligations.TemperaturesAndDipsShedLoad : Prop := Said.Thermal ∧ Said.ShedStages

/-- R373, R375, R384: the leveller never moves a fallow load past its slew, and stage, trip or a class mask of 0 ask for none; reference clocks
lost and restored are noted, and without the 100 MHz one the link is down. -/
def Sys2Proof.Said.LevellerAndReferences : Prop :=
  (∀ (s : State) (work : List Nat), s.pow.inReset = false → clocksFrozen s = false → (∀ since, s.pow.adjusted = some since → elapsed s since 1000000 = true) →
    Runs (.levellerAdjust work) s (fun t => t.pow.adjusted = some s.alm.t ∧ ∀ b : BayId, (t.bays[b]).pow.work = work.getD b.1 (s.bays[b]).pow.work ∧
      (t.bays[b]).pow.fallow ≤ (s.bays[b]).pow.fallow + 1000 * s.pow.slew.toNat ∧
      (s.bays[b]).pow.fallow ≤ (t.bays[b]).pow.fallow + 1000 * s.pow.slew.toNat ∧
      (s.pow.stage ≠ 0 → (t.bays[b]).pow.fallow ≤ (s.bays[b]).pow.fallow))) ∧
  (∀ (s : State) (r : Fin 3), s.pow.inReset = false → s.pow.refs.getLsbD r.1 = true →
    Runs (.refLost r) s (fun t => t.pow.refs.getLsbD r.1 = false ∧ firstEntry s t 0xD00A ∧ (r = 2 → t.link.up = false ∨ s.link.up = false))) ∧
  (∀ (s : State) (r : Fin 3), s.pow.inReset = false → s.pow.refs.getLsbD r.1 = false →
    Runs (.refRestored r) s (fun t => t.pow.refs.getLsbD r.1 = true ∧ oneEntry s t 0xD00B))

/-- R362 to R375, R384: rails, cap, budgets, leveller and reference clocks.
What the spec leaves open here is the model's choice: log entry 42. -/
def Obligations.BudgetsAndLevellerBoundPower : Prop := Said.PowerBudgets ∧ Said.LevellerAndReferences

/-- R390: a partial reset is requested by PWR_PRST where the unit's condition holds, and ends with PRST_DONE or PRST_FAIL. -/
def Sys2Proof.Said.PartialResets : Prop :=
  (∀ (s : State), Open s .pf .pwr 0x110 → s.pow.prstGo = false →
    (∀ c : CoreId, prstOk s (.core c) = true → Runs (.prstCore .pf c) s (fun t => t.pow.prstGo = true ∧ t.pow.prstKind = 1 ∧
      t.pow.prstBay = c.bay.1 ∧ t.pow.prstUnit = c.core.1 ∧ t.bays = s.bays)) ∧
    (∀ (b : BayId) (k : StKind), prstOk s (.station b k) = true → Runs (.prstStation .pf b k) s (fun t => t.pow.prstGo = true ∧
      t.pow.prstKind = 2 ∧ t.pow.prstBay = b.1 ∧ t.bays = s.bays)) ∧
    (∀ b : BayId, prstOk s (.bay b) = true → Runs (.prstBay .pf b) s (fun t => t.pow.prstGo = true ∧ t.pow.prstKind = 3 ∧ t.pow.prstBay = b.1 ∧
      (t.bays[b]).mem.trained = false ∧ (t.bays[b]).mem.training = true)) ∧
    (∀ c : CoreId, prstOk s (.core c) = false → Runs (.prstCore .pf c) s (fun t => t.pow.prstGo = false ∧ t.pow.prstFail = true ∧ oneEntry s t 0xD00E))) ∧
  (∀ (s : State) (c : CoreId), s.pow.prstGo = true → s.pow.prstKind = 1 → prstUnitOf s.pow.prstLast.toNat = some (.core c) →
    Runs (.prstComplete true) s (fun t => t.pow.prstGo = false ∧ t.pow.prstFail = false ∧ (getCore t c).faultBits = 0 ∧
      (getCore t c).ctl.st = .off ∧ (getCore t c).ctl.fault = false ∧ (getCore t c).bind = none ∧ sameMemory s t ∧ firstEntry s t 0xD00D) ∧
    Runs (.prstComplete false) s (fun t => t.pow.prstGo = false ∧ t.pow.prstFail = true ∧ (getCore t c).ctl.st = .fenced ∧ firstEntry s t 0xD00E))

/-- R391, R392, R425: storing and defaulting the persistent settings, and the recalibration of a lane of an Ethernet port. -/
def Sys2Proof.Said.SettingsAndLanes : Prop :=
  (∀ (s : State) (fn : Fn), Open s fn .nvm 0x100 → s.nvm.store = false → s.nvm.defaults = false →
    exec (.nvmStore fn) s = .next { relocked s .nvm with nvm := { s.nvm with store := true, writing := settingsNow s } } ∧
    exec (.nvmDefaults fn) s = .next { relocked s .nvm with nvm := { s.nvm with defaults := true, store := false, writing := {} } }) ∧
  (∀ s : State, s.nvm.store = true ∨ s.nvm.defaults = true →
    Runs (.nvmStoreComplete true) s (fun t => t.nvm.store = false ∧ t.nvm.defaults = false ∧ t.nvm.storeFail = false ∧ t.nvm.useB = !s.nvm.useB ∧
      (if s.nvm.useB then t.nvm.a = some s.nvm.writing ∧ t.nvm.b = s.nvm.b else t.nvm.b = some s.nvm.writing ∧ t.nvm.a = s.nvm.a)) ∧
    Runs (.nvmStoreComplete false) s (fun t => t.nvm.store = false ∧ t.nvm.storeFail = true ∧ t.nvm.useB = s.nvm.useB ∧ t.nvm.a = s.nvm.a ∧
      t.nvm.b = s.nvm.b ∧ oneEntry s t 0xD00F)) ∧
  (∀ (s : State) (fn : Fn) (p l : PortId), Open s fn (.lane p) (0x100 + l.1 * 0x20) → (s.lane[p][l]).recal = false → (s.lane[p][l]).recalBusy = false →
    zldMode s p = false → ethMode s.eth[p] false = true →
    Runs (.laneRecal fn p l) s (fun t => (t.lane[p][l]).recalBusy = true ∧ (t.lane[p][l]).pin = (s.lane[p][l]).pin)) ∧
  (∀ (s : State) (p l : PortId), (s.lane[p][l]).recalBusy = true → Runs (.laneRecalComplete p l) s (fun t => (t.lane[p][l]).recalBusy = false ∧
    ((s.lane[p][l]).pin = true → eqSum (s.lane[p][l]).eq ≤ 63 → (t.lane[p][l]).eqCur = (s.lane[p][l]).eq ∧ (t.lane[p][l]).adapting = false)))

/-- R428, R337: debug commands on a core whose partition has debug open act; elsewhere they are refused. -/
def Sys2Proof.Said.DebugUnit : Prop :=
  ∀ (s : State) (c : CoreId), Open s .dbg .dbg 0x10C → s.dbg.target.toNat / 2 ^ 24 % 16 = c.bay.1 → s.dbg.target.toNat / 2 ^ 16 % 64 = c.core.1 →
    (debugOpen s s.bays[c.bay].owner = true →
      Runs .dbgHalt s (fun t => (getCore t c).halted = true ∧ t.dbg.done = true ∧ t.dbg.refused = false ∧ t.dbg.haltedBit = true) ∧
      Runs .dbgResume s (fun t => (getCore t c).halted = false ∧ t.dbg.done = true ∧ t.dbg.refused = false ∧ t.dbg.haltedBit = false) ∧
      Runs .dbgStep s (fun t => (getCore t c).halted = (getCore s c).halted ∧ (getCore t c).stepping = (getCore s c).halted ∧ t.dbg.done = true) ∧
      (s.dbg.target.toNat % 4 = 0 → (getCore s c).halted = true → s.dbg.addr.toNat < 64 →
        Runs .dbgRead s (fun t => t.dbg.data = coreS (getCore s c) (BitVec.ofNat 6 s.dbg.addr.toNat) ∧ t.dbg.done = true ∧ t.dbg.refused = false ∧ t.bays = s.bays))) ∧
    (debugOpen s s.bays[c.bay].owner = false →
      Runs .dbgRead s (fun t => t.dbg.refused = true ∧ t.dbg.data = 0 ∧ t.bays = s.bays ∧ oneEntry s t 0x2002) ∧
      Runs .dbgHalt s (fun t => t.dbg.refused = true ∧ t.bays = s.bays ∧ oneEntry s t 0x2002))

/-- R391, R392, R425, R428: settings, lane recalibration and the debug unit.
What the spec leaves open here is the model's choice: log entry 43. -/
def Obligations.SettingsLanesAndDebugCommandsAct : Prop := Said.SettingsAndLanes ∧ Said.DebugUnit

/-- R385, R386: a device reset loses everything but NVM, fuses and firmware; RESET_RELEASE runs the root-of-trust start, applies the settings
record and begins to train bays 0 to 3; a group that passes is zeroed and the next one trains. -/
def Sys2Proof.Said.ResetAndBringUp : Prop :=
  (∀ (s : State) (why : ResetCause), Runs (.deviceReset why) s (fun t => t.pow = {} ∧ t.bays = Vector.replicate 16 {} ∧ t.dbk = Vector.replicate 17 {} ∧
    t.qm = {} ∧ t.trn = {} ∧ t.rng = {} ∧ t.sch = {} ∧ t.red = {} ∧ t.zld = Vector.replicate 8 {} ∧ t.alm = {} ∧ t.rot.parts = Vector.replicate 16 {} ∧
    t.rot.slots = Vector.replicate 64 none ∧ t.rot.lifecycle = s.rot.lifecycle ∧ t.nvm.a = s.nvm.a ∧ t.nvm.b = s.nvm.b ∧ t.nvm.useB = s.nvm.useB)) ∧
  (∀ (s : State) (r : RotStart), s.pow.inReset = true → Runs (.resetRelease r) s (fun t => t.pow.inReset = false ∧ t.pow.running = true ∧
    t.pow.settingsApplied = true ∧ (∀ g, r.nvmOk = true → s.nvm.useB = false → s.nvm.a = some g → t.pow.cap = g.cap) ∧
    (r.nvmOk = false → t.nvm.settingsBad = true ∧ t.pow.cap = 0x578) ∧ t.rot.identityErr = !(r.rootOk && r.identityOk) ∧
    (∀ b : BayId, b.1 < 4 → (s.bays[b]).mem.trained = false → (s.bays[b]).mem.failed = false → (t.bays[b]).mem.training = true))) ∧
  (∀ (s : State) (g : Fin 4) (passed : W16), s.pow.inReset = false → s.pow.prstGo = false → passed = 0xFFFF →
    (∃ b : BayId, b.1 / 4 = g.1 ∧ (s.bays[b]).mem.training = true) →
    Runs (.stackTrainingComplete g passed) s (fun t => ∀ b : BayId, (b.1 / 4 = g.1 → (s.bays[b]).mem.training = true →
      (t.bays[b]).mem.training = false ∧ (t.bays[b]).mem.scrub = (s.bays[b]).mem.scrub ++ [{ base := 0, len := stackSize, why := .trained }]) ∧
      (b.1 / 4 = g.1 + 1 → (s.bays[b]).mem.trained = false → (s.bays[b]).mem.failed = false → (t.bays[b]).mem.training = true)))

/-- R385, R386, R390: partial resets, device resets and bring-up.
What the spec leaves open here is the model's choice: log entry 43. -/
def Obligations.ResetsAndBringUpSetTheState : Prop := Said.PartialResets ∧ Said.ResetAndBringUp

/-- `t` has sent segment `k` of an own message on channel `chan`, whose context was `x`, in one packet: marked ECT(0), to the peer and its
next-hop MAC, through an allowed port with a link, sealed under the channel's keys at the highest epoch received and the next seq, with the
segment's data header and bytes (R86, R89 to R95, R118). -/
def Sys2Proof.Said.SentSegment (s : State) (chan : Nat) (x : Chan) (m : TxMsg) (k : Nat) (f : WrdFlags) (t : State) : Prop :=
  (∃ d : Datagram, t.out = s.out ++ [.wrdPacket d] ∧ d.mac = x.mac ∧ d.dst = x.peer ∧ d.ecn = 2 ∧ d.srcPort < max 1 x.paths ∧
    bitOf x.portMask d.port.1 = true ∧ ethUp s.eth[d.port] d.half = true ∧
    d.payload = sealPacket (x.linkKey.getD []) chan x.rxHigh (nextSeq x)
      (wrdHead (if m.put then 2 else 1) f x.rxHigh (word32 (Config.peerChannel chan % 2 ^ 18)) chan (nextSeq x) ++ dataBody m k) (segPlain m k)) ∧
    ∃ y, getChan t chan = some y ∧ y.txEpoch = x.rxHigh ∧ y.txSeq = nextSeq x + 1

/-- R356, R389, R108, R118, R403: firmware activation of an accepted image, retransmission, the rate of a channel, and the I3C address. A
timeout sends a segment that never went out, or else the lowest unacknowledged one again, with RETX and ACKREQ.
What the spec leaves open here is the model's choice: log entries 44 and 49. -/
def Obligations.FirmwareActivatesAndWireTimersAct : Prop :=
  (∀ (s : State) (comp : Fin 12), s.pow.inReset = false → comp.1 ≠ 0 → comp.1 ≠ 4 → (s.rot.comps[comp]).accepted.isSome → (s.rot.comps[comp]).active = false →
    exec (.fwActivate comp) s = .next (modComp s comp (fun c => { c with active := true, switched := [] }))) ∧
  (∀ (s : State) (comp : Fin 12) (svn : Nat) (d : List Byte), (s.rot.comps[comp]).active = true → (s.rot.comps[comp]).accepted = some (svn, d) →
    comp = 2 ∨ comp = 4 ∨ comp = 5 ∨ comp = 6 → s.rot.deferred = [] →
    Runs (.fwActivationComplete comp) s (fun t => (t.rot.comps[comp]).active = false ∧ (t.rot.comps[comp]).accepted = none ∧
      (t.rot.comps[comp]).svn = svn ∧ (t.rot.comps[comp]).digest = d)) ∧
  (∀ (s : State) (chan : Nat) (id : W32) (m : TxMsg) (x : Chan) (k : Nat), s.trn.tx.find? (fun m => m.chan == chan && m.msgId == id) = some m →
    getChan s chan = some x → m.refused = false → x.holdUntil.toNat ≤ s.alm.t.toNat → x.state = .opened → x.linkKey.isSome →
    (txPort s x).isSome → nextSeq x < 2 ^ 32 →
    let unsent := (txSegs m).filter (fun k => !bitOf m.sent k)
    (unsent = [] → lowestUnacked m = [k] →
      Runs (.retransmissionTimeout chan id) s (SentSegment s chan x m k { retx := true, ackreq := true })) ∧
    (unsent = [k] → Runs (.retransmissionTimeout chan id) s (SentSegment s chan x m k {}))) ∧
  (∀ (s : State) (chan rtt ce acked : Nat) (x : Chan), getChan s chan = some x → x.state = .opened → 0 < rtt → 0 < acked →
    Runs (.rateUpdate chan rtt ce acked) s (fun t => ∃ y, getChan t chan = some y ∧
      y.alpha = x.alpha + ((ce : Rat) / acked - x.alpha) / 16 ∧ (81920000000 : Rat) / rtt ≤ y.rate ∧
      (x.pressed = true → ce = 0 → y.rate = max x.rate (81920000000 / rtt)))) ∧
  (∀ (s : State) (a : BitVec 7), s.pow.inReset = false → s.link.i3cDyn = none →
    exec (.i3cDynamicAddress (.entdaa a)) s = .next { s with link := { s.link with i3cDyn := some a } } ∧
    (∀ st : BitVec 7, st.toNat = 0x48 + s.link.i3cSa.toNat →
      exec (.i3cDynamicAddress (.setdasa st a)) s = .next { s with link := { s.link with i3cDyn := some a } }))

namespace Sys2Proof.Said

/-- The mailbox holds this request, still to be run, and the processor's own firmware is not being replaced (R343, R356). -/
def Asked (s : State) (op : Nat) (part : Option Nat) : Prop := mbxMatch s op part = true ∧ rotBusy s = false

/-- The request named at GO has the length of `b` (MBX_REQ_LEN, R343). -/
def Fits (s : State) (b : List Byte) : Prop := s.rot.mbx.curLen = b.length

/-- The mailbox command has ended in `t` with a status and a response; a response that does not fit its buffer gives RSP_SHORT. -/
def Answered (s t : State) (status : Nat) (resp : List Byte) : Prop :=
  t.rot.mbx.busy = false ∧ t.rot.mbx.done = true ∧ t.rot.mbx.go = false ∧
    (resp.length ≤ s.rot.mbx.rspLen → t.rot.mbx.status = status ∧ t.rot.mbx.used = resp.length ∧
      (resp ≠ [] → Output.mailbox s.rot.mbx.rsp resp ∈ t.out)) ∧
    (s.rot.mbx.rspLen < resp.length → t.rot.mbx.status = 0xC014 ∧ t.rot.mbx.used = 0)

/-- The instance of a partition serves `n` requests at once (R208, R209). -/
def Serves (s : State) (p : PartId) (n : Nat) : Prop :=
  (getDrbg s p).seeded = true ∧ (getDrbg s p).stalled = false ∧ (getDrbg s p).waiting = [] ∧ (getDrbg s p).reqs + n ≤ 2 ^ 20

/-- The management partition, or a tenant that is ACTIVE, may be reported on. -/
def Reportable (s : State) (part : PartId) : Prop := part = mgmt ∨ ∃ p, part = tenantPart p ∧ (getPart s p).state = .active

/-- The report of Table 12.14, with its signature. -/
def reportOf (s : State) (part : PartId) (nonce sig : List Byte) : List Byte :=
  reportHead s part nonce s.rot.mbx.imm ++ leBytes 2 sig.length ++ List.replicate 30 (0 : Byte) ++ padTo 1280 sig

/-- A key slot holds a secret of this kind for a partition's job. -/
def HasSlot (t : State) (p : TenantId) (kind : Nat) (job : W32) (secret : List Byte) : Prop :=
  ∃ i : Fin 64, ∃ k, t.rot.slots[i] = some k ∧ k.kind = kind ∧ k.part = p ∧ k.job = job ∧ k.secret = secret

end Sys2Proof.Said

/-- R338, R343, R355, R356, R342: IDENTITY_GET gives the certificate; ATTEST signs a report of an existing partition, and is held while a
component is in transition unless IMMEDIATE is set; DEBUG_ENABLE opens debug of a partition that is not confidential.
What the spec leaves open here is the model's choice: log entry 38. -/
def Obligations.IdentityIsReportedAndDebugOpened : Prop :=
  (∀ s : State, Asked s 0x0001 none →
    (s.rot.identityErr = false → s.rot.firmwareErr = false → Runs .identityGet s (fun t => Answered s t 0 Config.certificate)) ∧
    (s.rot.identityErr = true → Runs .identityGet s (fun t => Answered s t 0xC012 []))) ∧
  (∀ (s : State) (part : PartId) (nonce : List Byte), Asked s 0x0002 (some part.1) → Fits s nonce →
    (Reportable s part → Serves s part 2 → (inTransition s = false ∨ s.rot.mbx.imm = true) →
      Runs (.attest part.1 nonce) s (fun t => ∃ sig, sig.length ≤ 1280 ∧ Answered s t 0 (reportOf s part nonce sig))) ∧
    (inTransition s = true → s.rot.mbx.imm = false →
      Runs (.attest part.1 nonce) s (fun t => t.rot.mbx.isHeld = true ∧ t.rot.mbx.busy = true ∧ t.out = s.out))) ∧
  (∀ (s : State) (part : PartId) (nonce : List Byte), s.rot.mbx.running = some (.attest part.1 nonce) → s.rot.mbx.isHeld = true →
    inTransition s = false → Reportable s part → Serves s part 2 →
    Runs .attestHeldRelease s (fun t => ∃ sig, sig.length ≤ 1280 ∧ Answered s t 0 (reportOf s part nonce sig))) ∧
  (∀ (s : State) (p : TenantId), Asked s 0x0012 (some p.1) → (getPart s p).state = .active →
    ((getPart s p).conf = false → s.rot.lifecycle ≤ 2 →
      Runs (.debugEnable p.1) s (fun t => getPart t p = { getPart s p with debug := true } ∧ Answered s t 0 [])) ∧
    ((getPart s p).conf = true → Runs (.debugEnable p.1) s (fun t => getPart t p = getPart s p ∧ Answered s t 0xC002 [])))

/-- R333 to R335: a layout that is right, of a FREE partition, in conflict with no other, makes the partition CREATING with its bays and
shares; it becomes ACTIVE once its stacks are zeroed. PART_DESTROY takes its keys at once; once its stacks are zeroed the bays are
management's and the partition is FREE with its generation kept.
What the spec leaves open here is the model's choice: log entry 38. -/
def Obligations.PartitionsAreCreatedAndDestroyed : Prop :=
  (∀ (s : State) (p : TenantId) (d : List Byte), Asked s 0x0010 (some p.1) → Fits s d → layoutOk d = true →
    ((getPart s p).state = .free → layoutFree s p d = true → Runs (.partCreate p.1 d) s (fun t => (getPart t p).state = .creating ∧
      (getPart t p).gen = (getPart s p).gen + 1 ∧ (getPart t p).layout = d ∧ t.rot.mbx.busy = true ∧
      (∀ b : BayId, bitOf (u16 d 2) b.1 = true → (t.bays[b]).owner = tenantPart p ∧ (t.bays[b]).mem.store = []) ∧
      (∀ b : BayId, bitOf (u16 d 2) b.1 = false → t.bays[b] = s.bays[b]) ∧
      t.qm.base[tenantPart p] = u16 d 8 ∧ t.qm.count[tenantPart p] = u16 d 0xA ∧ t.wins.base[p] = u16 d 0xC ∧ t.wins.count[p] = u32 d 0x10)) ∧
    ((getPart s p).state ≠ .free → Runs (.partCreate p.1 d) s (fun t => t.rot.parts = s.rot.parts ∧ t.bays = s.bays ∧ Answered s t 0xC002 [])) ∧
    ((getPart s p).state = .free → layoutFree s p d = false → Runs (.partCreate p.1 d) s (fun t => t.rot.parts = s.rot.parts ∧
      t.bays = s.bays ∧ Answered s t 0xC003 []))) ∧
  (∀ (s : State) (p : TenantId), (getPart s p).state = .creating → scrubLeft s (.partCreate p) = false → (getDrbg s (tenantPart p)).waiting = [] →
    Runs (.partCreateComplete p) s (fun t => getPart t p = { getPart s p with state := .active } ∧ t.link.vfEnable = true ∧
      Answered s t 0 (leBytes 4 (getPart s p).gen.toNat))) ∧
  (∀ (s : State) (p : TenantId), Asked s 0x0011 (some p.1) → (getPart s p).state = .active →
    Runs (.partDestroy p.1) s (fun t => (getPart t p).state = .destroying ∧ (getPart t p).gen = (getPart s p).gen ∧ (getPart t p).pekDk = [] ∧
      t.rot.mbx.busy = true ∧ (∀ i : Fin 64, ∀ k, t.rot.slots[i] = some k → k.part ≠ p))) ∧
  (∀ (s : State) (p : TenantId), (getPart s p).state = .destroying → scrubLeft s (.partDestroy p) = false →
    Runs (.partDestroyComplete p) s (fun t => getPart t p = { gen := (getPart s p).gen } ∧ (∀ b : BayId, (t.bays[b]).owner ≠ tenantPart p) ∧
      (∀ b : BayId, (s.bays[b]).owner ≠ tenantPart p → t.bays[b] = s.bays[b]) ∧ t.qm.count[tenantPart p] = 0 ∧ t.wins.count[p] = 0 ∧
      Answered s t 0 []))

/-- R344 to R347, R349: the job commands. A job record that passes every check makes the job, and a lead draws its two keys; a member takes
them from the lead's package, and the lead wraps them for a member whose report is right; a link key comes to a channel of the job; the
job's keys go with it.
What the spec leaves open here is the model's choice: log entry 39. -/
def Obligations.JobCommandsInstallAndClearKeys : Prop :=
  (∀ (s : State) (p : TenantId) (r : List Byte), Asked s 0x0020 (some p.1) → Fits s r → (getPart s p).state = .active → (getPart s p).job = none →
    ((parseJob r).lead = false → Runs (.jobCreate p.1 r) s (fun t =>
      if jobRecordOk s p r then (getPart t p).job = some (parseJob r) ∧ t.rot.slots = s.rot.slots ∧ Answered s t 0 []
      else (getPart t p).job = none ∧ Answered s t 0xC004 [])) ∧
    ((parseJob r).lead = true → slotRoom s p 2 = true → Serves s (tenantPart p) 2 → Runs (.jobCreate p.1 r) s (fun t =>
      if jobRecordOk s p r then ∃ keys, (getPart t p).job = some { parseJob r with ek := (Config.kemKeyGen (bslice keys 32 32) (bslice keys 64 32)).1 } ∧
          HasSlot t p 2 (parseJob r).job (keys.take 32) ∧ HasSlot t p 3 (parseJob r).job (bslice keys 32 64) ∧
          Answered s t 0 (Config.kemKeyGen (bslice keys 32 32) (bslice keys 64 32)).1
      else (getPart t p).job = none ∧ Answered s t 0xC004 []))) ∧
  (∀ (s : State) (p : TenantId) (j : Job), Asked s 0x0021 (some p.1) → (getPart s p).state = .active → (getPart s p).job = some j →
    (jobBusy s p = false → Runs (.jobDestroy p.1) s (fun t => (getPart t p).job = none ∧
      (∀ i : Fin 64, ∀ k, t.rot.slots[i] = some k → ¬ (k.part = p ∧ k.job = j.job)) ∧ Answered s t 0 [])) ∧
    (jobBusy s p = true → Runs (.jobDestroy p.1) s (fun t => t.rot.parts = s.rot.parts ∧ t.rot.slots = s.rot.slots ∧ Answered s t 0xC006 []))) ∧
  (∀ (s : State) (p : TenantId) (req : List Byte) (j : Job) (kj seed : List Byte), Asked s 0x0022 (some p.1) → Fits s req → (getPart s p).state = .active →
    (getPart s p).job = some j → j.lead = true → req.length = 6185 → jobSecret s (tenantPart p) 2 j.job = some kj →
    jobSecret s (tenantPart p) 3 j.job = some seed → Serves s (tenantPart p) 3 →
    Runs (.jobKeyWrap p.1 req) s (fun t => t.rot.slots = s.rot.slots ∧
      if resvZero req 2 6 = true ∧ memberReportOk s p j (u16 req 0) (bslice req 8 2816) (bslice req 2824 1793) (bslice req 4617 1568) then
        ∃ m sig, sig.length ≤ 1280 ∧
          let e := Config.kemEncaps (bslice req 4617 1568) m
          Answered s t 0 ([(1 : Byte), 0, 0, 0] ++ leBytes 4 j.job.toNat ++ leBytes 2 (u16 req 0) ++ List.replicate 6 (0 : Byte) ++ j.digest ++
            deviceId ++ padTo 1568 e.1 ++
            padTo 104 (kwWrap (kmac256 e.2 (j.digest ++ leBytes 2 (u16 req 0)) 32 (ascii "WYJKEY")) (kj ++ seed)) ++ sigTail sig)
      else Answered s t 0xC007 [])) ∧
  (∀ (s : State) (p : TenantId) (req : List Byte) (j : Job), Asked s 0x0023 (some p.1) → Fits s req → (getPart s p).state = .active →
    (getPart s p).job = some j → j.lead = false → j.ek = [] → 3104 ≤ req.length → slotRoom s p 2 = true →
    Runs (.jobKeyAccept p.1 req) s (fun t =>
      if j.members.getD 0 [] = shake256 (req.drop 3104) 64 ∧ sigFieldOk (req.drop 3104) (req.take 0x718) (u16 req 0x718) (bslice req 0x720 1280) then
        match openJobPackage s p j (req.take 3104) with
        | some keys => (getPart t p).job = some { j with ek := (Config.kemKeyGen (bslice keys 32 32) (bslice keys 64 32)).1 } ∧
            HasSlot t p 2 j.job (keys.take 32) ∧ HasSlot t p 3 j.job (bslice keys 32 64) ∧
            Answered s t 0 (Config.kemKeyGen (bslice keys 32 32) (bslice keys 64 32)).1
        | none => (getPart t p).job = some j ∧ Answered s t 0xC007 []
      else (getPart t p).job = some j ∧ Answered s t 0xC008 [])) ∧
  (∀ (s : State) (p : TenantId) (r : LinkReq) (j : Job) (x : Chan), Asked s 0x0024 (some p.1) → (getPart s p).state = .active →
    (getPart s p).job = some j → getChan s r.chan = some x → x.part = tenantPart p → (x.state = .unkeyed ∨ x.state = .reset) →
    Serves s (tenantPart p) 3 →
    Runs (.linkEstablish p.1 r) s (fun t =>
      if linkPeerOk j r then ∃ m, let e := Config.kemEncaps r.ek m
          getChan t r.chan = some { x with linkJob := j.job, linkKey := some (kmac256 e.2
            (shake256 (r.ek ++ e.1 ++ leBytes 4 j.job.toNat ++ leBytes 4 r.chan) 64) 32 (ascii "WYLINK")) }
      else getChan t r.chan = some x ∧ Answered s t 0xC008 []))

/-- R341, R350 to R354: key slots and their blobs, an owner's key, a model's delivery, and firmware images.
What the spec leaves open here is the model's choice: log entry 39. -/
def Obligations.KeySlotsModelsAndFirmwareAreChecked : Prop :=
  (∀ (s : State) (p : TenantId), (getPart s p).state = .active →
    (∀ blob, Asked s 0x0030 (some p.1) → Fits s blob → slotRoom s p 1 = true → Runs (.keyLoad p.1 blob) s (fun t =>
      match openKeyBlob s p blob with
      | some k => ∃ i : Fin 64, s.rot.slots[i] = none ∧ t.rot.slots[i] = some k ∧ (∀ l : Fin 64, l ≠ i → t.rot.slots[l] = s.rot.slots[l]) ∧
          Answered s t 0 [byteOf i.1]
      | none => t.rot.slots = s.rot.slots ∧ Answered s t 0xC00E [])) ∧
    (∀ (i : Fin 64) (k : KeySlot), s.rot.slots[i] = some k → k.part = p →
      (Asked s 0x0031 (some p.1) → Runs (.keyExport p.1 i.1) s (fun t => t.rot.slots = s.rot.slots ∧ Answered s t 0 (keyBlob s k))) ∧
      (Asked s 0x0032 (some p.1) → slotInUse s p i.1 k = false → Runs (.keyUnload p.1 i.1) s (fun t => t.rot.slots[i] = none ∧
        (∀ l : Fin 64, l ≠ i → t.rot.slots[l] = s.rot.slots[l]) ∧ Answered s t 0 [])) ∧
      (Asked s 0x0032 (some p.1) → slotInUse s p i.1 k = true → Runs (.keyUnload p.1 i.1) s (fun t => t.rot.slots = s.rot.slots ∧
        Answered s t 0xC00C []))) ∧
    (∀ (pkg key : List Byte) (j : Job), Asked s 0x0033 (some p.1) → Fits s (pkg ++ key) → (getPart s p).job = some j → slotRoom s p 1 = true →
      Runs (.ownerKeyLoad p.1 pkg key) s (fun t =>
        if ownerSigOk j pkg key then
          match openOwnerPackage s p j pkg with
          | some sec => HasSlot t p 1 j.job sec
          | none => t.rot.slots = s.rot.slots ∧ Answered s t 0xC007 []
        else t.rot.slots = s.rot.slots ∧ Answered s t 0xC008 [])) ∧
    (∀ (r : ModelReq) (k : KeySlot) (i : Fin 64) (sb db : BayId) (j : Job), Asked s 0x0034 (some p.1) → r.slot = i.1 → s.rot.slots[i] = some k →
      k.part = p → k.kind = 1 → r.srcBay = sb.1 → r.dstBay = db.1 → holdsBay s (tenantPart p) sb = true → holdsBay s (tenantPart p) db = true →
      r.src + r.srcLen ≤ 2 ^ 37 → r.dst + r.dstLen ≤ 2 ^ 37 → spanUe s.bays[sb].mem r.src r.srcLen = [] → (getPart s p).job = some j →
      k.job = j.job → closedSpans s db = [] → s.bays[db].mem.poisoned = [] → s.bays[db].mem.pcFenced = [] →
      Runs (.modelLoad p.1 ⟨r, clean⟩) s (fun t =>
        let zeroed := Answered s t 0xC00F [] ∧ oneEntry s t 0xC00F ∧ ∀ x, memGet t.bays[db].mem.dram x =
          if r.dst ≤ x ∧ x < r.dst + r.dstLen then 0 else memGet s.bays[db].mem.dram x
        match openObject k.secret k.job (openRead s sb r.src r.srcLen) with
        | some pt => if pt.length ≤ r.dstLen then Answered s t 0 [] ∧ ∀ x, memGet t.bays[db].mem.dram x =
              (if r.dst ≤ x ∧ x < r.dst + pt.length then pt.getD (x - r.dst) 0 else memGet s.bays[db].mem.dram x)
            else zeroed
        | none => zeroed))) ∧
  (∀ (s : State) (i : Fin 12), i.1 ≠ 0 →
    (∀ img : FwImage, Asked s 0x0040 none → Runs (.fwUpdate (i.1 + 1) img) s (fun t =>
      if Config.falconVerify Config.firmwareKey img.body img.sig then
        (if img.svn < (s.rot.comps[i]).minSvn then t.rot.comps = s.rot.comps ∧ Answered s t 0xC011 []
         else t.rot.comps[i] = { s.rot.comps[i] with accepted := some (img.svn, shake256 img.body 64) } ∧ Answered s t 0 [])
      else t.rot.comps = s.rot.comps ∧ Answered s t 0xC010 [] ∧ oneEntry s t 0xC010)) ∧
    (Asked s 0x0041 none → (s.rot.comps[i]).minSvn < (s.rot.comps[i]).svn → (s.rot.comps[i]).raises < 32 →
      Runs (.fwSvnCommit (i.1 + 1)) s (fun t => t.rot.comps[i] = { s.rot.comps[i] with
        minSvn := (s.rot.comps[i]).svn, raises := (s.rot.comps[i]).raises + 1 } ∧ Answered s t 0 [])))

namespace Sys2Proof.Said

/-- The device answers a message in `t`: one packet goes back the way the segment came (R92, R86), sealed under the channel's key with the
next sequence number (R93, R94). -/
def Replies (s t : State) (r : MsgRef) (rep : Reply) : Prop :=
  ∃ (x : Chan) (lk : List Byte), getChan s r.chan = some x ∧ x.linkKey = some lk ∧ t.out = s.out ++ [.wrdPacket { replyWay s r x.mac with
    payload := sealPacket lk r.chan x.rxHigh (nextSeq x)
      (wrdHead (replyOp rep) {} x.rxHigh r.replyChan r.chan (nextSeq x) ++ replyBody r rep) [] }]

/-- The device answers a packet in `t` outside the channel's key: no ciphertext, no tag (R98). -/
def RepliesOpen (s t : State) (r : MsgRef) (rep : Reply) : Prop :=
  ∃ mac : List Byte, (∀ x, getChan s r.chan = some x → mac = x.mac) ∧ t.out = s.out ++ [.wrdPacket { replyWay s r mac with
    payload := wrdHead (replyOp rep) { enc := false } 0 r.replyChan r.chan 0 ++ replyBody r rep }]

/-- A message's channel is open and keyed, its port carries Ethernet traffic, and a sequence number is left (R84, R94, R98). -/
def CanReply (s : State) (r : MsgRef) : Prop :=
  ∃ x, getChan s r.chan = some x ∧ mayTransmit s x r.port r.half = true ∧ nextSeq x < 2 ^ 32

end Sys2Proof.Said

/-- R85 to R88: a port's link comes up and goes down; a PAUSE frame is counted, a frame that R86 does not accept is discarded and counted, an
ARP or neighbour request is answered, and a WRD packet waits for Intake.
What the spec leaves open here is the model's choice: log entry 45. -/
def Obligations.EthernetFramesAreAcceptedOrDiscarded : Prop :=
  (∀ (s : State) (p : PortId) (half : Bool), s.pow.inReset = false → s.pow.refs.getLsbD 1 = true → ethMode s.eth[p] half = true →
    exec (.ethLinkUp p half) s = .next (modEth s p (fun e =>
      if half then { e with link1 := true, training1 := false } else { e with link0 := true, training := false }))) ∧
  (∀ (s : State) (p : PortId),
    ((s.eth[p]).link0 = true → Runs (.ethLinkDown p false) s (fun t => (t.eth[p]).link0 = false ∧ (t.eth[p]).link1 = (s.eth[p]).link1 ∧
      (ethMode s.eth[p] false = true → (t.eth[p]).training = true))) ∧
    ((s.eth[p]).link1 = true → Runs (.ethLinkDown p true) s (fun t => (t.eth[p]).link1 = false ∧ (t.eth[p]).link0 = (s.eth[p]).link0 ∧
      (ethMode s.eth[p] true = true → (t.eth[p]).training1 = true)))) ∧
  (∀ (s : State) (p : PortId) (f : List Byte), ethMode s.eth[p] false = true → (s.eth[p]).link0 = true →
    (be16 f 12 = 0x8808 → be16 f 14 = 1 ∨ be16 f 14 = 0x0101 → exec (.frameReceive p false f) s =
      .next (modEth s p (fun e => { e with rxFrames := e.rxFrames + 1, pauseRx := e.pauseRx + 1 }))) ∧
    (frameKind s.eth[p] p false f = .bad → exec (.frameReceive p false f) s =
      .next (modEth s p (fun e => { e with rxFrames := e.rxFrames + 1, rxDiscard := e.rxDiscard + 1 }))) ∧
    (∀ b, frameKind s.eth[p] p false f = .answer b → Runs (.frameReceive p false f) s (fun t => t.out = s.out ++ [.arpReply p b] ∧
      (t.eth[p]).rxFrames = (s.eth[p]).rxFrames + 1 ∧ (t.eth[p]).txFrames = (s.eth[p]).txFrames + 1 ∧ t.trn = s.trn)) ∧
    (∀ k, frameKind s.eth[p] p false f = .wrd k → Runs (.frameReceive p false f) s (fun t => t.trn = { s.trn with rx := s.trn.rx ++ [k] } ∧
      t.out = s.out ∧ (t.eth[p]).rxFrames = (s.eth[p]).rxFrames + 1)))

/-- R447, R92, R98, R101: the order of the checks of a WRD packet: a channel that does not exist and a channel in RESET answer NAK outside the
key; a context off the chip is fetched; a packet that comes from elsewhere, or does not authenticate, is discarded and counted; the first
segment of a TILE message for an open window takes a staging slot. -/
def Sys2Proof.Said.WrdPackets : Prop :=
  (∀ (s : State) (h : RxPacket) (rest : List RxPacket), s.trn.rx = h :: rest →
    ∃ (k : RxPacket) (s1 : State), nextRx s = some (k, s1) ∧ k ∈ s.trn.rx ∧ k.port = h.port) ∧
  ∀ (s s1 : State) (k : RxPacket), nextRx s = some (k, s1) →
    let w := parseWrd k.bytes
    let r := refOf w k
    let rest := s.trn.rx.erase k
    (ethUp s.eth[k.port] k.half = true →
      (w.chanResv ≠ 0 → rateOk s (.unauth w.chan) 100000 = true → Runs .wrdPacketReceive s (fun t => t.trn.rx = rest ∧
        RepliesOpen s t r (.nak 0x4003 0) ∧ (match chanOwner s w.chan with
          | none => t.dbkIn = s.dbkIn
          | some _ => oneEntry s t 0x4003))) ∧
      (w.chanResv ≠ 0 → rateOk s (.unauth w.chan) 100000 = false → Runs .wrdPacketReceive s (fun t => t.trn.rx = rest ∧ t.out = s.out ∧
        t.trn.suppressed = s.trn.suppressed + 1)) ∧
      (∀ x, w.chanResv = 0 → getChan s w.chan = some x → x.cached = true → x.state = .reset → rateOk s (.unauth w.chan) 100000 = true →
        Runs .wrdPacketReceive s (fun t => t.trn.rx = rest ∧ RepliesOpen s t r (.nak 0x4004 0))) ∧
      (∀ x p, w.chanResv = 0 → getChan s w.chan = some x → x.cached = false → x.part = tenantPart p →
        (getShare s p).missKib * 1024 < missUsed s p + missRoom k → rateOk s (.unauth w.chan) 100000 = true →
        Runs .wrdPacketReceive s (fun t => t.trn.rx = rest ∧ t.trn.miss = s.trn.miss ∧
          RepliesOpen s t r (.hold 0x4014 s.trn.holdMin.toNat)))) ∧
    (∀ x p, w.chanResv = 0 → getChan s w.chan = some x → x.cached = false → x.part = tenantPart p →
      missUsed s p + missRoom k ≤ (getShare s p).missKib * 1024 →
      Runs .wrdPacketReceive s (fun t => t.trn.rx = rest ∧ t.trn.miss = s.trn.miss ++ [(w.chan, k)] ∧ w.chan ∈ t.trn.fetching ∧
        t.out = if w.chan ∈ s.trn.fetching then s.out else s.out ++ [.cacheRead (spillAddr s w.chan) 256])) ∧
    (∀ x, w.chanResv = 0 → getChan s w.chan = some x → x.cached = true → x.state = .opened →
      (k.src ≠ x.peer → Runs .wrdPacketReceive s (fun t => t.trn.rx = rest ∧ t.out = s.out ∧ t.trn.noReply = s.trn.noReply + 1 ∧
        oneEntry s t 0x4011)) ∧
      (k.src = x.peer → k.vlan.getD 0 = x.vlan → bitOf x.portMask k.port.1 = true → w.enc = true → epochKnown x s.alm.t w.epoch = true →
        formatOk w k.bytes = true → w.op = 1 → w.ackreq = false → w.segOff = 0 → 8192 < w.msgLen → w.shelf ≠ 0 →
        ∀ p win, x.part = tenantPart p → shareHold s p true = none → findMsg s w.chan w.shelf w.msgId = none → handedSeg s w = none →
        winCheck s w.shelf w.chan x.part false = .ok win → stagingUsed s p < (getShare s p).staging →
        Runs .wrdPacketReceive s (fun t => t.trn.rx = rest ∧ t.out = s.out ∧
          let e := authEpoch x s.alm.t w.epoch
          match gcmOpen (chanKeyOf (x.linkKey.getD []) w.chan e) (chanNonce (x.linkKey.getD []) w.chan e w.epoch false w.seq.toNat)
              (k.bytes.take 48) (k.bytes.drop 48) with
          | none => t.trn.noReply = s.trn.noReply + 1 ∧ t.trn.msgs = s.trn.msgs
          | some pt => ∃ m, t.trn.msgs = s.trn.msgs ++ [m] ∧ m.chan = w.chan ∧ m.shelfmark = w.shelf ∧ m.msgId = w.msgId ∧ m.msgLen = w.msgLen ∧
              m.segs = 1 ∧ m.hdr = some (pt.take 64) ∧ m.data = [(0, pt.drop 64)])))

/-- R95, R101, R104, R108, R109: a fetched context is installed, or resets its channel when its integrity fails; an old epoch ends; a message
without a new segment in time is answered NAK INCOMPLETE with its bitmap, and a PUT whose bytes are all written ACK COMMITTED. -/
def Sys2Proof.Said.IntakeTimers : Prop :=
  (∀ (s : State) (c : Nat) (x : Chan) (p : TenantId), c ∈ s.trn.fetching → getChan s c = some x → x.part = tenantPart p →
    (∀ q ∈ s.trn.miss, q.1 ≠ c) → (cachedOf s p).length < (getShare s p).contexts →
    Runs (.contextFetchComplete c true) s (fun t => c ∉ t.trn.fetching ∧ ∃ y, getChan t c = some y ∧ y.cached = true ∧ y.state = x.state ∧
      y.epoch = x.epoch ∧ y.linkKey = x.linkKey) ∧
    Runs (.contextFetchComplete c false) s (fun t => c ∉ t.trn.fetching ∧ oneEntry s t 0x4012 ∧ ∃ y, getChan t c = some y ∧ y.cached = true ∧
      y.state = .reset ∧ y.linkKey = none)) ∧
  (∀ (s : State) (c : Nat) (x : Chan) (o : Nat) (until_ : W64), getChan s c = some x → x.old = some (o, until_) → until_.toNat ≤ s.alm.t.toNat →
    exec (.oldEpochExpiry c) s = .next (putChan s c { x with old := none })) ∧
  (∀ (s : State) (c : Nat) (sm id : W32) (m : Msg), findMsg s c sm id = some m → CanReply s m.ref →
    (elapsed s m.lastT (s.trn.msgTmo.toNat * 1000) = true → segsFull m = false →
      Runs (.messageTimeout c sm id) s (fun t => findMsg t c sm id = none ∧ Replies s t m.ref (.nak 0x4009 m.segs))) ∧
    (m.put = true → segsFull m = true →
      Runs (.putWriteComplete c sm id) s (fun t => findMsg t c sm id = none ∧ ∃ ce pr, Replies s t m.ref (.ack 0 ce pr m.segs))))

/-- R92, R95, R98, R101, R104, R108, R109, R447: WRD packets and the timers of Intake.
What the spec leaves open here is the model's choice: log entry 24. -/
def Obligations.IntakeAnswersWrdPackets : Prop := Said.WrdPackets ∧ Said.IntakeTimers

/-- R96, R103, R104, R347: the channel commands.
What the spec leaves open here is the model's choice: log entry 24. -/
def Obligations.ChannelCommandsChangeChannelState : Prop :=
  ∀ (s : State) (h : CmdHdr) (p : TenantId) (c : Nat), h.part = tenantPart p → chanOwner s c = some p →
    (∀ (vlan mask paths : Nat) (mac peer : List Byte), 1 ≤ paths → paths ≤ 16 →
      (getChan s c = none → (cachedOf s p).length < (getShare s p).contexts → Runs (.chanCreate h c vlan mask paths mac peer) s (fun t =>
        completes s t h 0 [] ∧ ∃ y, getChan t c = some y ∧ y.part = h.part ∧ y.state = .unkeyed ∧ y.vlan = vlan ∧ y.portMask = mask ∧
          y.paths = paths ∧ y.mac = mac ∧ y.peer = peer ∧ y.cached = true ∧ y.linkKey = none)) ∧
      ((getChan s c).isSome → Runs (.chanCreate h c vlan mask paths mac peer) s (fun t => completes s t h 0x400E [] ∧ t.trn = s.trn))) ∧
    (∀ x, getChan s c = some x →
      (∀ (job : W32) (e : Nat) (j : Job), (getPart s p).job = some j → j.job = job → x.linkKey.isSome → x.linkJob = job →
        (x.state ≠ .opened → 1 ≤ e → e ≤ 65535 → Runs (.chanKey h c job e) s (fun t => completes s t h 0 [] ∧ getChan t c = some { x with
          state := .opened, epoch := e, nextInst := false, old := none, rxHigh := e, txEpoch := e, txSeq := 0 })) ∧
        (x.state = .opened → e = x.epoch + 1 → e ≤ 65535 → Runs (.chanKey h c job e) s (fun t => completes s t h 0 [] ∧
          getChan t c = some { x with nextInst := true })) ∧
        (x.state = .opened → e ≠ x.epoch + 1 → Runs (.chanKey h c job e) s (fun t => completes s t h 0x400C [] ∧ getChan t c = some x))) ∧
      (2 * ((s.trn.chans.filter (fun q => q.2.pinned && q.2.part == h.part && q.1 != c)).length + 1) ≤ (getShare s p).contexts →
        (∀ a : Bool, x.cached = true →
          Runs (.chanPin h c ⟨1, a⟩) s (fun t => completes s t h 0 [] ∧ getChan t c = some { x with pinned := true })) ∧
        (x.cached = false → (cachedOf s p).length < (getShare s p).contexts → (∀ q ∈ s.trn.miss, q.1 ≠ c) →
          Runs (.chanPin h c ⟨1, true⟩) s (fun t => completes s t h 0 [] ∧ ∃ y, getChan t c = some y ∧ y.cached = true ∧ y.pinned = true ∧
            y.state = x.state ∧ y.linkKey = x.linkKey) ∧
          Runs (.chanPin h c ⟨1, false⟩) s (fun t => completes s t h 0 [] ∧ oneEntry s t 0x4012 ∧ ∃ y, getChan t c = some y ∧ y.cached = true ∧
            y.pinned = true ∧ y.state = .reset ∧ y.linkKey = none))) ∧
      (∀ a : Bool, Runs (.chanPin h c ⟨0, a⟩) s (fun t => completes s t h 0 [] ∧ getChan t c = some { x with pinned := false })) ∧
      Runs (.chanReset h c) s (fun t => completes s t h 0 [] ∧ oneEntry s t 0x4004 ∧ (∀ m ∈ t.trn.msgs, m.chan ≠ c) ∧
        ∃ y, getChan t c = some y ∧ y.state = .reset ∧ y.linkKey = none) ∧
      Runs (.chanFree h c) s (fun t => completes s t h 0 [] ∧ getChan t c = none ∧ ∀ w ∈ t.wins.tab, w.2.chan ≠ c))

/-- R112 to R115: a window opens with the index and generation of its descriptor and the shelfmark made of partition, index and generation; it
is CLOSED, or for placement FREE, when it closes with nothing staged, and CLOSING until then; a revoked one is FREE with the next
generation and its owner is told.
What the spec leaves open here is the model's choice: log entry 24. -/
def Obligations.WindowsOpenCloseAndAreRevoked : Prop :=
  (∀ (s : State) (h : CmdHdr) (d : List Byte),
    (winOk s h d = true → (u64 d 0x38 = 0 ∨ s.alm.t.toNat < u64 d 0x38) → Runs (.winOpen h d) s (fun t =>
      getWin t (u16 d 4) = some (parseWindow d h.part (winGenOf s (u16 d 4))) ∧
      completes s t h 0 (leBytes 4 (word32 (h.part.1 * 2 ^ 28 + u16 d 4 * 2 ^ 12 + winGenOf s (u16 d 4))).toNat))) ∧
    (winOk s h d = false → Runs (.winOpen h d) s (fun t => t.wins = s.wins ∧ completes s t h 0x4006 []))) ∧
  (∀ (s : State) (h : CmdHdr) (sm : W32) (w : Window), winCurrent s sm = some w → w.part = h.part →
    (w.state = .opened → Runs (.winClose h sm) s (fun t => completes s t h 0 [] ∧
      (winMsgs s sm ≠ [] → getWin t (winIndex sm) = some { w with state := .closing }) ∧
      (winMsgs s sm = [] → w.place = false → getWin t (winIndex sm) = some { w with state := .closed }) ∧
      (winMsgs s sm = [] → w.place = true → getWin t (winIndex sm) = none ∧ winGenOf t (winIndex sm) = nextGen w.gen))) ∧
    Runs (.winRevoke h sm) s (fun t => completes s t h 0 [] ∧ getWin t (winIndex sm) = none ∧ winGenOf t (winIndex sm) = nextGen w.gen ∧
      winMsgs t sm = [] ∧ oneEntry s t 0x1002)) ∧
  (∀ (s : State) (i : W16) (w : Window), getWin s i.toNat = some w → w.state = .opened → w.expiry ≠ 0 → w.expiry ≤ s.alm.t.toNat →
    Runs (.windowExpiry i) s (fun t => (w.place = false → winMsgs s (shelfmarkOf w i.toNat) = [] → getWin t i.toNat = some { w with state := .closed }) ∧
      (winMsgs s (shelfmarkOf w i.toNat) ≠ [] → getWin t i.toNat = some { w with state := .closing }) ∧
      (w.place = true → winMsgs s (shelfmarkOf w i.toNat) = [] → getWin t i.toNat = none)))

namespace Sys2Proof.Said

/-- The handle names bin `x` of bay `b`, a bin of the issuer (R130). -/
def Names (s : State) (h : CmdHdr) (w : W32) (b : BayId) (x : Bin) : Prop := handleBin s h.part w = some (b, x) ∧ findBin s b x.index = some x

/-- A stack in which nothing has failed, its cells in canonical form. -/
def Sound (m : BayMem) : Prop := m.poisoned = [] ∧ m.pcFenced = [] ∧ Memory.wf m.dram

/-- A bin that lies in the stack of its own bay, without a mirror. -/
def Plain (x : Bin) : Prop := x.sram = false ∧ x.mirror = false ∧ x.usingMirror = false

/-- The 65,536 bytes of a position of a plain bin (Table 05.5). -/
def posBytes (s : State) (b : BayId) (x : Bin) (k : Nat) : List Byte := memRead s.bays[b].mem.dram (x.region + k * 65536) 65536

/-- A position after the elements of a dense tile are combined into it, one by one from the first, by `f` (Table 05.2, R128). -/
def combined (s : State) (x : Bin) (f : Nat → Nat → Nat) (old : List Byte) (vals : List Nat) : List Byte :=
  applyDense (binRing s x).size f old vals

/-- The values of a dense tile's elements. -/
def tileVals (s : State) (x : Bin) (t : Tile) : List Nat := (tileElems (binRing s x).size t).map (·.2)

/-- The station may fire and holds `tok` first on a port; `rest` is what it holds behind. -/
def Holds (s : State) (r : StationRef) (p : PortId) (tok : Token) (rest : List Token) : Prop :=
  mayFire s r = true ∧ stopping (getSt s r) = false ∧ (getIn s r p).held = tok :: rest

/-- An output port has a credit, and `c` is the input port it feeds. -/
def Feeds (s : State) (r : StationRef) (n : PortId) (c : StationRef × PortId) : Prop :=
  (getOut s r n).cons = some c ∧ (getIn s c.1 c.2).avail ≠ 0

/-- One token has crossed to `c`, with this header but for stream and ordinal, which are the connection's, and this payload. -/
def Passed (s t : State) (r : StationRef) (n : PortId) (c : StationRef × PortId) (h : TileHdr) (payload : List Byte) : Prop :=
  ∃ k : Token, t.tokFlight = s.tokFlight ++ [(c.1, c.2, k)] ∧ k.tile.payload = payload ∧
    k.tile.hdr = { h with stream := (getOut s r n).stream, ordinal := (getOut s r n).nextOrd }

end Sys2Proof.Said

/-- R72, R124 to R127, R147: self-refresh, a pseudo-channel that fails with its bay, patrol scrub, and a zeroing that ends: its span reads zero, and
the bin or stack it was for goes into use.
What the spec leaves open here is the model's choice: log entry 25. -/
def Obligations.BayMemoryRefreshesScrubsAndZeroes : Prop :=
  (∀ (s : State) (b : BayId), s.bays[b].mem.selfRefreshWanted = true → s.bays[b].mem.inFlight = [] →
    exec (.selfRefreshEnter b) s = .next (modMem s b (fun m => { m with selfRefresh := true, selfRefreshWanted := false }))) ∧
  (∀ (s : State) (b : BayId) (pc : Fin 64), pc ∉ s.bays[b].mem.pcFenced → s.bays[b].mem.failed = false →
    Runs (.pseudoChannelFence b pc true) s (fun t => (t.bays[b]).mem.failed = true ∧ (t.bays[b]).mem.pcFenced = s.bays[b].mem.pcFenced ++ [pc] ∧
      firstEntry s t 0x5003)) ∧
  (∀ (s : State) (b : BayId) (line : Nat), line < 2 ^ 31 → s.bays[b].mem.trained = true → s.bays[b].mem.patrolEn = true →
    s.bays[b].mem.selfRefresh = false →
    exec (.patrolScrubRead b line .clean) s = .next s ∧
    exec (.patrolScrubRead b line .corrected) s = .next (modMem s b (fun m => { m with ce := m.ce + 1 })) ∧
    (lineUe s.bays[b].mem (64 * line) = false → Runs (.patrolScrubRead b line .uncorrectable) s (fun t =>
      lineUe (t.bays[b]).mem (64 * line) = true ∧ (t.bays[b]).mem.ue = s.bays[b].mem.ue + 1 ∧ (t.bays[b]).mem.ueAddr = 64 * line))) ∧
  (∀ (s : State) (b : BayId) (q : ScrubReq) (rest : List ScrubReq), s.bays[b].mem.scrub = q :: rest → s.bays[b].mem.selfRefresh = false →
    Runs (.scrubZeroComplete b) s (fun t => (t.bays[b]).mem.scrub = rest ∧
      (∀ a, q.base ≤ a → a < q.base + q.len → lineFenced s.bays[b].mem a = false → memGet (t.bays[b]).mem.dram a = 0) ∧
      (∀ a, a < q.base ∨ q.base + q.len ≤ a → memGet (t.bays[b]).mem.dram a = memGet s.bays[b].mem.dram a) ∧
      (q.why = .trained → (t.bays[b]).mem.trained = true ∧ (t.bays[b]).mem.failed = false ∧ oneEntry s t 0xD00C) ∧
      (∀ (home : BayId) (i : Nat) (h : CmdHdr) (x : Bin), q.why = .binAlloc home i h → findBin s home i = some x → x.index = i → x.state = .zeroing →
        (∀ c : BayId, ∀ y ∈ (if c = b then rest else s.bays[c].mem.scrub), y.why ≠ q.why) →
        completes s t h 0 (leBytes 4 (binHandle s home x).toNat) ∧
        findBin t home i = some { x with state := if x.kind = 1 then .opened else .sum, wait := none })))

/-- R131, R138, R141, R142, R444: BIN_ALLOC, BIN_SEAL, BIN_DISCARD, BIN_FREE, and what follows when no tile of the bin is in flight. -/
def Sys2Proof.Said.BinCommands : Prop :=
  (∀ (s : State) (h : CmdHdr) (d : List Byte) (b : BayId), u8 d 2 = b.1 →
    let x := parseBin h.part d
    (binAllocStatus s h d = 0 → x.sram = false → x.mirror = false → Runs (.binAlloc h d) s (fun t =>
      findBin t b x.index = some { x with wait := some (.zero h) } ∧ t.qm.held = s.qm.held ∧
      (t.bays[b]).mem.scrub = s.bays[b].mem.scrub ++ [{ base := x.region, len := layoutLen x, why := .binAlloc b x.index h }])) ∧
    (binAllocStatus s h d = 0 → x.sram = true → Runs (.binAlloc h d) s (fun t =>
      findBin t b x.index = some { x with state := if x.kind = 1 then .opened else .sum } ∧
      completes s t h 0 (leBytes 4 (handleWord h.part.1 b x.index (binGenOf s b x.index)).toNat))) ∧
    (binAllocStatus s h d ≠ 0 → Runs (.binAlloc h d) s (fun t => t.bays = s.bays ∧ completes s t h (binAllocStatus s h d) [])) ∧
    (s.bays[b].owner = h.part → (findBin s b x.index).isSome → Runs (.binAlloc h d) s (fun t => t.bays = s.bays ∧ completes s t h 0x5014 []))) ∧
  (∀ (s : State) (h : CmdHdr) (w : W32) (b : BayId) (x : Bin), Names s h w b x →
    (∀ (buf : W64), x.kind = 1 → x.state = .opened → x.wait = none → winsPending s b x = false →
      binBusyTiles s b x.index (binGenOf s b x.index) = false →
      let n := ((binCounts s b x).filter (fun n => n != 0 && n != x.t)).length
      Runs (.binSeal h w buf clean) s (fun t =>
        t.out = s.out ++ [.hostWrite h.part buf (locRead s (binLoc b x) (presenceOff x) (presenceLen x))] ∧
        (n = 0 → completes s t h 0 (leBytes 4 (presentCount s b x)) ∧ findBin t b x.index = some { x with state := .sealed }) ∧
        (n ≠ 0 → completes s t h 0x5011 (leBytes 4 n) ∧ findBin t b x.index = some x))) ∧
    (discardable x = true → x.wait = none → Runs (.binDiscard h w) s (fun t => t.qm.held = s.qm.held ∧
      findBin t b x.index = some { x with wait := some (.discard h) } ∧
      ∀ v ∈ t.wins.tab, v.2.place = true ∨ v.2.bin ≠ binHandle s b x)) ∧
    (discardable x = false → Runs (.binDiscard h w) s (fun t => t.bays = s.bays ∧ completes s t h 0x5014 [])) ∧
    (freeable x = true → x.wait = none → Runs (.binFree h w) s (fun t => t.qm.held = s.qm.held ∧
      findBin t b x.index = some { x with wait := some (.free h) })) ∧
    (freeable x = false → Runs (.binFree h w) s (fun t => t.bays = s.bays ∧ completes s t h 0x5014 [])) ∧
    (freeable x = true → x.wait ≠ none → Runs (.binFree h w) s (fun t => t.bays = s.bays ∧ completes s t h 0x5010 []))) ∧
  (∀ (s : State) (b : BayId) (x : Bin) (h : CmdHdr), findBin s b x.index = some x → binBusyTiles s b x.index (binGenOf s b x.index) = false →
    (x.wait = some (.discard h) → Runs (.binInFlightDrained b x.index) s (fun t => completes s t h 0 [] ∧
      findBin t b x.index = some { x with state := .discarded, wait := none })) ∧
    (x.wait = some (.free h) → x.freeing = false → x.sram = false → x.mirror = false → Runs (.binInFlightDrained b x.index) s (fun t =>
      findBin t b x.index = some { x with freeing := true } ∧ t.qm.held = s.qm.held ∧
      (t.bays[b]).mem.scrub = s.bays[b].mem.scrub ++ [{ base := x.region, len := x.regionSize, why := .binFree b x.index h }])) ∧
    (x.wait = some (.free h) → x.freeing = false → x.sram = true → Runs (.binInFlightDrained b x.index) s (fun t =>
      findBin t b x.index = none ∧ binGenOf t b x.index = nextGen (binGenOf s b x.index))))

/-- R128, R135, R136: a tile that Intake handed on is queued for its bin, unless it is a duplicate; when its addition ends, its elements have been
added to the position modulo the ring, its bitmap bit is set, nothing outside the bin has changed, and it is answered ACK COMMITTED.
What the spec leaves open here is the model's choice: log entry 25. -/
def Obligations.TilesAreAddedOnceModuloTheRing : Prop :=
  (∀ (s : State) (b : BayId) (p : PortId) (tok : Token) (rest : List Token) (home : BayId) (x : Bin), Holds s (.bay b .bin) p tok rest →
    intakeFed (getIn s (.bay b .bin) p) = true → s.bays[b].mem.inFlight.length < 735 → inTurn s (.bay b .bin) p (binReady s b) = true →
    targetBin s tok = some (home, x) →
    (isDup s b home x (binEntry x tok.tile.hdr) = false → Runs (.binAddTile b p) s (fun t => (getIn t (.bay b .bin) p).held = rest ∧
      ∃ f : InFlight, (t.bays[b]).mem.inFlight = s.bays[b].mem.inFlight ++ [f] ∧ f.home = home ∧ f.index = x.index ∧
        f.entry = binEntry x tok.tile.hdr ∧ f.contributor = tok.tile.hdr.contributor ∧ f.pos = tok.tile.hdr.tileIndex - x.firstTile ∧
        f.slot = tok.slot ∧ f.origin = tok.origin)) ∧
    (isDup s b home x (binEntry x tok.tile.hdr) = true → Runs (.binAddTile b p) s (fun t => (getIn t (.bay b .bin) p).held = rest ∧
      (t.bays[b]).mem.dups = s.bays[b].mem.dups + 1 ∧ (t.bays[b]).mem.dram = s.bays[b].mem.dram ∧
      (t.bays[b]).mem.inFlight.length = s.bays[b].mem.inFlight.length))) ∧
  (∀ (s : State) (b : BayId) (f : InFlight) (x : Bin), s.bays[b].mem.inFlight.find? (fun g => g.index == f.index && g.entry == f.entry) = some f →
    f.home = b → findBin s b f.index = some x → x.kind = 1 → Plain x → Sound s.bays[b].mem → f.tile.hdr.poison = false → f.tile.hdr.sparse = false →
    f.pos < x.t → x.clo ≤ f.contributor → f.contributor < x.chi → f.entry = (f.contributor - x.clo) * x.t + f.pos → f.dups = [] →
    Runs (.tileAddComplete b f.index f.entry clean) s (fun t => (t.bays[b]).mem.inFlight = s.bays[b].mem.inFlight.erase f ∧
      posBytes t b x f.pos = combined s x (ringAdd (binRing s x)) (posBytes s b x f.pos) (tileVals s x f.tile) ∧
      locBit t (binLoc b x) (bitmapOff x) f.entry = true ∧
      (∀ a, a < x.region ∨ x.region + layoutLen x ≤ a → memGet (t.bays[b]).mem.dram a = memGet s.bays[b].mem.dram a) ∧
      (t.bays[b]).mem.added = s.bays[b].mem.added + 1 ∧
      (∀ r, f.origin = some r → CanReply s r → ∃ ce pr, Replies s t r (.ack 0 ce pr r.segs))))

/-- R52: the dense tile of a sparse one: the same header but for SPARSE and count, each value at its place, zero elsewhere. -/
def Sys2Proof.Said.denseOf (z : Nat) (t : Tile) : Tile where
  hdr := { t.hdr with sparse := false, count := denseCap z }
  payload := writeElems z ((List.range (denseCap z)).map (fun j => (lookup j (sparsePairs z t.hdr.count t.payload)).getD 0))

/-- Position `k` of a copy of a bin holds canonical elements (R34). -/
def Sys2Proof.Said.CanonicalAt (s : State) (l : Loc) (r : Ring) (k : Nat) : Prop :=
  ∀ e ∈ readElems (locRead s l (k * 65536) 65536) 0 r.size (denseCap r.size), e < r.m

/-- R52: adding a sparse tile into a copy of a bin, in the stack, in SRAM or mirrored, of any ring, gives the same contents as adding the dense
tile that holds the same values at the same places and zero elsewhere, whichever command adds it; and a tile from Intake whose addition ends leaves
the whole state, the one bitmap entry it takes included, as that dense tile does. -/
def Obligations.SparseEqualsDense : Prop :=
  (∀ (s : State) (l : Loc) (r : Ring) (k : Nat) (t : Tile), r.size = 4 ∨ r.size = 8 → t.hdr.sparse = true → payloadShapeOk r.size t = true →
    CanonicalAt s l r k → addAtLoc s l r.size (ringAdd r) k t = addAtLoc s l r.size (ringAdd r) k (denseOf r.size t)) ∧
  (∀ (s : State) (b : BayId) (f : InFlight) (x : Bin), s.bays[b].mem.inFlight = [f] → findBin s f.home f.index = some x →
    (∀ c : BayId, Sound s.bays[c].mem) → f.tile.hdr.sparse = true → f.tile.hdr.poison = false →
    (∀ l ∈ binLocs f.home x, CanonicalAt s l (binRing s x) f.pos ∧ ∀ q ∈ binLocs f.home x, q.bay = l.bay → q = l) →
    payloadShapeOk (binRing s x).size f.tile = true →
    exec (.tileAddComplete b f.index f.entry clean) s = exec (.tileAddComplete b f.index f.entry clean)
      (modMem s b (fun m => { m with inFlight := [{ f with tile := denseOf (binRing s x).size f.tile }] })))

/-- R128, R139: BIN_COMBINE adds a source into the target position by position, and holds both until it ends; then the source is COMBINED. -/
def Sys2Proof.Said.BinCombining : Prop :=
  (∀ (s : State) (h : CmdHdr) (target w : W32) (b : BayId) (x y : Bin), combineStatus s h target [w] = 0 → Names s h target b x → Names s h w b y →
    Plain x → Plain y → Sound s.bays[b].mem → x.region + layoutLen x ≤ y.region ∨ y.region + layoutLen y ≤ x.region →
    Runs (.binCombine h target [w] clean) s (fun t => t.qm.held = s.qm.held ∧ findBin t b x.index = some { x with wait := some (.combine h) } ∧
      findBin t b y.index = some { y with wait := some (.combine h) } ∧
      (∀ k < x.t, posBytes t b x k = combined s x (ringAdd (binRing s x)) (posBytes s b x k)
        (readElems (posBytes s b y k) 0 (binRing s x).size (binCap x))) ∧
      (∀ k < x.t, posBytes t b y k = posBytes s b y k))) ∧
  (∀ (s : State) (h : CmdHdr) (target : W32) (sources : List W32), combineStatus s h target sources ≠ 0 →
    Runs (.binCombine h target sources clean) s (fun t => t.bays = s.bays ∧ completes s t h (combineStatus s h target sources) [])) ∧
  (∀ (s : State) (h : CmdHdr) (b : BayId) (x : Bin), findBin s b x.index = some x → x.wait = some (.combine h) → x.kind = 1 → x.state = .sealed →
    Runs (.binCombineComplete h) s (fun t => completes s t h 0 [] ∧ findBin t b x.index = some { x with state := .combined, wait := none }))

/-- R131, R138, R139, R141, R142, R444: the commands on bins.
What the spec leaves open here is the model's choice: log entry 25. -/
def Obligations.BinCommandsChangeBinState : Prop := Said.BinCommands ∧ Said.BinCombining

/-- R128, R446: a tile of an ADD, SUB or WRITE stream that fits its bin is added to, subtracted from, or stored in its position; a READ stream
passes the position's elements with a header of the bin.
What the spec leaves open here is the model's choice: log entry 25. -/
def Obligations.BinStreamsAddSubtractWriteRead : Prop :=
  (∀ (s : State) (b : BayId) (p : PortId) (tok : Token) (rest : List Token) (y : BinStream) (gen : Nat) (x z : Bin) (k : Nat),
    Holds s (.bay b .bin) p tok rest → findStream s b p.1 = some y → y.bound = [(gen, x)] → y.gone = 0 → binGenOf s b x.index = gen →
    findBin s b x.index = some z → z.state = .sum → z.freeing = false →
    inTurn s (.bay b .bin) p (binReady s b) = true → portCauses s (.bay b .bin) p tok.tile = [] → streamCauses s b y x tok.tile = [] →
    tok.tile.hdr.poison = false → tok.tile.hdr.sparse = false → slicePos y x tok.tile.hdr.sliceOffset = some k → Plain x → Sound s.bays[b].mem →
    Runs (.binStreamApply b p clean) s (fun t => (getIn t (.bay b .bin) p).held = rest ∧ findStream t b p.1 = some (afterTile y tok.tile.hdr.last) ∧
      t.dbkIn = s.dbkIn ∧
      (y.mode = 2 → posBytes t b x k = combined s x (ringAdd (binRing s x)) (posBytes s b x k) (tileVals s x tok.tile)) ∧
      (y.mode = 3 → posBytes t b x k = combined s x (ringSub (binRing s x)) (posBytes s b x k) (tileVals s x tok.tile)) ∧
      (y.mode = 4 → posBytes t b x k = padTo 65536 tok.tile.payload) ∧
      (∀ a, a < x.region + k * 65536 ∨ x.region + (k + 1) * 65536 ≤ a → memGet (t.bays[b]).mem.dram a = memGet s.bays[b].mem.dram a))) ∧
  (∀ (s : State) (b : BayId) (n : PortId) (c : StationRef × PortId) (y : BinStream) (x : Bin) (k : Nat),
    mayFire s (.bay b .bin) = true → stopping (getSt s (.bay b .bin)) = false → (getSt s (.bay b .bin)).st ≠ .draining → Feeds s (.bay b .bin) n c →
    findStream s b (8 + n.1) = some y → y.mode = 1 → y.ended = false → y.bound ≠ [] → y.gone = 0 → y.misfit = false →
    (∀ q ∈ y.bound, stillBound s b q = true) → readPlace y = some (x, k) → findBin s b x.index = some x → Plain x → Sound s.bays[b].mem →
    posPoison s b x k = 0 →
    Runs (.binReadEmit b n clean) s (fun t => ∃ h nb, Passed s t (.bay b .bin) n c h ((posBytes s b x k).take (h.count * binElem x)) ∧
      h.ring = x.ring ∧ h.etype = x.etype ∧ h.job = x.job ∧ h.tileIndex = y.done ∧ h.sliceOffset = (x.base + k * binCap x) % 2 ^ 48 ∧
      h.last = decide (y.done + 1 = readTotal y) ∧ h.noiseBound = nb ∧ (x.ring ≤ 3 → nb = 0) ∧
      h.count = (if k + 1 = x.t ∧ x.lastCount ≠ 0 then x.lastCount else binCap x) ∧
      findStream t b (8 + n.1) = some (readNext y nb)))

/-- R158, R159, R162 to R167, R169, R352: GLEAN_OPEN freezes and counts presence before it reads the graph; a sealed batch is filed or named in an
event; exclusion, finish and abort.
What the spec leaves open here is the model's choice: log entry 26. -/
def Obligations.GleaningCommandsChangeTheRound : Prop :=
  (∀ (s : State) (h : CmdHdr) (p : TenantId) (j : Job) (job round : W32) (b : BayId) (gr gl wr wl : Nat) (digest : List Byte) (hs : List W32)
      (q : BayId × Bin) (l : List (BayId × Bin)),
    gleanOpenStatus s h job round b.1 hs = 0 → h.part = tenantPart p → (getPart s p).job = some j → namedBins s h.part hs = some (q :: l) →
    let pres := presentIn s q.1 q.2
    let bytes := dramRead s.bays[b].mem gr gl
    (pres.length < j.mask.f → gleanRegionOk s b gr gl = true → workOk s j b wr wl = true → Runs (.gleanOpen h job round b.1 ⟨gr, clean⟩ gl wr wl digest hs) s (fun t => (t.bays[b]).round = none ∧
      oneEntry s t 0x6003 ∧ completes s t h 0x6003 (leBytes 4 pres.length))) ∧
    (j.mask.f ≤ pres.length → gleanRegionOk s b gr gl = true → workOk s j b wr wl = true →
      Runs (.gleanOpen h job round b.1 ⟨gr, clean⟩ gl wr wl digest hs) s (fun t =>
        match parseGraph j.mask q.2.clo q.2.chi (binContribs q.2) q.2.clo bytes with
        | none => (t.bays[b]).round = none ∧ completes s t h 0x6005 []
        | some g => if shake256 bytes 64 = digest then
            (∃ r, (t.bays[b]).round = some r ∧ r.state = .collecting ∧ r.job = job ∧ r.round = round ∧ r.presence = pres ∧ r.graph = g ∧
              r.floor = j.mask.f) ∧ completes s t h 0 (leBytes 4 pres.length)
          else (t.bays[b]).round = none ∧ completes s t h 0x6004 []))) ∧
  (∀ (s : State) (h : CmdHdr) (job round : W32) (b : BayId) (r : Round), myRound s h job round b.1 = some (b, r) →
    (∀ region len, r.state = .collecting → jobSecret s r.part 3 r.job = none →
      Runs (.gleanShares h job round b.1 ⟨region, clean⟩ len) s (fun t => completes s t h 0xC00D [] ∧ t.bays = s.bays)) ∧
    (∀ region len sec, r.state = .collecting → jobSecret s r.part 3 r.job = some sec → gleanRegionOk s b region len = true →
      let bytes := dramRead s.bays[b].mem region len
      let n := u16 bytes 2
      1 ≤ n → n ≤ 2048 → len = 1664 + 64 * n →
      Runs (.gleanShares h job round b.1 ⟨region, clean⟩ len) s (fun t => completes s t h 0 [] ∧
        match openBatch s r bytes n with
        | none => (t.bays[b]).round = some r ∧ oneEntry s t 0x6010
        | some recs =>
          if batchHdrOk r bytes n = false then (t.bays[b]).round = some r ∧ oneEntry s t 0x6011
          else if r.accepted.contains (u32 bytes 4) then (t.bays[b]).round = some r ∧ oneEntry s t 0x6012
          else ∃ r1, (t.bays[b]).round = some r1 ∧ r1.accepted = u32 bytes 4 :: r.accepted ∧
            ∀ x ∈ (recs.filterMap (parseShare (u32 bytes 4))).filter (keepShare r), x ∈ r1.shares)) ∧
    (∀ count bytes, r.state = .collecting → 1 ≤ count → count ≤ 4096 → Runs (.gleanExclude h job round b.1 count (.ok bytes)) s (fun t =>
      completes s t h 0 [] ∧ (t.bays[b]).round = some { r with excluded := r.excluded ++ indices bytes 0 count })) ∧
    (∀ buf, r.state = .collecting → Runs (.gleanFinish h job round b.1 buf) s (fun t => t.qm.held = s.qm.held ∧
      (t.bays[b]).round = some { r with state := .reconstructing, finish := some (h, buf) })) ∧
    (r.state ≠ .gleaned → r.finish = none → Runs (.gleanAbort h job round b.1) s (fun t => completes s t h 0 [] ∧ (t.bays[b]).round = none ∧
      t.rot.reveals = s.rot.reveals)) ∧
    (r.state = .gleaned → Runs (.gleanAbort h job round b.1) s (fun t => completes s t h 0x6001 [] ∧ t.bays = s.bays)) ∧
    (∀ buf, r.state ≠ .collecting → Runs (.gleanFinish h job round b.1 buf) s (fun t => completes s t h 0x6001 [] ∧ t.bays = s.bays)))

/-- R160 to R163, R169 to R171: reconstruction without enough shares goes back to COLLECTING and names who is missing; with every secret
known the masks are subtracted; the two secrets of one contributor are never both revealed; a Mask station passes the residual of
its batch; a round whose masks are all subtracted is GLEANED.
What the spec leaves open here is the model's choice: log entry 26. -/
def Obligations.RevealedSecretsUnmaskTheSum : Prop :=
  (∀ (s : State) (b : BayId) (r : Round) (j : Job), (s.bays[b]).round = some r → r.state = .reconstructing → jobOfPart s r.part = some j →
    (∀ h buf, r.finish = some (h, buf) → stillNeeded r ≠ [] →
      (∀ g ∈ r.graph, (neededKind r g).isSome → (lookup g.u r.secrets).isNone → (ownerShares r g).length < j.mask.t) →
      Runs (.reconstructionComplete b) s (fun t => (t.bays[b]).round = some { r with state := .collecting, finish := none } ∧
        t.out = s.out ++ [.hostWrite h.part buf (contribBitmap r.clo r.chi (stillNeeded r))] ∧
        completes s t h 0x6008 (leBytes 4 (stillNeeded r).length))) ∧
    (stillNeeded r = [] → Runs (.reconstructionComplete b) s (fun t => ∃ q, (t.bays[b]).round = some q ∧ q.state = .masking ∧
      q.seeds = word32 (r.graph.flatMap (seedsOf r)).length ∧ q.finish = r.finish)) ∧
    (∀ (g : GraphRec) (p : TenantId) (k : Nat), r.graph = [g] → r.part = tenantPart p → neededKind r g = some k → lookup g.u r.secrets = none →
      j.mask.t ≤ (ownerShares r g).length →
      let e := revealOf s p r.job r.round g.u
      (e ≠ 0 → e ≠ k → Runs (.reconstructionComplete b) s (fun t => firstEntry s t 0x6015 ∧ t.rot.reveals = s.rot.reveals ∧
        ∃ q, (t.bays[b]).round = some q ∧ q.state = .collecting ∧ q.secrets = r.secrets)) ∧
      ((e = 0 ∨ e = k) → (revealsOf s p r.job).any (fun v => v.round == r.round) = true →
        Runs (.reconstructionComplete b) s (fun t => revealOf t p r.job r.round g.u = k)))) ∧
  (∀ (s : State) (b : BayId) (r : Round) (j : Job) (g : GraphRec) (p : TenantId) (k : Nat), (s.bays[b]).round = some r → r.state = .reconstructing →
    jobOfPart s r.part = some j → r.graph.filter (fun x => x.u == g.u) = [g] → r.part = tenantPart p → neededKind r g = some k →
    lookup g.u r.secrets = none → j.mask.t ≤ (ownerShares r g).length →
    let e := revealOf s p r.job r.round g.u
    ∃ (t : State) (q : Round), exec (.reconstructionComplete b) s = .next t ∧ (t.bays[b]).round = some q ∧
      (e ≠ 0 → e ≠ k → lookup g.u q.secrets = none ∧ revealOf t p r.job r.round g.u = e) ∧
      (e = 0 ∨ e = k → lookup g.u q.secrets = match joinChunks (recoverChunks ((ownerShares r g).take j.mask.t)) with
        | none => none
        | some sec => if commitment k r.job r.round g.u sec = (if k = 2 then g.commitSelf else g.commitPair) then some sec else none)) ∧
  (∀ (s t : State) (b : BayId) (p : TenantId) (job round : W32) (u : Nat), exec (.reconstructionComplete b) s = .next t →
    revealOf s p job round u ≠ 0 → revealOf t p job round u = revealOf s p job round u) ∧
  (∀ (s : State) (b : BayId) (n : PortId) (c : StationRef × PortId) (x : Bin) (k : BinRef), mayFire s (.bay b .msk) = true →
    stopping (getSt s (.bay b .msk)) = false → (s.bays[b]).mask.running = true → (s.bays[b]).mask.pois = 0 → (s.bays[b]).mask.bin = some k →
    findBin s b k.index = some x → maskOut s b = some n → Feeds s (.bay b .msk) n c →
    let m := (s.bays[b]).mask
    ∃ t : State, exec (.maskPositionEmit b) s = .next t ∧ ∃ h bytes, (t.bays[b]).mask = maskNext m x bytes ∧ h.ring = x.ring ∧
      h.sliceOffset = (x.base + m.pos * binCap x) % 2 ^ 48 ∧ h.tileIndex = m.ord ∧ h.last = (m.last && decide (m.pos + 1 = x.t)) ∧
      Passed s t (.bay b .msk) n c h (writeElems (binRing s x).size
        (residual m.job m.round x.ring (binRing s x) m.batch h.sliceOffset h.count))) ∧
  (∀ (s : State) (b : BayId) (r : Round), (s.bays[b]).round = some r → r.state = .masking → r.sendQ = [] → r.bins.all (bayMasked s r) = true →
    ∃ t : State, exec (.maskingComplete b) s = .next t ∧ (t.bays[b]).round = some { r with state := .gleaned, finish := none } ∧
      ∀ h buf, r.finish = some (h, buf) → completes s t h 0 (leBytes 4 0))

/-- R175 to R178: LAT_PARAM_LOAD puts a right parameter set into every bay of its mask; it is usable, and the command completes, once every
bay has its constants; LAT_PARAM_UNLOAD takes a set that no running pipeline uses. -/
def Sys2Proof.Said.LatticeSets : Prop :=
  (∀ (s : State) (h : CmdHdr) (mask : W16) (len : Nat) (bytes : List Byte), Runs (.latParamLoad h mask len (.ok bytes)) s (fun t =>
    if paramStatus s h mask len bytes = 0 then t.qm.held = s.qm.held ∧ ∀ b : BayId, (t.bays[b]).lattice.psets = s.bays[b].lattice.psets ++
      (if bitOf mask.toNat b.1 then [{ parseParam h bytes with digest := shake256 bytes 64 }] else [])
    else t.bays = s.bays ∧ completes s t h (paramStatus s h mask len bytes) [])) ∧
  (∀ (s : State) (h : CmdHdr) (mask : W16) (len : Nat), Runs (.latParamLoad h mask len .failed) s (fun t => t.bays = s.bays ∧
    completes s t h 0xB024 [])) ∧
  (∀ (s : State) (b : BayId) (p : ParamSet), s.bays[b].lattice.psets.find? (fun p => !p.ready) = some p →
    Runs (.paramConstantsComplete b) s (fun t =>
      (t.bays[b]).lattice.psets = s.bays[b].lattice.psets.map (fun q => if q.id = p.id then { q with ready := true } else q) ∧
      ((∀ c : BayId, ∀ q ∈ (t.bays[c]).lattice.psets, q.h = p.h → q.ready = true) → completes s t p.h 0 []) ∧
      ((∃ c : BayId, ∃ q ∈ (t.bays[c]).lattice.psets, q.h = p.h ∧ q.ready = false) → t.qm = s.qm))) ∧
  (∀ (s : State) (h : CmdHdr) (mask : W16) (id : Nat), (∀ b : BayId, bitOf mask.toNat b.1 = true → s.bays[b].owner = h.part) →
    mask ≠ 0 →
    ((∀ b : BayId, bitOf mask.toNat b.1 = true → (∀ d ∈ imagePipes s b, d.paramSet ≠ id) ∨ stDrained s (.bay b .lat) = true) →
      Runs (.latParamUnload h mask id) s (fun t => completes s t h 0 [] ∧ ∀ b : BayId, (t.bays[b]).lattice.psets =
        if bitOf mask.toNat b.1 then s.bays[b].lattice.psets.filter (fun p => p.id != id) else s.bays[b].lattice.psets)))

/-- R178: LAT_PARAM_UNLOAD of a set that a pipeline of a bay's running image names, while that bay's Lattice station does not show DRAINED, is
rejected with PARAM_IN_USE: it completes with that status and no set leaves any bay. -/
def Obligations.ParameterSetInUseIsKept : Prop :=
  ∀ (s : State) (h : CmdHdr) (mask : W16) (id : Nat) (b : BayId) (d : PipeDesc),
    (∀ c : BayId, bitOf mask.toNat c.1 = true → s.bays[c].owner = h.part) → bitOf mask.toNat b.1 = true → d ∈ imagePipes s b → d.paramSet = id →
    stDrained s (.bay b .lat) = false →
    Runs (.latParamUnload h mask id) s (fun t => t.bays = s.bays ∧ completes s t h 0x7003 [])

/-- R196 to R198: LAT_KEY_BIND closes a key's region while its digest is checked; a key whose digest is right is VALID, any other leaves its
index; LAT_KEY_UNBIND empties an index. -/
def Sys2Proof.Said.LatticeKeys : Prop :=
  (∀ (s : State) (h : CmdHdr) (b : BayId) (k : PortId) (kind level id : Nat) (src dst : W32) (region len : Nat) (digest : List Byte),
    Runs (.latKeyBind h b.1 k.1 kind level id src dst region len digest) s (fun t =>
      let st := keyBindStatus s h b.1 k.1 kind level id src dst region len digest
      if st = 0 then t.qm.held = s.qm.held ∧ (∀ j : PortId, j ≠ k → (t.bays[b]).lattice.keys[j] = s.bays[b].lattice.keys[j]) ∧
        (t.bays[b]).lattice.keys[k] = some {
          checking := true, kind := kind, level := level, paramSet := id, src := src, dst := dst, region := region, len := len,
          digest := digest, h := h }
      else t.bays = s.bays ∧ completes s t h st [])) ∧
  (∀ (s : State) (b : BayId) (i : PortId) (k : LatKey), s.bays[b].lattice.keys[i] = some k → k.checking = true →
    Runs (.keyCheckComplete b ⟨i, clean⟩) s (fun t => (∀ j : PortId, j ≠ i → (t.bays[b]).lattice.keys[j] = s.bays[b].lattice.keys[j]) ∧
      if shake256 (dramRead s.bays[b].mem k.region k.len) 64 = k.digest then
        (t.bays[b]).lattice.keys[i] = some { k with checking := false } ∧ completes s t k.h 0 [] ∧ t.dbkIn = s.dbkIn
      else (t.bays[b]).lattice.keys[i] = none ∧ completes s t k.h 0x7007 [] ∧ oneEntry s t 0x7007)) ∧
  (∀ (s : State) (h : CmdHdr) (b : BayId) (i : PortId),
    (∀ k : LatKey, s.bays[b].lattice.keys[i] = some k → k.checking = false → s.bays[b].owner = h.part →
      stDrained s (.bay b .lat) = true → Runs (.latKeyUnbind h b.1 i.1) s (fun t => completes s t h 0 [] ∧
        (t.bays[b]).lattice.keys[i] = none ∧ ∀ j : PortId, j ≠ i → (t.bays[b]).lattice.keys[j] = s.bays[b].lattice.keys[j])) ∧
    (s.bays[b].lattice.keys[i] = none → Runs (.latKeyUnbind h b.1 i.1) s (fun t => t.bays = s.bays ∧ completes s t h 0x7008 [])) ∧
    (∀ k : LatKey, s.bays[b].lattice.keys[i] = some k → k.checking = true → Runs (.latKeyUnbind h b.1 i.1) s (fun t => t.bays = s.bays ∧
      completes s t h 0x7008 [])))

/-- R175 to R178, R196 to R198: parameter sets and keys.
What the spec leaves open here is the model's choice: log entry 27. -/
def Obligations.LatticeSetsAndKeysAreLoaded : Prop := Said.LatticeSets ∧ Said.LatticeKeys

/-- R185, R186, R191 to R195, R199: a gather firing takes a tile of a pipeline's input into the group being gathered, or its samples; LADD of one
ciphertext at level 1 adds modulo the limb's prime and its bound is the larger plus 256; NOISE_ADD waits for its N samples and uses them up;
a tile of the finished group is passed.
What the spec leaves open here is the model's choice: log entry 27. -/
def Obligations.LatticePipelinesGatherComputeEmit : Prop :=
  (∀ (s : State) (b : BayId) (p : PortId) (tok : Token) (rest : List Token) (i : Nat) (d : Pipe), Holds s (.bay b .lat) p tok rest →
    pipeOfPort s b p.1 = some (i, d) → mayGather s b d p.1 = true → inTurn s (.bay b .lat) p (latReady s b) = true → portCauses s (.bay b .lat) p tok.tile = [] → tok.tile.hdr.poison = false →
    (p.1 = d.d.inS → tok.tile.hdr.ring = 2 → tok.tile.hdr.etype = 1 → payloadShapeOk 8 tok.tile = true →
      Runs (.latticeGather b p) s (fun t => (getIn t (.bay b .lat) p).held = rest ∧ t.dbkIn = s.dbkIn ∧ findPipe t b i = some { d with
        samples := d.samples ++ (readElems tok.tile.payload 0 8 tok.tile.hdr.count).map (fun v => (v, 0)) })) ∧
    (∀ r : Ring, p.1 = d.d.inA → p.1 ≠ d.d.inB → p.1 ≠ d.d.inS → latCauses s b i d d.a false tok.tile = [] → d.a.fail = [] →
      ringOf (modsOf s s.bays[b].owner tok.tile.hdr.job) tok.tile.hdr.ring = some r →
      let limb := d.a.k % d.d.levelIn
      Runs (.latticeGather b p) s (fun t => (getIn t (.bay b .lat) p).held = rest ∧ t.dbkIn = s.dbkIn ∧ ∃ (q : Pipe) (g : LatGroup),
        findPipe t b i = some q ∧ g.poss = (addLimb d.a.cur limb tok.tile.hdr (readElems tok.tile.payload 0 r.size tok.tile.hdr.count)).poss ∧
        g.bound = max d.a.cur.bound tok.tile.hdr.noiseBound ∧ g.last = tok.tile.hdr.last ∧ q.readyB = d.readyB ∧ q.samples = d.samples ∧
        q.a.k = (if tok.tile.hdr.last then 0 else d.a.k + 1) ∧
        if tok.tile.hdr.last = true ∨ limb + 1 = d.d.levelIn ∧ g.poss.length = (groupShape (psetOf s b d.d.paramSet)).1 then
          q.readyA = d.readyA ++ [g] ∧ q.a.cur = {}
        else q.readyA = d.readyA ∧ q.a.cur = g))) ∧
  (∀ (s : State) (b : BayId) (i : Fin 4) (d : Pipe) (ga gb : LatGroup) (pa pb : LatPos) (ea eb : List Nat) (x : ParamSet) (l : Limb),
    findPipe s b i.1 = some d → mayFire s (.bay b .lat) = true → d.cur = none → d.outQ = [] → d.readyA = [ga] → d.readyB = [gb] → d.d.inB ≠ 0xFF →
    d.d.ops = [(1, 0, 0)] → d.d.levelIn = 1 → psetOf s b d.d.paramSet = some x → x.limbs.head? = some l → denseCap (setSize x) ≤ 2 ^ (x.logn + 1) →
    ga.poss = [pa] → gb.poss = [pb] → pa.limbs = [ea] → pb.limbs = [eb] → pa.count = 2 ^ (x.logn + 1) → pb.count = pa.count →
    ea.length = pa.count → eb.length = pa.count → ga.copied = 0 → gb.copied = 0 → ga.made = [] → gb.made = [] →
    max ga.bound gb.bound + 256 < l.limit → l.limit < 2 ^ 16 →
    let h : TileHdr := {
      ring := 0x40, etype := if setSize x = 4 then 0 else 1, job := ga.job, tileIndex := d.outIdx, sliceOffset := pa.off, count := pa.count,
      last := ga.last && gb.last, noiseBound := max ga.bound gb.bound + 256, paramSet := d.d.paramSet, keyTag := ga.outTag,
      noised := ga.noised || gb.noised }
    Runs (.latticeCompute b i) s (fun t => (t.bays[b]).lattice.cts = s.bays[b].lattice.cts ∧ ∃ q : Pipe, findPipe t b i.1 = some q ∧
      q.cur = none ∧ q.outCts = 1 ∧ q.readyA = [] ∧ q.readyB = [] ∧
      q.outQ = [({ hdr := h, payload := writeElems (setSize x) (ea.zipWith (fun u v => (u + v) % l.m) eb) }, 0)])) ∧
  (∀ (s : State) (b : BayId) (i : Fin 4) (d : Pipe) (w : LatWork) (r : LatRun) (x : ParamSet) (a c : Nat), findPipe s b i.1 = some d →
    mayFire s (.bay b .lat) = true → d.cur = some w → w.now = some r → r.ops = [(3, a, c)] → d.d.ops = r.ops → w.todo = [] → w.done = [] →
    psetOf s b d.d.paramSet = some x → 2 ^ x.logn ≤ d.samples.length →
    Runs (.latticeSamplesReady b i) s (fun t => (t.bays[b]).lattice.cts = s.bays[b].lattice.cts ∧ ∃ q : Pipe, findPipe t b i.1 = some q ∧
      q.cur = none ∧ q.samples = d.samples.drop (2 ^ x.logn) ∧ q.outQ.length = w.g.poss.length * d.d.levelIn ∧
      ∀ e ∈ q.outQ, e.1.hdr.noised = true)) ∧
  (∀ (s : State) (b : BayId) (i : Fin 4) (d : Pipe) (tl : Tile) (rest : List (Tile × Nat)) (n : PortId) (c : StationRef × PortId),
    findPipe s b i.1 = some d → mayFire s (.bay b .lat) = true → stopping (getSt s (.bay b .lat)) = false → d.outQ = (tl, 0) :: rest →
    d.d.out = 8 + n.1 → Feeds s (.bay b .lat) n c →
    Runs (.latticeEmit b i) s (fun t => Passed s t (.bay b .lat) n c tl.hdr tl.payload ∧ t.dbkIn = s.dbkIn ∧
      findPipe t b i.1 = some { d with outQ := rest, outCts := if rest = [] then 0 else d.outCts } ∧
      (t.bays[b]).lattice.cts = s.bays[b].lattice.cts + (if rest = [] then word32 d.outCts else 0)))

namespace Sys2Proof.Said

/-- Key slot `i` holds a NOISE seed of the issuer. -/
def SeedIn (s : State) (h : CmdHdr) (i : Fin 64) (k : KeySlot) : Prop := s.rot.slots[i] = some k ∧ k.kind = 4 ∧ tenantPart k.part = h.part

/-- Every claim's bay has the seed of slot `i` open over the claim's range, its high-water mark at the lower end (R215). -/
def opened (s t : State) (i : Fin 64) (job round : W32) (attempt : Nat) (cs : List Claim) : Prop :=
  ∀ c ∈ cs, ∀ b : BayId, c.bay = b.1 → (t.bays[b]).noise.seeds = s.bays[b].noise.seeds ++
    [{ slot := i.1, job := job, round := round, attempt := attempt, lo := c.lo, hi := c.hi, mark := c.lo }]

end Sys2Proof.Said

/-- R211, R213 to R217, R234: NSE_PARAM_LOAD stores the record; NOISE_DRAW draws a seed for the next attempt of a round and opens it;
NOISE_EXPORT writes a wrapped seed for a range that nothing claims; NOISE_IMPORT opens one; NOISE_CLOSE clears it everywhere.
What the spec leaves open here is the model's choice: log entry 29. -/
def Obligations.NoiseSeedsAreOpenedForFreshRanges : Prop :=
  (∀ (s : State) (h : CmdHdr) (mask : W16) (len : Nat) (bytes : List Byte), Runs (.nseParamLoad h mask len (.ok bytes)) s (fun t =>
    completes s t h (noiseRecStatus s h mask len bytes) [] ∧ ∀ b : BayId, (t.bays[b]).noise.recs =
      if noiseRecStatus s h mask len bytes = 0 ∧ bitOf mask.toNat b.1 = true then [parseNoiseRec bytes] else s.bays[b].noise.recs)) ∧
  (∀ (s : State) (h : CmdHdr) (p : TenantId) (job round : W32) (cs : List Claim), h.part = tenantPart p →
    (drawStatus s h job round cs = 0 → Serves s h.part 1 → Runs (.noiseDraw h job round cs) s (fun t =>
      let a := lastAttempt s p job round + 1
      lastAttempt t p job round = a ∧ ∃ (i : Fin 64) (k : KeySlot), s.rot.slots[i] = none ∧ SeedIn t h i k ∧ k.job = job ∧ k.round = round ∧
        k.attempt = a ∧ k.claims = claimRanges cs ∧ k.exports = [] ∧ (∀ j : Fin 64, j ≠ i → t.rot.slots[j] = s.rot.slots[j]) ∧
        opened s t i job round a cs ∧ completes s t h 0 (leBytes 1 i.1 ++ [0] ++ leBytes 2 a))) ∧
    (drawStatus s h job round cs ≠ 0 → Runs (.noiseDraw h job round cs) s (fun t => t.rot = s.rot ∧ t.bays = s.bays ∧
      completes s t h (drawStatus s h job round cs) []))) ∧
  (∀ (s : State) (h : CmdHdr) (i : Fin 64) (k : KeySlot) (lo hi : Nat) (buffer : W64) (target kj : List Byte), SeedIn s h i k → lo < hi →
    hi < 2 ^ 48 → jobSecret s h.part 2 k.job = some kj →
    ((∀ q ∈ k.claims ++ k.exports, hi ≤ q.1 ∨ q.2 ≤ lo) → Runs (.noiseExport h i.1 lo hi buffer target) s (fun t => completes s t h 0 [] ∧
      t.out = s.out ++ [.hostWrite h.part buffer (noiseBlob kj k target lo hi)] ∧
      t.rot.slots[i] = some { k with exports := k.exports ++ [(lo, hi)] })) ∧
    ((∃ q ∈ k.claims ++ k.exports, q.1 < hi ∧ lo < q.2) → Runs (.noiseExport h i.1 lo hi buffer target) s (fun t => t.rot = s.rot ∧
      t.out = s.out ∧ completes s t h 0x8003 []))) ∧
  (∀ (s : State) (h : CmdHdr) (p : TenantId) (j : Job) (kj blob : List Byte) (cs : List Claim), h.part = tenantPart p →
    (getPart s p).job = some j → claimStatus s h j.job cs = 0 → jobSecret s h.part 2 j.job = some kj →
    Runs (.noiseImport h blob cs) s (fun t => match (if w32 blob 8 = j.job then openBlob kj blob else none) with
      | none => t.rot = s.rot ∧ oneEntry s t 0x8005 ∧ completes s t h 0x8005 []
      | some pt =>
        if u32 pt 104 ≤ lastAttempt s p j.job (w32 pt 100) ∨ noiseStale s p j.job (w32 pt 100) = true then
          t.rot = s.rot ∧ completes s t h 0x8004 []
        else if claimsProper s h.part cs = true ∧ ∀ c ∈ cs, u64 pt 108 ≤ c.lo ∧ c.hi ≤ u64 pt 116 then
          if seedRoom s p j.job cs = false then t.rot = s.rot ∧ completes s t h 0x8006 [] else
          ∃ (i : Fin 64) (k : KeySlot), s.rot.slots[i] = none ∧ SeedIn t h i k ∧ k.secret = bslice pt 0 32 ∧
            opened s t i j.job (w32 pt 100) (u32 pt 104) cs ∧ completes s t h 0 (leBytes 1 i.1 ++ [0] ++ leBytes 2 (u32 pt 104))
        else t.rot = s.rot ∧ completes s t h 0x8003 [])) ∧
  (∀ (s : State) (h : CmdHdr) (i : Fin 64) (k : KeySlot), SeedIn s h i k →
    (seedUsed s h.part i.1 = false → Runs (.noiseClose h i.1) s (fun t => completes s t h 0 [] ∧ t.rot.slots[i] = none ∧
      ∀ b : BayId, (t.bays[b]).noise.seeds = s.bays[b].noise.seeds.filter (fun o => o.slot != i.1))) ∧
    (seedUsed s h.part i.1 = true → Runs (.noiseClose h i.1) s (fun t => t.rot = s.rot ∧ t.bays = s.bays ∧ completes s t h 0x8006 [])))

/-- R220 to R223: a tile of an ADD stream inside its bay's claim, above the high-water mark, leaves with a sample added to each element and
NOISED set, and raises the mark; one that is not is ABORTED with NOISE_REUSE and nothing is drawn; without its seed a stream waits. A SAMPLE
stream's tile holds the samples of its numbers.
What the spec leaves open here is the model's choice: log entry 29. -/
def Obligations.NoiseIsAddedOnceAndNeverReused : Prop :=
  (∀ (s : State) (b : BayId) (p n : PortId) (tok : Token) (rest : List Token) (x : NoiseStream) (c : StationRef × PortId),
    Holds s (.bay b .nse) p tok rest → findNoise s b (fun x => x.mode == 1 && x.inPort == p.1) = some x → x.out = 8 + n.1 →
    Feeds s (.bay b .nse) n c →
    let h := tok.tile.hdr
    let span := addSpan s b h
    (streamSeed s b x = none → exec (.noiseAddTile b p) s = .next (putNoise s b { x with waitSeed := true })) ∧
    (∀ (o : OpenSeed) (k : KeySlot), streamSeed s b x = some (o, k) → portCauses s (.bay b .nse) p tok.tile = [] → h.poison = false →
      addCauses (readsPayload s (.bay b .nse) tok.tile) tok.tile = [] → x.aborted = false → inTurn s (.bay b .nse) p (noiseReady s b) = true →
      (o.lo ≤ h.sliceOffset → h.sliceOffset + span ≤ o.hi → o.mark ≤ h.sliceOffset → Runs (.noiseAddTile b p) s (fun t => ∃ out : Token,
        (getSt t (.bay b .nse)).firing = some { ins := [(p, tok)], outs := [(n, out)] } ∧ (getIn t (.bay b .nse) p).held = rest ∧
        out.tile.hdr = { h with noised := true, stream := (getOut s (.bay b .nse) n).stream, ordinal := (getOut s (.bay b .nse) n).nextOrd } ∧
        out.tile.payload = addNoise s b k tok.tile ∧ t.dbkIn = s.dbkIn ∧
        (t.bays[b]).noise.seeds = s.bays[b].noise.seeds.map (fun q => if q = o then { q with mark := h.sliceOffset + span } else q))) ∧
      (h.sliceOffset < o.lo ∨ o.hi < h.sliceOffset + span ∨ h.sliceOffset < o.mark → Runs (.noiseAddTile b p) s (fun t => ∃ out : Token,
        (getSt t (.bay b .nse)).firing = some { ins := [(p, tok)], outs := [(n, out)] } ∧ out.tile.hdr.poison = true ∧
        out.tile.hdr.poisonCause = 0x3008 ∧ (t.bays[b]).noise.seeds = s.bays[b].noise.seeds ∧
        ∃ l e, t.dbkIn = s.dbkIn ++ l ++ [e] ∧ e.2.code = 0x8007)))) ∧
  (∀ (s : State) (b : BayId) (n : PortId) (x : NoiseStream) (c : StationRef × PortId), mayFire s (.bay b .nse) = true →
    stopping (getSt s (.bay b .nse)) = false → findNoise s b (fun x => x.mode == 2 && x.out == 8 + n.1) = some x → x.ended = false →
    8192 * x.next < x.length → Feeds s (.bay b .nse) n c →
    let a := x.base + 8192 * x.next
    let m := min 8192 (x.length - 8192 * x.next)
    (streamSeed s b x = none → exec (.noiseSampleTile b n) s = .next (putNoise s b { x with waitSeed := true })) ∧
    (∀ (o : OpenSeed) (k : KeySlot), streamSeed s b x = some (o, k) → x.aborted = false → o.lo ≤ a → a + m ≤ o.hi → o.mark ≤ a →
      Runs (.noiseSampleTile b n) s (fun t => ∃ out : Token, (getSt t (.bay b .nse)).firing = some { ins := [], outs := [(n, out)] } ∧
        out.tile.payload = samplePayload s b k x ∧ out.tile.hdr.ring = 2 ∧ out.tile.hdr.etype = 1 ∧ out.tile.hdr.job = x.job ∧
        out.tile.hdr.tileIndex = x.next ∧ out.tile.hdr.sliceOffset = a % 2 ^ 48 ∧ out.tile.hdr.count = m ∧
        out.tile.hdr.last = decide (x.length ≤ 8192 * (x.next + 1)) ∧ t.dbkIn = s.dbkIn ∧
        (t.bays[b]).noise.seeds = s.bays[b].noise.seeds.map (fun q => if q = o then { q with mark := a + m } else q))) ∧
    (∀ (o : OpenSeed) (k : KeySlot), streamSeed s b x = some (o, k) → a < o.lo ∨ o.hi < a + m ∨ a < o.mark →
      Runs (.noiseSampleTile b n) s (fun t => ∃ out : Token, (getSt t (.bay b .nse)).firing = some { ins := [], outs := [(n, out)] } ∧
        out.tile.hdr.marker = true ∧ out.tile.hdr.poisonCause = 0x3008 ∧ (t.bays[b]).noise.seeds = s.bays[b].noise.seeds)))

/-- R226, R229 to R233: RLS_OPEN begins a release for the contributors present then; the signed record joins its job's chain and the data and
record go to the sink; the completion carries the digest of the result; a failed sink, RLS_RESEND and RLS_ABORT.
What the spec leaves open here is the model's choice: log entry 30. -/
def Obligations.ReleasesAreSignedAndEmitted : Prop :=
  (∀ (s : State) (h : CmdHdr) (b : BayId) (a : RlsArgs), a.bay = b.1 → Runs (.rlsOpen h a) s (fun t =>
    if rlsOpenStatus s h a = 0 then t.qm.held = s.qm.held ∧ (t.bays[b]).release.state = .collecting ∧ ∃ (r : Release) (j : Job) (i : Fin 64)
        (k : KeySlot) (x : Bin), (t.bays[b]).release.cur = some r ∧ jobOfPart s h.part = some j ∧ j.job = a.job ∧ i.1 = a.seed ∧ SeedIn s h i k ∧
      presenceBin s h b a = some x ∧ r.h = h ∧ r.args = a ∧ r.region = a.region ∧ r.attempt = k.attempt ∧ r.seed = k.secret ∧ r.clo = x.clo ∧
      r.chi = x.chi ∧ r.out = [] ∧ r.ends = List.replicate (max 1 a.level) a.lo
    else t.bays = s.bays ∧ completes s t h (rlsOpenStatus s h a) [])) ∧
  (∀ (s : State) (b : BayId) (r : Release) (rand : List Byte) (q : List (PartId × BayId)) (d at2 : W64) (j : Job) (p : TenantId),
    (s.bays[b]).release.cur = some r → (s.bays[b]).release.state = .signing → r.rand = some rand → s.rot.signQ = (r.h.part, b) :: q →
    rotBusy s = false → s.link.up = true → r.args.sink = .host d at2 → r.h.part = tenantPart p → (getPart s p).job = some j → j.job = r.args.job →
    let rcd := signRecord r.record j.prevRecord rand
    Runs (.releaseSigned b) s (fun t => (t.bays[b]).release.state = .emitting ∧ (t.bays[b]).release.cur = some { r with record := rcd } ∧
      t.rot.signQ = q ∧ (getPart t p).job = some { j with prevRecord := shake256 (8 :: rcd) 64 } ∧
      t.out = s.out ++ [.hostWrite r.h.part d r.out, .hostWrite r.h.part at2 rcd])) ∧
  (∀ (s : State) (b : BayId) (r : Release), (s.bays[b]).release.cur = some r → (s.bays[b]).release.state = .emitting →
    ((∀ m ∈ s.trn.tx, m.bay ≠ some b) → r.lost = false → Runs (.releaseEmitComplete b) s (fun t => completes s t r.h 0 (shake256 (7 :: r.out) 64) ∧
      (t.bays[b]).release.state = .idle ∧ (t.bays[b]).release.cur = none ∧
      (t.bays[b]).release.records = s.bays[b].release.records + 1)) ∧
    ((∀ m ∈ s.trn.tx, m.bay ≠ some b) → r.lost = true → Runs (.releaseEmitComplete b) s (fun t => completes s t r.h 0x800C [] ∧
      oneEntry s t 0x800C)) ∧
    Runs (.releaseSinkFail b) s (fun t => completes s t r.h 0x800C [] ∧ oneEntry s t 0x800C ∧ (t.bays[b]).release.state = .idle ∧
      (t.bays[b]).release.records = s.bays[b].release.records)) ∧
  (∀ (s : State) (h : CmdHdr) (b : BayId) (r : Release), s.bays[b].owner = h.part →
    (∀ d at2, s.bays[b].release.last = some r → s.bays[b].release.state = .idle → s.link.up = true → r.args.sink = .host d at2 →
      Runs (.rlsResend h b.1 r.region) s (fun t => t.qm.held = s.qm.held ∧ (t.bays[b]).release.state = .emitting ∧
        (t.bays[b]).release.cur = some { r with h := h, resend := true, lost := false } ∧
        t.out = s.out ++ [.hostWrite h.part d r.out, .hostWrite h.part at2 r.record])) ∧
    (s.bays[b].release.cur = some r → s.bays[b].release.state = .collecting → Runs (.rlsAbort h b.1) s (fun t => completes s t h 0 [] ∧
      (t.bays[b]).release.state = .discarding ∧ (t.bays[b]).release.cur = some { r with out := [], aborted := true })) ∧
    (s.bays[b].release.cur = none → Runs (.rlsAbort h b.1) s (fun t => t.bays = s.bays ∧ completes s t h 0x8009 [])))

/-- R227, R228, R229, Table 08.7: a tile that passes every check of R227 is converted and counted; the last asks for the signature; one that fails a
check ends the release, which discards the rest of the stream and completes RLS_REFUSED at LAST.
What the spec leaves open here is the model's choice: log entry 30. -/
def Obligations.ReleaseAdmitsOnlyCheckedTiles : Prop :=
  ∀ (s : State) (b : BayId) (p : PortId) (tok : Token) (rest : List Token) (r : Release), Holds s (.bay b .rls) p tok rest →
    inTurn s (.bay b .rls) p (heldPorts s (.bay b .rls)) = true → s.bays[b].release.cur = some r → portCauses s (.bay b .rls) p tok.tile = [] → releaseCauses s b tok.tile = [] →
    let h := tok.tile.hdr
    let check := admitCheck s b r h h.poison
    let bytes := convertTile s b r tok.tile
    (s.bays[b].release.state = .collecting → check = 0 → h.last = false → Runs (.releaseAdmit b p) s (fun t =>
      (getSt t (.bay b .rls)).firing = some { ins := [(p, tok)], outs := [] } ∧ (getIn t (.bay b .rls) p).held = rest ∧ t.dbkIn = s.dbkIn ∧
      (t.bays[b]).release.state = .collecting ∧ (t.bays[b]).release.cur = some { r with
        ends := releaseEnds r h, k := r.k + 1, etype := some h.etype, tiles := r.tiles + 1, out := r.out ++ bytes })) ∧
    (s.bays[b].release.state = .collecting → check = 0 → h.last = true → Runs (.releaseAdmit b p) s (fun t =>
      (t.bays[b]).release.state = .signing ∧ t.rot.signQ = s.rot.signQ ++ [(r.h.part, b)] ∧
      ∃ q : Release, (t.bays[b]).release.cur = some q ∧ q.out = r.out ++ bytes ∧ q.tiles = r.tiles + 1)) ∧
    (s.bays[b].release.state = .collecting → check ≠ 0 → h.last = false → Runs (.releaseAdmit b p) s (fun t => oneEntry s t 0x800B ∧
      (t.bays[b]).release.state = .discarding ∧ (t.bays[b]).release.cur = some { r with failed := check, out := [] })) ∧
    (s.bays[b].release.state = .discarding → h.last = false → Runs (.releaseAdmit b p) s (fun t =>
      (t.bays[b]).release.cur = some r ∧ (t.bays[b]).release.state = .discarding ∧ (getIn t (.bay b .rls) p).held = rest)) ∧
    (s.bays[b].release.state = .discarding → h.last = true → Runs (.releaseAdmit b p) s (fun t => completes s t r.h 0x800B [] ∧
      (t.bays[b]).release.state = .idle ∧ (t.bays[b]).release.refused = s.bays[b].release.refused + 1))

/-- R285, R286, Table 10.10: SCH_LOAD closes its region and keeps the digest; an image that passes every check is staged, any other is named; a
staged image can be discarded. -/
def Sys2Proof.Said.ScheduleLoads : Prop :=
  (∀ (s : State) (h : CmdHdr) (p : TenantId), h.part = tenantPart p →
    (∀ (b : BayId) (len region : Nat) (digest : List Byte), Runs (.schLoad h b.1 len region digest) s (fun t =>
      let st := schLoadStatus s p b.1 len region
      if st = 0 then t.qm.held = s.qm.held ∧
        t.sch.parts[p] = { s.sch.parts[p] with load := some { h := h, bay := b, region := region, len := len, digest := digest } }
      else completes s t h st [] ∧ t.sch.parts[p] = { s.sch.parts[p] with last := st })) ∧
    ((s.sch.parts[p]).staged.isSome = true → (s.sch.parts[p]).swap = none → Runs (.schDiscard h) s (fun t => completes s t h 0 [] ∧
      t.sch.parts[p] = { s.sch.parts[p] with staged := none, stagedRegion := none })) ∧
    ((s.sch.parts[p]).staged = none → Runs (.schDiscard h) s (fun t => t.sch = s.sch ∧ completes s t h 0xA007 []))) ∧
  (∀ (s : State) (p : TenantId) (l : SchLoadReq), (s.sch.parts[p]).load = some l →
    let s1 := modSch s p (fun x => { x with load := none })
    Runs (.schLoadComplete ⟨p, clean⟩) s (fun t => (t.sch.parts[p]).load = none ∧ (t.sch.parts[p]).running = (s.sch.parts[p]).running ∧
      match checkImage s1 p (openRead s1 l.bay l.region l.len) l.digest with
      | (_, some g) => (t.sch.parts[p]).staged = some g ∧ completes s t l.h 0 [] ∧ t.sch.config = false
      | (st, none) => (t.sch.parts[p]).staged = (s.sch.parts[p]).staged ∧ (t.sch.parts[p]).last = st ∧ completes s t l.h st [] ∧
        t.sch.config = true))

/-- R287, Table 10.11: a swap without a time drains at once and takes place at the round boundary; one with a time drains 1 ms before it and is
decided 40 µs before it: at a round boundary the staged image runs, otherwise the swap ends with SWAP_LATE and the image stays staged. -/
def Sys2Proof.Said.ScheduleSwaps : Prop :=
  (∀ (s : State) (h : CmdHdr) (p : TenantId) (t0 : W64), h.part = tenantPart p →
    (schSwapStatus s p t0 = 0 → Runs (.schSwap h t0) s (fun t => t.qm.held = s.qm.held ∧ (t.sch.parts[p]).state = .swapPending ∧
      ∃ q, (t.sch.parts[p]).swap = some q ∧ q.h = h ∧ q.t0 = t0 ∧
        if t0 = 0 ∨ t0.toNat ≤ s.alm.t.toNat + 1000000 then q.draining = true ∧ ∀ r ∈ stationsOf s (tenantPart p), (getSt t r).drain = true
        else q.draining = false ∧ t.bays = s.bays)) ∧
    (schSwapStatus s p t0 ≠ 0 → Runs (.schSwap h t0) s (fun t => t.bays = s.bays ∧ completes s t h (schSwapStatus s p t0) [] ∧
      t.sch.parts[p] = { s.sch.parts[p] with last := schSwapStatus s p t0 })) ∧
    (∀ g, (s.sch.parts[p]).staged = some g → (s.sch.parts[p]).swap = none → usesFailed s g = false → t0.toNat % 10000 = 0 → t0 ≠ 0 →
      t0.toNat < s.alm.t.toNat + 40000 → Runs (.schSwap h t0) s (fun t => completes s t h 0xA008 []))) ∧
  (∀ (s : State) (p : TenantId) (q : SwapReq), (s.sch.parts[p]).swap = some q → q.draining = false → q.t0 ≠ 0 →
    q.t0.toNat ≤ s.alm.t.toNat + 1000000 → Runs (.swapDrainStart p) s (fun t =>
      (∃ d, (t.sch.parts[p]).swap = some d ∧ d.h = q.h ∧ d.t0 = q.t0 ∧ d.draining = true) ∧ (t.red.shares[p]).drain = true ∧
      (getShare t p).drain = true ∧ ∀ r ∈ stationsOf s (tenantPart p), (getSt t r).drain = true)) ∧
  (∀ (s : State) (p : TenantId) (q : SwapReq) (g : Image) (i : Instr), (s.sch.parts[p]).swap = some q → (s.sch.parts[p]).staged = some g →
    (q.t0 = 0 ∧ i = .swapBoundary p ∨ q.t0 ≠ 0 ∧ q.draining = true ∧ q.t0.toNat ≤ s.alm.t.toNat + 40000 ∧ i = .swapCheck p) →
    roundBoundary s p = true → Runs i s (fun t => (t.sch.parts[p]).running = some g ∧ (t.sch.parts[p]).staged = none ∧
      (t.sch.parts[p]).swap = none ∧ (t.sch.parts[p]).state = .running ∧ (t.sch.parts[p]).slot = 0 ∧ (t.sch.parts[p]).step = 0 ∧
      (q.h ∉ s.qm.dead → t.qm.held.getLast? = some { h := q.h, status := 0, result := [] }))) ∧
  (∀ (s : State) (p : TenantId) (q : SwapReq) (g : Image), (s.sch.parts[p]).swap = some q → (s.sch.parts[p]).staged = some g → q.draining = true →
    q.t0 ≠ 0 → q.t0.toNat ≤ s.alm.t.toNat + 40000 → roundBoundary s p = false → Runs (.swapCheck p) s (fun t => completes s t q.h 0xA008 [] ∧
      oneEntry s t 0xA008 ∧ (t.sch.parts[p]).swap = none ∧ (t.sch.parts[p]).staged = some g ∧
      (t.sch.parts[p]).running = (s.sch.parts[p]).running))

/-- R285 to R287: loading, staging and swapping an image.
What the spec leaves open here is the model's choice: log entry 34. -/
def Obligations.ScheduleImagesAreCheckedAndSwapped : Prop := Said.ScheduleLoads ∧ Said.ScheduleSwaps

/-- R260, R270, R271, R281, R283: a slot begins, and with the first slot of a period the next step; SCH_HALT ends the program at the next step;
SCH_PHASE names a share set; a bay with a fenced core runs on its fallback placement, or stays as it is with REMAP_NONE.
What the spec leaves open here is the model's choice: log entry 31. -/
def Obligations.SlotsBeginStepsAndRemaps : Prop :=
  (∀ (s : State) (p : TenantId) (g : Image), slotImage s p = some g →
    let x := s.sch.parts[p]
    x.t0.toNat + 10000 * x.slot ≤ s.alm.t.toNat + 12 →
    (x.slot % g.period ≠ 0 → Runs (.slotStart p) s (fun t => t.sch.parts[p] = { x with slot := x.slot + 1 })) ∧
    (x.slot % g.period = 0 → x.haltPending = false → x.swap = none → g.domain ≤ 1 → Runs (.slotStart p) s (fun t =>
      t.sch.parts[p] = { x with slot := x.slot + 1, step := x.step + 1, stepping := true, timeHold := false, started := true })) ∧
    (x.slot % g.period = 0 → x.haltPending = true → x.state = .running → Runs (.slotStart p) s (fun t =>
      t.sch.parts[p] = { x with slot := x.slot + 1, state := .halted, haltPending := false, halted := true, stepping := false }))) ∧
  (∀ (s : State) (h : CmdHdr) (p : TenantId), h.part = tenantPart p →
    (runsSlots s.sch.parts[p] = true → (s.sch.parts[p]).haltPending = false → Runs (.schHalt h) s (fun t => completes s t h 0 [] ∧
      t.sch.parts[p] = { s.sch.parts[p] with haltPending := true })) ∧
    (∀ (g : Image) (mask : W16) (set : Nat), (s.sch.parts[p]).running = some g → g.hasPlan = false → set ≤ 7 →
      mask.toNat &&& bayMask s h.part = mask.toNat → Runs (.schPhase h mask set) s (fun t => completes s t h 0 [] ∧ ∀ b : BayId,
        (t.bays[b]).mem.shareSet = if bitOf mask.toNat b.1 then set else s.bays[b].mem.shareSet))) ∧
  (∀ (s : State) (b : BayId) (c : Fin 50), s.bays[b].remapping = some c.1 → (∀ k : Fin 50, (s.bays[b].cores[k]).firing = none) →
    (runningImage s s.bays[b].owner = none → s.bays[b].remapQ = [] → Runs (.coreRemap b) s (fun t => (t.bays[b]).remapping = none ∧
      oneEntry s t 0x9005 ∧ (t.bays[b]).cores = s.bays[b].cores)) ∧
    (∀ d : Fin 50, runningImage s s.bays[b].owner = none → s.bays[b].remapQ = [d.1] → (s.bays[b].cores[d]).ctl.st = .fenced →
      (s.bays[b].cores[d]).bind.isSome → Runs (.coreRemap b) s (fun t => (t.bays[b]).remapping = some d.1 ∧ oneEntry s t 0x9005)) ∧
    (∀ (p : TenantId) (g : Image) (f : Fallback), s.bays[b].owner = tenantPart p → (s.sch.parts[p]).running = some g →
      fallbackFor s b g c.1 = some f → Runs (.coreRemap b) s (fun t => oneEntry s t 0x9004 ∧ (t.sch.parts[p]).remapped = true ∧
        (t.sch.parts[p]).running = some { g with conns := fallConns g f, binds := fallBinds g f })))

/-- `t` has sent the whole own message `m` on a channel whose context was `x`: its segments in order, each in one packet marked ECT(0) to the
peer and its next-hop MAC, through an allowed port with a link, from the channel's source ports in turn, sealed at the highest epoch received
under successive sequence numbers, with the segment's data header and bytes; and the message waits for its answer (R86, R89 to R95, R118). -/
def Sys2Proof.Said.SentMessage (s t : State) (x : Chan) (m : TxMsg) : Prop :=
  t.trn.tx = s.trn.tx ++ [{ m with sent := 2 ^ segCount (txLen m) - 1 }] ∧
  ∃ gs : List Datagram, t.out = s.out ++ gs.map Output.wrdPacket ∧ gs.length = segCount (txLen m) ∧
    ∀ (k : Nat) (d : Datagram), gs[k]? = some d → d.mac = x.mac ∧ d.dst = x.peer ∧ d.ecn = 2 ∧ d.srcPort = k % max 1 x.paths ∧
      bitOf x.portMask d.port.1 = true ∧ ethUp s.eth[d.port] d.half = true ∧
      d.payload = sealPacket (x.linkKey.getD []) m.chan x.rxHigh (nextSeq x + k) (wrdHead (if m.put then 2 else 1) {} x.rxHigh
        (word32 (Config.peerChannel m.chan % 2 ^ 18)) m.chan (nextSeq x + k) ++ dataBody m k) (segPlain m k)

/-- R272, R288 to R293: egress sends the next position of a SEND as a Zaled frame or a WRD TILE message; ingress rejects a tile that names no
transfer, counts a late one and adds one in its window to its position; a transfer with tiles missing at its end fails with XFER_FAIL.
What the spec leaves open here is the model's choice: log entry 35. -/
def Obligations.TransfersSendTakeAndFail : Prop :=
  (∀ (s : State) (p : TenantId) (i : Nat) (g : Image) (x : Xfer) (r : XferRun) (b : BayId) (y : Bin) (port : PortId), slotImage s p = some g →
    g.xfers[i]? = some x → findRun s p i = some r → maySend s p g x r = true → r.sent < dataTiles s p g.job x →
    r.sent + 1 < allTiles s p g.job x → xferBin s p x = some (b, y) → y.index = x.bin → x.firstPos + r.sent < y.t → Plain y →
    Sound s.bays[b].mem → posPoison s b y (x.firstPos + r.sent) = 0 → x.port = port.1 →
    let made := fun (t : State) (tile : Tile) => findRun t p i = some { r with sent := r.sent + 1 } ∧
      (t.red.shares[p]).tx = (s.red.shares[p]).tx + 1 ∧ tile.hdr.ring = y.ring ∧ tile.hdr.job = y.job ∧ tile.hdr.tileIndex = r.sent ∧
      tile.hdr.last = false ∧ tile.hdr.sliceOffset = (y.base + (x.firstPos + r.sent) * binCap y) % 2 ^ 48 ∧
      tile.payload = (posBytes s b y (x.firstPos + r.sent)).take (tile.hdr.count * binElem y)
    let id := word32 ((s.sch.parts[p]).step.toNat % 65536 * 65536 + i)
    (∀ c, x.eth = true → getChan s x.chan = some c → c.state = .opened → c.linkKey.isSome → (txPort s c).isSome → c.part = tenantPart p →
      c.holdUntil.toNat ≤ s.alm.t.toNat → nextSeq c + 9 ≤ 2 ^ 32 → (∀ m ∈ s.trn.tx, m.chan ≠ x.chan ∨ m.msgId ≠ id) →
      Runs (.reduceSendTile p i clean) s (fun t => ∃ tile, made t tile ∧ SentMessage s t c {
        chan := x.chan, shelfmark := 0, msgId := id, put := false, winOff := 0, hdr := (tileBytes tile).take 64, bytes := (tileBytes tile).drop 64, bay := none })) ∧
    (∀ key, x.eth = false → jobKey s p g.job = some key → (s.zld[port]).dataSent + 142 ≤ (s.zld[port]).credit + (s.zld[port]).peerFreed →
      (s.zld[port]).replayBuf.length + 142 ≤ 255 →
      Runs (.reduceSendTile p i clean) s (fun t => ∃ tile, made t tile ∧ txSeqOf t port p g.job = nextFrame (txSeqOf s port p g.job) ∧
        let q := nextFrame (txSeqOf s port p g.job)
        let body := frameBody tile
        let fl := frameSeal key {
          epoch := q.epoch, job := g.job, planId := g.planId, step := (s.sch.parts[p]).step.toNat, xfer := i, src := g.rank,
          dst := x.peer, port := port.1, seq := q.seq.getD 0, len := body.length } body
        (t.zld[port]).dataSent = (s.zld[port]).dataSent + fl.length ∧
        (t.zld[port]).replayBuf.length = (s.zld[port]).replayBuf.length + fl.length ∧ t.out.length = s.out.length + fl.length))) ∧
  (∀ (s : State) (q : RedTile) (rest : List RedTile), s.red.inq = q :: rest →
    (recvOf s q.part q = none → (q.planId, q.xfer) ∉ (s.red.shares[q.part]).rejects → Runs (.reduceIngressTile clean) s (fun t =>
      oneEntry s t 0xA016 ∧ t.red.inq = rest ∧ t.bays = s.bays ∧ (t.red.shares[q.part]).rejects = (q.planId, q.xfer) :: (s.red.shares[q.part]).rejects)) ∧
    (recvOf s q.part q = none → (q.planId, q.xfer) ∈ (s.red.shares[q.part]).rejects → Runs (.reduceIngressTile clean) s (fun t =>
      t.dbkIn = s.dbkIn ∧ t.red.inq = rest ∧ t.bays = s.bays)) ∧
    (∀ g x, recvOf s q.part q = some (g, x) → tileTime s q.part g x q = .late → Runs (.reduceIngressTile clean) s (fun t => t.red.inq = rest ∧
      (t.red.shares[q.part]).late = (s.red.shares[q.part]).late + 1 ∧ t.dbkIn = s.dbkIn ∧ t.bays = s.bays)) ∧
    (∀ g x n b y, recvOf s q.part q = some (g, x) → tileTime s q.part g x q = .inStep n → (runOf s q.part q.xfer n).1.got = [] →
      (runOf s q.part q.xfer n).1.ended = false → redBegins s q.part = true → q.tile.hdr.tileIndex < dataTiles s q.part g.job x →
      dataTileOk s q.part x q.tile = some (b, y) → y.index = x.bin → Plain y → Sound s.bays[b].mem → q.tile.hdr.poison = false →
      q.tile.hdr.sparse = false → canonicalOk (binRing s y) q.tile = true → payloadShapeOk (binRing s y).size q.tile = true →
      Runs (.reduceIngressTile clean) s (fun t => t.red.inq = rest ∧ (t.red.shares[q.part]).rx = (s.red.shares[q.part]).rx + 1 ∧
        posBytes t b y (x.firstPos + q.tile.hdr.tileIndex) = combined s y (ringAdd (binRing s y))
          (posBytes s b y (x.firstPos + q.tile.hdr.tileIndex)) (tileVals s y q.tile)))) ∧
  (∀ (s : State) (p : TenantId) (i : Nat) (g : Image) (x : Xfer) (r : XferRun) (e : Instr), slotImage s p = some g → g.xfers[i]? = some x →
    findRun s p i = some r → r.ended = false → (s.sch.parts[p]).stepping = true →
    (x.send = false ∧ xferTo (stepNow s p g) x ≤ s.alm.t.toNat ∧ e = .xferRecvEnd p i ∨
      x.send = true ∧ xferTo (stepNow s p g) x < s.alm.t.toNat + g.guardNs ∧ e = .xferSendCutoff p i) →
    let n := allTiles s p g.job x
    let whole := if x.send then n ≤ r.sent else ∀ k < n, k ∈ r.got
    (whole → Runs e s (fun t => findRun t p i = some { r with ended := true } ∧ t.red.shares = s.red.shares ∧ t.dbkIn = s.dbkIn)) ∧
    (¬ whole → Runs e s (fun t => findRun t p i = some { r with ended := true } ∧
      (t.red.shares[p]).fail = (s.red.shares[p]).fail + 1 ∧ ∃ l v, t.dbkIn = s.dbkIn ++ l ++ [v] ∧ v.2.code = 0xA015)))

/-! ## The whole machine -/

/-- The block takes the command at the front of its queue and runs it on the state with the queue's rest. -/
def Obligations.StepRunsTheFrontCommand : Prop :=
  ∀ (s : State) (c : Instr) (rest : List Instr),
    Sys2Proof.Machine.step { s with pending := c :: rest } = Sys2Proof.Machine.exec c { s with pending := rest }

/-- The model's choice (notes/assumptions/2.md): an empty queue lets one tick of the almanac clock pass. T moves by 0, 1 or 2, by 1 where no
increment is due to be inserted or withheld (R263); nothing else changes, and nothing at all while the device is held in reset. -/
def Obligations.EmptyQueueLetsOneTickPass : Prop :=
  ∀ s : State, s.pending = [] →
    (s.pow.inReset = true → Sys2Proof.Machine.step s = .next s) ∧
    (s.pow.inReset = false → ∃ t, Sys2Proof.Machine.step s = .next t ∧ ∃ (d : Nat) (r : Int), d ≤ 2 ∧
      t = { s with alm := { s.alm with t := s.alm.t + word64 d, trimAcc := r } } ∧
      r = s.alm.trimAcc + s.alm.trim - 256000000000 * ((d : Int) - 1) ∧
      (-256000000000 < s.alm.trimAcc + s.alm.trim → s.alm.trimAcc + s.alm.trim < 256000000000 → d = 1))


/-- R244, R245: decoding the word of a kernel instruction gives it back with every field, and a word that decodes is the word of its
instruction: none has two, and no bit of a word is dropped. -/
def Obligations.KernelDecodeOfEncodeIsIdentity : Prop :=
  (∀ (i : Instr) (c : CoreId) (w : W32), kernelCore i = some c → kernelFieldsOk i = true → encodeKernel i = some w →
    decodeKernel c w = some i) ∧
  (∀ i : Instr, (kernelCore i).isSome = (encodeKernel i).isSome) ∧
  (∀ (i : Instr) (c : CoreId) (w : W32), decodeKernel c w = some i → kernelCore i = some c ∧ kernelFieldsOk i = true ∧ encodeKernel i = some w)

namespace Sys2Proof.Said

/-- No daybook queue holds more entries than R433 gives it. -/
def DaybooksFit (s : State) : Prop := ∀ p : PartId, (s.dbk[p]).entries.length ≤ 1024

/-- The stack and the bay store of every bay are in canonical form: addresses strictly rising, no zero byte listed. -/
def MemoriesCanonical (s : State) : Prop := ∀ b : BayId, Memory.wf (s.bays[b]).mem.dram ∧ Memory.wf (s.bays[b]).mem.store

end Sys2Proof.Said

/-- R433: no step makes a daybook queue hold more than 1,024 entries. -/
def Obligations.StepKeepsDaybooks : Prop :=
  ∀ s t : State, DaybooksFit s → Sys2Proof.Machine.step s = .next t → DaybooksFit t

/-- Every step keeps the canonical form of every stack and bay store. -/
def Obligations.StepKeepsMemories : Prop :=
  ∀ s t : State, MemoriesCanonical s → Sys2Proof.Machine.step s = .next t → MemoriesCanonical t

/-- R238, R331, R334, R433: what reset leaves. The two invariants hold; every bay is the management partition's, every partition FREE with
generation 0, every daybook empty from sequence number 0, every core's registers zero but for p0, every modulus register not VALID. -/
def Obligations.ResetLeavesTheStatedValues : Prop :=
  let s := Sys2Proof.Machine.State.reset
  DaybooksFit s ∧ MemoriesCanonical s ∧ s.pending = [] ∧
  (∀ b : BayId, s.bays[b].owner = mgmt) ∧
  (∀ p : TenantId, (getPart s p).state = .free ∧ (getPart s p).gen = 0) ∧
  (∀ p : PartId, (s.dbk[p]).entries = [] ∧ (s.dbk[p]).next = 0 ∧ (s.dbk[p]).lost = 0) ∧
  (∀ (c : CoreId) (r : BitVec 6) (v : Fin 32) (i : Fin 32) (m : Fin 8) (p : BitVec 3), coreS (getCore s c) r = 0 ∧
    ((getCore s c).v[v])[i] = 0 ∧ ((getCore s c).m[m]).valid = false ∧ coreP (getCore s c) p = if p = 0 then BitVec.allOnes 64 else 0)

/-- No command touches the queue of waiting commands, and what has left the package stays sent: `out` only grows.
What the spec leaves open here is the model's choice: log entry 11. -/
def Obligations.ExecKeepsTheQueue : Prop :=
  ∀ (s t : State) (i : Instr), Sys2Proof.Machine.exec i s = .next t → t.pending = s.pending ∧ s.out <+: t.out

namespace Sys2Proof.Said

/-- The hub's own registers, whose blocks no command of a bay, of Intake, of a channel or of the schedule unit writes. -/
def hubSame (s t : State) : Prop :=
  t.scratch = s.scratch ∧ t.locks = s.locks ∧ t.lane = s.lane ∧ t.alm = s.alm ∧ t.nvm = s.nvm ∧ t.dbk = s.dbk ∧ t.dbg = s.dbg ∧
    t.coreSel = s.coreSel ∧ t.link = s.link ∧ t.pow = s.pow ∧ t.zld = s.zld ∧ t.zrx = s.zrx

/-- A kernel instruction, a firing's events, or a command or event of a station, of bay memory, of Intake, of a channel or of the schedule unit. -/
def outsideHub (i : Instr) : Bool :=
  (encodeKernel i).isSome || (match i with
    | .illegalInstruction .. | .watchdog .. | .fireClaim .. | .tendComplete .. | .dmaComplete .. => true
    | .stationControlArrive .. | .stall .. | .coreFault .. | .stationFault .. | .tokenArrive .. | .creditArrive .. | .firingEnd .. => true
    | .frameReceive .. | .wrdPacketReceive | .contextFetchComplete .. | .oldEpochExpiry .. | .messageTimeout .. | .putWriteComplete .. => true
    | .chanCreate .. | .chanKey .. | .chanPin .. | .chanReset .. | .chanFree .. | .winOpen .. | .winClose .. | .winRevoke .. => true
    | .windowExpiry .. | .pseudoChannelFence .. | .patrolScrubRead .. | .selfRefreshEnter .. | .binAddTile .. | .tileAddComplete .. => true
    | .scrubZeroComplete .. | .binAlloc .. | .binSeal .. | .binCombine .. | .binCombineComplete .. | .binDiscard .. | .binFree .. => true
    | .binInFlightDrained .. | .binReadEmit .. | .binStreamApply .. | .gleanOpen .. | .gleanShares .. | .gleanExclude .. => true
    | .gleanFinish .. | .gleanAbort .. | .reconstructionComplete .. | .maskPositionEmit .. | .maskingComplete .. => true
    | .latParamLoad .. | .paramConstantsComplete .. | .latParamUnload .. | .latKeyBind .. | .keyCheckComplete .. | .latKeyUnbind .. => true
    | .latticeGather .. | .latticeCompute .. | .latticeSamplesReady .. | .latticeEmit .. | .startupTestComplete .. | .rngDataRead => true
    | .nseParamLoad .. | .noiseDraw .. | .noiseExport .. | .noiseImport .. | .noiseClose .. | .noiseAddTile .. | .noiseSampleTile .. => true
    | .rlsOpen .. | .releaseAdmit .. | .releaseSigned .. | .releaseEmitComplete .. | .releaseSinkFail .. | .rlsResend .. | .rlsAbort .. => true
    | .schLoad .. | .schLoadComplete .. | .schDiscard .. | .schSwap .. | .swapDrainStart .. | .swapCheck .. | .swapBoundary .. => true
    | .schPhase .. | .schHalt .. | .slotStart .. | .coreRemap .. => true
    | _ => false)

end Sys2Proof.Said

/-- What each family leaves as it was: a command outside the hub's own blocks leaves their registers, page locks, daybooks, host link and power
state alone; an almanac read or edge changes only the almanac; a power measurement only power, bay clocks and fallow loads, no memory; a
mailbox command on keys, jobs, reports or firmware only the root of trust's state and the entropy it draws. -/
def Obligations.CommandsLeaveOtherUnitsAlone : Prop :=
  (∀ (s t : State) (i : Instr), outsideHub i = true → Sys2Proof.Machine.exec i s = .next t → hubSame s t) ∧
  (∀ (s t : State) (i : Instr), i = .almTimeRead ∨ i = .almCapRead ∨ i = .ppsEdge ∨ i = .ppsWindowMissed → Sys2Proof.Machine.exec i s = .next t →
    { t with alm := s.alm, out := s.out, dbkIn := s.dbkIn } = s) ∧
  (∀ (s t : State) (i : Instr) (b : BayId) (r : Fin 7) (n : Nat) (l : List Nat) (lg : Bool),
    i = .railWarn r n ∨ i = .railInTolerance r ∨ i = .budgetThrottle b ∨ i = .budgetRecover b ∨ i = .coolantHigh ⟨n, lg⟩ ∨ i = .governorEvaluate l ∨
      i = .levellerAdjust l → Sys2Proof.Machine.exec i s = .next t →
    sameMemory s t ∧ { t with pow := s.pow, bays := s.bays, dbkIn := s.dbkIn } = s) ∧
  (∀ (s t : State) (i : Instr) (p n : Nat) (l m : List Byte) (f : FwImage),
    i = .identityGet ∨ i = .attest p l ∨ i = .debugEnable p ∨ i = .jobKeyWrap p l ∨ i = .jobKeyAccept p l ∨ i = .keyLoad p l ∨
      i = .keyExport p n ∨ i = .ownerKeyLoad p l m ∨ i = .fwUpdate n f ∨ i = .fwSvnCommit n →
    Sys2Proof.Machine.exec i s = .next t →
    { t with rot := s.rot, rng := s.rng, dbkIn := s.dbkIn, out := s.out, free := s.free } = s)
end

