-- ==== Sys2Proof/Laws/Memory.lean ====
section
/-! SUPPORT. Bytes, numbers and memories: every memory operation keeps the canonical form, and what a byte reads after each. -/

namespace Sys2Proof.Machine

/-! ## Bytes and numbers -/

theorem ofLe_lt (l : List Byte) : ofLe l < 256 ^ l.length := by
  induction l with
  | nil => simp [ofLe]
  | cons b t ih =>
    simp only [ofLe, List.length_cons, Nat.pow_succ]
    have := b.isLt
    omega

theorem leBytes_length (n x : Nat) : (leBytes n x).length = n := by
  induction n generalizing x with
  | zero => rfl
  | succ n ih => simp [leBytes, ih]

theorem ofLe_leBytes (n x : Nat) : ofLe (leBytes n x) = x % 256 ^ n := by
  induction n generalizing x with
  | zero => simp [leBytes, ofLe, Nat.mod_one]
  | succ n ih =>
    simp only [leBytes, ofLe, ih, byteOf, BitVec.toNat_ofNat]
    rw [show 256 ^ (n + 1) = 256 * 256 ^ n from by rw [Nat.pow_succ, Nat.mul_comm], Nat.mod_mul]

theorem chunksAux_length_le (n : Nat) (f : Nat) (l c : List α) (h : c ∈ chunksAux n f l) : c.length ≤ n := by
  induction f generalizing l with
  | zero => simp [chunksAux] at h
  | succ f ih =>
    cases l with
    | nil => simp [chunksAux] at h
    | cons a t =>
      simp only [chunksAux, List.mem_cons] at h
      rcases h with rfl | h
      · exact List.length_take_le ..
      · exact ih _ h

theorem chunks_length_le (n : Nat) (l c : List α) (h : c ∈ chunks n l) : c.length ≤ n := chunksAux_length_le n _ l c h

/-- Elements of `size` bytes are below 256 ^ size. -/
theorem readElems_lt (p : List Byte) (off size n e : Nat) (h : e ∈ readElems p off size n) : e < 256 ^ size := by
  simp only [readElems, List.mem_map] at h
  obtain ⟨c, hc, rfl⟩ := h
  exact Nat.lt_of_lt_of_le (ofLe_lt c) (Nat.pow_le_pow_right (by decide) (chunks_length_le _ _ _ hc))

theorem padTo_length (n : Nat) (bs : List Byte) : (padTo n bs).length = n := by
  simp only [padTo, List.length_append, List.length_take, List.length_replicate]; omega

/-! ## Memories -/

/-- What a memory reads at an address, cell by cell. -/
theorem memGet_cons (c : Host.Cell) (m : Mem) (a : Nat) : memGet (c :: m) a = if c.1 = a then c.2 else memGet m a := by
  simp only [memGet, lookup, List.find?_cons]
  by_cases h : c.1 = a
  · simp [h]
  · rw [if_neg h, beq_eq_false_iff_ne.2 h]

@[simp] theorem memGet_nil (a : Nat) : memGet [] a = 0 := rfl

/-- A byte that no cell lists reads 0. -/
theorem memGet_none (m : Mem) (a : Nat) (h : ∀ c ∈ m, c.1 ≠ a) : memGet m a = 0 := by
  induction m with
  | nil => rfl
  | cons c t ih =>
    rw [memGet_cons, if_neg (h c (List.mem_cons_self ..))]
    exact ih (fun x hx => h x (List.mem_cons_of_mem _ hx))

/-- Cells that do not list an address do not matter to it. -/
theorem memGet_append_right (m n : Mem) (a : Nat) (h : ∀ c ∈ m, c.1 ≠ a) : memGet (m ++ n) a = memGet n a := by
  induction m with
  | nil => rfl
  | cons c t ih =>
    rw [List.cons_append, memGet_cons, if_neg (h c (List.mem_cons_self ..))]
    exact ih (fun x hx => h x (List.mem_cons_of_mem _ hx))

theorem memGet_append_left (m n : Mem) (a : Nat) (h : ∀ c ∈ n, c.1 ≠ a) : memGet (m ++ n) a = memGet m a := by
  induction m with
  | nil => rw [List.nil_append, memGet_none n a h]; rfl
  | cons c t ih => rw [List.cons_append, memGet_cons, memGet_cons, ih]

theorem memGet_filter (m : Mem) (p : Nat → Bool) (a : Nat) : memGet (m.filter (fun c => p c.1)) a = if p a then memGet m a else 0 := by
  induction m with
  | nil => simp
  | cons c t ih =>
    by_cases hp : p c.1
    · rw [List.filter_cons_of_pos (by simpa using hp), memGet_cons, memGet_cons, ih]
      by_cases hc : c.1 = a
      · subst hc; simp [hp]
      · simp [hc]
    · rw [List.filter_cons_of_neg (by simpa using hp), memGet_cons, ih]
      by_cases hc : c.1 = a
      · subst hc; simp [hp]
      · simp [hc]

theorem cellsOf_addr (bs : List Byte) (a : Nat) (c : Host.Cell) (h : c ∈ cellsOf a bs) : a ≤ c.1 ∧ c.1 < a + bs.length := by
  induction bs generalizing a with
  | nil => simp [cellsOf] at h
  | cons b t ih =>
    simp only [cellsOf] at h
    split at h
    · have := ih _ h; simp only [List.length_cons]; omega
    · rcases List.mem_cons.1 h with rfl | h
      · simp
      · have := ih _ h; simp only [List.length_cons]; omega

theorem cellsOf_wf (bs : List Byte) (a : Nat) : Memory.wf (cellsOf a bs) := by
  induction bs generalizing a with
  | nil => exact ⟨List.Pairwise.nil, by simp [cellsOf]⟩
  | cons b t ih =>
    simp only [cellsOf]
    split
    · exact ih _
    · rename_i hb
      refine ⟨List.Pairwise.cons (fun c hc => ?_) (ih _).1, fun c hc => ?_⟩
      · have := cellsOf_addr t _ c hc; omega
      · rcases List.mem_cons.1 hc with rfl | hc
        · exact hb
        · exact (ih _).2 c hc

theorem memGet_cellsOf (bs : List Byte) (a x : Nat) :
    memGet (cellsOf a bs) x = if a ≤ x ∧ x < a + bs.length then bs.getD (x - a) 0 else 0 := by
  induction bs generalizing a with
  | nil => simp [cellsOf]
  | cons b t ih =>
    simp only [cellsOf]
    split
    · rename_i hb
      rw [ih, List.length_cons]
      by_cases h : a = x
      · subst h; subst hb; simp
      · have : x - a = (x - (a + 1)) + 1 ∨ x < a := by omega
        rcases this with h2 | h2
        · rw [h2, List.getD_cons_succ]; congr 1; apply propext; omega
        · rw [if_neg (by omega), if_neg (by omega)]
    · rw [memGet_cons, ih, List.length_cons]
      by_cases h : a = x
      · subst h; simp
      · rw [if_neg h]
        have : x - a = (x - (a + 1)) + 1 ∨ x < a := by omega
        rcases this with h2 | h2
        · rw [h2, List.getD_cons_succ]; congr 1; apply propext; omega
        · rw [if_neg (by omega), if_neg (by omega)]

/-- A write stores exactly its bytes. -/
theorem memGet_memWrite (m : Mem) (a : Nat) (bs : List Byte) (x : Nat) :
    memGet (memWrite m a bs) x = if a ≤ x ∧ x < a + bs.length then bs.getD (x - a) 0 else memGet m x := by
  have lo : memGet (m.filter (fun c => decide (c.1 < a))) x = if x < a then memGet m x else 0 := by
    simpa using memGet_filter m (fun k => decide (k < a)) x
  have hi : memGet (m.filter (fun c => decide (a + bs.length ≤ c.1))) x = if a + bs.length ≤ x then memGet m x else 0 := by
    simpa using memGet_filter m (fun k => decide (a + bs.length ≤ k)) x
  have inLo : ∀ c ∈ m.filter (fun c => decide (c.1 < a)), c.1 < a := fun c hc => by simpa using (List.mem_filter.1 hc).2
  have inHi : ∀ c ∈ m.filter (fun c => decide (a + bs.length ≤ c.1)), a + bs.length ≤ c.1 := fun c hc => by simpa using (List.mem_filter.1 hc).2
  rw [memWrite]
  by_cases h1 : x < a
  · rw [memGet_append_left _ _ _ (fun c hc => by have := inHi c hc; omega),
      memGet_append_left _ _ _ (fun c hc => by have := cellsOf_addr bs a c hc; omega), lo, if_pos h1, if_neg (by omega)]
  · by_cases h2 : x < a + bs.length
    · rw [memGet_append_left _ _ _ (fun c hc => by have := inHi c hc; omega),
        memGet_append_right _ _ _ (fun c hc => by have := inLo c hc; omega), memGet_cellsOf]
      simp [h2, Nat.le_of_not_lt h1]
    · rw [memGet_append_right _ _ _ (fun c hc => by
        rcases List.mem_append.1 hc with hc | hc
        · have := inLo c hc; omega
        · have := cellsOf_addr bs a c hc; omega), hi, if_pos (by omega), if_neg (by omega)]

/-- A zeroed span reads 0, the rest as before. -/
theorem memGet_memZero (m : Mem) (a n x : Nat) : memGet (memZero m a n) x = if a ≤ x ∧ x < a + n then 0 else memGet m x := by
  have h := memGet_filter m (fun k => decide (k < a) || decide (a + n ≤ k)) x
  simp only [memZero]
  rw [h]
  by_cases h1 : x < a <;> by_cases h2 : a + n ≤ x <;> simp [h1, h2]

theorem pairwise_filter (m : Mem) (p : Host.Cell → Bool) (h : m.Pairwise (fun a b => a.1 < b.1)) :
    (m.filter p).Pairwise (fun a b => a.1 < b.1) := List.Pairwise.sublist List.filter_sublist h

theorem filter_wf (m : Mem) (p : Host.Cell → Bool) (h : Memory.wf m) : Memory.wf (m.filter p) :=
  ⟨pairwise_filter m p h.1, fun c hc => h.2 c (List.mem_filter.1 hc).1⟩

/-- A write keeps the canonical form. -/
theorem memWrite_wf (m : Mem) (a : Nat) (bs : List Byte) (h : Memory.wf m) : Memory.wf (memWrite m a bs) := by
  refine ⟨?_, ?_⟩
  · rw [memWrite, List.pairwise_append, List.pairwise_append]
    refine ⟨⟨pairwise_filter m _ h.1, (cellsOf_wf bs a).1, fun x hx y hy => ?_⟩, pairwise_filter m _ h.1, fun x hx y hy => ?_⟩
    · have h1 := (List.mem_filter.1 hx).2; have h2 := cellsOf_addr bs a y hy
      simp only [decide_eq_true_eq] at h1; omega
    · have h1 := (List.mem_filter.1 hy).2
      simp only [decide_eq_true_eq] at h1
      rcases List.mem_append.1 hx with hx | hx
      · have h2 := (List.mem_filter.1 hx).2; simp only [decide_eq_true_eq] at h2; omega
      · have h2 := cellsOf_addr bs a x hx; omega
  · intro c hc
    simp only [memWrite, List.mem_append, List.mem_filter] at hc
    rcases hc with (hc | hc) | hc
    · exact h.2 c hc.1
    · exact (cellsOf_wf bs a).2 c hc
    · exact h.2 c hc.1

theorem memZero_wf (m : Mem) (a n : Nat) (h : Memory.wf m) : Memory.wf (memZero m a n) := filter_wf m _ h

/-- The cells cut from a memory are a memory of their own. -/
theorem memCut_wf (m : Mem) (a n : Nat) (h : Memory.wf m) : Memory.wf (memCut m a n) := by
  refine ⟨?_, ?_⟩
  · rw [memCut, List.pairwise_map]
    refine List.Pairwise.imp_of_mem (fun {x y} hx hy hxy => ?_) (pairwise_filter m _ h.1)
    have h1 := (List.mem_filter.1 hx).2; have h2 := (List.mem_filter.1 hy).2
    simp only [Bool.and_eq_true, decide_eq_true_eq] at h1 h2
    show x.1 - a < y.1 - a
    omega
  · intro c hc
    simp only [memCut, List.mem_map] at hc
    obtain ⟨x, hx, rfl⟩ := hc
    exact h.2 x (List.mem_filter.1 hx).1

/-- Pasting one memory's cells over a span of another keeps the canonical form. -/
theorem memPaste_wf (m : Mem) (a n : Nat) (c : Mem) (h : Memory.wf m) (hc : Memory.wf c) : Memory.wf (memPaste m a n c) := by
  have mem : ∀ y ∈ (c.filter (fun x => x.1 < n)).map (fun x => (a + x.1, x.2)), a ≤ y.1 ∧ y.1 < a + n ∧ y.2 ≠ 0 := by
    intro y hy
    simp only [List.mem_map] at hy
    obtain ⟨x, hx, rfl⟩ := hy
    have h1 := (List.mem_filter.1 hx).2
    simp only [decide_eq_true_eq] at h1
    exact ⟨by show a ≤ a + x.1; omega, by show a + x.1 < a + n; omega, hc.2 x (List.mem_filter.1 hx).1⟩
  refine ⟨?_, ?_⟩
  · rw [memPaste, List.pairwise_append, List.pairwise_append]
    refine ⟨⟨pairwise_filter m _ h.1, ?_, fun x hx y hy => ?_⟩, pairwise_filter m _ h.1, fun x hx y hy => ?_⟩
    · rw [List.pairwise_map]
      exact List.Pairwise.imp (fun {x y} hxy => by show a + x.1 < a + y.1; omega) (pairwise_filter c _ hc.1)
    · have h1 := (List.mem_filter.1 hx).2; have h2 := (mem y hy).1
      simp only [decide_eq_true_eq] at h1; omega
    · have h1 := (List.mem_filter.1 hy).2
      simp only [decide_eq_true_eq] at h1
      rcases List.mem_append.1 hx with hx | hx
      · have h2 := (List.mem_filter.1 hx).2; simp only [decide_eq_true_eq] at h2; omega
      · have h2 := (mem x hx).2.1; omega
  · intro y hy
    simp only [memPaste, List.mem_append] at hy
    rcases hy with (hy | hy) | hy
    · exact h.2 y (List.mem_filter.1 hy).1
    · exact (mem y hy).2.2
    · exact h.2 y (List.mem_filter.1 hy).1

/-! ## Reading spans -/

theorem memWalk_length (m : Mem) (a n : Nat) : (memWalk m a n).length = n := by
  induction n generalizing m a with
  | zero => cases m <;> rfl
  | succ n ih =>
    cases m with
    | nil => simp [memWalk, ih]
    | cons c t =>
      simp only [memWalk]
      split <;> simp [ih]

theorem memRead_length (m : Mem) (a n : Nat) : (memRead m a n).length = n := memWalk_length _ _ _

/-- The walk gives the bytes that the cells list, for cells in rising order from `a` on. -/
theorem memWalk_getD (m : Mem) (a n i : Nat) (h : m.Pairwise (fun a b => a.1 < b.1)) (lo : ∀ c ∈ m, a ≤ c.1) (hi : i < n) :
    (memWalk m a n).getD i 0 = memGet m (a + i) := by
  induction n generalizing m a i with
  | zero => omega
  | succ n ih =>
    cases m with
    | nil =>
      cases i with
      | zero => simp [memWalk]
      | succ i =>
        rw [memWalk, List.getD_cons_succ, ih [] (a + 1) i List.Pairwise.nil (by simp) (by omega)]; simp
    | cons c t =>
      obtain ⟨h1, h2⟩ := List.pairwise_cons.1 h
      have hc := lo c (List.mem_cons_self ..)
      have lt : ∀ d ∈ t, a + 1 ≤ d.1 := fun d hd => by have := h1 d hd; omega
      simp only [memWalk]
      split
      · rename_i he
        cases i with
        | zero => simp [memGet_cons, he]
        | succ i =>
          rw [List.getD_cons_succ, ih t (a + 1) i h2 lt (by omega), memGet_cons, if_neg (by omega)]
          congr 1; omega
      · rename_i he
        cases i with
        | zero =>
          rw [List.getD_cons_zero, memGet_cons, if_neg (by omega), memGet_none]
          intro d hd; have := lt d hd; omega
        | succ i =>
          rw [List.getD_cons_succ, ih (c :: t) (a + 1) i h (fun d hd => by
            rcases List.mem_cons.1 hd with rfl | hd
            · omega
            · exact lt d hd) (by omega)]
          congr 1; omega

/-- A read of a span in canonical form gives its bytes. -/
theorem memRead_getD (m : Mem) (a n i : Nat) (h : Memory.wf m) (hi : i < n) : (memRead m a n).getD i 0 = memGet m (a + i) := by
  rw [memRead, memWalk_getD _ _ _ _ (pairwise_filter m _ h.1) (fun c hc => by simpa using (List.mem_filter.1 hc).2) hi]
  have := memGet_filter m (fun k => decide (a ≤ k)) (a + i)
  simpa using this

/-! ## The stack and the SRAM of a bay -/

theorem foldl_keeps {α β : Type} (f : β → α → β) (P : β → Prop) (h : ∀ m p, P m → P (f m p)) (l : List α) (m : β) (hm : P m) :
    P (l.foldl f m) := by
  induction l generalizing m with
  | nil => exact hm
  | cons p t ih => exact ih _ (h m p hm)

theorem writePiece_dram_wf (m : BayMem) (p : Nat × List Byte) (h : Memory.wf m.dram) : Memory.wf (writePiece m p).dram := by
  simp only [writePiece]
  split
  · exact h
  · split
    · split
      · exact memWrite_wf _ _ _ h
      · exact h
    · exact memWrite_wf _ _ _ h

theorem dramWrite_wf (m : BayMem) (a : Nat) (bs : List Byte) (h : Memory.wf m.dram) : Memory.wf (dramWrite m a bs).dram := by
  simp only [dramWrite]
  split
  · exact memWrite_wf _ _ _ h
  · exact foldl_keeps writePiece (fun m => Memory.wf m.dram) (fun m p => writePiece_dram_wf m p) _ _ h

theorem dramModify_wf (m : BayMem) (a : Nat) (bs : List Byte) (h : Memory.wf m.dram) : Memory.wf (dramModify m a bs).dram := by
  simp only [dramModify]
  split
  · exact memWrite_wf _ _ _ h
  · refine foldl_keeps _ (fun m : BayMem => Memory.wf m.dram) (fun m p hm => ?_) _ _ h
    show Memory.wf (if lineUe m p.1 then m else _).dram
    split
    · exact hm
    · exact memWrite_wf _ _ _ hm

theorem dramZero_wf (m : BayMem) (a n : Nat) (h : Memory.wf m.dram) : Memory.wf (dramZero m a n).dram := by
  simp only [dramZero]
  split
  · exact memZero_wf _ _ _ h
  · exact filter_wf _ _ h

theorem storeWrite_wf (m : BayMem) (a : Nat) (bs : List Byte) (h : Memory.wf m.store) : Memory.wf (storeWrite m a bs).store := memWrite_wf _ _ _ h
theorem storeClear_wf (m : BayMem) (a n : Nat) (h : Memory.wf m.store) : Memory.wf (storeClear m a n).store := memZero_wf _ _ _ h
theorem localWrite_wf (k : Core) (a : Nat) (bs : List Byte) (h : Memory.wf k.ls) : Memory.wf (localWrite k a bs).ls := memWrite_wf _ _ _ h
theorem localClear_wf (k : Core) (a n : Nat) (h : Memory.wf k.ls) : Memory.wf (localClear k a n).ls := memZero_wf _ _ _ h

/-- A write to a stack in which nothing has failed stores exactly its bytes. -/
theorem memGet_dramWrite (m : BayMem) (a : Nat) (bs : List Byte) (x : Nat) (hp : m.poisoned = []) (hf : m.pcFenced = []) :
    memGet (dramWrite m a bs).dram x = if a ≤ x ∧ x < a + bs.length then bs.getD (x - a) 0 else memGet m.dram x := by
  rw [dramWrite, if_pos ⟨hp, hf⟩]; exact memGet_memWrite _ _ _ _

/-- The memories after reset list nothing, and have the canonical form. -/
theorem reset_memories (b : BayId) : (State.reset.bays[b]).mem.dram = [] ∧ (State.reset.bays[b]).mem.store = [] ∧
    ∀ k : CoreIx, ((State.reset.bays[b]).cores[k]).ls = [] := by
  simp [State.reset]

end Sys2Proof.Machine
end

