-- ==== Sys2Proof/Laws/State.lean ====
section
/-! SUPPORT. What each update of State reads as afterwards: the field it writes, and every field it leaves. -/

namespace Sys2Proof.Machine

/-! ## Vectors -/

@[simp] theorem vmod_same (v : Vector α n) (i : Fin n) (f : α → α) : (vmod v i f)[i] = f v[i] := by simp [vmod]
theorem vmod_other (v : Vector α n) (i j : Fin n) (f : α → α) (h : j ≠ i) : (vmod v i f)[j] = v[j] := by
  simp only [vmod, Fin.getElem_fin]
  rw [Vector.getElem_set_ne]
  exact fun e => h (Fin.ext e.symm)
theorem vmod_get (v : Vector α n) (i j : Fin n) (f : α → α) : (vmod v i f)[j] = if j = i then f v[i] else v[j] := by
  by_cases h : j = i
  · subst h; rw [if_pos rfl, vmod_same]
  · rw [if_neg h, vmod_other _ _ _ _ h]
@[simp] theorem vmod_val (v : Vector α n) (i : Fin n) (f : α → α) : (vmod v i f)[i.1] = f v[i.1] := vmod_same v i f
theorem vmap_get (v : Vector α n) (f : α → β) (i : Fin n) : (vmap v f)[i] = f v[i] := by
  simp [vmap]

/-! ## The field an update leaves -/

@[simp] theorem modBay_pending (s : State) (b : BayId) (f : Bay → Bay) : (modBay s b f).pending = s.pending := rfl
@[simp] theorem modBay_tokFlight (s : State) (b : BayId) (f : Bay → Bay) : (modBay s b f).tokFlight = s.tokFlight := rfl
@[simp] theorem modBay_credFlight (s : State) (b : BayId) (f : Bay → Bay) : (modBay s b f).credFlight = s.credFlight := rfl
@[simp] theorem modBay_locks (s : State) (b : BayId) (f : Bay → Bay) : (modBay s b f).locks = s.locks := rfl
@[simp] theorem modBay_rates (s : State) (b : BayId) (f : Bay → Bay) : (modBay s b f).rates = s.rates := rfl
@[simp] theorem modBay_scratch (s : State) (b : BayId) (f : Bay → Bay) : (modBay s b f).scratch = s.scratch := rfl
@[simp] theorem modBay_trn (s : State) (b : BayId) (f : Bay → Bay) : (modBay s b f).trn = s.trn := rfl
@[simp] theorem modBay_wins (s : State) (b : BayId) (f : Bay → Bay) : (modBay s b f).wins = s.wins := rfl
@[simp] theorem modBay_eth (s : State) (b : BayId) (f : Bay → Bay) : (modBay s b f).eth = s.eth := rfl
@[simp] theorem modBay_lane (s : State) (b : BayId) (f : Bay → Bay) : (modBay s b f).lane = s.lane := rfl
@[simp] theorem modBay_alm (s : State) (b : BayId) (f : Bay → Bay) : (modBay s b f).alm = s.alm := rfl
@[simp] theorem modBay_rng (s : State) (b : BayId) (f : Bay → Bay) : (modBay s b f).rng = s.rng := rfl
@[simp] theorem modBay_sch (s : State) (b : BayId) (f : Bay → Bay) : (modBay s b f).sch = s.sch := rfl
@[simp] theorem modBay_red (s : State) (b : BayId) (f : Bay → Bay) : (modBay s b f).red = s.red := rfl
@[simp] theorem modBay_zld (s : State) (b : BayId) (f : Bay → Bay) : (modBay s b f).zld = s.zld := rfl
@[simp] theorem modBay_zrx (s : State) (b : BayId) (f : Bay → Bay) : (modBay s b f).zrx = s.zrx := rfl
@[simp] theorem modBay_ztx (s : State) (b : BayId) (f : Bay → Bay) : (modBay s b f).ztx = s.ztx := rfl
@[simp] theorem modBay_qm (s : State) (b : BayId) (f : Bay → Bay) : (modBay s b f).qm = s.qm := rfl
@[simp] theorem modBay_rot (s : State) (b : BayId) (f : Bay → Bay) : (modBay s b f).rot = s.rot := rfl
@[simp] theorem modBay_pow (s : State) (b : BayId) (f : Bay → Bay) : (modBay s b f).pow = s.pow := rfl
@[simp] theorem modBay_nvm (s : State) (b : BayId) (f : Bay → Bay) : (modBay s b f).nvm = s.nvm := rfl
@[simp] theorem modBay_dbk (s : State) (b : BayId) (f : Bay → Bay) : (modBay s b f).dbk = s.dbk := rfl
@[simp] theorem modBay_dbkIn (s : State) (b : BayId) (f : Bay → Bay) : (modBay s b f).dbkIn = s.dbkIn := rfl
@[simp] theorem modBay_dbg (s : State) (b : BayId) (f : Bay → Bay) : (modBay s b f).dbg = s.dbg := rfl
@[simp] theorem modBay_coreSel (s : State) (b : BayId) (f : Bay → Bay) : (modBay s b f).coreSel = s.coreSel := rfl
@[simp] theorem modBay_link (s : State) (b : BayId) (f : Bay → Bay) : (modBay s b f).link = s.link := rfl
@[simp] theorem modBay_out (s : State) (b : BayId) (f : Bay → Bay) : (modBay s b f).out = s.out := rfl
@[simp] theorem modBay_free (s : State) (b : BayId) (f : Bay → Bay) : (modBay s b f).free = s.free := rfl

@[simp] theorem modMem_pending (s : State) (b : BayId) (f : BayMem → BayMem) : (modMem s b f).pending = s.pending := rfl
@[simp] theorem modMem_tokFlight (s : State) (b : BayId) (f : BayMem → BayMem) : (modMem s b f).tokFlight = s.tokFlight := rfl
@[simp] theorem modMem_credFlight (s : State) (b : BayId) (f : BayMem → BayMem) : (modMem s b f).credFlight = s.credFlight := rfl
@[simp] theorem modMem_locks (s : State) (b : BayId) (f : BayMem → BayMem) : (modMem s b f).locks = s.locks := rfl
@[simp] theorem modMem_rates (s : State) (b : BayId) (f : BayMem → BayMem) : (modMem s b f).rates = s.rates := rfl
@[simp] theorem modMem_scratch (s : State) (b : BayId) (f : BayMem → BayMem) : (modMem s b f).scratch = s.scratch := rfl
@[simp] theorem modMem_trn (s : State) (b : BayId) (f : BayMem → BayMem) : (modMem s b f).trn = s.trn := rfl
@[simp] theorem modMem_wins (s : State) (b : BayId) (f : BayMem → BayMem) : (modMem s b f).wins = s.wins := rfl
@[simp] theorem modMem_eth (s : State) (b : BayId) (f : BayMem → BayMem) : (modMem s b f).eth = s.eth := rfl
@[simp] theorem modMem_lane (s : State) (b : BayId) (f : BayMem → BayMem) : (modMem s b f).lane = s.lane := rfl
@[simp] theorem modMem_alm (s : State) (b : BayId) (f : BayMem → BayMem) : (modMem s b f).alm = s.alm := rfl
@[simp] theorem modMem_rng (s : State) (b : BayId) (f : BayMem → BayMem) : (modMem s b f).rng = s.rng := rfl
@[simp] theorem modMem_sch (s : State) (b : BayId) (f : BayMem → BayMem) : (modMem s b f).sch = s.sch := rfl
@[simp] theorem modMem_red (s : State) (b : BayId) (f : BayMem → BayMem) : (modMem s b f).red = s.red := rfl
@[simp] theorem modMem_zld (s : State) (b : BayId) (f : BayMem → BayMem) : (modMem s b f).zld = s.zld := rfl
@[simp] theorem modMem_zrx (s : State) (b : BayId) (f : BayMem → BayMem) : (modMem s b f).zrx = s.zrx := rfl
@[simp] theorem modMem_ztx (s : State) (b : BayId) (f : BayMem → BayMem) : (modMem s b f).ztx = s.ztx := rfl
@[simp] theorem modMem_qm (s : State) (b : BayId) (f : BayMem → BayMem) : (modMem s b f).qm = s.qm := rfl
@[simp] theorem modMem_rot (s : State) (b : BayId) (f : BayMem → BayMem) : (modMem s b f).rot = s.rot := rfl
@[simp] theorem modMem_pow (s : State) (b : BayId) (f : BayMem → BayMem) : (modMem s b f).pow = s.pow := rfl
@[simp] theorem modMem_nvm (s : State) (b : BayId) (f : BayMem → BayMem) : (modMem s b f).nvm = s.nvm := rfl
@[simp] theorem modMem_dbk (s : State) (b : BayId) (f : BayMem → BayMem) : (modMem s b f).dbk = s.dbk := rfl
@[simp] theorem modMem_dbkIn (s : State) (b : BayId) (f : BayMem → BayMem) : (modMem s b f).dbkIn = s.dbkIn := rfl
@[simp] theorem modMem_dbg (s : State) (b : BayId) (f : BayMem → BayMem) : (modMem s b f).dbg = s.dbg := rfl
@[simp] theorem modMem_coreSel (s : State) (b : BayId) (f : BayMem → BayMem) : (modMem s b f).coreSel = s.coreSel := rfl
@[simp] theorem modMem_link (s : State) (b : BayId) (f : BayMem → BayMem) : (modMem s b f).link = s.link := rfl
@[simp] theorem modMem_out (s : State) (b : BayId) (f : BayMem → BayMem) : (modMem s b f).out = s.out := rfl
@[simp] theorem modMem_free (s : State) (b : BayId) (f : BayMem → BayMem) : (modMem s b f).free = s.free := rfl

@[simp] theorem modCore_pending (s : State) (c : CoreId) (f : Core → Core) : (modCore s c f).pending = s.pending := rfl
@[simp] theorem modCore_tokFlight (s : State) (c : CoreId) (f : Core → Core) : (modCore s c f).tokFlight = s.tokFlight := rfl
@[simp] theorem modCore_credFlight (s : State) (c : CoreId) (f : Core → Core) : (modCore s c f).credFlight = s.credFlight := rfl
@[simp] theorem modCore_locks (s : State) (c : CoreId) (f : Core → Core) : (modCore s c f).locks = s.locks := rfl
@[simp] theorem modCore_rates (s : State) (c : CoreId) (f : Core → Core) : (modCore s c f).rates = s.rates := rfl
@[simp] theorem modCore_scratch (s : State) (c : CoreId) (f : Core → Core) : (modCore s c f).scratch = s.scratch := rfl
@[simp] theorem modCore_trn (s : State) (c : CoreId) (f : Core → Core) : (modCore s c f).trn = s.trn := rfl
@[simp] theorem modCore_wins (s : State) (c : CoreId) (f : Core → Core) : (modCore s c f).wins = s.wins := rfl
@[simp] theorem modCore_eth (s : State) (c : CoreId) (f : Core → Core) : (modCore s c f).eth = s.eth := rfl
@[simp] theorem modCore_lane (s : State) (c : CoreId) (f : Core → Core) : (modCore s c f).lane = s.lane := rfl
@[simp] theorem modCore_alm (s : State) (c : CoreId) (f : Core → Core) : (modCore s c f).alm = s.alm := rfl
@[simp] theorem modCore_rng (s : State) (c : CoreId) (f : Core → Core) : (modCore s c f).rng = s.rng := rfl
@[simp] theorem modCore_sch (s : State) (c : CoreId) (f : Core → Core) : (modCore s c f).sch = s.sch := rfl
@[simp] theorem modCore_red (s : State) (c : CoreId) (f : Core → Core) : (modCore s c f).red = s.red := rfl
@[simp] theorem modCore_zld (s : State) (c : CoreId) (f : Core → Core) : (modCore s c f).zld = s.zld := rfl
@[simp] theorem modCore_zrx (s : State) (c : CoreId) (f : Core → Core) : (modCore s c f).zrx = s.zrx := rfl
@[simp] theorem modCore_ztx (s : State) (c : CoreId) (f : Core → Core) : (modCore s c f).ztx = s.ztx := rfl
@[simp] theorem modCore_qm (s : State) (c : CoreId) (f : Core → Core) : (modCore s c f).qm = s.qm := rfl
@[simp] theorem modCore_rot (s : State) (c : CoreId) (f : Core → Core) : (modCore s c f).rot = s.rot := rfl
@[simp] theorem modCore_pow (s : State) (c : CoreId) (f : Core → Core) : (modCore s c f).pow = s.pow := rfl
@[simp] theorem modCore_nvm (s : State) (c : CoreId) (f : Core → Core) : (modCore s c f).nvm = s.nvm := rfl
@[simp] theorem modCore_dbk (s : State) (c : CoreId) (f : Core → Core) : (modCore s c f).dbk = s.dbk := rfl
@[simp] theorem modCore_dbkIn (s : State) (c : CoreId) (f : Core → Core) : (modCore s c f).dbkIn = s.dbkIn := rfl
@[simp] theorem modCore_dbg (s : State) (c : CoreId) (f : Core → Core) : (modCore s c f).dbg = s.dbg := rfl
@[simp] theorem modCore_coreSel (s : State) (c : CoreId) (f : Core → Core) : (modCore s c f).coreSel = s.coreSel := rfl
@[simp] theorem modCore_link (s : State) (c : CoreId) (f : Core → Core) : (modCore s c f).link = s.link := rfl
@[simp] theorem modCore_out (s : State) (c : CoreId) (f : Core → Core) : (modCore s c f).out = s.out := rfl
@[simp] theorem modCore_free (s : State) (c : CoreId) (f : Core → Core) : (modCore s c f).free = s.free := rfl

@[simp] theorem modPart_pending (s : State) (p : TenantId) (f : Partition → Partition) : (modPart s p f).pending = s.pending := rfl
@[simp] theorem modPart_bays (s : State) (p : TenantId) (f : Partition → Partition) : (modPart s p f).bays = s.bays := rfl
@[simp] theorem modPart_tokFlight (s : State) (p : TenantId) (f : Partition → Partition) : (modPart s p f).tokFlight = s.tokFlight := rfl
@[simp] theorem modPart_credFlight (s : State) (p : TenantId) (f : Partition → Partition) : (modPart s p f).credFlight = s.credFlight := rfl
@[simp] theorem modPart_locks (s : State) (p : TenantId) (f : Partition → Partition) : (modPart s p f).locks = s.locks := rfl
@[simp] theorem modPart_rates (s : State) (p : TenantId) (f : Partition → Partition) : (modPart s p f).rates = s.rates := rfl
@[simp] theorem modPart_scratch (s : State) (p : TenantId) (f : Partition → Partition) : (modPart s p f).scratch = s.scratch := rfl
@[simp] theorem modPart_trn (s : State) (p : TenantId) (f : Partition → Partition) : (modPart s p f).trn = s.trn := rfl
@[simp] theorem modPart_wins (s : State) (p : TenantId) (f : Partition → Partition) : (modPart s p f).wins = s.wins := rfl
@[simp] theorem modPart_eth (s : State) (p : TenantId) (f : Partition → Partition) : (modPart s p f).eth = s.eth := rfl
@[simp] theorem modPart_lane (s : State) (p : TenantId) (f : Partition → Partition) : (modPart s p f).lane = s.lane := rfl
@[simp] theorem modPart_alm (s : State) (p : TenantId) (f : Partition → Partition) : (modPart s p f).alm = s.alm := rfl
@[simp] theorem modPart_rng (s : State) (p : TenantId) (f : Partition → Partition) : (modPart s p f).rng = s.rng := rfl
@[simp] theorem modPart_sch (s : State) (p : TenantId) (f : Partition → Partition) : (modPart s p f).sch = s.sch := rfl
@[simp] theorem modPart_red (s : State) (p : TenantId) (f : Partition → Partition) : (modPart s p f).red = s.red := rfl
@[simp] theorem modPart_zld (s : State) (p : TenantId) (f : Partition → Partition) : (modPart s p f).zld = s.zld := rfl
@[simp] theorem modPart_zrx (s : State) (p : TenantId) (f : Partition → Partition) : (modPart s p f).zrx = s.zrx := rfl
@[simp] theorem modPart_ztx (s : State) (p : TenantId) (f : Partition → Partition) : (modPart s p f).ztx = s.ztx := rfl
@[simp] theorem modPart_qm (s : State) (p : TenantId) (f : Partition → Partition) : (modPart s p f).qm = s.qm := rfl
@[simp] theorem modPart_pow (s : State) (p : TenantId) (f : Partition → Partition) : (modPart s p f).pow = s.pow := rfl
@[simp] theorem modPart_nvm (s : State) (p : TenantId) (f : Partition → Partition) : (modPart s p f).nvm = s.nvm := rfl
@[simp] theorem modPart_dbk (s : State) (p : TenantId) (f : Partition → Partition) : (modPart s p f).dbk = s.dbk := rfl
@[simp] theorem modPart_dbkIn (s : State) (p : TenantId) (f : Partition → Partition) : (modPart s p f).dbkIn = s.dbkIn := rfl
@[simp] theorem modPart_dbg (s : State) (p : TenantId) (f : Partition → Partition) : (modPart s p f).dbg = s.dbg := rfl
@[simp] theorem modPart_coreSel (s : State) (p : TenantId) (f : Partition → Partition) : (modPart s p f).coreSel = s.coreSel := rfl
@[simp] theorem modPart_link (s : State) (p : TenantId) (f : Partition → Partition) : (modPart s p f).link = s.link := rfl
@[simp] theorem modPart_out (s : State) (p : TenantId) (f : Partition → Partition) : (modPart s p f).out = s.out := rfl
@[simp] theorem modPart_free (s : State) (p : TenantId) (f : Partition → Partition) : (modPart s p f).free = s.free := rfl

@[simp] theorem modRot_pending (s : State) (f : Rot → Rot) : (modRot s f).pending = s.pending := rfl
@[simp] theorem modRot_bays (s : State) (f : Rot → Rot) : (modRot s f).bays = s.bays := rfl
@[simp] theorem modRot_tokFlight (s : State) (f : Rot → Rot) : (modRot s f).tokFlight = s.tokFlight := rfl
@[simp] theorem modRot_credFlight (s : State) (f : Rot → Rot) : (modRot s f).credFlight = s.credFlight := rfl
@[simp] theorem modRot_locks (s : State) (f : Rot → Rot) : (modRot s f).locks = s.locks := rfl
@[simp] theorem modRot_rates (s : State) (f : Rot → Rot) : (modRot s f).rates = s.rates := rfl
@[simp] theorem modRot_scratch (s : State) (f : Rot → Rot) : (modRot s f).scratch = s.scratch := rfl
@[simp] theorem modRot_trn (s : State) (f : Rot → Rot) : (modRot s f).trn = s.trn := rfl
@[simp] theorem modRot_wins (s : State) (f : Rot → Rot) : (modRot s f).wins = s.wins := rfl
@[simp] theorem modRot_eth (s : State) (f : Rot → Rot) : (modRot s f).eth = s.eth := rfl
@[simp] theorem modRot_lane (s : State) (f : Rot → Rot) : (modRot s f).lane = s.lane := rfl
@[simp] theorem modRot_alm (s : State) (f : Rot → Rot) : (modRot s f).alm = s.alm := rfl
@[simp] theorem modRot_rng (s : State) (f : Rot → Rot) : (modRot s f).rng = s.rng := rfl
@[simp] theorem modRot_sch (s : State) (f : Rot → Rot) : (modRot s f).sch = s.sch := rfl
@[simp] theorem modRot_red (s : State) (f : Rot → Rot) : (modRot s f).red = s.red := rfl
@[simp] theorem modRot_zld (s : State) (f : Rot → Rot) : (modRot s f).zld = s.zld := rfl
@[simp] theorem modRot_zrx (s : State) (f : Rot → Rot) : (modRot s f).zrx = s.zrx := rfl
@[simp] theorem modRot_ztx (s : State) (f : Rot → Rot) : (modRot s f).ztx = s.ztx := rfl
@[simp] theorem modRot_qm (s : State) (f : Rot → Rot) : (modRot s f).qm = s.qm := rfl
@[simp] theorem modRot_pow (s : State) (f : Rot → Rot) : (modRot s f).pow = s.pow := rfl
@[simp] theorem modRot_nvm (s : State) (f : Rot → Rot) : (modRot s f).nvm = s.nvm := rfl
@[simp] theorem modRot_dbk (s : State) (f : Rot → Rot) : (modRot s f).dbk = s.dbk := rfl
@[simp] theorem modRot_dbkIn (s : State) (f : Rot → Rot) : (modRot s f).dbkIn = s.dbkIn := rfl
@[simp] theorem modRot_dbg (s : State) (f : Rot → Rot) : (modRot s f).dbg = s.dbg := rfl
@[simp] theorem modRot_coreSel (s : State) (f : Rot → Rot) : (modRot s f).coreSel = s.coreSel := rfl
@[simp] theorem modRot_link (s : State) (f : Rot → Rot) : (modRot s f).link = s.link := rfl
@[simp] theorem modRot_out (s : State) (f : Rot → Rot) : (modRot s f).out = s.out := rfl
@[simp] theorem modRot_free (s : State) (f : Rot → Rot) : (modRot s f).free = s.free := rfl

@[simp] theorem modTrn_pending (s : State) (f : Trn → Trn) : (modTrn s f).pending = s.pending := rfl
@[simp] theorem modTrn_bays (s : State) (f : Trn → Trn) : (modTrn s f).bays = s.bays := rfl
@[simp] theorem modTrn_tokFlight (s : State) (f : Trn → Trn) : (modTrn s f).tokFlight = s.tokFlight := rfl
@[simp] theorem modTrn_credFlight (s : State) (f : Trn → Trn) : (modTrn s f).credFlight = s.credFlight := rfl
@[simp] theorem modTrn_locks (s : State) (f : Trn → Trn) : (modTrn s f).locks = s.locks := rfl
@[simp] theorem modTrn_rates (s : State) (f : Trn → Trn) : (modTrn s f).rates = s.rates := rfl
@[simp] theorem modTrn_scratch (s : State) (f : Trn → Trn) : (modTrn s f).scratch = s.scratch := rfl
@[simp] theorem modTrn_wins (s : State) (f : Trn → Trn) : (modTrn s f).wins = s.wins := rfl
@[simp] theorem modTrn_eth (s : State) (f : Trn → Trn) : (modTrn s f).eth = s.eth := rfl
@[simp] theorem modTrn_lane (s : State) (f : Trn → Trn) : (modTrn s f).lane = s.lane := rfl
@[simp] theorem modTrn_alm (s : State) (f : Trn → Trn) : (modTrn s f).alm = s.alm := rfl
@[simp] theorem modTrn_rng (s : State) (f : Trn → Trn) : (modTrn s f).rng = s.rng := rfl
@[simp] theorem modTrn_sch (s : State) (f : Trn → Trn) : (modTrn s f).sch = s.sch := rfl
@[simp] theorem modTrn_red (s : State) (f : Trn → Trn) : (modTrn s f).red = s.red := rfl
@[simp] theorem modTrn_zld (s : State) (f : Trn → Trn) : (modTrn s f).zld = s.zld := rfl
@[simp] theorem modTrn_zrx (s : State) (f : Trn → Trn) : (modTrn s f).zrx = s.zrx := rfl
@[simp] theorem modTrn_ztx (s : State) (f : Trn → Trn) : (modTrn s f).ztx = s.ztx := rfl
@[simp] theorem modTrn_qm (s : State) (f : Trn → Trn) : (modTrn s f).qm = s.qm := rfl
@[simp] theorem modTrn_rot (s : State) (f : Trn → Trn) : (modTrn s f).rot = s.rot := rfl
@[simp] theorem modTrn_pow (s : State) (f : Trn → Trn) : (modTrn s f).pow = s.pow := rfl
@[simp] theorem modTrn_nvm (s : State) (f : Trn → Trn) : (modTrn s f).nvm = s.nvm := rfl
@[simp] theorem modTrn_dbk (s : State) (f : Trn → Trn) : (modTrn s f).dbk = s.dbk := rfl
@[simp] theorem modTrn_dbkIn (s : State) (f : Trn → Trn) : (modTrn s f).dbkIn = s.dbkIn := rfl
@[simp] theorem modTrn_dbg (s : State) (f : Trn → Trn) : (modTrn s f).dbg = s.dbg := rfl
@[simp] theorem modTrn_coreSel (s : State) (f : Trn → Trn) : (modTrn s f).coreSel = s.coreSel := rfl
@[simp] theorem modTrn_link (s : State) (f : Trn → Trn) : (modTrn s f).link = s.link := rfl
@[simp] theorem modTrn_out (s : State) (f : Trn → Trn) : (modTrn s f).out = s.out := rfl
@[simp] theorem modTrn_free (s : State) (f : Trn → Trn) : (modTrn s f).free = s.free := rfl

@[simp] theorem modRed_pending (s : State) (f : Red → Red) : (modRed s f).pending = s.pending := rfl
@[simp] theorem modRed_bays (s : State) (f : Red → Red) : (modRed s f).bays = s.bays := rfl
@[simp] theorem modRed_tokFlight (s : State) (f : Red → Red) : (modRed s f).tokFlight = s.tokFlight := rfl
@[simp] theorem modRed_credFlight (s : State) (f : Red → Red) : (modRed s f).credFlight = s.credFlight := rfl
@[simp] theorem modRed_locks (s : State) (f : Red → Red) : (modRed s f).locks = s.locks := rfl
@[simp] theorem modRed_rates (s : State) (f : Red → Red) : (modRed s f).rates = s.rates := rfl
@[simp] theorem modRed_scratch (s : State) (f : Red → Red) : (modRed s f).scratch = s.scratch := rfl
@[simp] theorem modRed_trn (s : State) (f : Red → Red) : (modRed s f).trn = s.trn := rfl
@[simp] theorem modRed_wins (s : State) (f : Red → Red) : (modRed s f).wins = s.wins := rfl
@[simp] theorem modRed_eth (s : State) (f : Red → Red) : (modRed s f).eth = s.eth := rfl
@[simp] theorem modRed_lane (s : State) (f : Red → Red) : (modRed s f).lane = s.lane := rfl
@[simp] theorem modRed_alm (s : State) (f : Red → Red) : (modRed s f).alm = s.alm := rfl
@[simp] theorem modRed_rng (s : State) (f : Red → Red) : (modRed s f).rng = s.rng := rfl
@[simp] theorem modRed_sch (s : State) (f : Red → Red) : (modRed s f).sch = s.sch := rfl
@[simp] theorem modRed_zld (s : State) (f : Red → Red) : (modRed s f).zld = s.zld := rfl
@[simp] theorem modRed_zrx (s : State) (f : Red → Red) : (modRed s f).zrx = s.zrx := rfl
@[simp] theorem modRed_ztx (s : State) (f : Red → Red) : (modRed s f).ztx = s.ztx := rfl
@[simp] theorem modRed_qm (s : State) (f : Red → Red) : (modRed s f).qm = s.qm := rfl
@[simp] theorem modRed_rot (s : State) (f : Red → Red) : (modRed s f).rot = s.rot := rfl
@[simp] theorem modRed_pow (s : State) (f : Red → Red) : (modRed s f).pow = s.pow := rfl
@[simp] theorem modRed_nvm (s : State) (f : Red → Red) : (modRed s f).nvm = s.nvm := rfl
@[simp] theorem modRed_dbk (s : State) (f : Red → Red) : (modRed s f).dbk = s.dbk := rfl
@[simp] theorem modRed_dbkIn (s : State) (f : Red → Red) : (modRed s f).dbkIn = s.dbkIn := rfl
@[simp] theorem modRed_dbg (s : State) (f : Red → Red) : (modRed s f).dbg = s.dbg := rfl
@[simp] theorem modRed_coreSel (s : State) (f : Red → Red) : (modRed s f).coreSel = s.coreSel := rfl
@[simp] theorem modRed_link (s : State) (f : Red → Red) : (modRed s f).link = s.link := rfl
@[simp] theorem modRed_out (s : State) (f : Red → Red) : (modRed s f).out = s.out := rfl
@[simp] theorem modRed_free (s : State) (f : Red → Red) : (modRed s f).free = s.free := rfl

@[simp] theorem modSch_pending (s : State) (p : TenantId) (f : SchPart → SchPart) : (modSch s p f).pending = s.pending := rfl
@[simp] theorem modSch_bays (s : State) (p : TenantId) (f : SchPart → SchPart) : (modSch s p f).bays = s.bays := rfl
@[simp] theorem modSch_tokFlight (s : State) (p : TenantId) (f : SchPart → SchPart) : (modSch s p f).tokFlight = s.tokFlight := rfl
@[simp] theorem modSch_credFlight (s : State) (p : TenantId) (f : SchPart → SchPart) : (modSch s p f).credFlight = s.credFlight := rfl
@[simp] theorem modSch_locks (s : State) (p : TenantId) (f : SchPart → SchPart) : (modSch s p f).locks = s.locks := rfl
@[simp] theorem modSch_rates (s : State) (p : TenantId) (f : SchPart → SchPart) : (modSch s p f).rates = s.rates := rfl
@[simp] theorem modSch_scratch (s : State) (p : TenantId) (f : SchPart → SchPart) : (modSch s p f).scratch = s.scratch := rfl
@[simp] theorem modSch_trn (s : State) (p : TenantId) (f : SchPart → SchPart) : (modSch s p f).trn = s.trn := rfl
@[simp] theorem modSch_wins (s : State) (p : TenantId) (f : SchPart → SchPart) : (modSch s p f).wins = s.wins := rfl
@[simp] theorem modSch_eth (s : State) (p : TenantId) (f : SchPart → SchPart) : (modSch s p f).eth = s.eth := rfl
@[simp] theorem modSch_lane (s : State) (p : TenantId) (f : SchPart → SchPart) : (modSch s p f).lane = s.lane := rfl
@[simp] theorem modSch_alm (s : State) (p : TenantId) (f : SchPart → SchPart) : (modSch s p f).alm = s.alm := rfl
@[simp] theorem modSch_rng (s : State) (p : TenantId) (f : SchPart → SchPart) : (modSch s p f).rng = s.rng := rfl
@[simp] theorem modSch_red (s : State) (p : TenantId) (f : SchPart → SchPart) : (modSch s p f).red = s.red := rfl
@[simp] theorem modSch_zld (s : State) (p : TenantId) (f : SchPart → SchPart) : (modSch s p f).zld = s.zld := rfl
@[simp] theorem modSch_zrx (s : State) (p : TenantId) (f : SchPart → SchPart) : (modSch s p f).zrx = s.zrx := rfl
@[simp] theorem modSch_ztx (s : State) (p : TenantId) (f : SchPart → SchPart) : (modSch s p f).ztx = s.ztx := rfl
@[simp] theorem modSch_qm (s : State) (p : TenantId) (f : SchPart → SchPart) : (modSch s p f).qm = s.qm := rfl
@[simp] theorem modSch_rot (s : State) (p : TenantId) (f : SchPart → SchPart) : (modSch s p f).rot = s.rot := rfl
@[simp] theorem modSch_pow (s : State) (p : TenantId) (f : SchPart → SchPart) : (modSch s p f).pow = s.pow := rfl
@[simp] theorem modSch_nvm (s : State) (p : TenantId) (f : SchPart → SchPart) : (modSch s p f).nvm = s.nvm := rfl
@[simp] theorem modSch_dbk (s : State) (p : TenantId) (f : SchPart → SchPart) : (modSch s p f).dbk = s.dbk := rfl
@[simp] theorem modSch_dbkIn (s : State) (p : TenantId) (f : SchPart → SchPart) : (modSch s p f).dbkIn = s.dbkIn := rfl
@[simp] theorem modSch_dbg (s : State) (p : TenantId) (f : SchPart → SchPart) : (modSch s p f).dbg = s.dbg := rfl
@[simp] theorem modSch_coreSel (s : State) (p : TenantId) (f : SchPart → SchPart) : (modSch s p f).coreSel = s.coreSel := rfl
@[simp] theorem modSch_link (s : State) (p : TenantId) (f : SchPart → SchPart) : (modSch s p f).link = s.link := rfl
@[simp] theorem modSch_out (s : State) (p : TenantId) (f : SchPart → SchPart) : (modSch s p f).out = s.out := rfl
@[simp] theorem modSch_free (s : State) (p : TenantId) (f : SchPart → SchPart) : (modSch s p f).free = s.free := rfl

@[simp] theorem modRng_pending (s : State) (f : Rng → Rng) : (modRng s f).pending = s.pending := rfl
@[simp] theorem modRng_bays (s : State) (f : Rng → Rng) : (modRng s f).bays = s.bays := rfl
@[simp] theorem modRng_tokFlight (s : State) (f : Rng → Rng) : (modRng s f).tokFlight = s.tokFlight := rfl
@[simp] theorem modRng_credFlight (s : State) (f : Rng → Rng) : (modRng s f).credFlight = s.credFlight := rfl
@[simp] theorem modRng_locks (s : State) (f : Rng → Rng) : (modRng s f).locks = s.locks := rfl
@[simp] theorem modRng_rates (s : State) (f : Rng → Rng) : (modRng s f).rates = s.rates := rfl
@[simp] theorem modRng_scratch (s : State) (f : Rng → Rng) : (modRng s f).scratch = s.scratch := rfl
@[simp] theorem modRng_trn (s : State) (f : Rng → Rng) : (modRng s f).trn = s.trn := rfl
@[simp] theorem modRng_wins (s : State) (f : Rng → Rng) : (modRng s f).wins = s.wins := rfl
@[simp] theorem modRng_eth (s : State) (f : Rng → Rng) : (modRng s f).eth = s.eth := rfl
@[simp] theorem modRng_lane (s : State) (f : Rng → Rng) : (modRng s f).lane = s.lane := rfl
@[simp] theorem modRng_alm (s : State) (f : Rng → Rng) : (modRng s f).alm = s.alm := rfl
@[simp] theorem modRng_sch (s : State) (f : Rng → Rng) : (modRng s f).sch = s.sch := rfl
@[simp] theorem modRng_red (s : State) (f : Rng → Rng) : (modRng s f).red = s.red := rfl
@[simp] theorem modRng_zld (s : State) (f : Rng → Rng) : (modRng s f).zld = s.zld := rfl
@[simp] theorem modRng_zrx (s : State) (f : Rng → Rng) : (modRng s f).zrx = s.zrx := rfl
@[simp] theorem modRng_ztx (s : State) (f : Rng → Rng) : (modRng s f).ztx = s.ztx := rfl
@[simp] theorem modRng_qm (s : State) (f : Rng → Rng) : (modRng s f).qm = s.qm := rfl
@[simp] theorem modRng_rot (s : State) (f : Rng → Rng) : (modRng s f).rot = s.rot := rfl
@[simp] theorem modRng_pow (s : State) (f : Rng → Rng) : (modRng s f).pow = s.pow := rfl
@[simp] theorem modRng_nvm (s : State) (f : Rng → Rng) : (modRng s f).nvm = s.nvm := rfl
@[simp] theorem modRng_dbk (s : State) (f : Rng → Rng) : (modRng s f).dbk = s.dbk := rfl
@[simp] theorem modRng_dbkIn (s : State) (f : Rng → Rng) : (modRng s f).dbkIn = s.dbkIn := rfl
@[simp] theorem modRng_dbg (s : State) (f : Rng → Rng) : (modRng s f).dbg = s.dbg := rfl
@[simp] theorem modRng_coreSel (s : State) (f : Rng → Rng) : (modRng s f).coreSel = s.coreSel := rfl
@[simp] theorem modRng_link (s : State) (f : Rng → Rng) : (modRng s f).link = s.link := rfl
@[simp] theorem modRng_out (s : State) (f : Rng → Rng) : (modRng s f).out = s.out := rfl
@[simp] theorem modRng_free (s : State) (f : Rng → Rng) : (modRng s f).free = s.free := rfl

@[simp] theorem modPow_pending (s : State) (f : Power → Power) : (modPow s f).pending = s.pending := rfl
@[simp] theorem modPow_bays (s : State) (f : Power → Power) : (modPow s f).bays = s.bays := rfl
@[simp] theorem modPow_tokFlight (s : State) (f : Power → Power) : (modPow s f).tokFlight = s.tokFlight := rfl
@[simp] theorem modPow_credFlight (s : State) (f : Power → Power) : (modPow s f).credFlight = s.credFlight := rfl
@[simp] theorem modPow_locks (s : State) (f : Power → Power) : (modPow s f).locks = s.locks := rfl
@[simp] theorem modPow_rates (s : State) (f : Power → Power) : (modPow s f).rates = s.rates := rfl
@[simp] theorem modPow_scratch (s : State) (f : Power → Power) : (modPow s f).scratch = s.scratch := rfl
@[simp] theorem modPow_trn (s : State) (f : Power → Power) : (modPow s f).trn = s.trn := rfl
@[simp] theorem modPow_wins (s : State) (f : Power → Power) : (modPow s f).wins = s.wins := rfl
@[simp] theorem modPow_eth (s : State) (f : Power → Power) : (modPow s f).eth = s.eth := rfl
@[simp] theorem modPow_lane (s : State) (f : Power → Power) : (modPow s f).lane = s.lane := rfl
@[simp] theorem modPow_alm (s : State) (f : Power → Power) : (modPow s f).alm = s.alm := rfl
@[simp] theorem modPow_rng (s : State) (f : Power → Power) : (modPow s f).rng = s.rng := rfl
@[simp] theorem modPow_sch (s : State) (f : Power → Power) : (modPow s f).sch = s.sch := rfl
@[simp] theorem modPow_red (s : State) (f : Power → Power) : (modPow s f).red = s.red := rfl
@[simp] theorem modPow_zld (s : State) (f : Power → Power) : (modPow s f).zld = s.zld := rfl
@[simp] theorem modPow_zrx (s : State) (f : Power → Power) : (modPow s f).zrx = s.zrx := rfl
@[simp] theorem modPow_ztx (s : State) (f : Power → Power) : (modPow s f).ztx = s.ztx := rfl
@[simp] theorem modPow_qm (s : State) (f : Power → Power) : (modPow s f).qm = s.qm := rfl
@[simp] theorem modPow_rot (s : State) (f : Power → Power) : (modPow s f).rot = s.rot := rfl
@[simp] theorem modPow_nvm (s : State) (f : Power → Power) : (modPow s f).nvm = s.nvm := rfl
@[simp] theorem modPow_dbk (s : State) (f : Power → Power) : (modPow s f).dbk = s.dbk := rfl
@[simp] theorem modPow_dbkIn (s : State) (f : Power → Power) : (modPow s f).dbkIn = s.dbkIn := rfl
@[simp] theorem modPow_dbg (s : State) (f : Power → Power) : (modPow s f).dbg = s.dbg := rfl
@[simp] theorem modPow_coreSel (s : State) (f : Power → Power) : (modPow s f).coreSel = s.coreSel := rfl
@[simp] theorem modPow_link (s : State) (f : Power → Power) : (modPow s f).link = s.link := rfl
@[simp] theorem modPow_out (s : State) (f : Power → Power) : (modPow s f).out = s.out := rfl
@[simp] theorem modPow_free (s : State) (f : Power → Power) : (modPow s f).free = s.free := rfl

@[simp] theorem modZ_pending (s : State) (p : PortId) (f : Zld → Zld) : (modZ s p f).pending = s.pending := rfl
@[simp] theorem modZ_bays (s : State) (p : PortId) (f : Zld → Zld) : (modZ s p f).bays = s.bays := rfl
@[simp] theorem modZ_tokFlight (s : State) (p : PortId) (f : Zld → Zld) : (modZ s p f).tokFlight = s.tokFlight := rfl
@[simp] theorem modZ_credFlight (s : State) (p : PortId) (f : Zld → Zld) : (modZ s p f).credFlight = s.credFlight := rfl
@[simp] theorem modZ_locks (s : State) (p : PortId) (f : Zld → Zld) : (modZ s p f).locks = s.locks := rfl
@[simp] theorem modZ_rates (s : State) (p : PortId) (f : Zld → Zld) : (modZ s p f).rates = s.rates := rfl
@[simp] theorem modZ_scratch (s : State) (p : PortId) (f : Zld → Zld) : (modZ s p f).scratch = s.scratch := rfl
@[simp] theorem modZ_trn (s : State) (p : PortId) (f : Zld → Zld) : (modZ s p f).trn = s.trn := rfl
@[simp] theorem modZ_wins (s : State) (p : PortId) (f : Zld → Zld) : (modZ s p f).wins = s.wins := rfl
@[simp] theorem modZ_eth (s : State) (p : PortId) (f : Zld → Zld) : (modZ s p f).eth = s.eth := rfl
@[simp] theorem modZ_lane (s : State) (p : PortId) (f : Zld → Zld) : (modZ s p f).lane = s.lane := rfl
@[simp] theorem modZ_alm (s : State) (p : PortId) (f : Zld → Zld) : (modZ s p f).alm = s.alm := rfl
@[simp] theorem modZ_rng (s : State) (p : PortId) (f : Zld → Zld) : (modZ s p f).rng = s.rng := rfl
@[simp] theorem modZ_sch (s : State) (p : PortId) (f : Zld → Zld) : (modZ s p f).sch = s.sch := rfl
@[simp] theorem modZ_red (s : State) (p : PortId) (f : Zld → Zld) : (modZ s p f).red = s.red := rfl
@[simp] theorem modZ_zrx (s : State) (p : PortId) (f : Zld → Zld) : (modZ s p f).zrx = s.zrx := rfl
@[simp] theorem modZ_ztx (s : State) (p : PortId) (f : Zld → Zld) : (modZ s p f).ztx = s.ztx := rfl
@[simp] theorem modZ_qm (s : State) (p : PortId) (f : Zld → Zld) : (modZ s p f).qm = s.qm := rfl
@[simp] theorem modZ_rot (s : State) (p : PortId) (f : Zld → Zld) : (modZ s p f).rot = s.rot := rfl
@[simp] theorem modZ_pow (s : State) (p : PortId) (f : Zld → Zld) : (modZ s p f).pow = s.pow := rfl
@[simp] theorem modZ_nvm (s : State) (p : PortId) (f : Zld → Zld) : (modZ s p f).nvm = s.nvm := rfl
@[simp] theorem modZ_dbk (s : State) (p : PortId) (f : Zld → Zld) : (modZ s p f).dbk = s.dbk := rfl
@[simp] theorem modZ_dbkIn (s : State) (p : PortId) (f : Zld → Zld) : (modZ s p f).dbkIn = s.dbkIn := rfl
@[simp] theorem modZ_dbg (s : State) (p : PortId) (f : Zld → Zld) : (modZ s p f).dbg = s.dbg := rfl
@[simp] theorem modZ_coreSel (s : State) (p : PortId) (f : Zld → Zld) : (modZ s p f).coreSel = s.coreSel := rfl
@[simp] theorem modZ_link (s : State) (p : PortId) (f : Zld → Zld) : (modZ s p f).link = s.link := rfl
@[simp] theorem modZ_out (s : State) (p : PortId) (f : Zld → Zld) : (modZ s p f).out = s.out := rfl
@[simp] theorem modZ_free (s : State) (p : PortId) (f : Zld → Zld) : (modZ s p f).free = s.free := rfl

@[simp] theorem modDbk_pending (s : State) (p : PartId) (f : Dbk → Dbk) : (modDbk s p f).pending = s.pending := rfl
@[simp] theorem modDbk_bays (s : State) (p : PartId) (f : Dbk → Dbk) : (modDbk s p f).bays = s.bays := rfl
@[simp] theorem modDbk_tokFlight (s : State) (p : PartId) (f : Dbk → Dbk) : (modDbk s p f).tokFlight = s.tokFlight := rfl
@[simp] theorem modDbk_credFlight (s : State) (p : PartId) (f : Dbk → Dbk) : (modDbk s p f).credFlight = s.credFlight := rfl
@[simp] theorem modDbk_locks (s : State) (p : PartId) (f : Dbk → Dbk) : (modDbk s p f).locks = s.locks := rfl
@[simp] theorem modDbk_rates (s : State) (p : PartId) (f : Dbk → Dbk) : (modDbk s p f).rates = s.rates := rfl
@[simp] theorem modDbk_scratch (s : State) (p : PartId) (f : Dbk → Dbk) : (modDbk s p f).scratch = s.scratch := rfl
@[simp] theorem modDbk_trn (s : State) (p : PartId) (f : Dbk → Dbk) : (modDbk s p f).trn = s.trn := rfl
@[simp] theorem modDbk_wins (s : State) (p : PartId) (f : Dbk → Dbk) : (modDbk s p f).wins = s.wins := rfl
@[simp] theorem modDbk_eth (s : State) (p : PartId) (f : Dbk → Dbk) : (modDbk s p f).eth = s.eth := rfl
@[simp] theorem modDbk_lane (s : State) (p : PartId) (f : Dbk → Dbk) : (modDbk s p f).lane = s.lane := rfl
@[simp] theorem modDbk_alm (s : State) (p : PartId) (f : Dbk → Dbk) : (modDbk s p f).alm = s.alm := rfl
@[simp] theorem modDbk_rng (s : State) (p : PartId) (f : Dbk → Dbk) : (modDbk s p f).rng = s.rng := rfl
@[simp] theorem modDbk_sch (s : State) (p : PartId) (f : Dbk → Dbk) : (modDbk s p f).sch = s.sch := rfl
@[simp] theorem modDbk_red (s : State) (p : PartId) (f : Dbk → Dbk) : (modDbk s p f).red = s.red := rfl
@[simp] theorem modDbk_zld (s : State) (p : PartId) (f : Dbk → Dbk) : (modDbk s p f).zld = s.zld := rfl
@[simp] theorem modDbk_zrx (s : State) (p : PartId) (f : Dbk → Dbk) : (modDbk s p f).zrx = s.zrx := rfl
@[simp] theorem modDbk_ztx (s : State) (p : PartId) (f : Dbk → Dbk) : (modDbk s p f).ztx = s.ztx := rfl
@[simp] theorem modDbk_qm (s : State) (p : PartId) (f : Dbk → Dbk) : (modDbk s p f).qm = s.qm := rfl
@[simp] theorem modDbk_rot (s : State) (p : PartId) (f : Dbk → Dbk) : (modDbk s p f).rot = s.rot := rfl
@[simp] theorem modDbk_pow (s : State) (p : PartId) (f : Dbk → Dbk) : (modDbk s p f).pow = s.pow := rfl
@[simp] theorem modDbk_nvm (s : State) (p : PartId) (f : Dbk → Dbk) : (modDbk s p f).nvm = s.nvm := rfl
@[simp] theorem modDbk_dbkIn (s : State) (p : PartId) (f : Dbk → Dbk) : (modDbk s p f).dbkIn = s.dbkIn := rfl
@[simp] theorem modDbk_dbg (s : State) (p : PartId) (f : Dbk → Dbk) : (modDbk s p f).dbg = s.dbg := rfl
@[simp] theorem modDbk_coreSel (s : State) (p : PartId) (f : Dbk → Dbk) : (modDbk s p f).coreSel = s.coreSel := rfl
@[simp] theorem modDbk_link (s : State) (p : PartId) (f : Dbk → Dbk) : (modDbk s p f).link = s.link := rfl
@[simp] theorem modDbk_out (s : State) (p : PartId) (f : Dbk → Dbk) : (modDbk s p f).out = s.out := rfl
@[simp] theorem modDbk_free (s : State) (p : PartId) (f : Dbk → Dbk) : (modDbk s p f).free = s.free := rfl

@[simp] theorem modQm_pending (s : State) (f : Qm → Qm) : (modQm s f).pending = s.pending := rfl
@[simp] theorem modQm_bays (s : State) (f : Qm → Qm) : (modQm s f).bays = s.bays := rfl
@[simp] theorem modQm_tokFlight (s : State) (f : Qm → Qm) : (modQm s f).tokFlight = s.tokFlight := rfl
@[simp] theorem modQm_credFlight (s : State) (f : Qm → Qm) : (modQm s f).credFlight = s.credFlight := rfl
@[simp] theorem modQm_locks (s : State) (f : Qm → Qm) : (modQm s f).locks = s.locks := rfl
@[simp] theorem modQm_rates (s : State) (f : Qm → Qm) : (modQm s f).rates = s.rates := rfl
@[simp] theorem modQm_scratch (s : State) (f : Qm → Qm) : (modQm s f).scratch = s.scratch := rfl
@[simp] theorem modQm_trn (s : State) (f : Qm → Qm) : (modQm s f).trn = s.trn := rfl
@[simp] theorem modQm_wins (s : State) (f : Qm → Qm) : (modQm s f).wins = s.wins := rfl
@[simp] theorem modQm_eth (s : State) (f : Qm → Qm) : (modQm s f).eth = s.eth := rfl
@[simp] theorem modQm_lane (s : State) (f : Qm → Qm) : (modQm s f).lane = s.lane := rfl
@[simp] theorem modQm_alm (s : State) (f : Qm → Qm) : (modQm s f).alm = s.alm := rfl
@[simp] theorem modQm_rng (s : State) (f : Qm → Qm) : (modQm s f).rng = s.rng := rfl
@[simp] theorem modQm_sch (s : State) (f : Qm → Qm) : (modQm s f).sch = s.sch := rfl
@[simp] theorem modQm_red (s : State) (f : Qm → Qm) : (modQm s f).red = s.red := rfl
@[simp] theorem modQm_zld (s : State) (f : Qm → Qm) : (modQm s f).zld = s.zld := rfl
@[simp] theorem modQm_zrx (s : State) (f : Qm → Qm) : (modQm s f).zrx = s.zrx := rfl
@[simp] theorem modQm_ztx (s : State) (f : Qm → Qm) : (modQm s f).ztx = s.ztx := rfl
@[simp] theorem modQm_rot (s : State) (f : Qm → Qm) : (modQm s f).rot = s.rot := rfl
@[simp] theorem modQm_pow (s : State) (f : Qm → Qm) : (modQm s f).pow = s.pow := rfl
@[simp] theorem modQm_nvm (s : State) (f : Qm → Qm) : (modQm s f).nvm = s.nvm := rfl
@[simp] theorem modQm_dbk (s : State) (f : Qm → Qm) : (modQm s f).dbk = s.dbk := rfl
@[simp] theorem modQm_dbkIn (s : State) (f : Qm → Qm) : (modQm s f).dbkIn = s.dbkIn := rfl
@[simp] theorem modQm_dbg (s : State) (f : Qm → Qm) : (modQm s f).dbg = s.dbg := rfl
@[simp] theorem modQm_coreSel (s : State) (f : Qm → Qm) : (modQm s f).coreSel = s.coreSel := rfl
@[simp] theorem modQm_link (s : State) (f : Qm → Qm) : (modQm s f).link = s.link := rfl
@[simp] theorem modQm_out (s : State) (f : Qm → Qm) : (modQm s f).out = s.out := rfl
@[simp] theorem modQm_free (s : State) (f : Qm → Qm) : (modQm s f).free = s.free := rfl

@[simp] theorem emitOut_pending (s : State) (o : Output) : (emitOut s o).pending = s.pending := rfl
@[simp] theorem emitOut_bays (s : State) (o : Output) : (emitOut s o).bays = s.bays := rfl
@[simp] theorem emitOut_tokFlight (s : State) (o : Output) : (emitOut s o).tokFlight = s.tokFlight := rfl
@[simp] theorem emitOut_credFlight (s : State) (o : Output) : (emitOut s o).credFlight = s.credFlight := rfl
@[simp] theorem emitOut_locks (s : State) (o : Output) : (emitOut s o).locks = s.locks := rfl
@[simp] theorem emitOut_rates (s : State) (o : Output) : (emitOut s o).rates = s.rates := rfl
@[simp] theorem emitOut_scratch (s : State) (o : Output) : (emitOut s o).scratch = s.scratch := rfl
@[simp] theorem emitOut_trn (s : State) (o : Output) : (emitOut s o).trn = s.trn := rfl
@[simp] theorem emitOut_wins (s : State) (o : Output) : (emitOut s o).wins = s.wins := rfl
@[simp] theorem emitOut_eth (s : State) (o : Output) : (emitOut s o).eth = s.eth := rfl
@[simp] theorem emitOut_lane (s : State) (o : Output) : (emitOut s o).lane = s.lane := rfl
@[simp] theorem emitOut_alm (s : State) (o : Output) : (emitOut s o).alm = s.alm := rfl
@[simp] theorem emitOut_rng (s : State) (o : Output) : (emitOut s o).rng = s.rng := rfl
@[simp] theorem emitOut_sch (s : State) (o : Output) : (emitOut s o).sch = s.sch := rfl
@[simp] theorem emitOut_red (s : State) (o : Output) : (emitOut s o).red = s.red := rfl
@[simp] theorem emitOut_zld (s : State) (o : Output) : (emitOut s o).zld = s.zld := rfl
@[simp] theorem emitOut_zrx (s : State) (o : Output) : (emitOut s o).zrx = s.zrx := rfl
@[simp] theorem emitOut_ztx (s : State) (o : Output) : (emitOut s o).ztx = s.ztx := rfl
@[simp] theorem emitOut_qm (s : State) (o : Output) : (emitOut s o).qm = s.qm := rfl
@[simp] theorem emitOut_rot (s : State) (o : Output) : (emitOut s o).rot = s.rot := rfl
@[simp] theorem emitOut_pow (s : State) (o : Output) : (emitOut s o).pow = s.pow := rfl
@[simp] theorem emitOut_nvm (s : State) (o : Output) : (emitOut s o).nvm = s.nvm := rfl
@[simp] theorem emitOut_dbk (s : State) (o : Output) : (emitOut s o).dbk = s.dbk := rfl
@[simp] theorem emitOut_dbkIn (s : State) (o : Output) : (emitOut s o).dbkIn = s.dbkIn := rfl
@[simp] theorem emitOut_dbg (s : State) (o : Output) : (emitOut s o).dbg = s.dbg := rfl
@[simp] theorem emitOut_coreSel (s : State) (o : Output) : (emitOut s o).coreSel = s.coreSel := rfl
@[simp] theorem emitOut_link (s : State) (o : Output) : (emitOut s o).link = s.link := rfl
@[simp] theorem emitOut_free (s : State) (o : Output) : (emitOut s o).free = s.free := rfl

@[simp] theorem rateMark_pending (s : State) (k : RateKey) : (rateMark s k).pending = s.pending := rfl
@[simp] theorem rateMark_bays (s : State) (k : RateKey) : (rateMark s k).bays = s.bays := rfl
@[simp] theorem rateMark_tokFlight (s : State) (k : RateKey) : (rateMark s k).tokFlight = s.tokFlight := rfl
@[simp] theorem rateMark_credFlight (s : State) (k : RateKey) : (rateMark s k).credFlight = s.credFlight := rfl
@[simp] theorem rateMark_locks (s : State) (k : RateKey) : (rateMark s k).locks = s.locks := rfl
@[simp] theorem rateMark_scratch (s : State) (k : RateKey) : (rateMark s k).scratch = s.scratch := rfl
@[simp] theorem rateMark_trn (s : State) (k : RateKey) : (rateMark s k).trn = s.trn := rfl
@[simp] theorem rateMark_wins (s : State) (k : RateKey) : (rateMark s k).wins = s.wins := rfl
@[simp] theorem rateMark_eth (s : State) (k : RateKey) : (rateMark s k).eth = s.eth := rfl
@[simp] theorem rateMark_lane (s : State) (k : RateKey) : (rateMark s k).lane = s.lane := rfl
@[simp] theorem rateMark_alm (s : State) (k : RateKey) : (rateMark s k).alm = s.alm := rfl
@[simp] theorem rateMark_rng (s : State) (k : RateKey) : (rateMark s k).rng = s.rng := rfl
@[simp] theorem rateMark_sch (s : State) (k : RateKey) : (rateMark s k).sch = s.sch := rfl
@[simp] theorem rateMark_red (s : State) (k : RateKey) : (rateMark s k).red = s.red := rfl
@[simp] theorem rateMark_zld (s : State) (k : RateKey) : (rateMark s k).zld = s.zld := rfl
@[simp] theorem rateMark_zrx (s : State) (k : RateKey) : (rateMark s k).zrx = s.zrx := rfl
@[simp] theorem rateMark_ztx (s : State) (k : RateKey) : (rateMark s k).ztx = s.ztx := rfl
@[simp] theorem rateMark_qm (s : State) (k : RateKey) : (rateMark s k).qm = s.qm := rfl
@[simp] theorem rateMark_rot (s : State) (k : RateKey) : (rateMark s k).rot = s.rot := rfl
@[simp] theorem rateMark_pow (s : State) (k : RateKey) : (rateMark s k).pow = s.pow := rfl
@[simp] theorem rateMark_nvm (s : State) (k : RateKey) : (rateMark s k).nvm = s.nvm := rfl
@[simp] theorem rateMark_dbk (s : State) (k : RateKey) : (rateMark s k).dbk = s.dbk := rfl
@[simp] theorem rateMark_dbkIn (s : State) (k : RateKey) : (rateMark s k).dbkIn = s.dbkIn := rfl
@[simp] theorem rateMark_dbg (s : State) (k : RateKey) : (rateMark s k).dbg = s.dbg := rfl
@[simp] theorem rateMark_coreSel (s : State) (k : RateKey) : (rateMark s k).coreSel = s.coreSel := rfl
@[simp] theorem rateMark_link (s : State) (k : RateKey) : (rateMark s k).link = s.link := rfl
@[simp] theorem rateMark_out (s : State) (k : RateKey) : (rateMark s k).out = s.out := rfl
@[simp] theorem rateMark_free (s : State) (k : RateKey) : (rateMark s k).free = s.free := rfl

@[simp] theorem begun_pending (s : State) (i : Instr) : (begun s i).pending = s.pending := rfl
@[simp] theorem begun_bays (s : State) (i : Instr) : (begun s i).bays = s.bays := rfl
@[simp] theorem begun_tokFlight (s : State) (i : Instr) : (begun s i).tokFlight = s.tokFlight := rfl
@[simp] theorem begun_credFlight (s : State) (i : Instr) : (begun s i).credFlight = s.credFlight := rfl
@[simp] theorem begun_locks (s : State) (i : Instr) : (begun s i).locks = s.locks := rfl
@[simp] theorem begun_rates (s : State) (i : Instr) : (begun s i).rates = s.rates := rfl
@[simp] theorem begun_scratch (s : State) (i : Instr) : (begun s i).scratch = s.scratch := rfl
@[simp] theorem begun_trn (s : State) (i : Instr) : (begun s i).trn = s.trn := rfl
@[simp] theorem begun_wins (s : State) (i : Instr) : (begun s i).wins = s.wins := rfl
@[simp] theorem begun_eth (s : State) (i : Instr) : (begun s i).eth = s.eth := rfl
@[simp] theorem begun_lane (s : State) (i : Instr) : (begun s i).lane = s.lane := rfl
@[simp] theorem begun_alm (s : State) (i : Instr) : (begun s i).alm = s.alm := rfl
@[simp] theorem begun_rng (s : State) (i : Instr) : (begun s i).rng = s.rng := rfl
@[simp] theorem begun_sch (s : State) (i : Instr) : (begun s i).sch = s.sch := rfl
@[simp] theorem begun_red (s : State) (i : Instr) : (begun s i).red = s.red := rfl
@[simp] theorem begun_zld (s : State) (i : Instr) : (begun s i).zld = s.zld := rfl
@[simp] theorem begun_zrx (s : State) (i : Instr) : (begun s i).zrx = s.zrx := rfl
@[simp] theorem begun_ztx (s : State) (i : Instr) : (begun s i).ztx = s.ztx := rfl
@[simp] theorem begun_rot (s : State) (i : Instr) : (begun s i).rot = s.rot := rfl
@[simp] theorem begun_pow (s : State) (i : Instr) : (begun s i).pow = s.pow := rfl
@[simp] theorem begun_nvm (s : State) (i : Instr) : (begun s i).nvm = s.nvm := rfl
@[simp] theorem begun_dbk (s : State) (i : Instr) : (begun s i).dbk = s.dbk := rfl
@[simp] theorem begun_dbkIn (s : State) (i : Instr) : (begun s i).dbkIn = s.dbkIn := rfl
@[simp] theorem begun_dbg (s : State) (i : Instr) : (begun s i).dbg = s.dbg := rfl
@[simp] theorem begun_coreSel (s : State) (i : Instr) : (begun s i).coreSel = s.coreSel := rfl
@[simp] theorem begun_link (s : State) (i : Instr) : (begun s i).link = s.link := rfl
@[simp] theorem begun_out (s : State) (i : Instr) : (begun s i).out = s.out := rfl
@[simp] theorem begun_free (s : State) (i : Instr) : (begun s i).free = s.free := rfl

@[simp] theorem drawFree_pending (s : State) (n : Nat) : (drawFree s n).2.pending = s.pending := rfl
@[simp] theorem drawFree_bays (s : State) (n : Nat) : (drawFree s n).2.bays = s.bays := rfl
@[simp] theorem drawFree_tokFlight (s : State) (n : Nat) : (drawFree s n).2.tokFlight = s.tokFlight := rfl
@[simp] theorem drawFree_credFlight (s : State) (n : Nat) : (drawFree s n).2.credFlight = s.credFlight := rfl
@[simp] theorem drawFree_locks (s : State) (n : Nat) : (drawFree s n).2.locks = s.locks := rfl
@[simp] theorem drawFree_rates (s : State) (n : Nat) : (drawFree s n).2.rates = s.rates := rfl
@[simp] theorem drawFree_scratch (s : State) (n : Nat) : (drawFree s n).2.scratch = s.scratch := rfl
@[simp] theorem drawFree_trn (s : State) (n : Nat) : (drawFree s n).2.trn = s.trn := rfl
@[simp] theorem drawFree_wins (s : State) (n : Nat) : (drawFree s n).2.wins = s.wins := rfl
@[simp] theorem drawFree_eth (s : State) (n : Nat) : (drawFree s n).2.eth = s.eth := rfl
@[simp] theorem drawFree_lane (s : State) (n : Nat) : (drawFree s n).2.lane = s.lane := rfl
@[simp] theorem drawFree_alm (s : State) (n : Nat) : (drawFree s n).2.alm = s.alm := rfl
@[simp] theorem drawFree_rng (s : State) (n : Nat) : (drawFree s n).2.rng = s.rng := rfl
@[simp] theorem drawFree_sch (s : State) (n : Nat) : (drawFree s n).2.sch = s.sch := rfl
@[simp] theorem drawFree_red (s : State) (n : Nat) : (drawFree s n).2.red = s.red := rfl
@[simp] theorem drawFree_zld (s : State) (n : Nat) : (drawFree s n).2.zld = s.zld := rfl
@[simp] theorem drawFree_zrx (s : State) (n : Nat) : (drawFree s n).2.zrx = s.zrx := rfl
@[simp] theorem drawFree_ztx (s : State) (n : Nat) : (drawFree s n).2.ztx = s.ztx := rfl
@[simp] theorem drawFree_qm (s : State) (n : Nat) : (drawFree s n).2.qm = s.qm := rfl
@[simp] theorem drawFree_rot (s : State) (n : Nat) : (drawFree s n).2.rot = s.rot := rfl
@[simp] theorem drawFree_pow (s : State) (n : Nat) : (drawFree s n).2.pow = s.pow := rfl
@[simp] theorem drawFree_nvm (s : State) (n : Nat) : (drawFree s n).2.nvm = s.nvm := rfl
@[simp] theorem drawFree_dbk (s : State) (n : Nat) : (drawFree s n).2.dbk = s.dbk := rfl
@[simp] theorem drawFree_dbkIn (s : State) (n : Nat) : (drawFree s n).2.dbkIn = s.dbkIn := rfl
@[simp] theorem drawFree_dbg (s : State) (n : Nat) : (drawFree s n).2.dbg = s.dbg := rfl
@[simp] theorem drawFree_coreSel (s : State) (n : Nat) : (drawFree s n).2.coreSel = s.coreSel := rfl
@[simp] theorem drawFree_link (s : State) (n : Nat) : (drawFree s n).2.link = s.link := rfl
@[simp] theorem drawFree_out (s : State) (n : Nat) : (drawFree s n).2.out = s.out := rfl

@[simp] theorem logEv_pending (s : State) (p : PartId) (g : Page) (c d0 d1 d2 d3 : Nat) : (logEv s p g c d0 d1 d2 d3).pending = s.pending := rfl
@[simp] theorem logEv_bays (s : State) (p : PartId) (g : Page) (c d0 d1 d2 d3 : Nat) : (logEv s p g c d0 d1 d2 d3).bays = s.bays := rfl
@[simp] theorem logEv_tokFlight (s : State) (p : PartId) (g : Page) (c d0 d1 d2 d3 : Nat) : (logEv s p g c d0 d1 d2 d3).tokFlight = s.tokFlight := rfl
@[simp] theorem logEv_credFlight (s : State) (p : PartId) (g : Page) (c d0 d1 d2 d3 : Nat) : (logEv s p g c d0 d1 d2 d3).credFlight = s.credFlight := rfl
@[simp] theorem logEv_locks (s : State) (p : PartId) (g : Page) (c d0 d1 d2 d3 : Nat) : (logEv s p g c d0 d1 d2 d3).locks = s.locks := rfl
@[simp] theorem logEv_rates (s : State) (p : PartId) (g : Page) (c d0 d1 d2 d3 : Nat) : (logEv s p g c d0 d1 d2 d3).rates = s.rates := rfl
@[simp] theorem logEv_scratch (s : State) (p : PartId) (g : Page) (c d0 d1 d2 d3 : Nat) : (logEv s p g c d0 d1 d2 d3).scratch = s.scratch := rfl
@[simp] theorem logEv_trn (s : State) (p : PartId) (g : Page) (c d0 d1 d2 d3 : Nat) : (logEv s p g c d0 d1 d2 d3).trn = s.trn := rfl
@[simp] theorem logEv_wins (s : State) (p : PartId) (g : Page) (c d0 d1 d2 d3 : Nat) : (logEv s p g c d0 d1 d2 d3).wins = s.wins := rfl
@[simp] theorem logEv_eth (s : State) (p : PartId) (g : Page) (c d0 d1 d2 d3 : Nat) : (logEv s p g c d0 d1 d2 d3).eth = s.eth := rfl
@[simp] theorem logEv_lane (s : State) (p : PartId) (g : Page) (c d0 d1 d2 d3 : Nat) : (logEv s p g c d0 d1 d2 d3).lane = s.lane := rfl
@[simp] theorem logEv_alm (s : State) (p : PartId) (g : Page) (c d0 d1 d2 d3 : Nat) : (logEv s p g c d0 d1 d2 d3).alm = s.alm := rfl
@[simp] theorem logEv_rng (s : State) (p : PartId) (g : Page) (c d0 d1 d2 d3 : Nat) : (logEv s p g c d0 d1 d2 d3).rng = s.rng := rfl
@[simp] theorem logEv_sch (s : State) (p : PartId) (g : Page) (c d0 d1 d2 d3 : Nat) : (logEv s p g c d0 d1 d2 d3).sch = s.sch := rfl
@[simp] theorem logEv_red (s : State) (p : PartId) (g : Page) (c d0 d1 d2 d3 : Nat) : (logEv s p g c d0 d1 d2 d3).red = s.red := rfl
@[simp] theorem logEv_zld (s : State) (p : PartId) (g : Page) (c d0 d1 d2 d3 : Nat) : (logEv s p g c d0 d1 d2 d3).zld = s.zld := rfl
@[simp] theorem logEv_zrx (s : State) (p : PartId) (g : Page) (c d0 d1 d2 d3 : Nat) : (logEv s p g c d0 d1 d2 d3).zrx = s.zrx := rfl
@[simp] theorem logEv_ztx (s : State) (p : PartId) (g : Page) (c d0 d1 d2 d3 : Nat) : (logEv s p g c d0 d1 d2 d3).ztx = s.ztx := rfl
@[simp] theorem logEv_qm (s : State) (p : PartId) (g : Page) (c d0 d1 d2 d3 : Nat) : (logEv s p g c d0 d1 d2 d3).qm = s.qm := rfl
@[simp] theorem logEv_rot (s : State) (p : PartId) (g : Page) (c d0 d1 d2 d3 : Nat) : (logEv s p g c d0 d1 d2 d3).rot = s.rot := rfl
@[simp] theorem logEv_pow (s : State) (p : PartId) (g : Page) (c d0 d1 d2 d3 : Nat) : (logEv s p g c d0 d1 d2 d3).pow = s.pow := rfl
@[simp] theorem logEv_nvm (s : State) (p : PartId) (g : Page) (c d0 d1 d2 d3 : Nat) : (logEv s p g c d0 d1 d2 d3).nvm = s.nvm := rfl
@[simp] theorem logEv_dbk (s : State) (p : PartId) (g : Page) (c d0 d1 d2 d3 : Nat) : (logEv s p g c d0 d1 d2 d3).dbk = s.dbk := rfl
@[simp] theorem logEv_dbg (s : State) (p : PartId) (g : Page) (c d0 d1 d2 d3 : Nat) : (logEv s p g c d0 d1 d2 d3).dbg = s.dbg := rfl
@[simp] theorem logEv_coreSel (s : State) (p : PartId) (g : Page) (c d0 d1 d2 d3 : Nat) : (logEv s p g c d0 d1 d2 d3).coreSel = s.coreSel := rfl
@[simp] theorem logEv_link (s : State) (p : PartId) (g : Page) (c d0 d1 d2 d3 : Nat) : (logEv s p g c d0 d1 d2 d3).link = s.link := rfl
@[simp] theorem logEv_out (s : State) (p : PartId) (g : Page) (c d0 d1 d2 d3 : Nat) : (logEv s p g c d0 d1 d2 d3).out = s.out := rfl
@[simp] theorem logEv_free (s : State) (p : PartId) (g : Page) (c d0 d1 d2 d3 : Nat) : (logEv s p g c d0 d1 d2 d3).free = s.free := rfl

@[simp] theorem logWide_pending (s : State) (ps : List PartId) (g : Page) (c d0 d1 d2 d3 : Nat) : (logWide s ps g c d0 d1 d2 d3).pending = s.pending := rfl
@[simp] theorem logWide_bays (s : State) (ps : List PartId) (g : Page) (c d0 d1 d2 d3 : Nat) : (logWide s ps g c d0 d1 d2 d3).bays = s.bays := rfl
@[simp] theorem logWide_tokFlight (s : State) (ps : List PartId) (g : Page) (c d0 d1 d2 d3 : Nat) : (logWide s ps g c d0 d1 d2 d3).tokFlight = s.tokFlight := rfl
@[simp] theorem logWide_credFlight (s : State) (ps : List PartId) (g : Page) (c d0 d1 d2 d3 : Nat) : (logWide s ps g c d0 d1 d2 d3).credFlight = s.credFlight := rfl
@[simp] theorem logWide_locks (s : State) (ps : List PartId) (g : Page) (c d0 d1 d2 d3 : Nat) : (logWide s ps g c d0 d1 d2 d3).locks = s.locks := rfl
@[simp] theorem logWide_rates (s : State) (ps : List PartId) (g : Page) (c d0 d1 d2 d3 : Nat) : (logWide s ps g c d0 d1 d2 d3).rates = s.rates := rfl
@[simp] theorem logWide_scratch (s : State) (ps : List PartId) (g : Page) (c d0 d1 d2 d3 : Nat) : (logWide s ps g c d0 d1 d2 d3).scratch = s.scratch := rfl
@[simp] theorem logWide_trn (s : State) (ps : List PartId) (g : Page) (c d0 d1 d2 d3 : Nat) : (logWide s ps g c d0 d1 d2 d3).trn = s.trn := rfl
@[simp] theorem logWide_wins (s : State) (ps : List PartId) (g : Page) (c d0 d1 d2 d3 : Nat) : (logWide s ps g c d0 d1 d2 d3).wins = s.wins := rfl
@[simp] theorem logWide_eth (s : State) (ps : List PartId) (g : Page) (c d0 d1 d2 d3 : Nat) : (logWide s ps g c d0 d1 d2 d3).eth = s.eth := rfl
@[simp] theorem logWide_lane (s : State) (ps : List PartId) (g : Page) (c d0 d1 d2 d3 : Nat) : (logWide s ps g c d0 d1 d2 d3).lane = s.lane := rfl
@[simp] theorem logWide_alm (s : State) (ps : List PartId) (g : Page) (c d0 d1 d2 d3 : Nat) : (logWide s ps g c d0 d1 d2 d3).alm = s.alm := rfl
@[simp] theorem logWide_rng (s : State) (ps : List PartId) (g : Page) (c d0 d1 d2 d3 : Nat) : (logWide s ps g c d0 d1 d2 d3).rng = s.rng := rfl
@[simp] theorem logWide_sch (s : State) (ps : List PartId) (g : Page) (c d0 d1 d2 d3 : Nat) : (logWide s ps g c d0 d1 d2 d3).sch = s.sch := rfl
@[simp] theorem logWide_red (s : State) (ps : List PartId) (g : Page) (c d0 d1 d2 d3 : Nat) : (logWide s ps g c d0 d1 d2 d3).red = s.red := rfl
@[simp] theorem logWide_zld (s : State) (ps : List PartId) (g : Page) (c d0 d1 d2 d3 : Nat) : (logWide s ps g c d0 d1 d2 d3).zld = s.zld := rfl
@[simp] theorem logWide_zrx (s : State) (ps : List PartId) (g : Page) (c d0 d1 d2 d3 : Nat) : (logWide s ps g c d0 d1 d2 d3).zrx = s.zrx := rfl
@[simp] theorem logWide_ztx (s : State) (ps : List PartId) (g : Page) (c d0 d1 d2 d3 : Nat) : (logWide s ps g c d0 d1 d2 d3).ztx = s.ztx := rfl
@[simp] theorem logWide_qm (s : State) (ps : List PartId) (g : Page) (c d0 d1 d2 d3 : Nat) : (logWide s ps g c d0 d1 d2 d3).qm = s.qm := rfl
@[simp] theorem logWide_rot (s : State) (ps : List PartId) (g : Page) (c d0 d1 d2 d3 : Nat) : (logWide s ps g c d0 d1 d2 d3).rot = s.rot := rfl
@[simp] theorem logWide_pow (s : State) (ps : List PartId) (g : Page) (c d0 d1 d2 d3 : Nat) : (logWide s ps g c d0 d1 d2 d3).pow = s.pow := rfl
@[simp] theorem logWide_nvm (s : State) (ps : List PartId) (g : Page) (c d0 d1 d2 d3 : Nat) : (logWide s ps g c d0 d1 d2 d3).nvm = s.nvm := rfl
@[simp] theorem logWide_dbk (s : State) (ps : List PartId) (g : Page) (c d0 d1 d2 d3 : Nat) : (logWide s ps g c d0 d1 d2 d3).dbk = s.dbk := rfl
@[simp] theorem logWide_dbg (s : State) (ps : List PartId) (g : Page) (c d0 d1 d2 d3 : Nat) : (logWide s ps g c d0 d1 d2 d3).dbg = s.dbg := rfl
@[simp] theorem logWide_coreSel (s : State) (ps : List PartId) (g : Page) (c d0 d1 d2 d3 : Nat) : (logWide s ps g c d0 d1 d2 d3).coreSel = s.coreSel := rfl
@[simp] theorem logWide_link (s : State) (ps : List PartId) (g : Page) (c d0 d1 d2 d3 : Nat) : (logWide s ps g c d0 d1 d2 d3).link = s.link := rfl
@[simp] theorem logWide_out (s : State) (ps : List PartId) (g : Page) (c d0 d1 d2 d3 : Nat) : (logWide s ps g c d0 d1 d2 d3).out = s.out := rfl
@[simp] theorem logWide_free (s : State) (ps : List PartId) (g : Page) (c d0 d1 d2 d3 : Nat) : (logWide s ps g c d0 d1 d2 d3).free = s.free := rfl

@[simp] theorem complete_pending (s : State) (h : CmdHdr) (st : Nat) (r : List Byte) : (complete s h st r).pending = s.pending := by unfold complete; dsimp only; split <;> rfl
@[simp] theorem complete_bays (s : State) (h : CmdHdr) (st : Nat) (r : List Byte) : (complete s h st r).bays = s.bays := by unfold complete; dsimp only; split <;> rfl
@[simp] theorem complete_tokFlight (s : State) (h : CmdHdr) (st : Nat) (r : List Byte) : (complete s h st r).tokFlight = s.tokFlight := by unfold complete; dsimp only; split <;> rfl
@[simp] theorem complete_credFlight (s : State) (h : CmdHdr) (st : Nat) (r : List Byte) : (complete s h st r).credFlight = s.credFlight := by unfold complete; dsimp only; split <;> rfl
@[simp] theorem complete_locks (s : State) (h : CmdHdr) (st : Nat) (r : List Byte) : (complete s h st r).locks = s.locks := by unfold complete; dsimp only; split <;> rfl
@[simp] theorem complete_rates (s : State) (h : CmdHdr) (st : Nat) (r : List Byte) : (complete s h st r).rates = s.rates := by unfold complete; dsimp only; split <;> rfl
@[simp] theorem complete_scratch (s : State) (h : CmdHdr) (st : Nat) (r : List Byte) : (complete s h st r).scratch = s.scratch := by unfold complete; dsimp only; split <;> rfl
@[simp] theorem complete_trn (s : State) (h : CmdHdr) (st : Nat) (r : List Byte) : (complete s h st r).trn = s.trn := by unfold complete; dsimp only; split <;> rfl
@[simp] theorem complete_wins (s : State) (h : CmdHdr) (st : Nat) (r : List Byte) : (complete s h st r).wins = s.wins := by unfold complete; dsimp only; split <;> rfl
@[simp] theorem complete_eth (s : State) (h : CmdHdr) (st : Nat) (r : List Byte) : (complete s h st r).eth = s.eth := by unfold complete; dsimp only; split <;> rfl
@[simp] theorem complete_lane (s : State) (h : CmdHdr) (st : Nat) (r : List Byte) : (complete s h st r).lane = s.lane := by unfold complete; dsimp only; split <;> rfl
@[simp] theorem complete_alm (s : State) (h : CmdHdr) (st : Nat) (r : List Byte) : (complete s h st r).alm = s.alm := by unfold complete; dsimp only; split <;> rfl
@[simp] theorem complete_rng (s : State) (h : CmdHdr) (st : Nat) (r : List Byte) : (complete s h st r).rng = s.rng := by unfold complete; dsimp only; split <;> rfl
@[simp] theorem complete_sch (s : State) (h : CmdHdr) (st : Nat) (r : List Byte) : (complete s h st r).sch = s.sch := by unfold complete; dsimp only; split <;> rfl
@[simp] theorem complete_red (s : State) (h : CmdHdr) (st : Nat) (r : List Byte) : (complete s h st r).red = s.red := by unfold complete; dsimp only; split <;> rfl
@[simp] theorem complete_zld (s : State) (h : CmdHdr) (st : Nat) (r : List Byte) : (complete s h st r).zld = s.zld := by unfold complete; dsimp only; split <;> rfl
@[simp] theorem complete_zrx (s : State) (h : CmdHdr) (st : Nat) (r : List Byte) : (complete s h st r).zrx = s.zrx := by unfold complete; dsimp only; split <;> rfl
@[simp] theorem complete_ztx (s : State) (h : CmdHdr) (st : Nat) (r : List Byte) : (complete s h st r).ztx = s.ztx := by unfold complete; dsimp only; split <;> rfl
@[simp] theorem complete_rot (s : State) (h : CmdHdr) (st : Nat) (r : List Byte) : (complete s h st r).rot = s.rot := by unfold complete; dsimp only; split <;> rfl
@[simp] theorem complete_pow (s : State) (h : CmdHdr) (st : Nat) (r : List Byte) : (complete s h st r).pow = s.pow := by unfold complete; dsimp only; split <;> rfl
@[simp] theorem complete_nvm (s : State) (h : CmdHdr) (st : Nat) (r : List Byte) : (complete s h st r).nvm = s.nvm := by unfold complete; dsimp only; split <;> rfl
@[simp] theorem complete_dbk (s : State) (h : CmdHdr) (st : Nat) (r : List Byte) : (complete s h st r).dbk = s.dbk := by unfold complete; dsimp only; split <;> rfl
@[simp] theorem complete_dbkIn (s : State) (h : CmdHdr) (st : Nat) (r : List Byte) : (complete s h st r).dbkIn = s.dbkIn := by unfold complete; dsimp only; split <;> rfl
@[simp] theorem complete_dbg (s : State) (h : CmdHdr) (st : Nat) (r : List Byte) : (complete s h st r).dbg = s.dbg := by unfold complete; dsimp only; split <;> rfl
@[simp] theorem complete_coreSel (s : State) (h : CmdHdr) (st : Nat) (r : List Byte) : (complete s h st r).coreSel = s.coreSel := by unfold complete; dsimp only; split <;> rfl
@[simp] theorem complete_link (s : State) (h : CmdHdr) (st : Nat) (r : List Byte) : (complete s h st r).link = s.link := by unfold complete; dsimp only; split <;> rfl
@[simp] theorem complete_out (s : State) (h : CmdHdr) (st : Nat) (r : List Byte) : (complete s h st r).out = s.out := by unfold complete; dsimp only; split <;> rfl
@[simp] theorem complete_free (s : State) (h : CmdHdr) (st : Nat) (r : List Byte) : (complete s h st r).free = s.free := by unfold complete; dsimp only; split <;> rfl

@[simp] theorem modSt_pending (s : State) (r : StationRef) (f : Station → Station) : (modSt s r f).pending = s.pending := by
  obtain ⟨b, k⟩ | c | _ | _ := r <;> first | rfl | (cases k <;> rfl)
@[simp] theorem modSt_tokFlight (s : State) (r : StationRef) (f : Station → Station) : (modSt s r f).tokFlight = s.tokFlight := by
  obtain ⟨b, k⟩ | c | _ | _ := r <;> first | rfl | (cases k <;> rfl)
@[simp] theorem modSt_credFlight (s : State) (r : StationRef) (f : Station → Station) : (modSt s r f).credFlight = s.credFlight := by
  obtain ⟨b, k⟩ | c | _ | _ := r <;> first | rfl | (cases k <;> rfl)
@[simp] theorem modSt_locks (s : State) (r : StationRef) (f : Station → Station) : (modSt s r f).locks = s.locks := by
  obtain ⟨b, k⟩ | c | _ | _ := r <;> first | rfl | (cases k <;> rfl)
@[simp] theorem modSt_rates (s : State) (r : StationRef) (f : Station → Station) : (modSt s r f).rates = s.rates := by
  obtain ⟨b, k⟩ | c | _ | _ := r <;> first | rfl | (cases k <;> rfl)
@[simp] theorem modSt_scratch (s : State) (r : StationRef) (f : Station → Station) : (modSt s r f).scratch = s.scratch := by
  obtain ⟨b, k⟩ | c | _ | _ := r <;> first | rfl | (cases k <;> rfl)
@[simp] theorem modSt_wins (s : State) (r : StationRef) (f : Station → Station) : (modSt s r f).wins = s.wins := by
  obtain ⟨b, k⟩ | c | _ | _ := r <;> first | rfl | (cases k <;> rfl)
@[simp] theorem modSt_eth (s : State) (r : StationRef) (f : Station → Station) : (modSt s r f).eth = s.eth := by
  obtain ⟨b, k⟩ | c | _ | _ := r <;> first | rfl | (cases k <;> rfl)
@[simp] theorem modSt_lane (s : State) (r : StationRef) (f : Station → Station) : (modSt s r f).lane = s.lane := by
  obtain ⟨b, k⟩ | c | _ | _ := r <;> first | rfl | (cases k <;> rfl)
@[simp] theorem modSt_alm (s : State) (r : StationRef) (f : Station → Station) : (modSt s r f).alm = s.alm := by
  obtain ⟨b, k⟩ | c | _ | _ := r <;> first | rfl | (cases k <;> rfl)
@[simp] theorem modSt_rng (s : State) (r : StationRef) (f : Station → Station) : (modSt s r f).rng = s.rng := by
  obtain ⟨b, k⟩ | c | _ | _ := r <;> first | rfl | (cases k <;> rfl)
@[simp] theorem modSt_sch (s : State) (r : StationRef) (f : Station → Station) : (modSt s r f).sch = s.sch := by
  obtain ⟨b, k⟩ | c | _ | _ := r <;> first | rfl | (cases k <;> rfl)
@[simp] theorem modSt_zld (s : State) (r : StationRef) (f : Station → Station) : (modSt s r f).zld = s.zld := by
  obtain ⟨b, k⟩ | c | _ | _ := r <;> first | rfl | (cases k <;> rfl)
@[simp] theorem modSt_zrx (s : State) (r : StationRef) (f : Station → Station) : (modSt s r f).zrx = s.zrx := by
  obtain ⟨b, k⟩ | c | _ | _ := r <;> first | rfl | (cases k <;> rfl)
@[simp] theorem modSt_ztx (s : State) (r : StationRef) (f : Station → Station) : (modSt s r f).ztx = s.ztx := by
  obtain ⟨b, k⟩ | c | _ | _ := r <;> first | rfl | (cases k <;> rfl)
@[simp] theorem modSt_qm (s : State) (r : StationRef) (f : Station → Station) : (modSt s r f).qm = s.qm := by
  obtain ⟨b, k⟩ | c | _ | _ := r <;> first | rfl | (cases k <;> rfl)
@[simp] theorem modSt_rot (s : State) (r : StationRef) (f : Station → Station) : (modSt s r f).rot = s.rot := by
  obtain ⟨b, k⟩ | c | _ | _ := r <;> first | rfl | (cases k <;> rfl)
@[simp] theorem modSt_pow (s : State) (r : StationRef) (f : Station → Station) : (modSt s r f).pow = s.pow := by
  obtain ⟨b, k⟩ | c | _ | _ := r <;> first | rfl | (cases k <;> rfl)
@[simp] theorem modSt_nvm (s : State) (r : StationRef) (f : Station → Station) : (modSt s r f).nvm = s.nvm := by
  obtain ⟨b, k⟩ | c | _ | _ := r <;> first | rfl | (cases k <;> rfl)
@[simp] theorem modSt_dbk (s : State) (r : StationRef) (f : Station → Station) : (modSt s r f).dbk = s.dbk := by
  obtain ⟨b, k⟩ | c | _ | _ := r <;> first | rfl | (cases k <;> rfl)
@[simp] theorem modSt_dbkIn (s : State) (r : StationRef) (f : Station → Station) : (modSt s r f).dbkIn = s.dbkIn := by
  obtain ⟨b, k⟩ | c | _ | _ := r <;> first | rfl | (cases k <;> rfl)
@[simp] theorem modSt_dbg (s : State) (r : StationRef) (f : Station → Station) : (modSt s r f).dbg = s.dbg := by
  obtain ⟨b, k⟩ | c | _ | _ := r <;> first | rfl | (cases k <;> rfl)
@[simp] theorem modSt_coreSel (s : State) (r : StationRef) (f : Station → Station) : (modSt s r f).coreSel = s.coreSel := by
  obtain ⟨b, k⟩ | c | _ | _ := r <;> first | rfl | (cases k <;> rfl)
@[simp] theorem modSt_link (s : State) (r : StationRef) (f : Station → Station) : (modSt s r f).link = s.link := by
  obtain ⟨b, k⟩ | c | _ | _ := r <;> first | rfl | (cases k <;> rfl)
@[simp] theorem modSt_out (s : State) (r : StationRef) (f : Station → Station) : (modSt s r f).out = s.out := by
  obtain ⟨b, k⟩ | c | _ | _ := r <;> first | rfl | (cases k <;> rfl)
@[simp] theorem modSt_free (s : State) (r : StationRef) (f : Station → Station) : (modSt s r f).free = s.free := by
  obtain ⟨b, k⟩ | c | _ | _ := r <;> first | rfl | (cases k <;> rfl)

@[simp] theorem modIn_pending (s : State) (r : StationRef) (p : PortId) (f : InPort → InPort) : (modIn s r p f).pending = s.pending := modSt_pending s r _
@[simp] theorem modIn_tokFlight (s : State) (r : StationRef) (p : PortId) (f : InPort → InPort) : (modIn s r p f).tokFlight = s.tokFlight := modSt_tokFlight s r _
@[simp] theorem modIn_credFlight (s : State) (r : StationRef) (p : PortId) (f : InPort → InPort) : (modIn s r p f).credFlight = s.credFlight := modSt_credFlight s r _
@[simp] theorem modIn_locks (s : State) (r : StationRef) (p : PortId) (f : InPort → InPort) : (modIn s r p f).locks = s.locks := modSt_locks s r _
@[simp] theorem modIn_rates (s : State) (r : StationRef) (p : PortId) (f : InPort → InPort) : (modIn s r p f).rates = s.rates := modSt_rates s r _
@[simp] theorem modIn_scratch (s : State) (r : StationRef) (p : PortId) (f : InPort → InPort) : (modIn s r p f).scratch = s.scratch := modSt_scratch s r _
@[simp] theorem modIn_wins (s : State) (r : StationRef) (p : PortId) (f : InPort → InPort) : (modIn s r p f).wins = s.wins := modSt_wins s r _
@[simp] theorem modIn_eth (s : State) (r : StationRef) (p : PortId) (f : InPort → InPort) : (modIn s r p f).eth = s.eth := modSt_eth s r _
@[simp] theorem modIn_lane (s : State) (r : StationRef) (p : PortId) (f : InPort → InPort) : (modIn s r p f).lane = s.lane := modSt_lane s r _
@[simp] theorem modIn_alm (s : State) (r : StationRef) (p : PortId) (f : InPort → InPort) : (modIn s r p f).alm = s.alm := modSt_alm s r _
@[simp] theorem modIn_rng (s : State) (r : StationRef) (p : PortId) (f : InPort → InPort) : (modIn s r p f).rng = s.rng := modSt_rng s r _
@[simp] theorem modIn_sch (s : State) (r : StationRef) (p : PortId) (f : InPort → InPort) : (modIn s r p f).sch = s.sch := modSt_sch s r _
@[simp] theorem modIn_zld (s : State) (r : StationRef) (p : PortId) (f : InPort → InPort) : (modIn s r p f).zld = s.zld := modSt_zld s r _
@[simp] theorem modIn_zrx (s : State) (r : StationRef) (p : PortId) (f : InPort → InPort) : (modIn s r p f).zrx = s.zrx := modSt_zrx s r _
@[simp] theorem modIn_ztx (s : State) (r : StationRef) (p : PortId) (f : InPort → InPort) : (modIn s r p f).ztx = s.ztx := modSt_ztx s r _
@[simp] theorem modIn_qm (s : State) (r : StationRef) (p : PortId) (f : InPort → InPort) : (modIn s r p f).qm = s.qm := modSt_qm s r _
@[simp] theorem modIn_rot (s : State) (r : StationRef) (p : PortId) (f : InPort → InPort) : (modIn s r p f).rot = s.rot := modSt_rot s r _
@[simp] theorem modIn_pow (s : State) (r : StationRef) (p : PortId) (f : InPort → InPort) : (modIn s r p f).pow = s.pow := modSt_pow s r _
@[simp] theorem modIn_nvm (s : State) (r : StationRef) (p : PortId) (f : InPort → InPort) : (modIn s r p f).nvm = s.nvm := modSt_nvm s r _
@[simp] theorem modIn_dbk (s : State) (r : StationRef) (p : PortId) (f : InPort → InPort) : (modIn s r p f).dbk = s.dbk := modSt_dbk s r _
@[simp] theorem modIn_dbkIn (s : State) (r : StationRef) (p : PortId) (f : InPort → InPort) : (modIn s r p f).dbkIn = s.dbkIn := modSt_dbkIn s r _
@[simp] theorem modIn_dbg (s : State) (r : StationRef) (p : PortId) (f : InPort → InPort) : (modIn s r p f).dbg = s.dbg := modSt_dbg s r _
@[simp] theorem modIn_coreSel (s : State) (r : StationRef) (p : PortId) (f : InPort → InPort) : (modIn s r p f).coreSel = s.coreSel := modSt_coreSel s r _
@[simp] theorem modIn_link (s : State) (r : StationRef) (p : PortId) (f : InPort → InPort) : (modIn s r p f).link = s.link := modSt_link s r _
@[simp] theorem modIn_out (s : State) (r : StationRef) (p : PortId) (f : InPort → InPort) : (modIn s r p f).out = s.out := modSt_out s r _
@[simp] theorem modIn_free (s : State) (r : StationRef) (p : PortId) (f : InPort → InPort) : (modIn s r p f).free = s.free := modSt_free s r _

@[simp] theorem modOut_pending (s : State) (r : StationRef) (p : PortId) (f : OutPort → OutPort) : (modOut s r p f).pending = s.pending := modSt_pending s r _
@[simp] theorem modOut_tokFlight (s : State) (r : StationRef) (p : PortId) (f : OutPort → OutPort) : (modOut s r p f).tokFlight = s.tokFlight := modSt_tokFlight s r _
@[simp] theorem modOut_credFlight (s : State) (r : StationRef) (p : PortId) (f : OutPort → OutPort) : (modOut s r p f).credFlight = s.credFlight := modSt_credFlight s r _
@[simp] theorem modOut_locks (s : State) (r : StationRef) (p : PortId) (f : OutPort → OutPort) : (modOut s r p f).locks = s.locks := modSt_locks s r _
@[simp] theorem modOut_rates (s : State) (r : StationRef) (p : PortId) (f : OutPort → OutPort) : (modOut s r p f).rates = s.rates := modSt_rates s r _
@[simp] theorem modOut_scratch (s : State) (r : StationRef) (p : PortId) (f : OutPort → OutPort) : (modOut s r p f).scratch = s.scratch := modSt_scratch s r _
@[simp] theorem modOut_wins (s : State) (r : StationRef) (p : PortId) (f : OutPort → OutPort) : (modOut s r p f).wins = s.wins := modSt_wins s r _
@[simp] theorem modOut_eth (s : State) (r : StationRef) (p : PortId) (f : OutPort → OutPort) : (modOut s r p f).eth = s.eth := modSt_eth s r _
@[simp] theorem modOut_lane (s : State) (r : StationRef) (p : PortId) (f : OutPort → OutPort) : (modOut s r p f).lane = s.lane := modSt_lane s r _
@[simp] theorem modOut_alm (s : State) (r : StationRef) (p : PortId) (f : OutPort → OutPort) : (modOut s r p f).alm = s.alm := modSt_alm s r _
@[simp] theorem modOut_rng (s : State) (r : StationRef) (p : PortId) (f : OutPort → OutPort) : (modOut s r p f).rng = s.rng := modSt_rng s r _
@[simp] theorem modOut_sch (s : State) (r : StationRef) (p : PortId) (f : OutPort → OutPort) : (modOut s r p f).sch = s.sch := modSt_sch s r _
@[simp] theorem modOut_zld (s : State) (r : StationRef) (p : PortId) (f : OutPort → OutPort) : (modOut s r p f).zld = s.zld := modSt_zld s r _
@[simp] theorem modOut_zrx (s : State) (r : StationRef) (p : PortId) (f : OutPort → OutPort) : (modOut s r p f).zrx = s.zrx := modSt_zrx s r _
@[simp] theorem modOut_ztx (s : State) (r : StationRef) (p : PortId) (f : OutPort → OutPort) : (modOut s r p f).ztx = s.ztx := modSt_ztx s r _
@[simp] theorem modOut_qm (s : State) (r : StationRef) (p : PortId) (f : OutPort → OutPort) : (modOut s r p f).qm = s.qm := modSt_qm s r _
@[simp] theorem modOut_rot (s : State) (r : StationRef) (p : PortId) (f : OutPort → OutPort) : (modOut s r p f).rot = s.rot := modSt_rot s r _
@[simp] theorem modOut_pow (s : State) (r : StationRef) (p : PortId) (f : OutPort → OutPort) : (modOut s r p f).pow = s.pow := modSt_pow s r _
@[simp] theorem modOut_nvm (s : State) (r : StationRef) (p : PortId) (f : OutPort → OutPort) : (modOut s r p f).nvm = s.nvm := modSt_nvm s r _
@[simp] theorem modOut_dbk (s : State) (r : StationRef) (p : PortId) (f : OutPort → OutPort) : (modOut s r p f).dbk = s.dbk := modSt_dbk s r _
@[simp] theorem modOut_dbkIn (s : State) (r : StationRef) (p : PortId) (f : OutPort → OutPort) : (modOut s r p f).dbkIn = s.dbkIn := modSt_dbkIn s r _
@[simp] theorem modOut_dbg (s : State) (r : StationRef) (p : PortId) (f : OutPort → OutPort) : (modOut s r p f).dbg = s.dbg := modSt_dbg s r _
@[simp] theorem modOut_coreSel (s : State) (r : StationRef) (p : PortId) (f : OutPort → OutPort) : (modOut s r p f).coreSel = s.coreSel := modSt_coreSel s r _
@[simp] theorem modOut_link (s : State) (r : StationRef) (p : PortId) (f : OutPort → OutPort) : (modOut s r p f).link = s.link := modSt_link s r _
@[simp] theorem modOut_out (s : State) (r : StationRef) (p : PortId) (f : OutPort → OutPort) : (modOut s r p f).out = s.out := modSt_out s r _
@[simp] theorem modOut_free (s : State) (r : StationRef) (p : PortId) (f : OutPort → OutPort) : (modOut s r p f).free = s.free := modSt_free s r _

/-! ## The field it writes -/

@[simp] theorem modBay_same (s : State) (b : BayId) (f : Bay → Bay) : (modBay s b f).bays[b] = f s.bays[b] := vmod_same _ _ _
theorem modBay_other (s : State) (b c : BayId) (f : Bay → Bay) (h : c ≠ b) : (modBay s b f).bays[c] = s.bays[c] := vmod_other _ _ _ _ h
@[simp] theorem modMem_same (s : State) (b : BayId) (f : BayMem → BayMem) : (modMem s b f).bays[b] = { s.bays[b] with mem := f s.bays[b].mem } := vmod_same _ _ _
theorem modMem_other (s : State) (b c : BayId) (f : BayMem → BayMem) (h : c ≠ b) : (modMem s b f).bays[c] = s.bays[c] := vmod_other _ _ _ _ h
theorem modMem_mem (s : State) (b c : BayId) (f : BayMem → BayMem) : (modMem s b f).bays[c].mem = if c = b then f s.bays[b].mem else s.bays[c].mem := by
  by_cases h : c = b
  · subst h; rw [if_pos rfl, modMem_same]
  · rw [if_neg h, modMem_other _ _ _ _ h]
@[simp] theorem modBay_val (s : State) (b : BayId) (f : Bay → Bay) : (modBay s b f).bays[b.1] = f s.bays[b.1] := modBay_same s b f
@[simp] theorem modMem_val (s : State) (b : BayId) (f : BayMem → BayMem) :
    (modMem s b f).bays[b.1] = { s.bays[b.1] with mem := f s.bays[b.1].mem } := modMem_same s b f
@[simp] theorem getCore_modCore (s : State) (c : CoreId) (f : Core → Core) : getCore (modCore s c f) c = f (getCore s c) := by
  simp only [getCore, modCore, modBay_same]; exact vmod_same _ _ _
theorem getCore_modCore_other (s : State) (c d : CoreId) (f : Core → Core) (h : d ≠ c) : getCore (modCore s c f) d = getCore s d := by
  obtain ⟨cb, cc⟩ := c
  obtain ⟨db, dc⟩ := d
  by_cases e : db = cb
  · subst e
    have hc : dc ≠ cc := fun e => h (by rw [e])
    simp only [getCore, modCore, modBay_same]
    exact vmod_other _ _ _ _ hc
  · exact congrArg (fun y : Bay => y.cores[dc]) (modBay_other s cb db _ e)
@[simp] theorem modCore_mem (s : State) (c : CoreId) (f : Core → Core) (b : BayId) : (modCore s c f).bays[b].mem = s.bays[b].mem := by
  by_cases e : b = c.bay
  · subst e; simp only [modCore, modBay_same]
  · exact congrArg Bay.mem (modBay_other s c.bay b _ e)
@[simp] theorem getSt_modSt (s : State) (r : StationRef) (f : Station → Station) : getSt (modSt s r f) r = f (getSt s r) := by
  obtain ⟨b, k⟩ | c | _ | _ := r
  · cases k <;> simp only [getSt, modSt, modBay_same]
  · simp only [getSt, modSt, getCore_modCore]
  · rfl
  · rfl
@[simp] theorem modSt_mem (s : State) (r : StationRef) (f : Station → Station) (b : BayId) : (modSt s r f).bays[b].mem = s.bays[b].mem := by
  obtain ⟨c, k⟩ | c | _ | _ := r
  · by_cases e : b = c
    · subst e; cases k <;> simp only [modSt, modBay_same]
    · cases k <;> exact congrArg Bay.mem (modBay_other s c b _ e)
  · exact modCore_mem s c _ b
  · rfl
  · rfl
theorem getIn_modIn (s : State) (r : StationRef) (p q : PortId) (f : InPort → InPort) :
    getIn (modIn s r p f) r q = if q = p then f (getIn s r p) else getIn s r q := by
  simp only [getIn, modIn, getSt_modSt]; exact vmod_get _ _ _ _
theorem getOut_modOut (s : State) (r : StationRef) (p q : PortId) (f : OutPort → OutPort) :
    getOut (modOut s r p f) r q = if q = p then f (getOut s r p) else getOut s r q := by
  simp only [getOut, modOut, getSt_modSt]; exact vmod_get _ _ _ _
@[simp] theorem getOut_modIn (s : State) (r : StationRef) (p q : PortId) (f : InPort → InPort) : getOut (modIn s r p f) r q = getOut s r q := by
  simp [getOut, modIn]
@[simp] theorem getIn_modOut (s : State) (r : StationRef) (p q : PortId) (f : OutPort → OutPort) : getIn (modOut s r p f) r q = getIn s r q := by
  simp [getIn, modOut]
@[simp] theorem getPart_modPart (s : State) (p : TenantId) (f : Partition → Partition) : getPart (modPart s p f) p = f (getPart s p) := vmod_same _ _ _
@[simp] theorem emitOut_out (s : State) (o : Output) : (emitOut s o).out = s.out ++ [o] := rfl
@[simp] theorem drawFree_free (s : State) (n : Nat) : (drawFree s n).2.free = s.free + 1 := rfl

end Sys2Proof.Machine
end

