-- ==== Sys2Proof/Laws/Ops.lean ====
section
/-! SUPPORT. What each shared operation does, once: completions, tokens and credits, daybook queues, and how a kernel instruction ends. -/

namespace Sys2Proof.Machine

/-! ## Completions and events -/

theorem complete_inFlight (s : State) (h : CmdHdr) (st : Nat) (r : List Byte) : (complete s h st r).qm.inFlight = s.qm.inFlight.erase h := by
  unfold complete; dsimp only; split <;> rfl
theorem complete_held (s : State) (h : CmdHdr) (st : Nat) (r : List Byte) (hd : h ∉ s.qm.dead) :
    (complete s h st r).qm.held = s.qm.held ++ [{ h := h, status := st, result := r }] := by
  unfold complete; dsimp only; rw [if_neg (by simpa using hd)]
theorem complete_dead (s : State) (h : CmdHdr) (st : Nat) (r : List Byte) (hd : h ∈ s.qm.dead) :
    (complete s h st r).qm.held = s.qm.held ∧ (complete s h st r).qm.dead = s.qm.dead.erase h := by
  unfold complete; dsimp only; rw [if_pos (by simpa using hd)]; exact ⟨rfl, rfl⟩
@[simp] theorem begun_held (s : State) (i : Instr) : (begun s i).qm.held = s.qm.held := rfl
@[simp] theorem begun_inFlight (s : State) (i : Instr) : (begun s i).qm.inFlight = s.qm.inFlight := rfl
@[simp] theorem begun_dead (s : State) (i : Instr) : (begun s i).qm.dead = s.qm.dead := rfl
/-- An event adds one entry, last, with its code and the almanac's time. -/
theorem logEv_dbkIn (s : State) (p : PartId) (g : Page) (c d0 d1 d2 d3 : Nat) :
    ∃ e : Entry, (logEv s p g c d0 d1 d2 d3).dbkIn = s.dbkIn ++ [(dbkOf s p, e)] ∧ e.code = c ∧ e.time = s.alm.t ∧ e.source = pgId g ∧
      e.d0 = word32 d0 ∧ e.d1 = word32 d1 ∧ e.d2 = word32 d2 ∧ e.d3 = word32 d3 := ⟨_, rfl, rfl, rfl, rfl, rfl, rfl, rfl, rfl⟩

/-- A queue that has an entry put in holds at most 1,024 if it did. -/
theorem dbkPut_length (d : Dbk) (e : Entry) (h : d.entries.length ≤ dbkSize) : (dbkPut d e).entries.length ≤ dbkSize := by
  unfold dbkPut
  split
  · simp only [List.length_append, List.length_drop, List.length_singleton]; unfold dbkSize at *; omega
  · simp only [List.length_append, List.length_singleton]; omega

/-! ## Tokens and credits -/

theorem takeTok_none (s : State) (r : StationRef) (p : PortId) : takeTok s r p = none ↔ (getIn s r p).held = [] := by
  unfold takeTok; split <;> simp_all
theorem takeTok_some (s : State) (r : StationRef) (p : PortId) (t : Token) (rest : List Token) (h : (getIn s r p).held = t :: rest) :
    takeTok s r p = some (t, modIn s r p (fun x => { x with
      held := rest, nextOrd := if t.tile.hdr.last then 0 else x.nextOrd + 1,
      seqBad := if t.tile.hdr.last then false else x.seqBad || (!x.unord && t.tile.hdr.ordinal != x.nextOrd) })) := by
  unfold takeTok; rw [h]
/-- An output port without a consumer, or whose consumer's pool has no credit, spends none. -/
theorem spendCredit_none (s : State) (r : StationRef) (n : PortId) : spendCredit s r n = none ↔ outCredits s r n = 0 := by
  unfold spendCredit outCredits; split
  · split <;> simp_all
  · simp_all
theorem spendCredit_some (s : State) (r : StationRef) (n : PortId) (c : StationRef × PortId) (hc : (getOut s r n).cons = some c)
    (ha : (getIn s c.1 c.2).avail ≠ 0) : spendCredit s r n = some (spendSlot s c.1 c.2) := by
  unfold spendCredit; rw [hc]; exact if_neg ha
/-- A tile is reserved exactly where its port has a credit. -/
theorem reserveOut_none (s : State) (r : StationRef) (n : PortId) (t : Tile) (o : Option MsgRef) : reserveOut s r n t o = none ↔ outCredits s r n = 0 := by
  rw [← spendCredit_none]; unfold reserveOut; split <;> simp_all
/-- Writing a slot changes at most the bay store of the consumer's bay. -/
theorem fillSlot_cases (s : State) (r c : StationRef) (p : PortId) (t : Token) :
    fillSlot s r c p t = s ∨ ∃ b, stBay c = some b ∧ fillSlot s r c p t = modMem s b (fun m => slotWrite m (slotAddr (getIn s c p) t.slot) t.tile) := by
  unfold fillSlot; split
  · split
    · exact .inl rfl
    · exact .inr ⟨_, ‹_›, rfl⟩
  · exact .inl rfl
@[simp] theorem fillSlot_tokFlight (s : State) (r c : StationRef) (p : PortId) (t : Token) : (fillSlot s r c p t).tokFlight = s.tokFlight := by
  obtain h | ⟨b, -, h⟩ := fillSlot_cases s r c p t <;> rw [h]; rfl
@[simp] theorem fillSlot_dbkIn (s : State) (r c : StationRef) (p : PortId) (t : Token) : (fillSlot s r c p t).dbkIn = s.dbkIn := by
  obtain h | ⟨b, -, h⟩ := fillSlot_cases s r c p t <;> rw [h]; rfl
@[simp] theorem fillSlot_out (s : State) (r c : StationRef) (p : PortId) (t : Token) : (fillSlot s r c p t).out = s.out := by
  obtain h | ⟨b, -, h⟩ := fillSlot_cases s r c p t <;> rw [h]; rfl
/-- A slot's write keeps the bay store in its canonical form. -/
theorem slotWrite_wf (m : BayMem) (a : Nat) (t : Tile) (h : Memory.wf m.store) : Memory.wf (slotWrite m a t).store := by
  unfold slotWrite; split
  · exact storeWrite_wf m a _ h
  · exact memWrite_wf _ _ _ (memZero_wf _ _ _ h)
theorem passTok_some (s : State) (r : StationRef) (n : PortId) (t : Token) (c : StationRef × PortId) (hc : (getOut s r n).cons = some c) :
    (passTok s r n t).tokFlight = s.tokFlight ++ [(c.1, c.2, t)] := by
  unfold passTok; rw [hc]; simp
theorem passTok_none (s : State) (r : StationRef) (n : PortId) (t : Token) (hc : (getOut s r n).cons = none) : (passTok s r n t).tokFlight = s.tokFlight := by
  unfold passTok; rw [hc]; simp
@[simp] theorem passTok_dbkIn (s : State) (r : StationRef) (n : PortId) (t : Token) : (passTok s r n t).dbkIn = s.dbkIn := by
  unfold passTok; dsimp only; split <;> simp
/-- A consumed slot's credit goes back at once, but from a draining station, which keeps it. -/
theorem returnSlot_draining (s : State) (r : StationRef) (p : PortId) (k : Nat) (h : (getSt s r).st = .draining) :
    (returnSlot s r p k).credFlight = s.credFlight := by
  unfold returnSlot withholds; rw [h]; simp
theorem returnSlot_else (s : State) (r : StationRef) (p : PortId) (k : Nat) (h : (getSt s r).st ≠ .draining) :
    returnSlot s r p k = { s with credFlight := s.credFlight ++ [(r, p, k)] } := by
  unfold returnSlot withholds; rw [if_neg (by simpa using h)]
@[simp] theorem startFiring_firing (s : State) (r : StationRef) (a b : List (PortId × Token)) :
    (getSt (startFiring s r a b) r).firing = some { ins := a, outs := b } := by simp [startFiring]
@[simp] theorem startFiring_in (s : State) (r : StationRef) (a b : List (PortId × Token)) (p : PortId) :
    getIn (startFiring s r a b) r p = getIn s r p := by simp [startFiring, getIn]
@[simp] theorem startFiring_dbkIn (s : State) (r : StationRef) (a b : List (PortId × Token)) : (startFiring s r a b).dbkIn = s.dbkIn := by simp [startFiring]
/-- A tile that creates no cause writes no entry. -/
theorem logCauses_nil (s : State) (r : StationRef) (p : PortId) (t : Tile) : (logCauses s r p t []).dbkIn = s.dbkIn := by simp [logCauses]

/-! ## Kernel instructions -/

/-- An instruction that its core does not issue changes nothing. -/
theorem issue_idle (s : State) (c : CoreId) (i : Instr) (f : Core → State) (h : kernelReady s c i = false) : issue s c i f = .next s := by
  unfold issue; rw [h]; rfl
theorem issue_ready (s : State) (c : CoreId) (i : Instr) (f : Core → State) (h : kernelReady s c i = true) : issue s c i f = .next (f (getCore s c)) := by
  unfold issue; rw [h]; rfl
@[simp] theorem spendCycles_pending (s : State) (c : CoreId) (n : Nat) : (spendCycles s c n).pending = s.pending := rfl
@[simp] theorem spendCycles_out (s : State) (c : CoreId) (n : Nat) : (spendCycles s c n).out = s.out := rfl
@[simp] theorem spendCycles_dbkIn (s : State) (c : CoreId) (n : Nat) : (spendCycles s c n).dbkIn = s.dbkIn := rfl
/-- Spending cycles writes no register and no byte of the local store. -/
theorem spendCycles_core (s : State) (c : CoreId) (n : Nat) : let k := getCore s c; let q := getCore (spendCycles s c n) c
    q.s = k.s ∧ q.v = k.v ∧ q.m = k.m ∧ q.p = k.p ∧ q.ls = k.ls ∧ q.pc = k.pc ∧ q.firing = k.firing ∧ q.bind = k.bind ∧ q.run = k.run ∧ q.dma = k.dma := by
  simp only [spendCycles, getCore_modCore]; exact ⟨rfl, rfl, rfl, rfl, rfl, rfl, rfl, rfl, rfl, rfl⟩
/-- Where the next pc is a word of the local store, the instruction ends there. -/
theorem retire_next (s : State) (c : CoreId) (n : Nat) (h4 : (getCore s c).pc % 4 = 0) (hl : (getCore s c).pc + 4 < localSize) :
    retire s c n = modCore (spendCycles s c n) c (fun k => { k with pc := (getCore s c).pc + 4 }) := by
  unfold retire retireTo
  rw [if_neg (by omega), if_neg (by omega)]

end Sys2Proof.Machine
end

