-- ==== Sys2Proof/Tests/Slice0.lean ====
section
/-! SUPPORT. Tests: ill-formed terms, words of the encodings, and for every statement's hypotheses a state that meets them. -/

open Sys2Proof Sys2Proof.Machine Sys2Proof.Said

namespace Sys2Proof.Tests

/-! ## Small states -/

/-- The device out of reset, everything else as reset leaves it. -/
def up : State := { State.reset with pow := { inReset := false } }

/-- A core, bound to a kernel. -/
def c0 : CoreId := ⟨3, 7⟩
def bound : Binding := {
  core := 7, clearLs := false, cls := 0, job := 1, inMask := 3, outMask := 1, entry := 0, codeLen := 64, loadAt := 0, watchdog := 1000,
  fmt := 0, grants := [], code := [], raw := [] }
/-- A station that may fire. -/
def live : Station := { en := true, enA := true, ready := true, st := .idle }
/-- The core about to issue `i`, whose word lies at `pc`, with s1 = 256, s2 = -1, s3 = 3 and a format descriptor in s4. -/
def ready (pc : Nat) (i : Instr) : State :=
  modCore up c0 (fun k => { k with
    bind := some bound, run := .running, pc := pc, ctl := live, ls := memWrite [] pc (leBytes 4 ((encodeKernel i).getD 0).toNat),
    s := vmod (vmod (vmod (vmod k.s 1 (fun _ => 256)) 2 (fun _ => BitVec.allOnes 64)) 3 (fun _ => 3)) 4 (fun _ => 0x20101) })
def issues (s : State) (i : Instr) : Bool :=
  kernelReady s c0 i && (getCore s c0).pc % 4 == 0 && decide ((getCore s c0).pc + 4 < localSize)
def vr : VrFields := { vd := 4, va := 1, vb := 2, mr := 3, pr := 0, w := false }
def vrw : VrFields := { vr with w := true, pr := 7 }
def vs : VsFields := { vd := 31, va := 1, sa := 3, pr := 1, w := false }
/-- A modulus of 28 bits. -/
def m28 : Nat := 134217757
/-- The core's bay is a tenant's, with debug enabled or not. -/
def tenants (s : State) (open_ : Bool) : State :=
  modBay { s with rot := { s.rot with parts := vmod s.rot.parts 2 (fun q => { q with state := .active, debug := open_ }) } } c0.bay
    (fun y => { y with owner := tenantPart 2 })
/-- The header of a tile of RING_Z64 with two elements, and a tile with the elements 1 and 0. -/
def hdr64 : TileHdr := { ring := 2, etype := 1, job := 1, count := 2 }
def tok1 : Token := { tile := { hdr := hdr64, payload := [1] }, slot := 0 }
/-- A command of tenant 2. -/
def h0 : CmdHdr := { part := tenantPart 2, sq := 4, tag := 7, sqHead := 1 }
/-- A guarded page unlocked by its key. -/
def unlocked (s : State) (pg : Page) : State := { s with locks := [{ page := pg, unlocked := true }] }
/-! ## Operands that no sender can form are ill-formed, one for each check -/

theorem test_illformed :
    wellFormed (.qCreate { h0 with sq := 8192 } []) = false ∧ wellFormed (.qDelete h0 65536) = false ∧
    wellFormed (.attest 32 (List.replicate 64 0)) = false ∧ wellFormed (.attest 0 []) = false ∧ wellFormed (.partCreate 0 []) = false ∧
    wellFormed (.partDestroy 32) = false ∧ wellFormed (.debugEnable 32) = false ∧ wellFormed (.jobCreate 32 []) = false ∧
    wellFormed (.jobDestroy 32) = false ∧ wellFormed (.jobKeyWrap 32 []) = false ∧ wellFormed (.jobKeyAccept 32 []) = false ∧
    wellFormed (.keyLoad 32 []) = false ∧ wellFormed (.keyExport 0 256) = false ∧ wellFormed (.keyUnload 0 256) = false ∧
    wellFormed (.ownerKeyLoad 32 [] []) = false ∧ wellFormed (.modelLoad 0 ⟨⟨256, 0, 0, 0, 0, 0, 0⟩, noFaults⟩) = false ∧
    wellFormed (.linkEstablish 32 ⟨0, 0, [], [], 0, [], [], []⟩) = false := by decide

theorem test_illformed_more :
    wellFormed (.fwUpdate 256 ⟨[], [], 0⟩) = false ∧ wellFormed (.fwUpdate 1 ⟨[], [], 2 ^ 32⟩) = false ∧
    wellFormed (.fwSvnCommit 256) = false ∧ wellFormed (.registerWrite .pf ⟨false, 0x4000000⟩ { lo := 0 }) = false ∧
    wellFormed (.registerWrite (.vf 0) ⟨false, 2⟩ { lo := 0 }) = false ∧ wellFormed (.registerWrite .pf ⟨true, 4⟩ { lo := 0, hi := some 0 }) = false ∧
    wellFormed (.doorbell .pf 65536 0) = false ∧ wellFormed (.doorbell (.vf 3) 12 0) = false ∧
    wellFormed (.barAccessMalformed .pf false false 8 4) = false ∧ wellFormed (.patrolScrubRead 0 (2 ^ 31) .clean) = false ∧
    wellFormed (.conditionedBlock []) = false ∧ wellFormed (.startupTestComplete []) = false ∧ wellFormed (.flitReceive 0 []) = false ∧
    wellFormed (.perstDeassert 9 1) = false ∧ wellFormed (.cxlLinkUp 1 7) = false ∧ wellFormed (.cxlMemWrite 63 [0, 0] ⟨[], 0⟩) = false ∧
    wellFormed (.governorEvaluate []) = false ∧ wellFormed (.levellerAdjust []) = false ∧ wellFormed (.thermalTrip 17 0) = false ∧
    wellFormed (.thermtripAssert 17 0) = false ∧ wellFormed (.rateUpdate 0 0 0 0) = false ∧
    wellFormed (.dcopy c0 1 2 3 0) = true ∧ wellFormed (.vmmac c0 vr) = true := by decide

/-- A frame, a request or a record one byte too long is ill-formed. -/
theorem test_illformed_long (p : PortId) (l : List Byte) (n : Nat) :
    (l.length = 9235 → wellFormed (.frameReceive p false l) = false) ∧
    (l.length = 131073 → wellFormed (.jobCreate n l) = false ∧ wellFormed (.jobKeyWrap n l) = false ∧ wellFormed (.jobKeyAccept n l) = false ∧
      wellFormed (.keyLoad n l) = false) := by
  constructor <;> intro h <;> simp only [wellFormed, h] <;> simp

/-- A field beyond what its row of Table 09.5 allows is ill-formed. -/
theorem test_illformed_kernel : kernelFieldsOk (.vcmpEq c0 { vr with vd := 8 }) = false ∧ kernelFieldsOk (.vcmpFlt c0 vr) = false ∧
    kernelFieldsOk (.ftor c0 { vr with vb := 4 }) = false ∧ kernelFieldsOk (.vcmpFlt c0 vrw) = true ∧ kernelFieldsOk (.pand c0 1 2 3) = true := by decide
/-! ## Words written out field by field from Tables 09.4 and 09.5 decode to their instructions, and others to none -/

/-- The worked example of R244: VMMAC v4, v1, v2 with m3, p0 and the 64-bit view. -/
theorem test_decode_worked : decodeKernel c0 0x80811304 = some (.vmmac c0 { vd := 4, va := 1, vb := 2, mr := 3, pr := 0, w := false }) := by decide

/-- SR, SI, SU, SB and SS: op, then the fields from the high end. -/
theorem test_decode_scalar :
    decodeKernel c0 0b000001_000001_000010_000011_00_000000#32 = some (.add c0 1 2 3) ∧
    decodeKernel c0 0b000001_000001_000010_000011_01_000000#32 = none ∧
    decodeKernel c0 0b000001_111111_000000_100000_00_001110#32 = some (.maxu c0 63 0 32) ∧
    decodeKernel c0 0b000001_000001_000010_000011_00_001111#32 = none ∧
    decodeKernel c0 0b000010_000001_000010_11111111111111#32 = some (.addi c0 1 2 (-1)) ∧
    decodeKernel c0 0b000110_000001_000010_00000000_111111#32 = some (.slli c0 1 2 63) ∧
    decodeKernel c0 0b000110_000001_000010_00000001_111111#32 = none ∧
    decodeKernel c0 0b001001_000001_10000000000000000000#32 = some (.lui c0 1 0x80000) ∧
    decodeKernel c0 0b001011_000111_000010_00000000000100#32 = some (.lw c0 7 2 4) ∧
    decodeKernel c0 0b001100_000111_000010_00000000001000#32 = some (.sd c0 7 2 8) ∧
    decodeKernel c0 0b010101_000001_000010_11111111111110#32 = some (.bge c0 1 2 (-2)) ∧
    decodeKernel c0 0b010110_000001_00000000000000000010#32 = some (.jal c0 1 2) ∧
    decodeKernel c0 0b011000_000001_000000_00000000000010#32 = some (.csrr c0 1 2) ∧
    decodeKernel c0 0b011000_000001_000001_00000000000010#32 = none ∧ decodeKernel c0 0 = none := by decide

/-- VR, VS, VM, PR, MD, T and D. -/
theorem test_decode_vector :
    decodeKernel c0 0b100001_00100_00001_00010_011_101_1_1010#32 = some (.vsra c0 { vd := 4, va := 1, vb := 2, mr := 3, pr := 5, w := true }) ∧
    decodeKernel c0 0b100010_00111_00001_00010_000_000_0_0101#32 = some (.vcmpGe c0 { vd := 7, va := 1, vb := 2, mr := 0, pr := 0, w := false }) ∧
    decodeKernel c0 0b100010_01000_00001_00010_000_000_0_0101#32 = none ∧
    decodeKernel c0 0b100011_11111_00001_000011_001_1_000101#32 = some (.viota c0 { vd := 31, va := 1, sa := 3, pr := 1, w := true }) ∧
    decodeKernel c0 0b100100_00101_000011_0000000001_111_00#32 = some (.vld c0 5 3 1 7) ∧
    decodeKernel c0 0b100100_00101_000011_0000000001_111_01#32 = none ∧
    decodeKernel c0 0b101000_00100_00001_00011_000_010_0_0011#32 = some (.rtob c0 { vd := 4, va := 1, vb := 3, mr := 0, pr := 2, w := false }) ∧
    decodeKernel c0 0b101000_00100_00001_00100_000_010_0_0011#32 = none ∧
    decodeKernel c0 0b101010_00100_00001_00010_000_010_1_1001#32 = some (.vfneg c0 { vd := 4, va := 1, vb := 2, mr := 0, pr := 2, w := true }) ∧
    decodeKernel c0 0b101100_001_010_011_0000000000000_0010#32 = some (.pxor c0 1 2 3) ∧
    decodeKernel c0 0b101110_111_1_00_000011_00000000100000#32 = some (.mld c0 7 true 3 32) ∧
    decodeKernel c0 0b110000_000000_0000_0000000100000011#32 = some (.fire c0 0x0103) ∧
    decodeKernel c0 0b110001_000101_1000_0000000000000000#32 = some (.tslot c0 5 8) ∧
    decodeKernel c0 0b110010_000000_0001_0000000000000000#32 = none ∧
    decodeKernel c0 0b111000_000001_000010_000011_01_000010#32 = some (.dsub c0 1 2 3 1) := by decide

/-! ## Kernel instructions: for every one, states in which it is issued and its hypotheses hold -/

/-- Every instruction of the list is issued at `pc`. -/
def issuesAll (pc : Nat) (l : List Instr) : Bool := l.all (fun i => issues (ready pc i) i)

def scalars : List Instr := [
  .add c0 5 1 2, .sub c0 5 1 2, .and c0 5 1 2, .or c0 5 1 2, .xor c0 0 1 2, .sll c0 5 1 2, .srl c0 5 1 2, .sra c0 5 1 2, .mul c0 5 1 2,
  .mulhu c0 5 1 2, .sltu c0 5 1 2, .slt c0 5 1 2, .cmovnz c0 5 1 2, .minu c0 5 1 2, .maxu c0 5 1 2, .addi c0 5 1 (-1), .andi c0 5 1 (-1),
  .ori c0 5 1 (-1), .xori c0 5 1 (-1), .slli c0 5 1 63, .srli c0 5 1 63, .srai c0 5 1 63, .lui c0 5 (-1), .csrr c0 5 0, .csrr c0 5 3]

theorem test_w_Computed : issuesAll 0 scalars = true ∧ issuesAll 0xFFFF8 scalars = true ∧
    scalars.all (fun i => (scalarOf (ready 0 i) i).isSome) = true := by decide
theorem test_w_Branches :
    ([.beq c0 1 1 (-2), .bne c0 1 2 (-2), .bltu c0 1 2 (-2), .bgeu c0 2 1 (-2), .blt c0 2 1 (-2), .bge c0 1 2 (-2)] : List Instr).all (fun i =>
      issues (ready 8 i) i && (branchOf (ready 8 i) i == some (c0, true, (-2#14)))) = true ∧
    ([.beq c0 1 2 1, .bne c0 1 1 1, .bltu c0 2 1 1, .bgeu c0 1 2 1, .blt c0 1 2 1, .bge c0 2 1 1] : List Instr).all (fun i =>
      issues (ready 8 i) i && (branchOf (ready 8 i) i == some (c0, false, 1#14))) = true ∧ ((0 : Nat) : Int) = 8 + 4 * (-2#14).toInt := by decide

/-- JAL to the last word of the local store, JALR to word 64. -/
theorem test_w_Jumps : issuesAll 8 [.jal c0 5 0x3FFFD, .jalr c0 5 1 0] = true ∧ ((0xFFFFC : Nat) : Int) = 8 + 4 * (0x3FFFD#20).toInt ∧
    (0x100 : Nat) = (coreS (getCore (ready 8 (.jalr c0 5 1 0)) c0) 1 + (0#14).signExtend 64).toNat := by decide

/-- s4 holds a well-formed descriptor; 256 in s1 is none. -/
theorem test_w_FormatRegister : issuesAll 0 [.csrw c0 1 1, .csrw c0 4 1] = true ∧
    fmtOk (coreS (getCore (ready 0 (.csrw c0 4 1)) c0) 4).toNat = true ∧ fmtOk (coreS (getCore (ready 0 (.csrw c0 1 1)) c0) 1).toNat = false := by decide

def preds : List Instr := [.pand c0 1 0 2, .por c0 1 0 2, .pxor c0 0 0 2, .pnot c0 1 2 0, .pset c0 1 0 0, .pclr c0 7 0 0]
theorem test_w_PredicateInstructions : issuesAll 0 preds = true ∧ preds.all (fun i => (predOf (ready 0 i) i).isSome) = true := by decide

def elements : List Instr := [
  .vadd c0 vr, .vsub c0 vrw, .vmul c0 vr, .vmulhu c0 vrw, .vand c0 vr, .vor c0 vr, .vxor c0 vrw, .vsll c0 vr, .vsrl c0 vrw, .vsra c0 vr,
  .vfadd c0 vrw, .vfsub c0 vrw, .vfmul c0 vrw, .vffma c0 vrw, .vfdiv c0 vrw, .vfsqrt c0 vrw, .vfmin c0 vrw, .vfmax c0 vrw, .vfabs c0 vrw,
  .vfneg c0 vrw]
def wides : List Instr := [
  .vfadd c0 vr, .vfsub c0 vr, .vfmul c0 vr, .vffma c0 vr, .vfdiv c0 vr, .vfsqrt c0 vr, .vfmin c0 vr, .vfmax c0 vr, .vfabs c0 vr, .vfneg c0 vr]
def mods : List Instr := [
  .vmadd c0 vr, .vmsub c0 vr, .vmneg c0 vr, .vmmul c0 vr, .vmmac c0 vr, .vmont c0 vr, .vmmacm c0 vr, .vtom c0 vr, .vfromm c0 vr]

theorem test_w_VectorInstructions : issuesAll 0 (elements ++ wides) = true ∧ elements.all (fun i => (elementOf (ready 0 i) i).isSome) = true ∧
    wides.all (fun i => (wideFpOf i).isSome) = true := by decide

/-- The core under the format descriptor in s4, a 32-bit ring. -/
def withFmt (s : State) : State := modCore s c0 (fun k => { k with fmt := 0x20101 })
/-- m3 loaded with a modulus of 28 bits, the least, and its constants. -/
def withMod (s : State) (w : Bool) (mp : Nat) : State := modCore s c0 (fun k => { k with m := vmod k.m 3 (fun _ => {
  m := word64 m28, mprime := word64 mp, mu := word64 (2 ^ (2 * 28) / m28), r2 := word64 ((if w then 2 ^ 64 else 2 ^ 128) % m28),
  valid := true, w32 := w }) })

/-- RTOS and STOR compute elements under a format, and convert as the other four do. -/
theorem test_w_ringConversions : ([.rtos c0 vrw, .stor c0 vrw] : List Instr).all (fun i =>
    issues (withFmt (ready 0 i)) i && (elementOf (withFmt (ready 0 i)) i).isSome) = true := by decide

def v0 : VrFields := { vrw with vb := 0 }
def v3 : VrFields := { vrw with vb := 3 }
/-- Part 0 of FTOR and RTOF, and part 1 of BTOR and RTOB, the last that fits. -/
theorem test_w_Converted :
    (getCore (withFmt (ready 0 (.ftor c0 v0))) c0).fmt ≠ 0 ∧ fmtView (getCore (withFmt (ready 0 (.ftor c0 v0))) c0).fmt = v0.w ∧
    ([.ftor c0 v0, .rtof c0 v0, .btor c0 { v0 with vb := 1 }, .rtob c0 { v0 with vb := 1 }] : List Instr).all (fun i => issues (withFmt (ready 0 i)) i) = true ∧
    4 * (vcount (viewSize v0.w) * v0.vb.toNat + vcount (viewSize v0.w)) ≤ 256 ∧ 2 * (vcount 4 * 1 + vcount 4) ≤ 256 := by decide
theorem test_w_ConversionErrors :
    ([.ftor c0 v0, .btor c0 v0, .rtof c0 v0, .rtob c0 v0, .rtos c0 v0, .stor c0 v0] : List Instr).all (fun i => kernelReady (ready 0 i) c0 i) = true ∧
    (getCore (ready 0 (.stor c0 v0)) c0).fmt = 0 ∧ ([.ftor c0 v3, .rtof c0 v3] : List Instr).all (fun i => kernelReady (withFmt (ready 0 i)) c0 i) = true ∧
    64 < vcount (viewSize v3.w) * (v3.vb.toNat + 1) := by decide

theorem test_w_ModularResults : mods.all (fun i => issues (withMod (ready 0 i) false 5317931836805823947) i && (modularOf i == some (c0, vr))) = true ∧
    goodModulus (getCore (withMod (ready 0 (.vmmac c0 vr)) false 5317931836805823947) c0).m[predIx vr.mr] vr.w ∧
    goodModulus (getCore (withMod (ready 0 (.vmont c0 vrw)) true 2022522315) c0).m[predIx vrw.mr] vrw.w ∧
    issues (withMod (ready 0 (.vmont c0 vrw)) true 2022522315) (.vmont c0 vrw) = true := by
  unfold goodModulus; decide
/-- m3 after reset, and m3 of the 32-bit view under a 64-bit instruction. -/
theorem test_w_ModulusError : mods.all (fun i => kernelReady (ready 0 i) c0 i && kernelReady (withMod (ready 0 i) true 2022522315) c0 i) = true ∧
    ((getCore (ready 0 (.vmmac c0 vr)) c0).m[predIx vr.mr]).valid = false ∧
    ((getCore (withMod (ready 0 (.vmmac c0 vr)) true 2022522315) c0).m[predIx vr.mr]).w32 ≠ vr.w := by decide

theorem test_w_VectorSelect : issues (ready 0 (.vsel c0 vr)) (.vsel c0 vr) = true ∧ issues (ready 0 (.vsel c0 vrw)) (.vsel c0 vrw) = true := by decide
def vcmps : List Instr := [
  .vcmpEq c0 vr, .vcmpNe c0 vrw, .vcmpLtu c0 vr, .vcmpGeu c0 vr, .vcmpLt c0 vr, .vcmpGe c0 vrw, .vcmpFlt c0 vrw, .vcmpFeq c0 vrw, .vcmpFun c0 vrw]
theorem test_w_VectorComparisons : issuesAll 0 vcmps = true ∧ vcmps.all (fun i => (compareOf i).isSome) = true := by decide
def vss : List Instr := [
  .vbcast c0 vs, .vadds c0 vs, .vslls c0 vs, .vsrls c0 vs, .vsras c0 vs, .viota c0 { vs with w := true }]
theorem test_w_VectorWithScalar : issuesAll 0 vss = true ∧ vss.all (fun i => (withScalarOf i).isSome) = true := by decide
theorem test_w_LocalLoads : ([.ld c0 5 1 (-8), .lw c0 5 1 4, .vld c0 5 1 0 0] : List Instr).all (fun i => issues (ready 0 i) i) = true ∧
    loadOf (ready 0 (.ld c0 5 1 (-8))) (.ld c0 5 1 (-8)) = some (c0, 5, 248, 8) ∧ loadOf (ready 0 (.lw c0 5 1 4)) (.lw c0 5 1 4) = some (c0, 5, 260, 4) ∧
    (coreS (getCore (ready 0 (.vld c0 5 1 0 0)) c0) 1 + 256 * (0#10).signExtend 64).toNat = 256 ∧
    dmaWritesLs (getCore (ready 0 (.vld c0 5 1 0 0)) c0) 256 256 = false ∧ Memory.wf (getCore (ready 0 (.vld c0 5 1 0 0)) c0).ls := by decide
theorem test_w_LocalStores : ([.sd c0 2 1 (-8), .sw c0 2 1 4, .vst c0 5 1 0 0] : List Instr).all (fun i =>
      issues (ready 0 i) i && (storeOf (ready 0 i) i).isSome) = true ∧
    (storeOf (ready 0 (.sd c0 2 1 (-8))) (.sd c0 2 1 (-8))).map (fun x => (x.2.1, x.2.2.1)) = some (248, 8) ∧
    codeHit (getCore (ready 0 (.sd c0 2 1 (-8))) c0) 248 8 = false ∧ dmaReadsLs (getCore (ready 0 (.sd c0 2 1 (-8))) c0) 248 8 = false := by decide
/-- A byte off, the last byte of the local store, and byte 0, where the kernel's code stands. -/
theorem test_w_LocalStoreErrors : ([.ld c0 5 1 1, .lw c0 5 2 1, .ld c0 5 2 (-7), .sd c0 2 1 1, .sw c0 2 2 (-3), .sd c0 2 0 0] : List Instr).all
      (fun i => kernelReady (ready 0 i) c0 i) = true ∧
    (loadOf (ready 0 (.ld c0 5 1 1)) (.ld c0 5 1 1)) = some (c0, 5, 257, 8) ∧
    (loadOf (ready 0 (.ld c0 5 2 (-7))) (.ld c0 5 2 (-7))) = some (c0, 5, 0xFFFFFFFFFFFFFFF8, 8) ∧
    (storeOf (ready 0 (.sd c0 2 1 1)) (.sd c0 2 1 1)).map (fun x => (x.2.1, x.2.2.1)) = some (257, 8) ∧
    (storeOf (ready 0 (.sw c0 2 2 (-3))) (.sw c0 2 2 (-3))).map (fun x => (x.2.1, x.2.2.1)) = some (0xFFFFFFFFFFFFFFFC, 4) ∧
    (storeOf (ready 0 (.sd c0 2 0 0)) (.sd c0 2 0 0)).map (fun x => (x.2.1, x.2.2.1)) = some (0, 8) ∧
    codeHit (getCore (ready 0 (.sd c0 2 0 0)) c0) 0 8 = true := by decide

/-- A descriptor at 256 that passes R247; at 288 the local store reads zero, which fails. -/
def withDesc (i : Instr) : State := modCore (ready 0 i) c0 (fun k => { k with
  ls := memWrite k.ls 256 (leBytes 8 m28 ++ leBytes 8 5317931836805823947 ++ leBytes 8 (2 ^ 56 / m28) ++ leBytes 8 (2 ^ 128 % m28)) })
theorem test_w_ModulusLoad : ([.mld c0 7 false 1 0, .mld c0 7 false 1 32] : List Instr).all (fun i => issues (withDesc i) i) = true ∧
    (let k := getCore (withDesc (.mld c0 7 false 1 0)) c0
     Memory.wf k.ls ∧ dmaWritesLs k 256 32 = false ∧ ofLe (memRead k.ls 256 8) = m28 ∧ m28 * ofLe (memRead k.ls 264 8) % 2 ^ 64 = 2 ^ 64 - 1 ∧
     2 ^ 27 ≤ m28 ∧ ofLe (memRead k.ls 288 8) % 2 ≠ 1) := by decide

theorem test_w_KernelError : (getCore (ready 0 (.tpois c0)) c0).bind = some bound := by decide
theorem test_w_IllegalAndWatchdog : coreIssues (ready 0 .cxlLinkDown) c0 = true ∧ coreFetch (getCore (ready 0 .cxlLinkDown) c0) = 0 ∧
    decodeKernel c0 0 = none := by decide

def fired : CoreFiring := { slots := [{ port := 0, addr := 0x1000, token := tok1 }] }
def firing (s : State) : State := modCore s c0 (fun k => { k with firing := some fired })
theorem test_w_watchdog : (getCore (firing up) c0).firing.isSome ∧ (getCore (firing up) c0).halted = false ∧ stopping (getCore (firing up) c0).ctl = false := by decide

theorem test_w_FiringInstructions : kernelReady (ready 0 (.fire c0 0x0301)) c0 (.fire c0 0x0301) = true ∧
    (getCore (ready 0 (.fire c0 0x0301)) c0).bind = some bound ∧ 3 &&& bound.inMask = 3 ∧ 1 &&& bound.outMask = 1 ∧
    kernelReady (ready 0 (.fire c0 0x8000)) c0 (.fire c0 0x8000) = true ∧ 128 &&& bound.inMask ≠ 128 ∧
    kernelReady (firing (ready 0 (.tend c0))) c0 (.tend c0) = true ∧ kernelReady (ready 0 (.tend c0)) c0 (.tend c0) = true ∧
    ([.tslot c0 5 0, .tslot c0 5 8, .tpois c0] : List Instr).all (fun i => issues (firing (ready 0 i)) i) = true ∧
    fired.slots.find? (fun h => h.port == 0) = some { port := 0, addr := 0x1000, token := tok1 } ∧ ∀ h ∈ fired.slots, h.port ≠ 8 := by decide

/-- The core waits to fire: input port 0 holds a token, output port 0 feeds core 8's input port 5, which has a credit. -/
def c1 : CoreId := ⟨3, 8⟩
def waits (r : CoreRun) : State :=
  modOut (modIn (modIn (modCore (ready 0 (.tpois c0)) c0 (fun k => { k with run := r })) (.core c0) 0 (fun x => { x with conn := true, pool := 2, job := 1, held := [tok1] }))
    (.core c1) 5 (fun x => { x with conn := true, pool := 2, avail := 1, prod := some (.core c0, 0) })) (.core c0) 0
    (fun x => { x with conn := true, cons := some (.core c1, 5) })
theorem test_w_FiringEvents :
    (let s := waits (.waitFire 1 1)
     (getCore s c0).run = .waitFire 1 1 ∧ mayFire s (.core c0) = true ∧ (getCore s c0).halted = false ∧ s.bays[c0.bay].remapping = none ∧
     (∀ p ∈ maskPorts8 1, (getIn s (.core c0) p).held ≠ []) ∧ (∀ n ∈ maskPorts8 1, outCredits s (.core c0) n ≠ 0) ∧
     ((maskPorts8 1).map (fun n => (getOut s (.core c0) n).cons)).Nodup) ∧
    (let s := firing (waits .waitTend)
     (getCore s c0).run = .waitTend ∧ (getCore s c0).firing = some fired ∧ dmaTouchesSlot (getCore s c0) = false ∧
     stopping (getCore s c0).ctl = false ∧ (getCore s c0).pc = 0) := by decide

theorem test_w_Breakpoint : issues (ready 0 (.brk c0)) (.brk c0) = true ∧ issues (tenants (ready 0 (.brk c0)) false) (.brk c0) = true ∧
    debugOpen (ready 0 (.brk c0)) mgmt = true ∧ debugOpen (tenants (ready 0 (.brk c0)) false) (tenantPart 2) = false ∧
    debugOpen (tenants (ready 0 (.brk c0)) true) (tenantPart 2) = true := by decide

/-- s1 = 256 and s5 hold local addresses, s6 the length 64. -/
def dmaState (i : Instr) (n : Nat) : State := modCore (ready 0 i) c0 (fun k => { k with
  s := vmod k.s 6 (fun _ => 64), dma := vmod k.dma 2 (fun _ => List.replicate n { op := 0, dst := 512, src := 256, len := 64, ring := 0 }) })
/-- A copy inside the local store without an error, with three operations queued and with four. -/
theorem test_w_dcopy : let i : Instr := .dcopy c0 1 1 6 2
    issues (dmaState i 3) i = true ∧ issues (dmaState i 4) i = true ∧ dmaError (dmaState i 3) c0 (getCore (dmaState i 3) c0) 0 256 256 64 = 0 ∧
    (getCore (dmaState i 3) c0).dma[(2 : Fin 4)].length = 3 ∧ (getCore (dmaState i 4) c0).dma[(2 : Fin 4)].length = 4 := by decide
/-- DADD and DSUB into bay memory under an ACCUM grant. -/
def accum (i : Instr) : State := modCore (dmaState i 0) c0 (fun k => { k with
  bind := some { bound with grants := [{ base := 2 ^ 63, lines := 64, rights := 4 }] },
  s := vmod (vmod k.s 7 (fun _ => 0x8000000000000000)) 6 (fun _ => 0x0200000000000040) })
theorem test_w_dadd : ([.dadd c0 7 1 6 3, .dsub c0 7 1 6 3] : List Instr).all (fun i => issues (accum i) i) = true ∧
    dmaError (accum (.dadd c0 7 1 6 3)) c0 (getCore (accum (.dadd c0 7 1 6 3)) c0) 1 0x8000000000000000 256 0x0200000000000040 = 0 ∧
    dmaError (accum (.dsub c0 7 1 6 3)) c0 (getCore (accum (.dsub c0 7 1 6 3)) c0) 2 0x8000000000000000 256 0x0200000000000040 = 0 := by decide
/-- DWAIT and DFENCE with the channel idle and with an operation on it. -/
theorem test_w_dwait : ([.dwait c0 0 0 0 2, .dfence c0 0 0 0 2] : List Instr).all (fun i => issues (dmaState i 0) i && issues (dmaState i 1) i) = true ∧
    (∀ m : Fin 4, (getCore (dmaState (.dfence c0 0 0 0 2) 0) c0).dma[m] = []) ∧ (getCore (dmaState (.dfence c0 0 0 0 2) 1) c0).dma[(2 : Fin 4)] ≠ [] := by decide
theorem test_w_DmaComplete : let s := dmaState (.tpois c0) 2
    (getCore s c0).dma[(2 : Fin 4)] = ⟨0, 512, 256, 64, 0⟩ :: [⟨0, 512, 256, 64, 0⟩] ∧ s.pow.trip = false ∧ s.bays[c0.bay].mem.selfRefresh = false ∧
    dmaSpace 256 = 0 ∧ dmaSpace 512 = 0 ∧ Memory.wf (getCore s c0).ls := by decide
/-- DMA_COMPLETE copies the 64 bytes at 256 to 512: the descriptor's first byte follows. -/
theorem test_dma_copies : (match execDmaComplete c0 2 ⟨[], 0⟩ (modCore (withDesc (.tpois c0)) c0 (fun k => { k with
      dma := vmod k.dma 2 (fun _ => [⟨0, 512, 256, 64, 0⟩]) })) with
    | .next t => (memRead (getCore t c0).ls 512 8, (getCore t c0).dma[(2 : Fin 4)].length)
    | _ => ([], 9)) = (leBytes 8 m28, 0) := by decide
theorem test_w_RegisterInstructionsKeepMemory : touchesNoMemory (.add c0 5 1 2) = true ∧ ∃ t, exec (.add c0 5 1 2) (ready 0 (.add c0 5 1 2)) = .next t :=
  ⟨by decide, _, rfl⟩
/-! ## Stations, registers, daybooks, almanac, entropy: a state for the hypotheses of every clause -/

theorem test_w_ControlBits : Open up .pf (stPage (.bay 3 .msk)) 0x008 ∧ Open up .pf (stPage (.core c0)) 0x008 ∧ Open up .pf (stPage .red) 0x008 := by
  unfold Open; decide

/-- A Mask station with the control bits given, in a state. -/
def msk : StationRef := .bay 3 .msk
def station (en abort drain : Bool) (st : StState) : State := modSt up msk (fun x => { x with en := en, abort := abort, drain := drain, st := st, ready := true })
theorem test_w_StationControlArrive :
    (getSt (station true false false .fenced) msk).st = .fenced ∧ (getSt (station true false true .idle) msk).drain = true ∧
    (getSt (station false false false .busy) msk).st = .busy ∧ (getSt (station true false false .off) msk).st = .off ∧
    (getSt (station true false false .off) msk).ready = true ∧ (getSt (station true true false .idle) msk).abort = true ∧
    (getSt (station true true false .idle) msk).firing = none ∧
    ∀ p : PortId, ((getSt (station true false false .off) msk).ins[p]).prod = none := by decide

/-- A token and a credit cross from Mask to Bin of bay 3, input port 2; Bin is in a firing with one input and one output. -/
def bin3 : StationRef := .bay 3 .bin
def crossing : State :=
  let s := modIn up bin3 2 (fun x => { x with conn := true, pool := 2, busy := [0], held := [tok1], prod := some (msk, 1) })
  let s := modSt s bin3 (fun x => { x with
    firing := some { ins := [(2, tok1)], outs := [(1, tok1)] }, st := .busy, outs := vmod x.outs 1 (fun o => { o with conn := true, waitSince := some 0 }) })
  { s with tokFlight := [(bin3, 2, tok1)], credFlight := [(bin3, 2, 0)], alm := { t := 1000000 } }
theorem test_w_TokensAndCredits :
    crossing.tokFlight.find? (fun f => f.1 == bin3 && f.2.1 == 2) = some (bin3, 2, tok1) ∧ stopping (getSt crossing bin3) = false ∧
    crossing.credFlight.find? (fun f => f.1 == bin3 && f.2.1 == 2) = some (bin3, 2, 0) ∧ (getIn crossing bin3 2).prod = some (msk, 1) ∧
    stopping (getSt crossing msk) = false ∧ (getSt crossing bin3).firing.isSome ∧ (getSt crossing bin3).stall = false ∧
    ((getSt crossing bin3).outs[(1 : PortId)]).waitSince = some 0 ∧ allPorts.find? (fun p => !((getSt crossing bin3).ins[p]).held.isEmpty) = some 2 ∧
    elapsed crossing 0 1000000 = true ∧ elapsed { crossing with alm := { t := 999999 } } 0 1000000 = false := by decide
/-- A token comes to a core whose port owes one to a firing that left as a marker. -/
def owing : State := { modIn up (.core c0) 2 (fun x => { x with owed := 1 }) with tokFlight := [(.core c0, 2, tok1)] }
theorem test_w_owed : owing.tokFlight.find? (fun f => f.1 == .core c0 && f.2.1 == 2) = some (.core c0, 2, tok1) ∧
    stopping (getSt owing (.core c0)) = false ∧ 0 < (getIn owing (.core c0) 2).owed ∧ (getIn owing (.core c0) 2).held = [] ∧
    (∀ c, bin3 = .core c → (getIn crossing bin3 2).owed = 0) := ⟨by decide, by decide, by decide, by decide, by intro c h; cases h⟩
theorem test_w_StationFaults : (getSt up msk).firing = none ∧ (getCore up c0).firing = none ∧ heldCount up (.core c0) = 0 := by decide
theorem test_w_ShareControl : Open up .pf .trn (0x400 + 15 * 0x20) ∧ up.trn.msgs = [] ∧ Open up .pf .red 0x400 ∧ up.red.runs = [] := by
  unfold Open; decide

/-- PWR_CAP is a GRD register; DEV_ID at offset 0x100 is read-only; offset 0xFFC of the device page is reserved. -/
theorem test_w_RegisterWrites : Open up .pf .dev 0x11C ∧ Open up .pf .clk (0x200 + 4 * 15) ∧ (0x80000004#32).toNat % 8 ≤ 4 ∧
    regAddr up .pf 0x100 = some (.dev, 0x100) ∧ regKind .dev 0x100 = some .ro ∧ regAddr up .pf 0x1100 = some (.pwr, 0x100) ∧
    reaches up .pf .pwr = true ∧ regKind .pwr 0x100 = some .grd ∧ (lockOf up .pwr).unlocked = false ∧
    rateOk up (.grd .pwr) 1000000 = true ∧ rateOk { up with rates := [(.grd .pwr, 0)] } (.grd .pwr) 1000000 = false ∧
    (lockOf { up with rates := [(.grd .pwr, 0)] } .pwr).discards < 2 ^ 32 - 1 ∧
    regAddr up .pf 0xFFC = some (.dev, 0xFFC) ∧ regKind .dev 0xFFC = none ∧ (16 : Nat) ≠ 4 ∧ (6 : Nat) % 4 ≠ 0 := by
  unfold Open; decide

/-- The last MSI-X entry of tenant 2's function, with a message pending; a write of 8 bytes that starts at DEV_SCRATCH's pair. -/
def pendingMsix : State := putMsix (tenants up false) (tenantPart 2) 119 { pending := true }
theorem test_w_Msix : pendingMsix.pow.inReset = false ∧ partExists pendingMsix (tenantPart 2) = true ∧ (msixOf pendingMsix (tenantPart 2) 119).pending = true ∧
    (msixOf pendingMsix (tenantPart 2) 118).pending = false ∧ (0#32).getLsbD 0 = false := by decide
theorem test_w_writeOfEight : 0x118 % 8 = 0 ∧ ∃ t, exec (.registerWrite .pf ⟨false, 0x118⟩ { lo := 7 }) up = .next t := ⟨by decide, _, rfl⟩

def entry0 : Entry := { time := 5, source := 1, code := 0x1001, part := 2, sev := 2, d0 := 0, d1 := 0, d2 := 0, d3 := 0 }
theorem test_w_DaybookQueues : { up with dbkIn := [(mgmt, entry0)] }.dbkIn = (mgmt, entry0) :: [] ∧ ((up.dbk[mgmt]).entries.length < 1024) ∧
    Open up .pf (.dbk (ownPart .pf)) 0x10C ∧ Open (tenants up false) (.vf 2) (.dbk (ownPart (.vf 2))) 0x10C ∧
    partExists (tenants up false) (ownPart (.vf 2)) = true := by unfold Open; decide
/-- A queue that is full. -/
theorem test_w_DaybookFull : ∃ s : State, s.dbkIn = (mgmt, entry0) :: [] ∧ (s.dbk[mgmt]).entries.length = 1024 :=
  ⟨{ up with dbkIn := [(mgmt, entry0)], dbk := vmod up.dbk mgmt (fun d => { d with entries := List.replicate 1024 (0, entry0) }) }, rfl,
    (by show (List.replicate 1024 _).length = 1024; exact List.length_replicate)⟩

def atMode (m : BitVec 2) (st : AlmState) (t : W64) (o : Nat) : State := { unlocked up .alm with alm := { mode := m, state := st, t := t, outliers := o } }
theorem test_w_Almanac : Open (unlocked up .alm) .pf .alm 0x108 ∧ up.alm.mode = 1 ∧ Open (atMode 0 .free 0 0) .pf .alm 0x108 ∧ (atMode 0 .free 0 0).alm.mode ≠ 1 ∧
    -- an edge exactly at the bound, one beyond it, and one before its second
    (phaseError 0 (1000001008 - 8)).natAbs = 1000 ∧ (phaseError 0 (1000001009 - 8)).natAbs = 1001 ∧ (phaseError 0 (999999007 - 8)).natAbs = 1001 ∧
    (atMode 1 .locked 1000001009 3).alm.state = .locked ∧ (atMode 1 .locked 1000001009 3).alm.outliers = 3 ∧ (atMode 1 .locked 1000001009 2).alm.outliers < 3 ∧
    windowPassed { mode := 1, state := .locked, t := 3000001001, missed := 2 } = true := by unfold Open; decide

def rngUp (startup valid : Bool) (fifo : List Byte) : State := { up with rng := { startup := startup, valid := valid, fifo := fifo } }
theorem test_w_EntropySource : Open (unlocked up .rng) .pf .rng 0x100 ∧ Open { unlocked up .rng with rng := { srcEn := false, startup := false } } .pf .rng 0x100 ∧ up.rng.restart = false ∧
    up.rng.srcEn = true ∧ up.rng.startup = true ∧ (rngUp false true [1, 2, 3, 4]).rng.valid = true ∧ (rngUp false true []).rng.latched = false ∧
    nextInstance (rngUp false true []) = none ∧ (rngUp false true [1, 2, 3, 4]).rng.fifo.length = 4 ∧ (rngUp false true []).rng.fifo = [] := by
  unfold Open; decide
/-- 1,024 alternating samples pass both tests, and as many zeros fail the repetition test. -/
def alternating : Nat → List Bool
  | 0 => []
  | n + 1 => true :: false :: alternating n
theorem test_w_rawSamples : (alternating 512).length = 1024 ∧ (rctRun (alternating 512) false 0 false).2.2 = false ∧ aptBad (alternating 512) = false := by decide +kernel
/-- The management partition's instance is stalled and next in the rotation, with a block in the pool. -/
def stalled : State := { up with rng := {
  startup := false, valid := true, pool := [[1]], turn := 16,
  drbg := vmod (Vector.replicate 17 {}) mgmt (fun _ => { live := true, seeded := true, stalled := true }) } }
theorem test_w_drbgResume : stalled.rng.valid = true ∧ stalled.rng.pool = [[1]] ∧ nextInstance stalled = some mgmt ∧ (getDrbg stalled mgmt).stalled = true ∧
    (getDrbg stalled mgmt).waiting = [] := by decide
/-! ## Zaled, queues, the host link -/

/-- A Zaled port 3 in Zaled mode, enabled, in a state. -/
def zport (st : ZldState) (f : Zld → Zld) : State :=
  { unlocked up .zld with
    pow := { inReset := false, refs := 7 }, alm := { t := 100000000 }, rot := { ready := true },
    eth := vmod up.eth 3 (fun e => { e with modeV := 5 }), zld := vmod up.zld 3 (fun z => f { z with en := true, state := st }) }
theorem test_w_ZaledLinkStates : Open (unlocked up .zld) .pf .zld (0x100 + 7 * 0x20) ∧ (up.zld[(7 : PortId)]).en = false ∧
    Open (zport .up id) .pf .zld (0x100 + 3 * 0x20) ∧ ((zport .up id).zld[(3 : PortId)]).en = true ∧ ((zport .up id).zld[(3 : PortId)]).retrain = false ∧
    ((zport .up id).zld[(3 : PortId)]).state = .up ∧ mayTrain (zport .down id) 3 = true ∧ elapsed (zport .down id) 0 100000000 = true ∧
    elapsed (zport .training id) 0 20000000 = true ∧ elapsed (zport .training id) 90000000 20000001 = false ∧
    ((zport .training (fun z => { z with entered := 90000000 })).zld[(3 : PortId)]).entered = 90000000 ∧ elapsed (zport .hello id) 0 1000000 = true ∧
    ((zport .retrain id).zld[(3 : PortId)]).fromRetrain = false := by unfold Open; decide

/-- The messages of an authentication, each received. -/
def said (st : ZldState) (type : Nat) (body : List Byte) (f : Zld → Zld) : State := zport st (fun z => { f z with sbIn := [(type, body)] })
/-- A HELLO's body: the device id, the port 7, and zeros where Table 11.2 reserves bytes. -/
def hello7 : List Byte := List.replicate 64 7 ++ [7, 0, 2, 0] ++ List.replicate 12 0
theorem test_w_hello : helloOk hello7 = true ∧ (∃ rest, sbTake (said .hello 1 hello7 id) 3 1 = some (hello7, rest)) ∧
    (∃ rest, sbTake (said .retrain 1 hello7 id) 3 1 = some (hello7, rest)) ∧
    (let s := said .retrain 1 hello7 (fun z => { z with fromRetrain := true, verified := List.replicate 64 7, peerPort := 7 })
     (s.zld[(3 : PortId)]).fromRetrain = true ∧ (s.zld[(3 : PortId)]).verified = hello7.take 64 ∧
     (s.zld[(3 : PortId)]).peerPort = (hello7.getD 64 0).toNat ∧ (s.zld[(3 : PortId)]).late = false) ∧
    (List.replicate 64 (8 : Byte)) ≠ hello7.take 64 := ⟨by decide, ⟨_, rfl⟩, ⟨_, rfl⟩, by decide, by decide⟩
theorem test_w_ZaledAuthentication :
    (∃ rest, sbTake (said .auth 2 [1] id) 3 2 = some ([1], rest)) ∧ authActs (said .auth 2 [1] id) 3 = true ∧
    (∃ rest, sbTake (said .auth 3 [1] id) 3 3 = some ([1], rest)) ∧ ((said .auth 3 [1] id).zld[(3 : PortId)]).peerNonce = none ∧
    (∃ rest, sbTake (said .auth 4 [1] id) 3 4 = some ([1], rest)) :=
  ⟨⟨_, rfl⟩, by decide, ⟨_, rfl⟩, by decide, ⟨_, rfl⟩⟩
theorem test_w_proof : let s := said .auth 4 [1] (fun z => { z with certPk := some [2], ownNonce := some [3], peerNonce := some [4] })
    authActs s 3 = true ∧ (s.zld[(3 : PortId)]).certPk = some [2] ∧ (s.zld[(3 : PortId)]).ownNonce = some [3] ∧ (s.zld[(3 : PortId)]).peerNonce = some [4] := by decide
/-- A flit waits unacknowledged for 4 µs; a frame of one flit has been received. -/
def zbuf : State := zport .up (fun z => { z with replayBuf := [(0, [])], frames := [[([], false)]], replays := 6 })
theorem test_w_ZaledFlits : sbStates (zbuf.zld[(3 : PortId)]) = true ∧ (zbuf.zld[(3 : PortId)]).replayBuf ≠ [] ∧ elapsed zbuf (zbuf.zld[(3 : PortId)]).since 4000 = true ∧
    (zbuf.zld[(3 : PortId)]).replays < 7 ∧ (zbuf.zld[(3 : PortId)]).frames = [([], false)] :: [] ∧ (frameCheck zbuf 3 [([], false)]).2 = none := by decide

/-- A DATA flit with SEQ 0 that holds a whole frame of 3 bytes, an IDLE flit, and a flit of zeros, whose parity is right and whose crc
field is wrong. -/
def dataHdr : FlitHdr := { type := 1, seq := 0, ack := 0, ackv := false, rply := false, sof := true, eof := true, tag := false, resv := 0, credit := 0, len := 3 }
def zeros (n : Nat) : List Byte := List.replicate n 0
def dataStart : List Byte := [16, 0, 0, 3, 0, 0, 0, 3, 1, 2, 3] ++ zeros 107
def dataFlit : List Byte := dataStart ++ zeros 354 ++ [135, 87, 117, 73, 85, 26, 34, 185, 44, 156, 35, 40, 176, 11, 156, 179, 98, 8, 26, 156,
  172, 247, 122, 23, 53, 167, 210, 64, 88, 42, 143, 147, 48, 108, 114, 111, 204, 198, 164, 92]
def idleFlit : List Byte := zeros 472 ++ [183, 129, 164, 201, 78, 147, 189, 185, 240, 113, 114, 108, 57, 220, 11, 179, 57, 125, 96, 181, 186,
  124, 148, 217, 208, 206, 133, 183, 73, 224, 138, 136, 192, 0, 170, 74, 234, 144, 49, 182]
/-- The CRC-64 of 472 bytes, in four parts. -/
theorem test_crcParts (a b c d : List Byte) (x y z w : Nat) (ha : a.foldl crcByte (2 ^ 64 - 1) = x) (hb : b.foldl crcByte x = y)
    (hc : c.foldl crcByte y = z) (hd : d.foldl crcByte z = w) : crc64 (a ++ b ++ c ++ d) = Nat.xor w (2 ^ 64 - 1) := by
  unfold crc64; rw [List.foldl_append, List.foldl_append, List.foldl_append, ha, hb, hc, hd]
theorem test_crcOk (f g : List Byte) (n : Nat) (h : f.take 472 = g) (hg : crc64 g = n) : flitCrcOk f = (ofBe (bslice f 472 8) == n) := by
  unfold flitCrcOk; rw [h, hg]
theorem test_w_dataFlit : dataFlit.length = 512 ∧ (flitCorrect dataFlit).1 = dataFlit ∧ parseFlit dataFlit = dataHdr := by decide +kernel
theorem test_w_dataCrc : flitCrcOk dataFlit = true :=
  (test_crcOk _ (dataStart ++ zeros 118 ++ zeros 118 ++ zeros 118) _ (by decide +kernel) (test_crcParts _ _ _ _
    13754504634225602377 16537519475540267446 15645749138651869525 8694351597794614598
    (by decide +kernel) (by decide +kernel) (by decide +kernel) (by decide +kernel))).trans (by decide +kernel)
theorem test_w_idleFlit : idleFlit.length = 512 ∧ (flitCorrect idleFlit).1 = idleFlit ∧ parseFlit idleFlit = { dataHdr with type := 0, sof := false, eof := false, len := 0 } := by
  decide +kernel
theorem test_crcZeros : crc64 (zeros 118 ++ zeros 118 ++ zeros 118 ++ zeros 118) = Nat.xor 5223712908259377734 (2 ^ 64 - 1) :=
  test_crcParts _ _ _ _ 16419895300299051026 2477256448240056718 5989002133632820210 5223712908259377734
    (by decide +kernel) (by decide +kernel) (by decide +kernel) (by decide +kernel)
theorem test_w_idleCrc : flitCrcOk idleFlit = true := (test_crcOk _ _ _ (by decide +kernel) test_crcZeros).trans (by decide +kernel)
theorem test_w_brokenFlit : (zeros 512).length = 512 ∧ (flitCorrect (zeros 512)).1 = zeros 512 := by decide +kernel
theorem test_w_brokenCrc : flitCrcOk (zeros 512) = false := (test_crcOk _ _ _ (by decide +kernel) test_crcZeros).trans (by decide +kernel)
/-- A port that is up expects SEQ 0 and has no news of credits; one that expects SEQ 1 drops the flit. -/
theorem test_w_expecting : (let z := (zport .up id).zld[(3 : PortId)]
     sbStates z = true ∧ z.rxNext = 0 ∧ z.peerFreed % 4096 = 0 ∧ z.peerFreed ≤ z.dataSent ∧ z.state = .up ∧ z.rxHeld < 512 ∧ z.inFrame = false) ∧
    ((zport .up (fun z => { z with rxNext := 1 })).zld[(3 : PortId)]).rxNext ≠ 0 ∧
    helloDue ((zport .retrain (fun z => { z with fromRetrain := true })).zld[(3 : PortId)]) = true := by decide

/-- Queues 64 to 73 of tenant 2: admin SQ and CQ, an SQ of 16 places and its CQ. -/
def sq : Queue := { part := tenantPart 2, isSq := true, k := 4, cq := 67, ring := 0x1000, tail := 1 }
def cq : Queue := { part := tenantPart 2, isSq := false, k := 4, ring := 0x2000, vector := 0, irqCount := 2, irqTime := 100, unreported := 1, firstUnreported := some 0 }
def p2 : PartId := tenantPart 2
def queues : State :=
  { tenants up false with
    alm := { t := 100000 },
    qm := { (tenants up false).qm with
      base := vmod (vmod (tenants up false).qm.base p2 (fun _ => 64)) mgmt (fun _ => 0), count := vmod (vmod (tenants up false).qm.count p2 (fun _ => 10)) mgmt (fun _ => 64),
      queues := [(64, { sq with cq := 65 }), (65, cq), (66, sq), (67, cq)], stopped := false,
      held := [{ h := { h0 with sq := 66 }, status := 0, result := [] }], dispatched := [.schHalt h0] } }
/-- Q_CREATE of CQ 68, ring at 0x1000, 16 places. -/
def mkCq : List Byte := [68, 0, 2, 4, 0, 0, 0xFF, 0xFF, 0, 0, 0, 0, 0, 0, 0, 0, 0, 0x10, 0, 0, 0, 0, 0, 0]
theorem test_w_QueueCommands :
    (let s := unlocked queues (.qm mgmt)
     Open s .pf (.qm mgmt) 0x118 ∧ (s.qm.adm[mgmt]).cfg.msb = false ∧ (0x80000C0C#32).msb = true ∧ 2 ≤ s.qm.count[mgmt] ∧ (0x80000C0C#32).toNat % 16 ≤ 12 ∧
     (0x80000C0C#32).toNat / 256 % 16 ≤ 12 ∧ getQueue s 0 = none ∧ getQueue s 1 = none) ∧
    queueArgsOk p2 mkCq = true ∧ queueIn queues p2 (u16 mkCq 0) = true ∧ queues.qm.base[p2] + 2 ≤ u16 mkCq 0 ∧ getQueue queues (u16 mkCq 0) = none ∧ u8 mkCq 2 = 2 ∧
    -- CQ 67 once no SQ names it
    (let s : State := { queues with qm := { queues.qm with queues := [(67, cq)] } }
     queueIn s p2 67 = true ∧ s.qm.base[p2] + 2 ≤ 67 ∧ getQueue s 67 = some cq ∧ ∀ y ∈ s.qm.queues, y.2.isSq = true → y.2.cq ≠ 67) ∧
    -- a doorbell with the last tail that leaves a place, and one beyond the ring
    partExists queues p2 = true ∧ getQueue queues 66 = some sq ∧ queueIn queues p2 66 = true ∧ (15#32).toNat < ringSize sq ∧
    ringGap sq sq.head sq.tail + ringGap sq sq.tail (15#32).toNat < ringSize sq ∧ ringSize sq ≤ (16#32).toNat % 65536 ∧
    -- 8 · 2 of the tenant's BAR2 is queue 66, and 8 · 66 of the PF's one that belongs to management
    2 < 8192 ∧ queues.qm.base[p2] + 2 = 66 ∧
    (let s := putQueue queues 5 { sq with part := mgmt }
     partExists s mgmt = true ∧ 5 < 8192 ∧ getQueue s 5 = some { sq with part := mgmt } ∧ queueIn s mgmt 5 = true) := by unfold Open; decide
/-- The entry of SCH_HALT: opcode 0x0605, no arguments. -/
def haltEntry : List Byte := [5, 6, 0, 0, 7, 0, 0, 0]
theorem test_w_QueueFlow : getQueue queues 66 = some sq ∧ mayFetch queues sq = true ∧ sq.state = .active ∧ (parseEntry haltEntry).fence = false ∧
    entryVerdict queues { part := p2, sq := 66, tag := 7, sqHead := 1 } (parseEntry haltEntry) .failed .failed = (0, some (.schHalt { part := p2, sq := 66, tag := 7, sqHead := 1 })) ∧
    queues.qm.dispatched.find? (fun j => hdrOf j == some h0) = some (.schHalt h0) ∧ getQueue queues 67 = some cq ∧
    heldFor queues 67 = some { h := { h0 with sq := 66 }, status := 0, result := [] } ∧ qmPaused queues = false ∧ cqFull cq = false ∧
    getQueue queues 66 ≠ none ∧ cq.firstUnreported = some 0 ∧ cq.irqCount ≠ 0 ∧ elapsed queues 0 (1000 * cq.irqTime) = true ∧ cq.vector < vectorsOf p2 ∧
    p2 ∉ queues.link.msixOff ∧ sqTurn queues p2 66 sq.weight = true ∧ (msixOf queues p2 cq.vector).mask = true ∧
    (msixOf (putMsix queues p2 cq.vector { mask := false }) p2 cq.vector).mask = false := by decide

/-- A function reset finds no Q_DELETE that waits, and one. -/
theorem test_w_functionReset : pendingDeletes queues p2 = [] ∧
    (let s := putQueue { queues with qm := { queues.qm with inFlight := [h0] } } 66 { sq with state := .deleting h0 }
     pendingDeletes s p2 = [h0] ∧ h0.part = p2) := by decide

def linked : State := {
  up with
  pow := { inReset := false, refs := 7 },
  link := { perst := false, cachemem := true, up := true, hdm0 := { base := 0, size := 2 ^ 28, committed := true } },
  bays := vmod up.bays 0 (fun y => { y with mem := { y.mem with trained := true } }) }
theorem test_w_HostLinkEvents : linked.link.perst = false ∧ linked.link.up = true ∧ linked.pow.refs.getLsbD 2 = true ∧
    (let s : State := { linked with link := { perst := true } }; s.link.up = false ∧ s.link.perst = true ∧ s.pow.inReset = false) := by decide
theorem test_w_CxlMemory : hdmBay linked 0xFFFFFC0 = some 0 ∧ hdmBay linked 0x10000000 = none ∧ linked.bays[(0 : BayId)].mem.selfRefresh = false ∧
    stackReady linked.bays[(0 : BayId)].mem = true ∧ lineUe linked.bays[(0 : BayId)].mem (0xFFFFFC0 % 2 ^ 37) = false ∧ closedSpans linked 0 = [] ∧
    Memory.wf linked.bays[(0 : BayId)].mem.dram ∧ 0xFFFFFC0 % 64 = 0 ∧ (List.replicate 64 (1 : Byte)).length = 64 ∧
    linked.bays[(0 : BayId)].mem.poisoned.Nodup ∧ lineFenced linked.bays[(0 : BayId)].mem (0xFFFFFC0 % 2 ^ 37) = false ∧
    lineClosed linked 0 (0xFFFFFC0 % 2 ^ 37) = false := by decide
/-! ## Power, resets, the debug unit, the root of trust -/

def pwr (f : Power → Power) : State := { unlocked up .pwr with pow := f { inReset := false } , alm := { t := 10000000 } }
/-- The lowest cap that leaves every bay its floor: 150 + 28 · 16 = 598, so 600 fits; a tenant of 5 W more does not. -/
theorem test_w_PowerBudgets : Open (unlocked up .pwr) .pf .pwr 0x100 ∧ 600 ≤ (600#32).toNat % 2048 ∧ (599#32).toNat % 2048 < 600 ∧ 1400 < (1401#32).toNat % 2048 ∧
    tenantPower up + 150 + 28 * freeBays up ≤ (599#32).toNat % 2048 ∧ (597#32).toNat % 2048 < tenantPower up + 150 + 28 * freeBays up ∧
    tenantPower up + 150 + 28 * freeBays up ≤ (600#32).toNat % 2048 ∧
    (let s : State := { unlocked up .pwr with rot := { parts := vmod up.rot.parts 0 (fun q => { q with state := .active, powerW := 5 }) } }
     Open s .pf .pwr 0x100 ∧ (600#32).toNat % 2048 < tenantPower s + 150 + 28 * freeBays s) ∧
    1044 * 20 < railNominal 0 * 19 ∧ (0 : Fin 7) ∉ up.pow.railWarn ∧ clocksFrozen up = false ∧ effCode up 3 < 4 ∧
    (let s : State := { up with bays := vmod up.bays 3 (fun y => { y with pow := { y.pow with budgetCode := 3, episode := true } }) }
     (s.bays[(3 : BayId)]).pow.budgetCode ≠ 0 ∧ (s.bays[(3 : BayId)]).pow.episode = true ∧ effCode s 3 < 4) := by unfold Open; decide
theorem test_w_Thermal : (880 : Nat) < 881 ∧ up.pow.coolant = false ∧ (pwr (fun q => { q with coolant := true })).pow.coolant = true ∧
    (List.replicate 17 (1521 : Nat)).length = 17 ∧ 16 * up.pow.tgt.toNat < (List.replicate 17 (1521 : Nat)).getD 3 0 ∧
    (let s : State := { up with bays := vmod up.bays 3 (fun y => { y with pow := { y.pow with govFallowOff := true } }) }
     (s.bays[(3 : BayId)]).pow.govFallowOff = true ∧ (s.bays[(3 : BayId)]).pow.fix = false ∧ effCode s 3 < 4) ∧
    (let s : State := { up with bays := vmod up.bays 3 (fun y => { y with pow := { y.pow with fix := true } }) }
     (s.bays[(3 : BayId)]).pow.fix = true) ∧
    up.pow.trip = false ∧ (pwr (fun q => { q with trip := true, stage := 4 })).pow.trip = true ∧
    (let s : State := { pwr (fun q => { q with trip := true, stage := 4, tripCool := some 7 }) with alm := { up.alm with t := 1000000007 } }
     s.pow.trip = true ∧ s.pow.tripCool = some 7 ∧ elapsed s 7 1000000000 = true) := by decide
theorem test_w_ShedStages : up.pow.stage = 0 ∧ (683 : Nat) < 684 ∧ (661 : Nat) < 662 ∧
    (∀ n : Fin 3, let s := pwr (fun q => { q with below := true, stage := n.1 + 1 })
      s.pow.below = true ∧ s.pow.stage < 4 ∧ s.pow.stage ≠ 0 ∧ elapsed s s.pow.shedTimer (shedTime s.pow.stage) = true ∧ s.pow.holdSince = none) ∧
    (let s := pwr (fun q => { q with stage := 4, holdSince := some 0 })
     s.pow.holdSince = some 0 ∧ s.pow.below = false ∧ s.pow.trip = false ∧ s.pow.undoing = false ∧ elapsed s 0 10000000 = true) ∧
    (let s := pwr (fun q => { q with stage := 4, undoing := true })
     s.pow.undoing = true ∧ s.pow.stage = 4 ∧ elapsed s s.pow.lastUndo 1000000 = true) := by decide
theorem test_w_LevellerAndReferences : clocksFrozen up = false ∧ (pwr (fun q => { q with refs := 7 })).pow.refs.getLsbD (2 : Fin 3).1 = true ∧
    up.pow.refs.getLsbD (0 : Fin 3).1 = false ∧ (pwr (fun q => { q with stage := 1 })).pow.stage ≠ 0 ∧ up.pow.adjusted = none ∧
    (let s : State := { pwr (fun q => { q with adjusted := some 7 }) with alm := { up.alm with t := 1000007 } }
     s.pow.adjusted = some 7 ∧ elapsed s 7 1000000 = true) := by decide

theorem test_w_PartialResets : Open (pwr id) .pf .pwr 0x110 ∧ (pwr id).pow.prstGo = false ∧ prstOk (pwr id) (.core c0) = true ∧
    prstOk (pwr id) (.station 3 .msk) = true ∧ prstOk (pwr id) (.bay 3) = true ∧
    (let s := modCore (pwr id) c0 (fun k => { k with bind := some bound }); prstOk s (.core c0) = false ∧ Open s .pf .pwr 0x110) ∧
    (let s := pwr (fun q => { q with prstGo := true, prstKind := 1, prstLast := 0x1307 })
     s.pow.prstGo = true ∧ s.pow.prstKind = 1 ∧ prstUnitOf s.pow.prstLast.toNat = some (.core c0)) := by unfold Open; decide
theorem test_w_SettingsAndLanes : Open (unlocked up .nvm) .pf .nvm 0x100 ∧ up.nvm.store = false ∧ up.nvm.defaults = false ∧
    ({ up.nvm with store := true } : Nvm).store = true ∧
    (let s : State := { unlocked up (.lane 1) with eth := vmod up.eth 1 (fun e => { e with modeV := 4 }) }
     Open s .pf (.lane 1) (0x100 + 7 * 0x20) ∧ (s.lane[(1 : PortId)][(7 : PortId)]).recal = false ∧ zldMode s 1 = false ∧ ethMode s.eth[(1 : PortId)] false = true) ∧
    (let s : State := { up with lane := vmod up.lane 1 (fun l => vmod l 7 (fun x => { x with recalBusy := true, pin := true })) }
     (s.lane[(1 : PortId)][(7 : PortId)]).recalBusy = true ∧ (s.lane[(1 : PortId)][(7 : PortId)]).pin = true ∧ eqSum (s.lane[(1 : PortId)][(7 : PortId)]).eq ≤ 63) := by
  unfold Open; decide
/-- The debug unit names core c0's scalar registers; the core is halted. -/
def debugging (open_ : Bool) : State :=
  { modCore (unlocked (tenants up open_) .dbg) c0 (fun k => { k with halted := true }) with dbg := { target := 0x03070000, addr := 63 } }
theorem test_w_DebugUnit : Open (debugging true) .dbg .dbg 0x10C ∧ Open (debugging false) .dbg .dbg 0x10C ∧
    (debugging true).dbg.target.toNat / 2 ^ 24 % 16 = c0.bay.1 ∧ (debugging true).dbg.target.toNat / 2 ^ 16 % 64 = c0.core.1 ∧
    debugOpen (debugging true) (debugging true).bays[c0.bay].owner = true ∧ debugOpen (debugging false) (debugging false).bays[c0.bay].owner = false ∧
    (debugging true).dbg.target.toNat % 4 = 0 ∧ (getCore (debugging true) c0).halted = true ∧ (debugging true).dbg.addr.toNat < 64 := by unfold Open; decide
theorem test_w_ResetAndBringUp : State.reset.pow.inReset = true ∧ State.reset.nvm.a = some {} ∧ State.reset.nvm.useB = false ∧
    (∀ b : BayId, (State.reset.bays[b]).mem.trained = false ∧ (State.reset.bays[b]).mem.failed = false) ∧ up.pow.prstGo = false ∧
    (let s := modMem up 4 (fun m => { m with training := true }); (4 : BayId).1 / 4 = (1 : Fin 4).1 ∧ (s.bays[(4 : BayId)]).mem.training = true) := by decide
def comp (f : FwComp → FwComp) : State := modComp up 5 f
theorem test_w_FirmwareAndTimers :
    (let s := comp (fun c => { c with accepted := some (3, [1]) }); (s.rot.comps[(5 : Fin 12)]).accepted.isSome ∧ (s.rot.comps[(5 : Fin 12)]).active = false) ∧
    (let s := comp (fun c => { c with accepted := some (3, [1]), active := true })
     (s.rot.comps[(5 : Fin 12)]).accepted = some (3, [1]) ∧ (s.rot.comps[(5 : Fin 12)]).active = true ∧ s.rot.deferred = []) ∧
    (let m : TxMsg := { chan := 9, shelfmark := 0, msgId := 5, winOff := 0, bytes := [1], bay := none }
     let x : Chan := { part := tenantPart 2, state := .opened, linkKey := some [1], portMask := 1 }
     let s : State := { up with trn := { tx := [m], chans := [(9, x)] }, eth := vmod up.eth 0 (fun e => { e with modeV := 1, link0 := true }) }
     s.trn.tx.find? (fun m => m.chan == 9 && m.msgId == 5) = some m ∧ getChan s 9 = some x ∧ x.holdUntil.toNat ≤ s.alm.t.toNat ∧ x.pressed = false ∧ m.refused = false ∧
     x.linkKey.isSome ∧ (txPort s x).isSome ∧ nextSeq x < 2 ^ 32 ∧ (txSegs m).filter (fun k => !bitOf m.sent k) = [0] ∧
     (txSegs { m with sent := 1 }).filter (fun k => !bitOf ({ m with sent := 1 } : TxMsg).sent k) = [] ∧ lowestUnacked { m with sent := 1 } = [0]) ∧
    up.link.i3cDyn = none ∧ (0x48#7).toNat = 0x48 + up.link.i3cSa.toNat := by decide

/-- Tenant 2 ACTIVE with bay 3, room for keys, and the mailbox holding a request; `job` is a job of one member that leads it. -/
def lead (b : Bool) : Job := {
  job := 1, lead := b, domain := 2, rank := 0, format := 0, mask := ⟨0, 2, 2, 2, 4, 16, 2, []⟩, moduli := [], region := 0,
  ownerKey := [], members := [], digest := [], moduliDigest := [] }
def key (kind : Nat) : KeySlot := { kind := kind, secret := [7], part := 2, gen := 0, job := 1 }
def ask (op : W32) (j : Option Job) : State := { tenants up false with
  rot := { (tenants up false).rot with
    ready := true, mbx := { op := op, curOp := op, busy := true },
    parts := vmod (tenants up false).rot.parts 2 (fun q => { q with slotQuota := 8, job := j }),
    slots := vmod (vmod (tenants up false).rot.slots 0 (fun _ => some (key 2))) 1 (fun _ => some (key 3)) },
  rng := { drbg := vmod (vmod up.rng.drbg (tenantPart 2) (fun d => { d with live := true, seeded := true })) mgmt (fun d => { d with live := true, seeded := true }) } }
theorem test_w_Identity : Asked (ask 1 none) 0x0001 none ∧ (ask 1 none).rot.identityErr = false ∧ (ask 1 none).rot.firmwareErr = false ∧
    Asked (ask 0x100002 none) 0x0002 (some mgmt.1) ∧ Asked (ask 0x20002 none) 0x0002 (some (tenantPart 2).1) ∧ (getPart (ask 2 none) 2).state = .active ∧
    Serves (ask 0x20002 none) mgmt 2 ∧ Serves (ask 0x20002 none) (tenantPart 2) 2 ∧ inTransition (ask 0x20002 none) = false ∧
    inTransition (modComp (ask 0x20002 none) 5 (fun c => { c with active := true })) = true ∧ (ask 0x20002 none).rot.mbx.imm = false ∧
    Asked (ask 0x20012 none) 0x0012 (some (2 : TenantId).1) ∧ (getPart (ask 2 none) 2).conf = false ∧ (ask 2 none).rot.lifecycle ≤ 2 ∧
    (getPart (modPart (ask 2 none) 2 (fun q => { q with conf := true })) 2).conf = true := by unfold Asked Serves; decide
/-- A request of any length fits once MBX_REQ_LEN named that length at GO. -/
theorem test_w_fits (op : W32) (j : Option Job) (b : List Byte) :
    Fits (modMbx (ask op j) (fun m => { m with curLen := b.length })) b ∧
    ∀ (n : Nat) (p : Option Nat), Asked (ask op j) n p → Asked (modMbx (ask op j) (fun m => { m with curLen := b.length })) n p :=
  ⟨rfl, fun _ _ h => h⟩
theorem test_w_attestHeld : (let s := modMbx (ask 0x20002 none) (fun m => { m with running := some (.attest 2 [1]), isHeld := true })
    s.rot.mbx.running = some (.attest 2 [1]) ∧ s.rot.mbx.isHeld = true ∧ inTransition s = false) := by decide

/-- A layout of bays 0 and 1 without ports: one weight, no quota, 64 queues from 64, 56 W. -/
def layout : List Byte := [1, 0, 3, 0, 0, 0, 1, 8, 64, 0, 64, 0, 0, 0, 0, 0, 0, 1, 0, 0, 0, 0, 0, 0, 8, 0, 0, 0, 8, 0, 8, 0, 8, 0, 8, 0, 56, 0] ++ List.replicate 26 0
theorem test_w_PartitionLife : Asked (ask 0x00010 none) 0x0010 (some (0 : TenantId).1) ∧ layoutOk layout = true ∧ (getPart (ask 0x10 none) 0).state = .free ∧
    layoutFree (ask 0x10 none) 0 layout = true ∧ layoutFree (modBay (ask 0x10 none) 1 (fun y => { y with owner := tenantPart 2 })) 0 layout = false ∧
    Asked (ask 0x20010 none) 0x0010 (some (2 : TenantId).1) ∧ (getPart (ask 0x20010 none) 2).state ≠ .free ∧
    (let s := modPart up 0 (fun q => { q with state := .creating }); (getPart s 0).state = .creating ∧ scrubLeft s (.partCreate 0) = false ∧
      (getDrbg s (tenantPart 0)).waiting = []) ∧
    Asked (ask 0x20011 none) 0x0011 (some (2 : TenantId).1) ∧ (getPart (ask 0x20011 none) 2).state = .active ∧
    (let s := modPart up 0 (fun q => { q with state := .destroying }); (getPart s 0).state = .destroying ∧ scrubLeft s (.partDestroy 0) = false) := by
  unfold Asked; decide

theorem test_w_Jobs : Asked (ask 0x20020 none) 0x0020 (some (2 : TenantId).1) ∧ (getPart (ask 0x20020 none) 2).job = none ∧
    (parseJob [1, 0]).lead = false ∧ (parseJob [1, 1]).lead = true ∧ slotRoom (ask 0x20020 none) 2 2 = true ∧ Serves (ask 0x20020 none) (tenantPart 2) 2 ∧
    Asked (ask 0x20021 (some (lead true))) 0x0021 (some (2 : TenantId).1) ∧ (getPart (ask 0x20021 (some (lead true))) 2).job = some (lead true) ∧
    jobBusy (ask 0x20021 (some (lead true))) 2 = false ∧ jobBusy (modBay (ask 0x20021 (some (lead true))) 3 (fun y => { y with
      release := { y.release with state := .collecting } })) 2 = true := by unfold Asked Serves; decide
theorem test_w_jobKeys : Asked (ask 0x20022 (some (lead true))) 0x0022 (some (2 : TenantId).1) ∧ jobSecret (ask 0x20022 (some (lead true))) (tenantPart 2) 2 1 = some [7] ∧
    jobSecret (ask 0x20022 (some (lead true))) (tenantPart 2) 3 1 = some [7] ∧ Serves (ask 0x20022 (some (lead true))) (tenantPart 2) 3 ∧ (lead true).lead = true ∧
    Asked (ask 0x20023 (some (lead false))) 0x0023 (some (2 : TenantId).1) ∧ (lead false).lead = false ∧ (lead false).ek = [] ∧ slotRoom (ask 0x20023 (some (lead false))) 2 2 = true ∧
    Asked (ask 0x20024 (some (lead false))) 0x0024 (some (2 : TenantId).1) := by unfold Asked Serves; decide
theorem test_w_longRequests : (List.replicate 6185 (0 : Byte)).length = 6185 ∧ 3104 ≤ (List.replicate 4897 (0 : Byte)).length := by
  rw [List.length_replicate, List.length_replicate]; decide
theorem test_w_linkEstablish : let s : State := { ask 0x20024 (some (lead false)) with trn := { chans := [(5, { part := tenantPart 2 })] } }
    getChan s 5 = some { part := tenantPart 2 } ∧ Asked s 0x0024 (some (2 : TenantId).1) := by unfold Asked; decide
theorem test_w_KeysAndImages : Asked (ask 0x20030 none) 0x0030 (some (2 : TenantId).1) ∧ slotRoom (ask 0x20030 none) 2 1 = true ∧
    (ask 0x20031 none).rot.slots[(0 : Fin 64)] = some (key 2) ∧ Asked (ask 0x20031 none) 0x0031 (some (2 : TenantId).1) ∧
    Asked (ask 0x20032 none) 0x0032 (some (2 : TenantId).1) ∧ slotInUse (ask 0x20032 none) 2 0 (key 2) = false ∧
    (let s := modBay (ask 0x20032 none) 3 (fun y => { y with noise := { y.noise with seeds := [⟨9, 1, 0, 0, 0, 1, 0⟩] } }); slotInUse s 2 0 (key 2) = true) ∧
    Asked (ask 0x20033 (some (lead false))) 0x0033 (some (2 : TenantId).1) ∧ Asked (ask 0x40 none) 0x0040 none ∧ Asked (ask 0x41 none) 0x0041 none ∧
    (let s := modComp (ask 0x41 none) 5 (fun c => { c with svn := 4, minSvn := 3, raises := 31 })
     (s.rot.comps[(5 : Fin 12)]).minSvn < (s.rot.comps[(5 : Fin 12)]).svn ∧ (s.rot.comps[(5 : Fin 12)]).raises < 32) := by unfold Asked; decide
/-- MODEL_LOAD from bay 3 to bay 3, up to the end of the stack. -/
theorem test_w_modelLoad : let s0 := ask 0x20034 (some (lead false))
    let s : State := { s0 with rot := { s0.rot with slots := vmod s0.rot.slots 2 (fun _ => some (key 1)) } }
    let r : ModelReq := ⟨2, 3, 0, 4096, 3, 2 ^ 37 - 4096, 4096⟩
    Asked s 0x0034 (some (2 : TenantId).1) ∧ r.slot = (2 : Fin 64).1 ∧ s.rot.slots[(2 : Fin 64)] = some (key 1) ∧ holdsBay s (tenantPart 2) 3 = true ∧
    r.src + r.srcLen ≤ 2 ^ 37 ∧ r.dst + r.dstLen ≤ 2 ^ 37 ∧ spanUe s.bays[(3 : BayId)].mem r.src r.srcLen = [] ∧ (getPart s 2).job = some (lead false) ∧
    (key 1).job = (lead false).job ∧ closedSpans s 3 = [] ∧ s.bays[(3 : BayId)].mem.poisoned = [] ∧ s.bays[(3 : BayId)].mem.pcFenced = [] := by
  unfold Asked; decide
/-! ## Ethernet, WRD packets, channels, windows -/

/-- Port 0 in mode 1 with MAC 02..01 and an address row of tenant 2: 10.0.0.1, untagged. -/
def eth0 : Eth := {
  modeV := 1, link0 := true, macLo := 0x00000001, macHi := 0x0200,
  rows := vmod (Vector.replicate 16 {}) 2 (fun _ => { valid := true, v4 := true, untagged := true, weight := 1, ip4 := 0x0A000001 }) }
def onWire : State := { up with pow := { inReset := false, refs := 7 }, eth := vmod up.eth 0 (fun _ => eth0) }
/-- From 10.0.0.2 to 10.0.0.1: an IPv4 UDP packet for port 0x2F6E with 8 bytes of UDP payload, an ARP request, a PAUSE frame, and a type that is none. -/
def macs : List Byte := [2, 0, 0, 0, 0, 1, 2, 0, 0, 0, 0, 2]
def udpFrame0 : List Byte := macs ++ [8, 0, 0x45, 0, 0, 36, 0, 0, 0, 0, 64, 17, 0, 0, 10, 0, 0, 2, 10, 0, 0, 1, 0, 1, 0x2F, 0x6E, 0, 16, 0, 0, 1, 2, 3, 4, 5, 6, 7, 8]
def arpFrame0 : List Byte := macs ++ [8, 6, 0, 1, 8, 0, 6, 4, 0, 1, 2, 0, 0, 0, 0, 2, 10, 0, 0, 2, 0, 0, 0, 0, 0, 0, 10, 0, 0, 1]
theorem test_w_EthernetPorts : onWire.pow.refs.getLsbD 1 = true ∧ ethMode onWire.eth[(0 : PortId)] false = true ∧ (onWire.eth[(0 : PortId)]).link0 = true ∧
    be16 (macs ++ [0x88, 8, 0, 1]) 12 = 0x8808 ∧ be16 (macs ++ [0x88, 8, 0, 1]) 14 = 1 ∧ be16 (macs ++ [0x88, 8, 1, 1]) 14 = 0x0101 ∧
    (ethMode { eth0 with modeV := 4 } true = true) ∧ frameKind eth0 0 false (macs ++ [0x88, 9]) = .bad ∧
    (match frameKind eth0 0 false arpFrame0 with
      | .answer b => b.take 12
      | _ => []) = bslice macs 6 6 ++ portMac eth0 ∧
    (match frameKind eth0 0 false udpFrame0 with
      | .wrd k => k.bytes
      | _ => []) = [1, 2, 3, 4, 5, 6, 7, 8] ∧
    ({ up with eth := vmod up.eth 0 (fun e => { e with modeV := 4, link1 := true }) } : State).eth[(0 : PortId)].link1 = true := by decide

/-- Channel 9 of tenant 2, and window 5 that it may write. -/
def chan9 : Chan := { part := tenantPart 2, state := .opened, portMask := 255, epoch := 1, linkKey := some [1], linkJob := 1, peer := [10, 0, 0, 2] }
def win5 : Window := {
  part := tenantPart 2, state := .opened, gen := 1, place := false, bay := 3, sparseOk := false, stream := 0, job := 1, chan := 9, bin := 0,
  ring := 2, etype := 1, base := 0, span := 8192, firstTile := 0, lastTile := 0, clo := 0, chi := 1, expiry := 100 }
def lead1 : Job := {
  job := 1, lead := false, domain := 2, rank := 0, format := 0, mask := ⟨0, 2, 2, 2, 4, 16, 2, []⟩, moduli := [], region := 0,
  ownerKey := [], members := [], digest := [], moduliDigest := [] }
def share2 : IntakeShare := { en := true, contexts := 2, staging := 1, trackers := 1, missKib := 64, chBase := 0, chCount := 16 }
def transport (x : Chan) (k : RxPacket) : State := {
  tenants up false with
  alm := { t := 10000000 },
  rot := { (tenants up false).rot with parts := vmod (tenants up false).rot.parts 2 (fun q => { q with job := some lead1 }) },
  trn := { ctl := live, chans := [(9, x)], rx := [k], fetching := [9], shares := vmod (Vector.replicate 16 {}) 2 (fun _ => share2) },
  wins := { tab := [(5, win5)], base := Vector.replicate 16 0, count := vmod (Vector.replicate 16 0) 2 (fun _ => 16) } }
/-- The first segment of a TILE message of 16,384 bytes for window 5. -/
def tileHead (chanTop : Byte) : List Byte := [0x11, 0x80, 0, 1, chanTop, 0, 0, 9, 0, 0, 0, 7, 0, 0, 0, 0, 0x20, 0, 0x50, 1, 0, 0, 0, 3, 0, 0, 0x40, 0, 0, 0, 0, 0,
  0, 0, 0, 0, 0, 0, 0, 0, 0x20, 0, 0, 0, 0, 0, 0, 0]
/-- Port 0 is up in mode 1. -/
def wired (s : State) : State := { s with eth := vmod s.eth 0 (fun _ => eth0) }
def packet (chanTop : Byte) (src : List Byte) : RxPacket :=
  { port := 0, row := 2, vlan := none, src := src, ce := false, bytes := tileHead chanTop ++ List.replicate 8272 0 }
theorem packet_len (a : Byte) (src : List Byte) : (packet a src).bytes.length = 8320 := by
  simp only [packet, List.length_append, List.length_replicate, tileHead, List.length_cons, List.length_nil]
theorem test_w_formatOk : formatOk (parseWrd (packet 0 []).bytes) (packet 0 []).bytes = true := by
  unfold formatOk; rw [packet_len]; decide +kernel
theorem test_w_WrdPackets :
    (parseWrd (packet 0x80 []).bytes).chanResv ≠ 0 ∧ rateOk (transport chan9 (packet 0x80 [])) (.unauth 9) 100000 = true ∧
    rateOk { transport chan9 (packet 0x80 []) with rates := [(.unauth 9, 9900001)] } (.unauth 9) 100000 = false ∧
    (parseWrd (packet 0 []).bytes).chanResv = 0 ∧ (parseWrd (packet 0 []).bytes).chan = 9 ∧
    getChan (transport { chan9 with state := .reset } (packet 0 [])) 9 = some { chan9 with state := .reset } ∧
    getChan (transport { chan9 with cached := false } (packet 0 [])) 9 = some { chan9 with cached := false } ∧
    missUsed (transport chan9 (packet 0 [])) 2 = 0 ∧ (getShare (transport chan9 (packet 0 [])) 2).missKib = 64 ∧
    (packet 0 [10, 0, 0, 2]).src = chan9.peer ∧ (packet 0 [10, 0, 0, 3]).src ≠ chan9.peer ∧ chan9.vlan = 0 ∧ bitOf chan9.portMask 0 = true := by decide +kernel
/-- The one packet that waits is next; its row's rotation ran out, so that row's turn starts anew with its weight. -/
theorem test_w_nextRx : (nextRx (transport chan9 (packet 0 [10, 0, 0, 2]))).map (fun k => (k.1.src, k.1.row)) = some ([10, 0, 0, 2], 2) ∧
    (nextRx (wired (transport { chan9 with state := .reset } (packet 0 [])))).map (fun k => (k.1.src, k.1.row)) = some ([], 2) ∧
    (nextRx (wired (transport { chan9 with cached := false } (packet 0x80 [])))).map (fun k => (k.1.port, k.1.half)) = some (0, false) := by decide +kernel
/-- The device may answer on the channel: the port of the segment has its link. -/
theorem test_w_CanReply : CanReply (wired (transport chan9 (packet 0 []))) { chan := 9, shelfmark := 0x20005001, msgId := 3, seq := 0, port := 0, replyChan := 7 } :=
  ⟨chan9, rfl, by decide +kernel, by decide⟩
/-- A share without room for a waiting packet. -/
theorem test_w_missFull : (0 : Nat) * 1024 < 0 + missRoom (packet 0 []) ∧ Machine.ethUp (wired (transport chan9 (packet 0 []))).eth[(0 : PortId)] false = true ∧
    getShare (modShare (transport chan9 (packet 0 [])) 2 (fun h => { h with missKib := 0 })) 2 = { share2 with missKib := 0 } := by
  unfold missRoom; rw [packet_len]; decide +kernel
theorem test_w_missRoom : missRoom (packet 0 []) ≤ 64 * 1024 := by unfold missRoom; rw [packet_len]; decide
theorem test_w_wrdTile : let w := parseWrd (packet 0 [10, 0, 0, 2]).bytes
    let s := transport chan9 (packet 0 [10, 0, 0, 2])
    w.enc = true ∧ epochKnown chan9 s.alm.t w.epoch = true ∧ w.op = 1 ∧ w.ackreq = false ∧ w.segOff = 0 ∧ 8192 < w.msgLen ∧ w.shelf ≠ 0 ∧
    shareHold s 2 true = none ∧ findMsg s w.chan w.shelf w.msgId = none ∧ handedSeg s w = none ∧
    (match winCheck s w.shelf w.chan (tenantPart 2) false with
      | .ok v => v == win5
      | _ => false) = true ∧ stagingUsed s 2 < (getShare s 2).staging := by decide +kernel

def pk0 : RxPacket := { port := 0, row := 2, vlan := none, src := [], ce := false, bytes := [] }
def msg9 : Msg := {
  part := tenantPart 2, chan := 9, shelfmark := 0x20005001, msgId := 3, put := false, msgLen := 16384, segs := 1, lastT := 0,
  ref := { chan := 9, shelfmark := 0x20005001, msgId := 3, seq := 0, port := 0, replyChan := 7 } }
def messages (m : Msg) : State := { transport chan9 pk0 with trn := { (transport chan9 pk0).trn with msgs := [m] }, alm := { t := 10000000000 } }
theorem test_w_IntakeTimers :
    (let x := { chan9 with cached := false }
     let s := transport x pk0
     9 ∈ s.trn.fetching ∧ getChan s 9 = some x ∧ (∀ q ∈ s.trn.miss, q.1 ≠ 9) ∧ (cachedOf s 2).length < (getShare s 2).contexts) ∧
    (let x := { chan9 with old := some (0, 5) }; getChan (transport x pk0) 9 = some x ∧ (5#64).toNat ≤ (transport x pk0).alm.t.toNat) ∧
    findMsg (messages msg9) 9 0x20005001 3 = some msg9 ∧ (getChan (messages msg9) msg9.ref.chan).isSome ∧ chan9.txSeq < 2 ^ 32 ∧
    elapsed (messages msg9) msg9.lastT ((messages msg9).trn.msgTmo.toNat * 1000) = true ∧ segsFull msg9 = false ∧
    segsFull { msg9 with put := true, segs := 3 } = true := by decide

/-- An uncached context for which there is room, and for which no packet waits. -/
theorem test_w_uncached : let s := transport { chan9 with cached := false } pk0
    getChan s 9 = some { chan9 with cached := false } ∧ (cachedOf s 2).length < (getShare s 2).contexts ∧ ∀ q ∈ s.trn.miss, q.1 ≠ 9 := by decide
theorem test_w_Channels : h0.part = tenantPart 2 ∧ chanOwner (transport chan9 pk0) 9 = some 2 ∧ chanOwner (transport chan9 pk0) 15 = some 2 ∧
    getChan (transport chan9 pk0) 15 = none ∧ (cachedOf (transport chan9 pk0) 2).length < (getShare (transport chan9 pk0) 2).contexts ∧
    (getChan (transport chan9 pk0) 9) = some chan9 ∧ ((getPart (transport chan9 pk0) 2).job.map (·.job)) = some 1 ∧ chan9.linkKey.isSome ∧
    chan9.epoch + 1 = 2 ∧ ({ chan9 with state := .unkeyed } : Chan).state ≠ .opened ∧
    2 * (((transport chan9 pk0).trn.chans.filter (fun q => q.2.pinned && q.2.part == h0.part && q.1 != 9)).length + 1) ≤ (getShare (transport chan9 pk0) 2).contexts := by decide

/-- A placement window of one line at 0 of bay 3, index 6, and one that names no bin. -/
def winDesc (bay : Byte) : List Byte := [1, 2, bay, 0, 6, 0, 0, 0, 1, 0, 0, 0, 9, 0, 0, 0] ++ List.replicate 16 0 ++ [64] ++ List.replicate 31 0
def inService (s : State) : State := modMem s 3 (fun m => { m with trained := true })
theorem test_w_Windows : winOk (inService (transport chan9 pk0)) h0 (winDesc 3) = true ∧ u64 (winDesc 3) 0x38 = 0 ∧
    winOk (inService (transport chan9 pk0)) h0 (winDesc 4) = false ∧
    winCurrent (transport chan9 pk0) 0x20005001 = some win5 ∧ winMsgs (transport chan9 pk0) 0x20005001 = [] ∧ winMsgs (messages msg9) 0x20005001 ≠ [] ∧
    (let s : State := { transport chan9 pk0 with wins := { (transport chan9 pk0).wins with tab := [(5, { win5 with place := true })] } }
     winCurrent s 0x20005001 = some { win5 with place := true }) ∧
    getWin (transport chan9 pk0) (5#16).toNat = some win5 ∧ win5.expiry ≠ 0 ∧ win5.expiry ≤ (transport chan9 pk0).alm.t.toNat := by decide
/-! ## Bay memory, bins, GLEANING -/

def lead2 : Job := {
  job := 1, lead := true, domain := 2, rank := 0, format := 0, mask := ⟨1, 2, 2, 2, 4, 16, 2, []⟩, moduli := [], region := 0,
  ownerKey := [], members := [], digest := [], moduliDigest := [] }
/-- A gatherer, a sealed gatherer and a sum bin of RING_Z64, one position each, in bay 3. -/
def gat : Bin := {
  index := 1, part := tenantPart 2, kind := 1, state := .opened, mirror := false, sram := false, mirrorBay := 0, ring := 2, etype := 1, job := 1,
  lastCount := 0, base := 0, t := 1, firstTile := 0, clo := 0, chi := 4, region := 0, mirrorRegion := 0, regionSize := 0x20000 }
def seald : Bin := { gat with index := 2, state := .sealed, region := 0x20000, chi := 2 }
def summ : Bin := { gat with index := 3, kind := 2, state := .sum, region := 0x40000 }
def withBins (l : List Bin) : State :=
  let s := tenants up false
  let s : State := { s with rot := { s.rot with parts := vmod s.rot.parts 2 (fun q => { q with job := some lead2 }) } }
  let s := modBay s 3 (fun y => { y with bin := live, msk := live, shr := live, lat := live, nse := live, rls := live })
  modMem s 3 (fun m => { m with trained := true, bins := l.map (fun x => (x.index, x)) })
def hGat : W32 := handleWord 2 3 1 1
def hSeald : W32 := handleWord 2 3 2 1
def hSum : W32 := handleWord 2 3 3 1
def bins3 : State := withBins [gat, seald, summ]

theorem test_w_BayMemory :
    (let s := modMem up 3 (fun m => { m with selfRefreshWanted := true }); s.bays[(3 : BayId)].mem.selfRefreshWanted = true ∧ s.bays[(3 : BayId)].mem.inFlight = []) ∧
    (63 : Fin 64) ∉ up.bays[(3 : BayId)].mem.pcFenced ∧ up.bays[(3 : BayId)].mem.failed = false ∧ 2 ^ 31 - 1 < 2 ^ 31 ∧
    bins3.bays[(3 : BayId)].mem.patrolEn = true ∧ bins3.bays[(3 : BayId)].mem.selfRefresh = false ∧ lineUe bins3.bays[(3 : BayId)].mem (64 * (2 ^ 31 - 1)) = false ∧
    (let s := modMem (withBins [{ gat with state := .zeroing, wait := some (.zero h0) }]) 3 (fun m => { m with scrub := [⟨0, layoutLen gat, .binAlloc 3 1 h0⟩] })
     s.bays[(3 : BayId)].mem.scrub = ⟨0, layoutLen gat, .binAlloc 3 1 h0⟩ :: [] ∧ findBin s 3 1 = some { gat with state := .zeroing, wait := some (.zero h0) } ∧
     ∀ c : BayId, ∀ y ∈ (if c = 3 then [] else s.bays[c].mem.scrub), y.why ≠ .binAlloc 3 1 h0) := by decide

/-- A descriptor of a gatherer in DRAM at 0x60000, index 4; the same in SRAM, ring RING_Z32, behind the local store of core 49 it would overlap; one of index 1. -/
def binDesc (flags idx ring et : Byte) (region : List Byte) : List Byte :=
  [1, 1, 3, flags, idx, 0, 0, ring, 1, 0, 0, 0, et, 0, 0, 0, 0, 0, 0, 0, 0, 0, 0, 0, 1, 0, 0, 0, 0, 0, 0, 0, 0, 0, 0, 0, 4, 0, 0, 0] ++ region ++
    List.replicate 8 0 ++ [0, 0, 2, 0, 0, 0, 0, 0]
theorem test_w_binAlloc : binAllocStatus bins3 h0 (binDesc 0 4 2 1 [0, 0, 6, 0, 0, 0, 0, 0]) = 0 ∧
    binAllocStatus bins3 h0 (binDesc 2 4 1 0 [0, 0, 0, 1, 0, 0, 0, 0]) = 0 ∧ (parseBin h0.part (binDesc 2 4 1 0 [0, 0, 0, 1, 0, 0, 0, 0])).sram = true ∧
    binAllocStatus bins3 h0 (binDesc 0 4 2 1 [0, 0, 0, 0, 0, 0, 0, 0]) ≠ 0 ∧ (findBin bins3 3 (parseBin h0.part (binDesc 0 1 2 1 [0, 0, 6, 0, 0, 0, 0, 0])).index).isSome ∧
    u8 (binDesc 0 4 2 1 []) 2 = (3 : BayId).1 ∧ bins3.bays[(3 : BayId)].owner = h0.part := by decide
theorem test_w_BinCommands : Names bins3 h0 hGat 3 gat ∧ winsPending bins3 3 gat = false ∧ binBusyTiles bins3 3 1 (binGenOf bins3 3 1) = false ∧
    discardable gat = true ∧ gat.wait = none ∧ Names (withBins [{ gat with state := .discarded }]) h0 hGat 3 { gat with state := .discarded } ∧
    discardable { gat with state := .discarded } = false ∧ Names bins3 h0 hSeald 3 seald ∧ freeable seald = true ∧ freeable gat = false ∧
    findBin (withBins [{ gat with wait := some (.discard h0) }]) 3 1 = some { gat with wait := some (.discard h0) } ∧
    findBin (withBins [{ seald with wait := some (.free h0) }]) 3 2 = some { seald with wait := some (.free h0) } ∧
    gat.freeing = false ∧ Names (withBins [{ seald with wait := some (.free h0) }]) h0 hSeald 3 { seald with wait := some (.free h0) } ∧
    freeable { seald with wait := some (.free h0) } = true := by unfold Names; decide

/-- A tile of contributor 3, the last of the bin, from Intake. -/
def addHdr : TileHdr := { hdr64 with contributor := 3 }
def addTok : Token := { tile := { hdr := addHdr, payload := [1] }, target := some (3, 1, 1) }
def inBin (t : Token) : State := modIn bins3 (.bay 3 .bin) 2 (fun x => { x with conn := true, pool := 1, job := 1, held := [t], prod := some (.trn, 0) })
def flying : InFlight := { home := 3, index := 1, entry := 3, contributor := 3, pos := 0, tile := addTok.tile, port := 2, slot := 0, origin := none }
theorem test_w_TileAdditions : Holds (inBin addTok) (.bay 3 .bin) 2 addTok [] ∧ intakeFed (getIn (inBin addTok) (.bay 3 .bin) 2) = true ∧
    (inBin addTok).bays[(3 : BayId)].mem.inFlight.length < 735 ∧ targetBin (inBin addTok) addTok = some (3, gat) ∧
    inTurn (inBin addTok) (.bay 3 .bin) 2 (binReady (inBin addTok) 3) = true ∧ flying.dups = [] ∧
    isDup (inBin addTok) 3 3 gat (binEntry gat addHdr) = false ∧
    isDup (modMem (inBin addTok) 3 (fun m => { m with inFlight := [flying] })) 3 3 gat (binEntry gat addHdr) = true ∧
    (let s := modMem bins3 3 (fun m => { m with inFlight := [flying] })
     s.bays[(3 : BayId)].mem.inFlight.find? (fun g => g.index == flying.index && g.entry == flying.entry) = some flying ∧ findBin s 3 flying.index = some gat ∧
     Plain gat ∧ Sound s.bays[(3 : BayId)].mem ∧ flying.pos < gat.t ∧ gat.clo ≤ flying.contributor ∧ flying.contributor < gat.chi ∧
     flying.entry = (flying.contributor - gat.clo) * gat.t + flying.pos) := by unfold Holds Plain Sound; decide

/-- A sparse tile: value 1 at place 0, value 2 at place 8,191. -/
def sparse : Tile := { hdr := { addHdr with sparse := true }, payload := [0, 0, 0, 0, 0xFF, 0x1F, 0, 0] ++ List.replicate 21752 0 ++ [1, 0, 0, 0, 0, 0, 0, 0, 2] }
theorem test_w_sparseShape : payloadShapeOk 8 sparse = true ∧ binRing bins3 gat = ⟨2 ^ 64, 8⟩ := by decide +kernel
/-- The sparse tile waits to be added to the bin alone, and its dense counterpart exists. -/
def sparseFlight : InFlight := { flying with tile := sparse }
theorem test_w_SparseEqualsDense : sparseFlight.tile.hdr.sparse = true ∧ sparseFlight.tile.hdr.poison = false ∧ sparseFlight.home = 3 ∧ sparseFlight.index = 1 ∧
    sparseFlight.pos = 0 ∧ (∀ f : InFlight, (modMem bins3 3 (fun m => { m with inFlight := [f] })).bays[(3 : BayId)].mem.inFlight = [f]) ∧
    findBin bins3 3 1 = some gat ∧ binLocs 3 gat = [⟨3, false, 0⟩] ∧ binRing bins3 gat = ⟨2 ^ 64, 8⟩ :=
  ⟨rfl, rfl, rfl, rfl, rfl, fun _ => rfl, rfl, rfl, rfl⟩
theorem test_w_sparseSound : ∀ c : BayId, Sound bins3.bays[c].mem := by unfold Sound; decide
theorem test_w_sparseCanonical (s : State) (l : Loc) (k : Nat) : CanonicalAt s l ⟨2 ^ 64, 8⟩ k := fun _ he => readElems_lt _ _ _ _ _ he

theorem test_w_BinCombining : combineStatus bins3 h0 hSum [hSeald] = 0 ∧ Names bins3 h0 hSum 3 summ ∧ Names bins3 h0 hSeald 3 seald ∧ Plain summ ∧ Plain seald ∧
    Sound bins3.bays[(3 : BayId)].mem ∧ (summ.region + layoutLen summ ≤ seald.region ∨ seald.region + layoutLen seald ≤ summ.region) ∧
    combineStatus bins3 h0 hSum [hGat] ≠ 0 ∧ findBin (withBins [{ seald with wait := some (.combine h0) }]) 3 2 = some { seald with wait := some (.combine h0) } := by
  unfold Names Plain Sound; decide

/-- A stream of the sum bin: port 2 adds, subtracts or writes; output port 0 reads the sealed gatherer. -/
def wstream (mode : Nat) : BinStream := { mode := mode, port := 2, cls := 0, firstPos := 0, positions := 1, bins := [3], job := 1, bound := [(1, summ)] }
def rstream : BinStream := { mode := 1, port := 8, cls := 0, firstPos := 0, positions := 1, bins := [2], job := 1, bound := [(1, seald)] }
def full : TileHdr := { hdr64 with last := true }
def fullTok : Token := { tile := { hdr := full, payload := [1] } }
def streaming (mode : Nat) : State :=
  let s := modMem bins3 3 (fun m => { m with streams := [wstream mode, rstream] })
  let s := modIn s (.bay 3 .bin) 2 (fun x => { x with conn := true, pool := 1, job := 1, held := [fullTok] })
  let s := modOut s (.bay 3 .bin) 0 (fun x => { x with conn := true, cons := some (.bay 3 .nse, 4) })
  modIn s (.bay 3 .nse) 4 (fun x => { x with conn := true, pool := 1, avail := 1 })
theorem test_w_BinStreams : (∀ m : Fin 3, let s := streaming (m.1 + 2)
      Holds s (.bay 3 .bin) 2 fullTok [] ∧ findStream s 3 (2 : PortId).1 = some (wstream (m.1 + 2)) ∧ binGenOf s 3 3 = 1 ∧ findBin s 3 3 = some summ ∧
      portCauses s (.bay 3 .bin) 2 fullTok.tile = [] ∧ streamCauses s 3 (wstream (m.1 + 2)) summ fullTok.tile = [] ∧ inTurn s (.bay 3 .bin) 2 (binReady s 3) = true ∧ summ.freeing = false ∧
      slicePos (wstream (m.1 + 2)) summ full.sliceOffset = some 0) ∧ Plain summ ∧ Sound (streaming 2).bays[(3 : BayId)].mem ∧
    (let s := streaming 2
     mayFire s (.bay 3 .bin) = true ∧ stopping (getSt s (.bay 3 .bin)) = false ∧ (getSt s (.bay 3 .bin)).st ≠ .draining ∧
     Feeds s (.bay 3 .bin) 0 (.bay 3 .nse, 4) ∧ findStream s 3 (8 + (0 : PortId).1) = some rstream ∧ (∀ q ∈ rstream.bound, stillBound s 3 q = true) ∧
     readPlace rstream = some (seald, 0) ∧ findBin s 3 2 = some seald ∧ Plain seald ∧ posPoison s 3 seald 0 = 0) := by
  unfold Holds Plain Sound Feeds; decide

/-- The sum bin's presence bits: contributors 0 and 1, or 0 alone, against a floor of 2. -/
def present (b : Byte) : State := modMem bins3 3 (fun m => { m with dram := memWrite m.dram (summ.region + presenceOff summ) [b] })
theorem test_w_gleanOpen : gleanOpenStatus (present 3) h0 1 5 3 [hSum] = 0 ∧ (getPart (present 3) 2).job = some lead2 ∧ namedBins (present 3) h0.part [hSum] = some [(3, summ)] ∧
    lead2.mask.f ≤ (presentIn (present 3) 3 summ).length ∧ (presentIn (present 1) 3 summ).length < lead2.mask.f ∧ gleanOpenStatus (present 1) h0 1 5 3 [hSum] = 0 ∧
    (∀ b : Fin 2, gleanRegionOk (present (if b = 0 then 3 else 1)) 3 0x100000 64 = true ∧
      workOk (present (if b = 0 then 3 else 1)) lead2 3 0x200000 0x110000 = true) := by decide

/-- A round of contributors 0 to 3 with one graph record. -/
def rec1 : GraphRec := { u := 0, neighbours := [1], holders := [1, 2], envelopes := [], commitSelf := [], commitPair := [] }
def round1 (st : RoundState) : Round := {
  part := tenantPart 2, job := 1, round := 5, state := st, bins := [⟨3, 3, 1⟩], clo := 0, chi := 4, presence := [0, 1], floor := 2, graph := [rec1], graphDigest := [] }
def inRound (r : Round) : State := modBay bins3 3 (fun y => { y with round := some r })
def shares2 : List Share := [⟨0, 2, 1, [1]⟩, ⟨0, 2, 2, [2]⟩]
/-- The job's share key is in a slot. -/
def shareKeyed (s : State) : State :=
  { s with rot := { s.rot with slots := vmod s.rot.slots 0 (fun _ => some { kind := 3, secret := [7], part := 2, gen := 0, job := 1 }) } }
theorem test_w_GleaningCommands : myRound (inRound (round1 .collecting)) h0 1 5 3 = some (3, round1 .collecting) ∧
    jobSecret (inRound (round1 .collecting)) (tenantPart 2) 3 1 = none ∧
    (let s := modMem (shareKeyed (inRound (round1 .collecting))) 3 (fun m => { m with dram := memWrite m.dram 0x100002 [1, 0] })
     jobSecret s (tenantPart 2) 3 1 = some [7] ∧
     myRound s h0 1 5 3 = some (3, round1 .collecting) ∧ gleanRegionOk s 3 0x100000 1728 = true ∧ u16 (dramRead s.bays[(3 : BayId)].mem 0x100000 4) 2 = 1 ∧ 1728 = 1664 + 64 * 1) ∧
    myRound (inRound (round1 .gleaned)) h0 1 5 3 = some (3, round1 .gleaned) ∧ (round1 .collecting).finish = none := by decide
theorem test_w_reconstruction : jobOfPart (inRound (round1 .reconstructing)) (tenantPart 2) = some lead2 ∧
    (let r := { round1 .reconstructing with finish := some (h0, 0) }
     (inRound r).bays[(3 : BayId)].round = some r ∧ stillNeeded r ≠ [] ∧ ∀ g ∈ r.graph, (ownerShares r g).length < lead2.mask.t) ∧
    stillNeeded { round1 .reconstructing with secrets := [(0, [1])] } = [] ∧
    (let r := { round1 .reconstructing with shares := shares2 }
     neededKind r rec1 = some 2 ∧ lookup rec1.u r.secrets = none ∧ lead2.mask.t ≤ (ownerShares r rec1).length ∧
     revealOf (inRound r) 2 r.job r.round 0 = 0 ∧
     (let s : State := { inRound r with rot := { (inRound r).rot with reveals := [⟨2, 1, 5, [(0, 1)]⟩] } }
      revealOf s 2 r.job r.round 0 = 1 ∧ (revealsOf s 2 r.job).any (fun v => v.round == r.round) = true)) := by decide
/-- In a graph of two records, each named once, the first one's secret can be revealed. -/
theorem test_w_reconstructionMany : let rec2 : GraphRec := { rec1 with u := 1 }
    let r := { round1 .reconstructing with graph := [rec1, rec2], shares := shares2 }
    (inRound r).bays[(3 : BayId)].round = some r ∧ r.graph.filter (fun x => x.u == rec1.u) = [rec1] ∧ neededKind r rec1 = some 2 ∧
    lookup rec1.u r.secrets = none ∧ lead2.mask.t ≤ (ownerShares r rec1).length := by decide
theorem test_w_revealed : let r := round1 .collecting
    let s : State := { inRound r with rot := { (inRound r).rot with reveals := [⟨2, 1, 5, [(0, 1)]⟩] } }
    revealOf s 2 1 5 0 ≠ 0 ∧ ∃ t, exec (.reconstructionComplete 3) s = .next t := ⟨by decide, _, rfl⟩
def masking : State :=
  let s := modBay bins3 3 (fun y => { y with mask := { running := true, bin := some ⟨3, 3, 1⟩, job := 1, round := 5, batch := [⟨[1], 0, 1, 1, 0⟩] } })
  let s := modOut s (.bay 3 .msk) 0 (fun x => { x with conn := true, cons := some (.bay 3 .bin, 4) })
  modIn s (.bay 3 .bin) 4 (fun x => { x with conn := true, pool := 1, avail := 1 })
theorem test_w_Unmasking : mayFire masking (.bay 3 .msk) = true ∧ stopping (getSt masking (.bay 3 .msk)) = false ∧ (masking.bays[(3 : BayId)]).mask.running = true ∧
    (masking.bays[(3 : BayId)]).mask.bin = some ⟨3, 3, 1⟩ ∧ findBin masking 3 3 = some summ ∧ maskOut masking 3 = some 0 ∧
    Feeds masking (.bay 3 .msk) 0 (.bay 3 .bin, 4) ∧
    (let s := modBay (inRound (round1 .masking)) 3 (fun y => { y with mask := { finished := true, bin := some ⟨3, 3, 1⟩, job := 1, round := 5 } })
     (s.bays[(3 : BayId)]).round = some (round1 .masking) ∧ (round1 .masking).sendQ = [] ∧ (round1 .masking).bins.all (bayMasked s (round1 .masking)) = true) := by
  unfold Feeds; decide

/-! ## Lattice -/

def limb1 : Limb := { m := 2 ^ 40 + 1, mprime := 0, mu := 0, r2 := 0, psi := 0, delta := 0, limit := 1000 }
def pset (logn : Nat) (rdy : Bool) : ParamSet := {
  id := 7, job := 1, logn := logn, l := 1, k := 0, alpha := 0, conv := 0, ingestTag := 1, fresh := 0, msBound := 0, ksBound := 0, flood := 0, noiseLevel := 1,
  limbs := [limb1], digest := [], ready := rdy, h := h0 }
def pdesc (ops : List (Nat × Nat × Nat)) : PipeDesc := { inA := 0, inB := 1, inS := 2, out := 8, ops := ops, paramSet := 7, levelIn := 1 }
def lat (psets : List ParamSet) (pipes : List Pipe) : State :=
  let s : State := { bins3 with rot := { bins3.rot with parts := vmod bins3.rot.parts 2 (fun q => { q with job := some { lead2 with moduli := [2 ^ 40 + 1] } }) } }
  modBay s 3 (fun y => { y with lattice := { y.lattice with psets := psets, pipes := pipes } })
def image0 : Image := { job := 1, bays := 8, period := 1, pipes := [(3, pdesc [])] }
def runs (s : State) (g : Image) : State := { s with sch := { s.sch with parts := vmod s.sch.parts 2 (fun q => { q with state := .running, running := some g }) } }
theorem test_w_LatticeSets : (lat [pset 2 false] []).bays[(3 : BayId)].lattice.psets.find? (fun p => !p.ready) = some (pset 2 false) ∧
    (∀ b : BayId, bitOf (8#16).toNat b.1 = true → (lat [pset 2 true] []).bays[b].owner = h0.part) ∧ (8#16) ≠ 0 ∧
    (∀ b : BayId, bitOf (8#16).toNat b.1 = true → ∀ d ∈ imagePipes (lat [pset 2 true] []) b, d.paramSet ≠ 7) ∧
    (let s := modSt (runs (lat [pset 2 true] []) image0) (.bay 3 .lat) (fun x => { x with firing := some {} })
     bitOf (8#16).toNat (3 : BayId).1 = true ∧ (∃ d ∈ imagePipes s 3, d.paramSet = 7) ∧ stDrained s (.bay 3 .lat) = false) := by decide
def lkey (c : Bool) : LatKey := { checking := c, kind := 1, level := 1, paramSet := 7, src := 1, dst := 2, region := 0, len := 64, digest := [], h := h0 }
def keyed (c : Bool) : State := modBay (lat [] []) 3 (fun y => { y with lattice := { y.lattice with keys := vmod y.lattice.keys 7 (fun _ => some (lkey c)) } })
theorem test_w_LatticeKeys : (keyed true).bays[(3 : BayId)].lattice.keys[(7 : PortId)] = some (lkey true) ∧ (lkey true).checking = true ∧
    (keyed false).bays[(3 : BayId)].lattice.keys[(7 : PortId)] = some (lkey false) ∧ (keyed false).bays[(3 : BayId)].owner = h0.part ∧
    stDrained (keyed false) (.bay 3 .lat) = true ∧ (keyed false).bays[(3 : BayId)].lattice.keys[(0 : PortId)] = none := by decide

/-- A tile of ring 0x40 for input A, the last of its stream, and samples for input S. -/
def hdrA : TileHdr := { ring := 0x40, etype := 1, job := 1, count := 2, last := true, paramSet := 7, keyTag := 1 }
def tokA : Token := { tile := { hdr := hdrA, payload := [1] } }
def pipe0 (ops : List (Nat × Nat × Nat)) : Pipe := { d := pdesc ops }
def gathering (p : PortId) (tok : Token) : State :=
  modIn (lat [pset 11 true] [pipe0 [(3, 0, 0)]]) (.bay 3 .lat) p (fun x => { x with conn := true, pool := 1, job := 1, held := [tok] })
theorem test_w_latticeGather : Holds (gathering 0 tokA) (.bay 3 .lat) 0 tokA [] ∧ pipeOfPort (gathering 0 tokA) 3 (0 : PortId).1 = some (0, pipe0 [(3, 0, 0)]) ∧
    mayGather (gathering 0 tokA) 3 (pipe0 [(3, 0, 0)]) 0 = true ∧ portCauses (gathering 0 tokA) (.bay 3 .lat) 0 tokA.tile = [] ∧
    latCauses (gathering 0 tokA) 3 0 (pipe0 [(3, 0, 0)]) {} false tokA.tile = [] ∧
    inTurn (gathering 0 tokA) (.bay 3 .lat) 0 (latReady (gathering 0 tokA) 3) = true ∧ inTurn (gathering 2 tok1) (.bay 3 .lat) 2 (latReady (gathering 2 tok1) 3) = true ∧
    ringOf (modsOf (gathering 0 tokA) (tenantPart 2) 1) 0x40 = some ⟨2 ^ 40 + 1, 8⟩ ∧
    Holds (gathering 2 tok1) (.bay 3 .lat) 2 tok1 [] ∧ pipeOfPort (gathering 2 tok1) 3 (2 : PortId).1 = some (0, pipe0 [(3, 0, 0)]) ∧
    mayGather (gathering 2 tok1) 3 (pipe0 [(3, 0, 0)]) 2 = true ∧ portCauses (gathering 2 tok1) (.bay 3 .lat) 2 tok1.tile = [] ∧
    payloadShapeOk 8 tok1.tile = true := by unfold Holds; decide
/-- Two ciphertexts of one position, N = 4,096. -/
def lpos : LatPos := { off := 0, count := 8192, limbs := [List.replicate 8192 1] }
def lgrp : LatGroup := { poss := [lpos], bound := 700, job := 1, outTag := 1 }
def ladd : Pipe := { pipe0 [(1, 0, 0)] with readyA := [lgrp], readyB := [{ lgrp with bound := 743 }] }
theorem test_w_latticeCompute : findPipe (lat [pset 12 true] [ladd]) 3 (0 : Fin 4).1 = some ladd ∧ mayFire (lat [pset 12 true] [ladd]) (.bay 3 .lat) = true ∧
    psetOf (lat [pset 12 true] [ladd]) 3 7 = some (pset 12 true) ∧ denseCap (setSize (pset 12 true)) ≤ 2 ^ ((pset 12 true).logn + 1) ∧
    lpos.limbs = [List.replicate 8192 1] ∧ lpos.count = 2 ^ ((pset 12 true).logn + 1) ∧ (List.replicate 8192 (1 : Nat)).length = lpos.count ∧
    max lgrp.bound 743 + 256 < limb1.limit ∧ limb1.limit < 2 ^ 16 := by
  refine ⟨rfl, by decide, rfl, by decide, rfl, by decide, ?_, by decide, by decide⟩
  rw [List.length_replicate]; rfl
def noisy : Pipe := { pipe0 [(3, 0, 0)] with samples := List.replicate 4 (1, 0), cur := some {
  g := { poss := [{ off := 0, count := 8, limbs := [List.replicate 8 1] }] }, copied := [], made := [], bound := 0, last := false, noised := false, todo := [],
  now := some { ct := ⟨[[1, 1, 1, 1]], [[1, 1, 1, 1]]⟩, other := none, ops := [(3, 0, 0)], level := 1, bound := 0, spent := false } } }
theorem test_w_latticeSamples : findPipe (lat [pset 2 true] [noisy]) 3 (0 : Fin 4).1 = some noisy ∧ mayFire (lat [pset 2 true] [noisy]) (.bay 3 .lat) = true ∧
    noisy.cur.isSome ∧ psetOf (lat [pset 2 true] [noisy]) 3 noisy.d.paramSet = some (pset 2 true) ∧ 2 ^ (pset 2 true).logn ≤ noisy.samples.length := by decide
def emitting : State :=
  let s := modOut (lat [pset 2 true] [{ pipe0 [] with outQ := [(tokA.tile, 0)] }]) (.bay 3 .lat) 0 (fun x => { x with conn := true, cons := some (.bay 3 .rls, 0) })
  modIn s (.bay 3 .rls) 0 (fun x => { x with conn := true, pool := 1, avail := 1 })
/-- The last tile of a group, and one behind which another waits. -/
theorem test_w_lastOut : ([] : List (Tile × Nat)) = [] ∧ (pipe0 []).outCts = 0 ∧
    findPipe (lat [pset 2 true] [{ pipe0 [] with outQ := [(tokA.tile, 0), (tokA.tile, 0)], outCts := 1 }]) 3 (0 : Fin 4).1 =
      some { pipe0 [] with outQ := (tokA.tile, 0) :: [(tokA.tile, 0)], outCts := 1 } := by decide
theorem test_w_latticeEmit : findPipe emitting 3 (0 : Fin 4).1 = some { pipe0 [] with outQ := [(tokA.tile, 0)] } ∧ mayFire emitting (.bay 3 .lat) = true ∧
    stopping (getSt emitting (.bay 3 .lat)) = false ∧ (pdesc []).out = 8 + (0 : PortId).1 ∧ Feeds emitting (.bay 3 .lat) 0 (.bay 3 .rls, 0) := by
  unfold Feeds; decide

/-! ## Noise, releases, schedules, transfers, the whole machine -/

/-- Tenant 2's lead job with a format, its keys 2 and 6 held, its DRBG seeded; room for key slots. -/
def kjob : KeySlot := { kind := 2, secret := List.replicate 32 5, part := 2, gen := 0, job := 1 }
def kseed : KeySlot := { kind := 4, secret := List.replicate 32 6, part := 2, gen := 0, job := 1, round := 5, attempt := 1, claims := [(0, 100)] }
def claim0 : Claim := { bay := 3, lo := 0, hi := 100 }
def seedOpen : OpenSeed := { slot := 1, job := 1, round := 5, attempt := 1, lo := 0, hi := 100, mark := 4 }
/-- The arguments of a kernel output's release from bay 3 under seed 1. -/
def args0 : RlsArgs := { bay := 3, source := 3, level := 0, job := 1, round := 5, seed := 1, presBin := hSum, lo := 0, hi := 4, region := 0x100000, sink := .host 0x1000 0x2000 }
def rel0 : Release := { h := h0, args := args0, region := 0x100000, regionLen := 1888, attempt := 1, seed := kseed.secret, clo := 0, chi := 4, pres := [], ends := [0] }
def seeded (k1 : Option KeySlot) (seeds : List OpenSeed) : State :=
  let s := modNoise bins3 3 (fun n => { n with seeds := seeds })
  { s with rot := { s.rot with
      parts := vmod s.rot.parts 2 (fun q => { q with slotQuota := 8 })
      slots := vmod (vmod s.rot.slots 0 (fun _ => some kjob)) 1 (fun _ => k1) }
           rng := { s.rng with drbg := vmod s.rng.drbg 2 (fun d => { d with live := true, seeded := true }) } }
theorem test_w_NoiseSeeds : (seeded none []).bays[(3 : BayId)].owner = h0.part ∧ drawStatus (seeded none []) h0 1 5 [claim0] = 0 ∧ Serves (seeded none []) h0.part 1 ∧
    drawStatus (seeded none []) h0 1 5 [] ≠ 0 ∧ SeedIn (seeded (some kseed) []) h0 1 kseed ∧ jobSecret (seeded (some kseed) []) h0.part 2 kseed.job = some kjob.secret ∧
    (∀ q ∈ kseed.claims ++ kseed.exports, 200 ≤ q.1 ∨ q.2 ≤ 100) ∧ (∃ q ∈ kseed.claims ++ kseed.exports, q.1 < 100 ∧ 99 < q.2) ∧
    (getPart (seeded none []) 2).job = some lead2 ∧ claimStatus (seeded none []) h0 lead2.job [claim0] = 0 ∧
    seedUsed (seeded (some kseed) []) h0.part (1 : Fin 64).1 = false ∧
    (let s := modRls (seeded (some kseed) []) 3 (fun r => { r with cur := some rel0 })
     SeedIn s h0 1 kseed ∧ seedUsed s h0.part (1 : Fin 64).1 = true) := by unfold Serves SeedIn; decide

/-- An ADD stream from port 0 and a SAMPLE stream, each to output port 0, which feeds Release. -/
def nstream (mode : Nat) : NoiseStream := { mode := mode, inPort := 0, out := 8, job := 1, p := 1, logn := 12, pattern := 0, base := 8, length := 3 }
def noiseTok (off : Nat) : Token := { tile := { hdr := { hdr64 with sliceOffset := off }, payload := [1] } }
def noising (mode : Nat) (seeds : List OpenSeed) (off : Nat) : State :=
  let s := modNoise (seeded (some kseed) seeds) 3 (fun n => { n with streams := [nstream mode] })
  let s := modIn s (.bay 3 .nse) 0 (fun x => { x with conn := true, pool := 1, job := 1, held := [noiseTok off] })
  let s := modOut s (.bay 3 .nse) 0 (fun x => { x with conn := true, cons := some (.bay 3 .rls, 0) })
  modIn s (.bay 3 .rls) 0 (fun x => { x with conn := true, pool := 1, avail := 1 })
theorem test_w_noiseAdd : Holds (noising 1 [seedOpen] 4) (.bay 3 .nse) 0 (noiseTok 4) [] ∧
    findNoise (noising 1 [seedOpen] 4) 3 (fun x => x.mode == 1 && x.inPort == (0 : PortId).1) = some (nstream 1) ∧ (nstream 1).out = 8 + (0 : PortId).1 ∧
    Feeds (noising 1 [seedOpen] 4) (.bay 3 .nse) 0 (.bay 3 .rls, 0) ∧ streamSeed (noising 1 [] 4) 3 (nstream 1) = none ∧
    streamSeed (noising 1 [seedOpen] 4) 3 (nstream 1) = some (seedOpen, kseed) ∧
    portCauses (noising 1 [seedOpen] 4) (.bay 3 .nse) 0 (noiseTok 4).tile = [] ∧ addCauses (readsPayload (noising 1 [seedOpen] 4) (.bay 3 .nse) (noiseTok 4).tile) (noiseTok 4).tile = [] ∧
    inTurn (noising 1 [seedOpen] 4) (.bay 3 .nse) 0 (noiseReady (noising 1 [seedOpen] 4) 3) = true ∧
    seedOpen.lo ≤ 4 ∧ 4 + addSpan (noising 1 [seedOpen] 4) 3 (noiseTok 4).tile.hdr ≤ seedOpen.hi ∧ seedOpen.mark ≤ 4 ∧
    portCauses (noising 1 [seedOpen] 3) (.bay 3 .nse) 0 (noiseTok 3).tile = [] ∧ 3 < seedOpen.mark ∧ seedOpen.hi < 99 + 2 := by unfold Holds Feeds; decide
theorem test_w_noiseSample : mayFire (noising 2 [seedOpen] 4) (.bay 3 .nse) = true ∧ stopping (getSt (noising 2 [seedOpen] 4) (.bay 3 .nse)) = false ∧
    findNoise (noising 2 [seedOpen] 4) 3 (fun x => x.mode == 2 && x.out == 8 + (0 : PortId).1) = some (nstream 2) ∧ 8192 * (nstream 2).next < (nstream 2).length ∧
    Feeds (noising 2 [seedOpen] 4) (.bay 3 .nse) 0 (.bay 3 .rls, 0) ∧ streamSeed (noising 2 [] 4) 3 (nstream 2) = none ∧
    streamSeed (noising 2 [seedOpen] 4) 3 (nstream 2) = some (seedOpen, kseed) ∧ seedOpen.lo ≤ 8 ∧ 8 + 3 ≤ seedOpen.hi ∧ seedOpen.mark ≤ 8 ∧
    streamSeed (noising 2 [{ seedOpen with mark := 9 }] 4) 3 (nstream 2) = some ({ seedOpen with mark := 9 }, kseed) ∧ 8 < 9 := by
  unfold Feeds; decide

/-- Bay 3's release of job 1 under the open seed of slot 1, presence from the sum bin, in a state. -/
def releasing (st : RlsState) (f : RlsSt → RlsSt) (tiles : List Token) : State :=
  let s := modRls (seeded (some kseed) [seedOpen]) 3 (fun r => f { r with state := st })
  let s := { s with rot := { s.rot with signQ := [(tenantPart 2, 3)] } }
  modIn s (.bay 3 .rls) 0 (fun x => { x with conn := true, pool := 1, job := 1, held := tiles })
def linkUp (s : State) : State := { s with link := { s.link with perst := false, up := true } }
theorem test_w_Releases : args0.bay = (3 : BayId).1 ∧
    (let s := modBay (releasing .idle id []) 3 (fun y => { y with round := some { round1 .gleaned with bins := [⟨3, 3, 1⟩] } })
     rlsOpenStatus s h0 args0 = 0) ∧ rlsOpenStatus (releasing .collecting id []) h0 args0 ≠ 0 ∧
    (let s := linkUp (releasing .signing (fun x => { x with cur := some { rel0 with rand := some [1] } }) [])
     s.bays[(3 : BayId)].release.state = .signing ∧ s.rot.signQ = (rel0.h.part, 3) :: [] ∧ rotBusy s = false ∧ s.link.up = true ∧ rel0.args.sink = .host 0x1000 0x2000 ∧
     rel0.h.part = tenantPart 2 ∧ (getPart s 2).job = some lead2 ∧ lead2.job = rel0.args.job) ∧
    (let s := releasing .emitting (fun x => { x with cur := some rel0 }) []
     s.bays[(3 : BayId)].release.cur = some rel0 ∧ s.bays[(3 : BayId)].release.state = .emitting ∧ (∀ m ∈ s.trn.tx, m.bay ≠ some (3 : BayId)) ∧ rel0.lost = false ∧
     (releasing .emitting (fun x => { x with cur := some { rel0 with lost := true } }) []).bays[(3 : BayId)].release.cur = some { rel0 with lost := true }) ∧
    (let s := linkUp (releasing .idle (fun x => { x with last := some rel0 }) [])
     s.bays[(3 : BayId)].owner = h0.part ∧ s.link.up = true ∧ s.bays[(3 : BayId)].release.last = some rel0 ∧ s.bays[(3 : BayId)].release.cur = none) := by decide
/-- Four elements of a kernel's output, NOISED; LAST or not; and one not NOISED. -/
def relTok (noised last : Bool) : Token := { tile := { hdr := { hdr64 with count := 4, noised := noised, last := last }, payload := [1] } }
def rel1 (last : Bool) : Release := { rel0 with args := { args0 with hi := if last then 4 else 8 } }
def admitting (noised last : Bool) : State := releasing .collecting (fun x => { x with cur := some (rel1 last) }) [relTok noised last]
theorem test_w_ReleaseAdmission : ∀ noised last : Bool, Holds (admitting noised last) (.bay 3 .rls) 0 (relTok noised last) [] ∧
    inTurn (admitting noised last) (.bay 3 .rls) 0 (heldPorts (admitting noised last) (.bay 3 .rls)) = true ∧
    portCauses (admitting noised last) (.bay 3 .rls) 0 (relTok noised last).tile = [] ∧ releaseCauses (admitting noised last) 3 (relTok noised last).tile = [] ∧
    (admitCheck (admitting noised last) 3 (rel1 last) (relTok noised last).tile.hdr false = if noised then 0 else 2) := by
  unfold Holds; decide
theorem test_w_discarding : let s := releasing .discarding (fun x => { x with cur := some rel0 }) [relTok true true]
    s.bays[(3 : BayId)].release.state = .discarding ∧ s.bays[(3 : BayId)].release.cur = some rel0 ∧ Holds s (.bay 3 .rls) 0 (relTok true true) [] := by
  unfold Holds; decide

/-- Tenant 2 runs an image with one slot per step and a SEND and a RECV of two tiles of the sum bin on Zaled port 3, in step 1. -/
def xsend : Xfer := { send := true, presence := false, eth := false, port := 3, start := 0, nslots := 1, peer := 1, bay := 3, presBay := 3, presMask := 0, bin := 3, firstPos := 0, tiles := 2, chan := 9 }
def xeth : Xfer := { xsend with eth := true, port := 0 }
def xrecv : Xfer := { xsend with send := false }
def slotted : Image := { job := 1, bays := 8, domain := 1, period := 1, guardNs := 100, planId := 77, xfers := [xsend, xrecv, xeth], fallbacks := [⟨3, 7, [], []⟩] }
def runOf0 (i : Nat) : XferRun := { part := 2, idx := i, step := 1 }
def inStep (now : W64) (f : SchPart → SchPart) (inq : List RedTile) : State :=
  let s := seeded none []
  { s with
    alm := { t := now }
    zld := vmod s.zld 3 (fun z => { z with en := true, state := .up, credit := 200 })
    eth := vmod s.eth 0 (fun _ => { eth0 with modeV := 1 })
    trn := { s.trn with chans := [(9, chan9)] }
    red := { ctl := live, shares := vmod (Vector.replicate 16 {}) 2 (fun x => { x with en := true }), runs := [runOf0 0, runOf0 1, runOf0 2], inq := inq }
    sch := { s.sch with parts := vmod s.sch.parts 2 (fun x => f { x with state := .running, running := some slotted, slot := 1, step := 1, started := true, stepping := true }) } }
def redTok (plan : W64) : RedTile := { port := 3, part := 2, planId := plan, step := 1, xfer := 1, tile := { hdr := hdr64, payload := [1] }, origin := none }
theorem test_w_Schedules : schLoadStatus bins3 2 (3 : BayId).1 0x10000 0x100000 = 0 ∧ schLoadStatus bins3 2 (3 : BayId).1 0x10000 (2 ^ 37) ≠ 0 ∧
    (let s := inStep 100 (fun x => { x with staged := some slotted }) []
     (s.sch.parts[(2 : TenantId)]).staged.isSome = true ∧ (s.sch.parts[(2 : TenantId)]).swap = none ∧ schSwapStatus s 2 0 = 0 ∧ schSwapStatus s 2 3 ≠ 0 ∧
     usesFailed s slotted = false ∧ (10000#64).toNat % 10000 = 0 ∧ (10000#64).toNat < s.alm.t.toNat + 40000 ∧ (20000000#64).toNat > s.alm.t.toNat + 1000000) ∧
    ((inStep 0 id []).sch.parts[(2 : TenantId)]).staged = none ∧
    ((inStep 0 (fun x => { x with load := some ⟨h0, 3, 0x100000, 0x10000, []⟩ }) []).sch.parts[(2 : TenantId)]).load.isSome = true := by decide
/-- A swap at 20 ms, not yet draining; draining at 19,970,000 ns, at a round boundary or with a firing in progress. -/
def swapAt (now : W64) (q : SwapReq) : State :=
  let s := inStep now (fun x => { x with staged := some slotted, swap := some q }) []
  { s with red := { s.red with runs := [] } }
theorem test_w_ScheduleSwaps :
    (let s := swapAt 19500000 ⟨h0, 20000000, false, [], false, false⟩
     (s.sch.parts[(2 : TenantId)]).swap = some ⟨h0, 20000000, false, [], false, false⟩ ∧ (20000000#64).toNat ≤ s.alm.t.toNat + 1000000) ∧
    (let s := swapAt 19970000 ⟨h0, 20000000, true, [], false, false⟩
     roundBoundary s 2 = true ∧ (s.sch.parts[(2 : TenantId)]).staged = some slotted ∧ (20000000#64).toNat ≤ s.alm.t.toNat + 40000 ∧
     roundBoundary (modSt s (.bay 3 .lat) (fun x => { x with firing := some {} })) 2 = false) ∧
    roundBoundary (swapAt 5 ⟨h0, 0, true, [], false, false⟩) 2 = true := by decide
theorem test_w_Slots : slotImage (inStep 100000 id []) 2 = some slotted ∧
    (let s := inStep 100000 id []
     let x := s.sch.parts[(2 : TenantId)]
     x.t0.toNat + 10000 * x.slot ≤ s.alm.t.toNat + 12 ∧ x.slot % slotted.period = 0 ∧ x.haltPending = false ∧ x.swap = none ∧ slotted.domain ≤ 1 ∧
     runsSlots x = true ∧ x.running = some slotted ∧ slotted.hasPlan = false ∧ (8#16).toNat &&& bayMask s h0.part = (8#16).toNat ∧
     fallbackFor s 3 slotted 7 = some ⟨3, 7, [], []⟩) ∧
    (let x := (inStep 100000 (fun x => { x with running := some { slotted with period := 2 } }) []).sch.parts[(2 : TenantId)]
     x.slot % 2 ≠ 0) ∧
    (let x := (inStep 100000 (fun x => { x with haltPending := true }) []).sch.parts[(2 : TenantId)]
     x.haltPending = true ∧ x.state = .running) ∧
    (let s := modBay bins3 3 (fun y => { y with remapping := some 7 })
     s.bays[(3 : BayId)].remapping = some (7 : Fin 50).1 ∧ (∀ k : Fin 50, (s.bays[(3 : BayId)].cores[k]).firing = none) ∧
     runningImage s s.bays[(3 : BayId)].owner = none ∧ s.bays[(3 : BayId)].remapQ = []) ∧
    (let s := modCore (modBay bins3 3 (fun y => { y with remapping := some 7, remapQ := [8] })) ⟨3, 8⟩ (fun k => { k with
       bind := some bound, ctl := { k.ctl with st := .fenced } })
     s.bays[(3 : BayId)].remapping = some (7 : Fin 50).1 ∧ s.bays[(3 : BayId)].remapQ = [(8 : Fin 50).1] ∧
     (∀ k : Fin 50, (s.bays[(3 : BayId)].cores[k]).firing = none) ∧ (s.bays[(3 : BayId)].cores[(8 : Fin 50)]).ctl.st = .fenced ∧
     (s.bays[(3 : BayId)].cores[(8 : Fin 50)]).bind.isSome) := by decide
theorem test_w_transfersSend : (let s := inStep 1000 id []
     maySend s 2 slotted xsend (runOf0 0) = true ∧ maySend s 2 slotted xeth (runOf0 2) = true ∧ slotted.xfers[0]? = some xsend ∧ slotted.xfers[2]? = some xeth ∧
     findRun s 2 0 = some (runOf0 0) ∧ findRun s 2 2 = some (runOf0 2) ∧ (runOf0 0).sent < dataTiles s 2 slotted.job xsend ∧
     (runOf0 0).sent + 1 < allTiles s 2 slotted.job xsend ∧ summ.index = xsend.bin ∧ xsend.firstPos + (runOf0 0).sent < summ.t ∧ (txPort s chan9).isSome ∧
     nextSeq chan9 + 9 ≤ 2 ^ 32 ∧ s.trn.tx = [] ∧
     xferBin s 2 xsend = some (3, summ) ∧ posPoison s 3 summ 0 = 0 ∧ xsend.port = (3 : PortId).1 ∧ xeth.port = (0 : PortId).1 ∧ getChan s 9 = some chan9 ∧
     chan9.holdUntil.toNat ≤ s.alm.t.toNat ∧ jobKey s 2 slotted.job = some kjob.secret ∧ (s.zld[(3 : PortId)]).dataSent + 142 ≤ (s.zld[(3 : PortId)]).credit + (s.zld[(3 : PortId)]).peerFreed ∧
     (s.zld[(3 : PortId)]).replayBuf.length + 142 ≤ 255) := by decide
theorem test_w_transfersRecv : (let s := inStep 1000 id [redTok 78]
     s.red.inq = redTok 78 :: [] ∧ recvOf s 2 (redTok 78) = none ∧ ((redTok 78).planId, (redTok 78).xfer) ∉ (s.red.shares[(2 : TenantId)]).rejects) ∧
    (let s := modRedShare (inStep 1000 id [redTok 78]) 2 (fun x => { x with rejects := [(78, 1)] })
     recvOf s 2 (redTok 78) = none ∧ ((redTok 78).planId, (redTok 78).xfer) ∈ (s.red.shares[(2 : TenantId)]).rejects) ∧
    (recvOf (inStep 1000 id [redTok 77]) 2 (redTok 77) = some (slotted, xrecv)) ∧ tileTime (inStep 10001 id []) 2 slotted xrecv (redTok 77) = .late ∧
    (let s := inStep 1000 id [redTok 77]
     tileTime s 2 slotted xrecv (redTok 77) = .inStep 1 ∧ (runOf s 2 1 1).1.got = [] ∧ (runOf s 2 1 1).1.ended = false ∧ redBegins s 2 = true ∧
     dataTileOk s 2 xrecv (redTok 77).tile = some (3, summ) ∧ (redTok 77).tile.hdr.tileIndex < dataTiles s 2 slotted.job xrecv ∧ canonicalOk (binRing s summ) (redTok 77).tile = true ∧
     payloadShapeOk (binRing s summ).size (redTok 77).tile = true) ∧
    (let s := inStep 10000 id []
     slotImage s 2 = some slotted ∧ findRun s 2 1 = some (runOf0 1) ∧ (s.sch.parts[(2 : TenantId)]).stepping = true ∧
     xferTo (stepNow s 2 slotted) xrecv ≤ s.alm.t.toNat ∧ xferTo (stepNow s 2 slotted) xsend < s.alm.t.toNat + slotted.guardNs ∧
     allTiles s 2 slotted.job xsend = 2 ∧ ¬ 2 ≤ (runOf0 0).sent ∧ 2 ≤ ({ runOf0 0 with sent := 2 } : XferRun).sent ∧
     (∀ k < 2, k ∈ ({ runOf0 1 with got := [1, 0] } : XferRun).got)) := by decide

/-! ## The whole machine -/

theorem test_w_EmptyQueueTick : State.reset.pending = [] ∧ State.reset.pow.inReset = true ∧ up.pending = [] ∧ up.pow.inReset = false ∧
    -256000000000 < up.alm.trimAcc + up.alm.trim ∧ up.alm.trimAcc + up.alm.trim < 256000000000 := by decide
/-- State.reset meets both invariants, and its steps answer next states. -/
theorem test_w_Daybooks : DaybooksFit State.reset ∧ DaybooksFit up := by unfold DaybooksFit; decide
theorem test_w_Memories : MemoriesCanonical State.reset ∧ MemoriesCanonical up := by
  have h : MemoriesCanonical State.reset := by
    intro b; rw [(reset_memories b).1, (reset_memories b).2.1]; decide
  exact ⟨h, h⟩
theorem test_w_steps : step State.reset = .next State.reset ∧ (∃ t, step up = .next t) := ⟨rfl, _, rfl⟩
theorem test_w_KernelDecodeOfEncode : kernelCore (.addi c0 1 2 4095) = some c0 ∧ kernelFieldsOk (.addi c0 1 2 4095) = true ∧
    (∃ w, encodeKernel (.addi c0 1 2 4095) = some w ∧ decodeKernel c0 w = some (.addi c0 1 2 4095)) :=
  ⟨rfl, by decide, ⟨_, rfl, by decide⟩⟩
theorem test_w_frames : (∃ t, exec (.slotStart 2) up = .next t) ∧ outsideHub (.slotStart 2) = true ∧ (∃ t, exec .ppsEdge up = .next t) ∧
    (∃ t, exec (.railWarn 0 1) up = .next t) ∧ (∃ t, exec .identityGet up = .next t) := ⟨⟨_, rfl⟩, rfl, ⟨_, rfl⟩, ⟨_, rfl⟩, ⟨_, rfl⟩⟩
/-- The front command runs: the queue keeps the rest. -/
theorem test_step_front : (match step { up with pending := [.ppsEdge, .almTimeRead] } with
    | .next t => t.pending
    | _ => []) = [.almTimeRead] := by decide

end Sys2Proof.Tests
end

/-! PROOFS. Register writes by kind (R10 to R12, R315, R418): what a read of a page's lock, a write of each kind of register, a GRD
write to a locked page and a write of an MSI-X vector control word do, each once; then O15 from them. -/

namespace Sys2Proof.Machine

open Sys2Proof.Said

/-! ## Keyed lists -/

/-- A key that was put in is found with its new value, whatever the order of the list. -/
theorem lookup_insertKey_same (k : Nat) (a : α) (l : List (Nat × α)) : lookup k (insertKey k a l) = some a := by
  induction l with
  | nil => simp [insertKey, lookup]
  | cons p t ih =>
    obtain ⟨j, b⟩ := p
    simp only [insertKey]
    split
    · simp [lookup]
    · split
      · simp [lookup]
      · next hne =>
        have hj : (j == k) = false := by simpa using Ne.symm hne
        simpa [lookup, List.find?_cons, hj] using ih

/-! ## The lock of a page (R11, R418) -/

/-- The lock read for a page names that page, listed or not. -/
@[simp] theorem lockOf_page (s : State) (pg : Page) : (lockOf s pg).page = pg := by
  unfold lockOf
  cases h : s.locks.find? (fun l => l.page == pg) with
  | none => rfl
  | some l => simpa using List.find?_some h

/-- A lock put back is what the next read of its page gives; one that is left out of the list is the default lock. -/
theorem lockOf_putLock_same (s : State) (l : Lock) (pg : Page) (hpg : l.page = pg) : lockOf (putLock s l) pg = l := by
  subst hpg
  unfold lockOf putLock
  dsimp only
  split
  · simp
  · next hdefault =>
    have hgone : (s.locks.filter (fun x => x.page != l.page)).find? (fun x => x.page == l.page) = none := by
      simp [List.find?_eq_none]
    obtain ⟨hunlocked, hdiscards⟩ : l.unlocked = false ∧ l.discards = 0 := by simpa using hdefault
    rw [hgone, Option.getD_none]
    cases l
    cases hunlocked
    cases hdiscards
    rfl

/-- Setting a page's lock keeps its count of discards. -/
theorem lockOf_setLock_same (s : State) (pg : Page) (u : Bool) : lockOf (setLock s pg u) pg = { lockOf s pg with unlocked := u } :=
  lockOf_putLock_same s _ pg (lockOf_page s pg)

/-! ## A GRD write to a locked page (R12, R418) -/

/-- It changes the page's lock, the mark of its last entry and the daybook unit's input, and nothing else. -/
theorem grdLocked_frame (s : State) (fn : Fn) (pg : Page) (off : Nat) (v : W32) :
    { grdLocked s fn pg off v with locks := s.locks, rates := s.rates, dbkIn := s.dbkIn } = s := by
  unfold grdLocked
  dsimp only
  split <;> rfl

/-- Within a millisecond of the page's last entry the discard is only counted. -/
theorem grdLocked_counts (s : State) (fn : Fn) (pg : Page) (off : Nat) (v : W32) (hrate : rateOk s (.grd pg) 1000000 = false)
    (hmax : (lockOf s pg).discards < 2 ^ 32 - 1) :
    (lockOf (grdLocked s fn pg off v) pg).discards = (lockOf s pg).discards + 1 ∧ (grdLocked s fn pg off v).dbkIn = s.dbkIn := by
  unfold grdLocked
  dsimp only
  rw [if_neg (by simp [hrate]), lockOf_putLock_same s _ pg (by simp)]
  exact ⟨Nat.min_eq_right (by omega), rfl⟩

/-- Otherwise an entry with the offset and the value is written, and the count begins again. -/
theorem grdLocked_logs (s : State) (fn : Fn) (pg : Page) (off : Nat) (v : W32) (hrate : rateOk s (.grd pg) 1000000 = true) :
    (lockOf (grdLocked s fn pg off v) pg).discards = 0 ∧ ∃ e, (grdLocked s fn pg off v).dbkIn = s.dbkIn ++ [e] ∧ e.2.code = 0x2001 ∧
      e.2.d0 = word32 off ∧ e.2.d1 = v := by
  obtain ⟨e, hin, hcode, -, -, hd0, hd1, -⟩ := logEv_dbkIn (rateMark s (.grd pg)) (pageOwner s pg) pg codeGrdLocked off v.toNat (fnNo fn)
    (min (2 ^ 32 - 1) ((lockOf s pg).discards + 1))
  unfold grdLocked
  dsimp only
  rw [if_pos hrate, lockOf_putLock_same _ _ pg (by simp)]
  exact ⟨rfl, _, hin, hcode, hd0, hd1.trans (by simp [word32])⟩

/-! ## A write on the bus, by the kind of its register (R8, R10 to R12) -/

/-- PG_UNLOCK lies in the header of every page (Table 15.4). -/
theorem regKind_pgUnlock (pg : Page) : regKind pg 0x014 = some .unlock := by
  simp [regKind, headRows, regRun, rowHas]

/-- A reserved offset takes nothing. -/
theorem busWrite_reserved (s : State) (fn : Fn) (pg : Page) (off : Nat) (v : W32) (hk : regKind pg off = none) :
    busWrite s fn pg off v = s := by
  simp [busWrite, hk]

section Reached
variable {s : State} {fn : Fn} {pg : Page} {off : Nat} (hup : s.pow.inReset = false) (hreach : reaches s fn pg = true)
include hup hreach

/-- PG_UNLOCK unlocks its page with the key, and locks it with another value. -/
theorem busWrite_unlock (v : W32) (hk : regKind pg off = some .unlock) : busWrite s fn pg off v = setLock s pg (v == unlockKey) := by
  simp [busWrite, hup, hreach, hk]

/-- A read-only register takes nothing, but the page is locked again. -/
theorem busWrite_ro (v : W32) (hk : regKind pg off = some .ro) : busWrite s fn pg off v = relocked s pg := by
  simp [busWrite, hup, hreach, hk, relocked]

/-- A GRD register of a locked page takes nothing: the write is discarded and counted. -/
theorem busWrite_grd_locked (v : W32) (hk : regKind pg off = some .grd) (hlock : (lockOf s pg).unlocked = false) :
    busWrite s fn pg off v = grdLocked (relocked s pg) fn pg off v := by
  simp [busWrite, hup, hreach, hk, hlock, relocked]

end Reached

/-- An open write of a writable register takes effect, on the page locked again. -/
theorem busWrite_open (s : State) (fn : Fn) (pg : Page) (off : Nat) (v : W32) (k : RegKind) (ho : Open s fn pg off)
    (hk : regKind pg off = some k) (hro : k ≠ .ro) (hunlock : k ≠ .unlock) :
    busWrite s fn pg off v = regWrite (relocked s pg) fn pg off v := by
  obtain ⟨hup, hreach, hwaits, hgrd⟩ := ho
  cases k with
  | ro => exact absurd rfl hro
  | unlock => exact absurd rfl hunlock
  | grd => simp [busWrite, hup, hreach, hk, hwaits, hgrd hk, relocked]
  | rw | mw => simp [busWrite, hup, hreach, hk, hwaits, relocked]

/-! ## A write at an address (R10, R315) -/

/-- A write of 4 bytes in BAR0 goes to the register at its address. -/
theorem exec_registerWrite_reg (s : State) (fn : Fn) (a off : Nat) (pg : Page) (v : W32) (ha : regAddr s fn a = some (pg, off))
    (h4 : off % 4 = 0) : exec (.registerWrite fn ⟨false, a⟩ { lo := v }) s = .next (busWrite s fn pg off v) := by
  show Host.Outcome.next (barWrite s fn false a v) = _
  simp [barWrite, ha, h4]

/-- A reserved offset takes nothing, at any alignment. -/
theorem exec_registerWrite_reserved (s : State) (fn : Fn) (a off : Nat) (pg : Page) (v : W32) (ha : regAddr s fn a = some (pg, off))
    (hk : regKind pg off = none) : exec (.registerWrite fn ⟨false, a⟩ { lo := v }) s = .next s := by
  show Host.Outcome.next (barWrite s fn false a v) = _
  simp [barWrite, ha, busWrite_reserved s fn pg off v hk]

/-- A naturally aligned write of 8 bytes is the write of the lower 4, and then that of the upper 4. -/
theorem exec_registerWrite_pair (s t : State) (fn : Fn) (bar4 : Bool) (a : Nat) (lo hi : W32) (h8 : a % 8 = 0)
    (hlo : exec (.registerWrite fn ⟨bar4, a⟩ { lo := lo }) s = .next t) :
    exec (.registerWrite fn ⟨bar4, a⟩ { lo := lo, hi := some hi }) s = exec (.registerWrite fn ⟨bar4, a + 4⟩ { lo := hi }) t := by
  have ht : barWrite s fn bar4 a lo = t := Host.Outcome.next.inj hlo
  show Host.Outcome.next (if a % 8 = 0 then barWrite (barWrite s fn bar4 a lo) fn bar4 (a + 4) hi else s) = _
  rw [if_pos h8, ht]
  rfl

/-! ## Two RW registers: DEV_SCRATCH and CLK_BAYb -/

theorem exec_write_devScratch (s : State) (v : W32) (ho : Open s .pf .dev 0x11C) :
    exec (.registerWrite .pf ⟨false, 0x11C⟩ { lo := v }) s = .next { relocked s .dev with scratch := v } := by
  rw [exec_registerWrite_reg s .pf 0x11C 0x11C .dev v (by rfl) (by decide), busWrite_open s .pf .dev 0x11C v .rw ho (by decide) (by decide) (by decide)]
  rfl

theorem pfPage_clkBay : ∀ b : BayId, pfPage (0x2200 + 4 * b.1) = some (.clk, 0x200 + 4 * b.1) := by decide
theorem regKind_clkBay : ∀ b : BayId, regKind .clk (0x200 + 4 * b.1) = some .rw := by decide

/-- The bay of a CLK_BAYb register. -/
theorem regWrite_clkBay (s : State) (fn : Fn) (b : BayId) (v : W32) : regWrite s fn .clk (0x200 + 4 * b.1) v = clkEff s b v.toNat := by
  have hb : (0x200 + 4 * b.1 - 0x200) / 4 = b.1 := by omega
  have hctrl : ¬ 0x200 + 4 * b.1 = 0x008 := by omega
  simp only [regWrite, if_neg hctrl, hb, finOpt, dif_pos b.2]

/-- CLK_BAYb with a code that is not reserved selects it, in the fields of the word written (Table 13.12). -/
theorem clkEff_word (s : State) (b : BayId) (v : W32) (hcode : v.toNat % 8 ≤ 4) :
    clkEff s b v.toNat = modBayPow s b (fun q => { q with fix := v.getLsbD 31, fselW := v.extractLsb' 0 3, fsel := v.extractLsb' 0 3 }) := by
  have hfix : bitOf v.toNat 31 = v.getLsbD 31 := by
    rw [BitVec.getLsbD, Nat.testBit_eq_decide_div_mod_eq]; rfl
  have hsel : BitVec.ofNat 3 v.toNat = v.extractLsb' 0 3 := by
    apply BitVec.eq_of_toNat_eq; simp
  have hle : ¬ 4 < (v.extractLsb' 0 3).toNat := by simpa using hcode
  simp only [clkEff, hfix, hsel, if_neg hle]

theorem exec_write_clkBay (s : State) (b : BayId) (v : W32) (ho : Open s .pf .clk (0x200 + 4 * b.1)) (hcode : v.toNat % 8 ≤ 4) :
    exec (.registerWrite .pf ⟨false, 0x2200 + 4 * b.1⟩ { lo := v }) s = .next (modBayPow (relocked s .clk) b (fun q =>
      { q with fix := v.getLsbD 31, fselW := v.extractLsb' 0 3, fsel := v.extractLsb' 0 3 })) := by
  rw [exec_registerWrite_reg s .pf _ _ .clk v (pfPage_clkBay b) (by omega),
    busWrite_open s .pf .clk _ v .rw ho (regKind_clkBay b) (by decide) (by decide), regWrite_clkBay, clkEff_word _ b v hcode]

/-! ## A GRD register of a locked page, and PG_UNLOCK -/

theorem exec_write_grd_locked (s : State) (fn : Fn) (a off : Nat) (pg : Page) (v : W32) (hup : s.pow.inReset = false)
    (ha : regAddr s fn a = some (pg, off)) (h4 : off % 4 = 0) (hreach : reaches s fn pg = true) (hk : regKind pg off = some .grd)
    (hlock : (lockOf s pg).unlocked = false) :
    Runs (.registerWrite fn ⟨false, a⟩ { lo := v }) s (fun t => { t with locks := s.locks, rates := s.rates, dbkIn := s.dbkIn } = s ∧
      (rateOk s (.grd pg) 1000000 = false → (lockOf s pg).discards < 2 ^ 32 - 1 →
        (lockOf t pg).discards = (lockOf s pg).discards + 1 ∧ t.dbkIn = s.dbkIn) ∧
      (rateOk s (.grd pg) 1000000 = true → (lockOf t pg).discards = 0 ∧ ∃ e, t.dbkIn = s.dbkIn ++ [e] ∧ e.2.code = 0x2001 ∧
        e.2.d0 = word32 off ∧ e.2.d1 = v)) := by
  have hd : (lockOf (relocked s pg) pg).discards = (lockOf s pg).discards := by
    rw [relocked, lockOf_setLock_same]
  have hrun := exec_registerWrite_reg s fn a off pg v ha h4
  rw [busWrite_grd_locked hup hreach v hk hlock] at hrun
  refine ⟨_, hrun, ?frame, fun hrate hmax => ?counts, fun hrate => ?logs⟩
  case frame => exact congrArg (fun t : State => { t with locks := s.locks }) (grdLocked_frame (relocked s pg) fn pg off v)
  case counts =>
    obtain ⟨hcount, hin⟩ := grdLocked_counts (relocked s pg) fn pg off v hrate (hd ▸ hmax)
    exact ⟨hd ▸ hcount, hin⟩
  case logs => exact grdLocked_logs (relocked s pg) fn pg off v hrate

theorem exec_pgUnlock (s : State) (fn : Fn) (pg : Page) (v : W32) (hup : s.pow.inReset = false) (hreach : reaches s fn pg = true) :
    Runs (.pgUnlock fn pg v) s (fun t => (lockOf t pg).unlocked = decide (v = 0x0000A55A) ∧ { t with locks := s.locks } = s) := by
  have hrun : exec (.pgUnlock fn pg v) s = .next (setLock s pg (v == unlockKey)) :=
    congrArg Host.Outcome.next (busWrite_unlock hup hreach v (regKind_pgUnlock pg))
  exact ⟨_, hrun, congrArg Lock.unlocked (lockOf_setLock_same s pg _), rfl⟩

/-! ## The vector control word of an MSI-X entry (Table 11.7) -/

@[simp] theorem msixOf_putMsix_same (s : State) (p : PartId) (k : Nat) (e : MsixEntry) : msixOf (putMsix s p k e) p k = e := by
  simp [msixOf, putMsix, lookup_insertKey_same]

@[simp] theorem putMsix_out (s : State) (p : PartId) (k : Nat) (e : MsixEntry) : (putMsix s p k e).out = s.out := rfl
@[simp] theorem msixOf_emitOut (s : State) (o : Output) (p : PartId) (k : Nat) : msixOf (emitOut s o) p k = msixOf s p k := rfl

/-- A tenant's function has 120 vectors. -/
theorem vectorsOf_tenantPart (n : TenantId) : vectorsOf (tenantPart n) = 120 := by
  have hne : tenantPart n ≠ mgmt := fun h => absurd (congrArg Fin.val h) (Nat.ne_of_lt n.2)
  simp [vectorsOf, hne]

/-- The mask bit of a vector is written; a pending vector that it unmasks sends its message. -/
theorem msixWrite_vectorControl (s : State) (p : PartId) (k : Nat) (v : W32) (hk : k < vectorsOf p) :
    let e := msixOf s p k
    let t := msixWrite s p (16 * k + 12) v
    msixOf t p k = { e with mask := v.getLsbD 0, pending := e.pending && v.getLsbD 0 } ∧
      t.out = if e.pending ∧ v.getLsbD 0 = false then s.out ++ [.msix p k e.addr e.data] else s.out := by
  have hvec : (16 * k + 12) / 16 = k := by omega
  have hword : (16 * k + 12) / 4 % 4 = 3 := by omega
  have hin : ¬ vectorsOf p ≤ k := by omega
  simp only [msixWrite, hvec, hword, if_neg hin]
  generalize v.getLsbD 0 = masked
  cases masked with
  | true => simp
  | false =>
    cases (msixOf s p k).pending <;> simp

theorem exec_write_vectorControl (s : State) (n : TenantId) (k : Nat) (v : W32) (hup : s.pow.inReset = false)
    (hlive : partExists s (tenantPart n) = true) :
    exec (.registerWrite (.vf n) ⟨true, 16 * k + 12⟩ { lo := v }) s = .next (msixWrite s (tenantPart n) (16 * k + 12) v) := by
  have h4 : (16 * k + 12) % 4 = 0 := by omega
  show Host.Outcome.next (barWrite s (.vf n) true (16 * k + 12) v) = _
  simp [barWrite, fnPart, hup, hlive, h4]

/-! ## Malformed accesses (R315) -/

theorem exec_barAccessMalformed (s : State) (fn : Fn) (bar2 isRead : Bool) (a n : Nat) (hup : s.pow.inReset = false)
    (hbad : (n ≠ 4 ∧ n ≠ 8) ∨ a % n ≠ 0) :
    exec (.barAccessMalformed fn bar2 isRead a n) s = .next
      (logN (if isRead then emitOut (modLink s (fun l => { l with urSent := l.urSent + 1 })) .unsupported else s) mgmt .cxl codeCxlAccess
        (fnNo fn) (if bar2 then 2 else 0)) := by
  have hform : ((n == 4 || n == 8) && a % n == 0) = false := by
    rw [Bool.eq_false_iff]
    simp only [ne_eq, Bool.and_eq_true, Bool.or_eq_true, beq_iff_eq]
    omega
  show execBarAccessMalformed fn bar2 isRead a n s = _
  simp [execBarAccessMalformed, hup, hform]

/-! ## The statement -/

/-- Settles O15: the kind of the register decides what a write does (`busWrite_…`), and each clause is its own lemma above. -/
theorem registerWritesFollowTheirKind : Obligations.RegisterWritesFollowTheirKind := by
  refine ⟨exec_write_devScratch, exec_write_clkBay, ?ro, exec_write_grd_locked, exec_registerWrite_reserved, exec_registerWrite_pair, ?msix,
    exec_pgUnlock, ?malformed⟩
  case ro =>
    intro s fn a off pg v hup ha h4 hreach hk
    rw [exec_registerWrite_reg s fn a off pg v ha h4, busWrite_ro hup hreach v hk]
  case msix =>
    intro s n k v hup hlive hk
    obtain ⟨hentry, hout⟩ := msixWrite_vectorControl s (tenantPart n) k v (by rw [vectorsOf_tenantPart]; exact hk)
    refine ⟨_, exec_write_vectorControl s n k v hup hlive, ?_⟩
    simp only [hentry, true_and]
    exact hout
  case malformed =>
    intro s fn bar2 isRead a n hup hbad
    refine ⟨_, exec_barAccessMalformed s fn bar2 isRead a n hup hbad, ?_⟩
    cases isRead <;> exact ⟨rfl, rfl, rfl⟩

end Sys2Proof.Machine

/-! PROOFS. The vector registers (R239): what the elements of a view are, what a register packed from them holds, and how an instruction that
changes its core ends. -/

namespace Sys2Proof.Machine

open Sys2Proof.Said

/-! ## Lists cut into blocks -/

/-- Piece `i` of a cut list. -/
theorem getD_chunks (n : Nat) (hn : 0 < n) (l : List α) (i : Nat) : (chunks n l).getD i [] = (l.drop (n * i)).take n := by
  suffices ∀ fuel (l : List α) i, l.length ≤ fuel → (chunksAux n fuel l).getD i [] = (l.drop (n * i)).take n from this _ l i le_rfl
  intro fuel
  induction fuel with
  | zero =>
    intro l i hl
    obtain rfl : l = [] := List.length_eq_zero_iff.1 (by omega)
    simp [chunksAux]
  | succ fuel ih =>
    intro l i hl
    cases l with
    | nil => simp [chunksAux]
    | cons a t =>
      cases i with
      | zero => simp [chunksAux]
      | succ i =>
        have hfuel : ((a :: t).drop n).length ≤ fuel := by simp only [List.length_drop, List.length_cons] at hl ⊢; omega
        rw [chunksAux, List.getD_cons_succ, ih _ i hfuel, List.drop_drop, Nat.mul_succ, Nat.add_comm n]
        exact List.cons_ne_nil a t

/-- Place `j` of equally long blocks, one for each element. -/
theorem getElem?_flatMap_range (n : Nat) (hn : 0 < n) (g : α → Nat → β) (l : List α) (j : Nat) :
    (l.flatMap (fun e => (List.range n).map (g e)))[j]? = (l[j / n]?).map (fun e => g e (j % n)) := by
  induction l generalizing j with
  | nil => simp
  | cons a t ih =>
    rw [List.flatMap_cons]
    by_cases hj : j < n
    · rw [List.getElem?_append_left (by simpa using hj), Nat.div_eq_of_lt hj, Nat.mod_eq_of_lt hj]
      simp [hj]
    · have hle : n ≤ j := by omega
      rw [List.getElem?_append_right (by simpa using hle), List.length_map, List.length_range, ih, Nat.div_eq_sub_div hn hle,
        List.getElem?_cons_succ, ← Nat.mod_eq_sub_mod hle]

/-- The part of `e` places from place `q` on. -/
theorem take_drop_map_range (g : Nat → β) (n q e : Nat) (h : q + e ≤ n) :
    (((List.range n).map g).drop q).take e = (List.range e).map (fun j => g (q + j)) := by
  apply List.ext_getElem
  · simp; omega
  · intro j _ _
    simp

/-! ## The elements of a vector register (R239) -/

theorem viewSize_cases (w : Bool) : viewSize w = 4 ∨ viewSize w = 8 := by cases w <;> simp [viewSize]

theorem velem_lt (b : Nat) (x : Vector W64 32) (j : Nat) : velem b x j < 2 ^ (8 * b) := Nat.mod_lt _ (Nat.two_pow_pos _)

/-- The elements of a register in a view are those that `velem` names, in their order. -/
theorem viewElems_eq_map_velem (b : Nat) (hb : b = 2 ∨ b = 4 ∨ b = 8) (x : Vector W64 32) :
    viewElems b x = (List.range (vcount b)).map (velem b x) := by
  have hlen : x.toArray.toList.length = 32 := by simp
  by_cases h8 : b = 8
  · subst h8
    rw [viewElems, if_pos rfl]
    apply List.ext_getElem
    · simp [vcount]
    · intro j hj _
      have hj32 : j < 32 := by simpa using hj
      simp [velem, Nat.mod_one, hj32, Nat.mod_eq_of_lt (BitVec.isLt _)]
  · rw [viewElems, if_neg h8]
    apply List.ext_getElem?
    intro j
    have hcount : vcount b = 32 * (8 / b) := by rcases hb with rfl | rfl | rfl <;> rfl
    have hpos : 0 < 8 / b := by rcases hb with rfl | rfl | rfl <;> decide
    rw [getElem?_flatMap_range _ hpos]
    by_cases hj : j < vcount b
    · have hdiv : j / (8 / b) < 32 := Nat.div_lt_of_lt_mul (by rw [Nat.mul_comm, ← hcount]; exact hj)
      simp [hj, velem, hdiv]
    · have hdiv : 32 ≤ j / (8 / b) := (Nat.le_div_iff_mul_le hpos).2 (by omega)
      simp [hj, hdiv]

/-- A number's digits in base 2^w, the first the lowest, as the packing of a register makes it. -/
def packDigits (w : Nat) (c : List Nat) : Nat := c.foldr (fun e acc => acc * 2 ^ w + e % 2 ^ w) 0

theorem packDigits_singleton (w e : Nat) : packDigits w [e] = e % 2 ^ w := by simp [packDigits]

theorem packDigits_lt (w : Nat) (c : List Nat) : packDigits w c < 2 ^ (w * c.length) := by
  induction c with
  | nil => simp [packDigits]
  | cons e t ih =>
    have he : e % 2 ^ w < 2 ^ w := Nat.mod_lt _ (Nat.two_pow_pos w)
    calc packDigits w (e :: t) = packDigits w t * 2 ^ w + e % 2 ^ w := rfl
      _ < packDigits w t * 2 ^ w + 2 ^ w := by omega
      _ = (packDigits w t + 1) * 2 ^ w := by rw [Nat.add_mul, Nat.one_mul]
      _ ≤ 2 ^ (w * t.length) * 2 ^ w := Nat.mul_le_mul_right _ ih
      _ = 2 ^ (w * (e :: t).length) := by rw [← Nat.pow_add, List.length_cons, Nat.mul_succ]

theorem packDigits_digit (w : Nat) (c : List Nat) (p : Nat) : packDigits w c / 2 ^ (w * p) % 2 ^ w = c.getD p 0 % 2 ^ w := by
  induction c generalizing p with
  | nil => simp [packDigits]
  | cons e t ih =>
    have hcons : packDigits w (e :: t) = packDigits w t * 2 ^ w + e % 2 ^ w := rfl
    cases p with
    | zero => simp [hcons]
    | succ p =>
      have hdrop : packDigits w (e :: t) / 2 ^ w = packDigits w t := by
        rw [hcons, Nat.add_comm, Nat.add_mul_div_right _ _ (Nat.two_pow_pos w), Nat.div_eq_of_lt (Nat.mod_lt _ (Nat.two_pow_pos w)), Nat.zero_add]
      rw [Nat.mul_succ, Nat.add_comm, Nat.pow_add, ← Nat.div_div_eq_div_mul, hdrop, ih, List.getD_cons_succ]

/-- A word of a packed register. -/
theorem viewWords_getD (b : Nat) (hb : b = 2 ∨ b = 4 ∨ b = 8) (l : List Nat) (i : Nat) :
    ((viewWords b l).getD i 0).toNat = packDigits (8 * b) ((l.drop (8 / b * i)).take (8 / b)) := by
  by_cases h8 : b = 8
  · subst h8
    rw [viewWords, if_pos rfl]
    by_cases hi : i < l.length
    · have hone : (l.drop (8 / 8 * i)).take (8 / 8) = [l[i]] := by
        rw [Nat.div_self (by decide), Nat.one_mul, List.drop_eq_getElem_cons hi, List.take_succ_cons, List.take_zero]
      rw [hone, packDigits_singleton]
      simp [word64, hi]
    · have hnil : l.drop (8 / 8 * i) = [] := List.drop_eq_nil_of_le (by omega)
      rw [hnil]
      simp [packDigits, hi]
  · have hpos : 0 < 8 / b := by rcases hb with rfl | rfl | rfl <;> decide
    have hbits : 8 * b * (8 / b) = 64 := by rcases hb with rfl | rfl | rfl <;> rfl
    have hword : (viewWords b l).getD i 0 = word64 (packDigits (8 * b) ((chunks (8 / b) l).getD i [])) := by
      rw [viewWords, if_neg h8]
      exact List.getD_map (chunks (8 / b) l) [] (fun c => word64 (packDigits (8 * b) c))
    rw [hword, getD_chunks _ hpos, word64, BitVec.toNat_ofNat, Nat.mod_eq_of_lt]
    refine Nat.lt_of_lt_of_le (packDigits_lt _ _) (Nat.pow_le_pow_right (by decide) ?_)
    rw [← hbits]
    exact Nat.mul_le_mul_left _ (by simp)

/-- Element `j` of a register packed from a list: the list's, reduced to the width of the view. -/
theorem velem_viewPack (b : Nat) (hb : b = 2 ∨ b = 4 ∨ b = 8) (l : List Nat) (j : Nat) (hj : j < vcount b) :
    velem b (viewPack b l) j = l.getD j 0 % 2 ^ (8 * b) := by
  have hpos : 0 < 8 / b := by rcases hb with rfl | rfl | rfl <;> decide
  have hdiv : j / (8 / b) < 32 := Nat.div_lt_of_lt_mul (by
    have : vcount b = 8 / b * 32 := by rcases hb with rfl | rfl | rfl <;> rfl
    omega)
  have hword : (viewPack b l).toList.getD (j / (8 / b)) 0 = (viewWords b l).getD (j / (8 / b)) 0 := by
    simp [viewPack, hdiv]
  rw [velem, hword, viewWords_getD b hb, packDigits_digit]
  congr 1
  rw [List.getD_eq_getElem?_getD, List.getD_eq_getElem?_getD, List.getElem?_take_of_lt (Nat.mod_lt _ hpos), List.getElem?_drop, Nat.div_add_mod]

/-- Elements under a predicate, place by place. -/
theorem predElems_map_range (p : W64) (n : Nat) (old new : Nat → Nat) :
    predElems p ((List.range n).map old) ((List.range n).map new) =
      (List.range n).map (fun j => if p.getLsbD j then new j else old j) := by
  apply List.ext_getElem
  · simp [predElems]
  · intro j _ _
    simp [predElems]

/-- Element `j` of the register that a vector instruction computes. -/
theorem velem_vecResult (k : Core) (f : VrFields) (g : Nat → Nat → Nat → Nat → Nat) (j : Nat) (hj : j < vcount (viewSize f.w)) :
    velem (viewSize f.w) (vecResult k f g) j =
      if (coreP k f.pr).getLsbD j then
        g j (velem (viewSize f.w) (coreV k f.vd) j) (velem (viewSize f.w) (coreV k f.va) j) (velem (viewSize f.w) (coreV k f.vb) j) %
          2 ^ (8 * viewSize f.w)
      else velem (viewSize f.w) (coreV k f.vd) j := by
  have hb : viewSize f.w = 2 ∨ viewSize f.w = 4 ∨ viewSize f.w = 8 := .inr (viewSize_cases f.w)
  have hnew : ∀ v : BitVec 5 → Nat → Nat,
      (((List.range (vcount (viewSize f.w))).map (v f.vd)).zip
        (((List.range (vcount (viewSize f.w))).map (v f.va)).zip ((List.range (vcount (viewSize f.w))).map (v f.vb)))).mapIdx
          (fun i e => g i e.1 e.2.1 e.2.2) =
      (List.range (vcount (viewSize f.w))).map (fun j => g j (v f.vd j) (v f.va j) (v f.vb j)) := by
    intro v
    apply List.ext_getElem
    · simp
    · intro j _ _
      simp
  simp only [vecResult, viewElems_eq_map_velem _ hb]
  rw [hnew (fun r => velem (viewSize f.w) (coreV k r)), predElems_map_range, velem_viewPack _ hb _ _ hj]
  simp only [List.getD_eq_getElem?_getD, List.getElem?_map, List.getElem?_range hj, Option.map_some, Option.getD_some]
  split
  · rfl
  · exact Nat.mod_eq_of_lt (velem_lt _ _ _)

/-! ## How an instruction ends -/

/-- Two changes of one core in turn are one change. -/
theorem modCore_modCore (s : State) (c : CoreId) (f g : Core → Core) : modCore (modCore s c f) c g = modCore s c (fun k => g (f k)) := by
  simp [modCore, modBay, vmod]

/-- A change of a core is what it does to that core. -/
theorem modCore_congr (s : State) (c : CoreId) (f g : Core → Core) (h : f (getCore s c) = g (getCore s c)) : modCore s c f = modCore s c g := by
  have hcore : vmod (s.bays[c.bay]).cores c.core f = vmod (s.bays[c.bay]).cores c.core g :=
    congrArg (fun k => (s.bays[c.bay]).cores.set c.core.1 k c.core.2) h
  simp only [modCore, modBay, vmod] at hcore ⊢
  rw [hcore]

/-- The model's count of free values is no part of a core. -/
theorem getCore_withFree (s : State) (c : CoreId) (n : Nat) : getCore { s with free := n } c = getCore s c := rfl

/-- A core's change leaves its pc, its counts and whether a firing is open. -/
def KeepsRun (k k' : Core) : Prop :=
  k'.pc = k.pc ∧ k'.cycles = k.cycles ∧ k'.busy = k.busy ∧ k'.firing.isSome = k.firing.isSome

theorem putV_keepsRun (k : Core) (r : BitVec 5) (x : Vector W64 32) : KeepsRun k (putV k r x) := ⟨rfl, rfl, rfl, rfl⟩

/-- An instruction that changes its core by `f` and retires in `n` issue cycles ends as the statements say, `g` being the same change. -/
theorem ended_retire (s : State) (c : CoreId) (n : Nat) (f g : Core → Core) (h4 : (getCore s c).pc % 4 = 0)
    (hl : (getCore s c).pc + 4 < localSize) (hfg : f (getCore s c) = g (getCore s c)) (hkeep : KeepsRun (getCore s c) (g (getCore s c))) :
    Ended s c n g ((getCore s c).pc + 4) (retire (modCore s c f) c n) := by
  obtain ⟨hpc, hcycles, hbusy, hfiring⟩ := hkeep
  rw [modCore_congr s c f g hfg]
  have hcore : (getCore (modCore s c g) c).pc = (getCore s c).pc := by rw [getCore_modCore, hpc]
  refine ⟨n + Config.freeNat s.free, Nat.le_add_right .., ?_⟩
  rw [retire_next _ c n (by rwa [hcore]) (by rwa [hcore]), hcore]
  show modCore (modCore (modCore { s with free := s.free + 1 } c g) c _) c _ = _
  rw [modCore_modCore, modCore_modCore]
  apply modCore_congr
  rw [getCore_withFree]
  simp only [hcycles, hbusy, hfiring, modCore_free]

end Sys2Proof.Machine

/-! PROOFS. The modular instructions (R246): the ring operations on canonical operands, Barrett's reduction (R40), Montgomery's (R41); then
O4 from them. -/

namespace Sys2Proof.Machine

open Sys2Proof.Said

/-! ## One correction, and the ring operations of Table 02.3 on canonical operands -/

/-- Below twice the modulus one correction reduces. -/
theorem correctAt_eq_mod (m t : Nat) (h : t < 2 * m) : correctAt m m t = (t % m : Nat) := by
  unfold correctAt
  split
  · next hlt => rw [Nat.mod_eq_of_lt (by omega)]
  · next hge =>
    rw [Nat.mod_eq_sub_mod (by omega), Nat.mod_eq_of_lt (by omega)]
    omega

theorem ringAddRaw_eq_mod (m a b : Nat) (ha : a < m) (hb : b < m) : ringAddRaw m a b = ((a + b) % m : Nat) :=
  correctAt_eq_mod m (a + b) (by omega)

theorem ringSubRaw_eq_mod (m a b : Nat) (ha : a < m) (hb : b < m) : ringSubRaw m a b = ((a + (m - b)) % m : Nat) := by
  unfold ringSubRaw
  split
  · rw [Nat.mod_eq_of_lt (by omega)]
    omega
  · rw [Nat.mod_eq_sub_mod (by omega), Nat.mod_eq_of_lt (by omega)]
    omega

theorem ringNegRaw_eq_mod (m a : Nat) (ha : a < m) : ringNegRaw m a = ((m - a) % m : Nat) := by
  unfold ringNegRaw
  split
  · next h0 =>
    obtain rfl : a = 0 := by omega
    simp
  · rw [Nat.mod_eq_of_lt (by omega)]
    omega

/-! ## Barrett's reduction (R40) -/

/-- Barrett's quotient is at most the true one. -/
theorem barrettQuotient_mul_le (P Q m t : Nat) (hP : 0 < P) (hm : 0 < m) : t / P * (P * Q / m) / Q * m ≤ t := by
  have hquot : t / P * (P * Q / m) / Q ≤ t / m := by
    rw [Nat.le_div_iff_mul_le hm]
    apply Nat.le_of_mul_le_mul_left _ hP
    by_cases hQ : Q = 0
    · simp [hQ]
    apply Nat.le_of_mul_le_mul_left _ (Nat.pos_of_ne_zero hQ)
    calc Q * (P * (t / P * (P * Q / m) / Q * m))
        = t / P * (P * Q / m) / Q * Q * (P * m) := by ring
      _ ≤ t / P * (P * Q / m) * (P * m) := Nat.mul_le_mul_right _ (Nat.div_mul_le_self _ _)
      _ = t / P * P * (P * Q / m * m) := by ring
      _ ≤ t * (P * Q) := Nat.mul_le_mul (Nat.div_mul_le_self _ _) (Nat.div_mul_le_self _ _)
      _ = Q * (P * t) := by ring
  exact Nat.le_trans (Nat.mul_le_mul_right _ hquot) (Nat.div_mul_le_self _ _)

/-- Barrett's quotient is at most 2 below the true one: with P ≤ m and t < P · Q, less than 3 · m is left. -/
theorem lt_barrettQuotient_mul (P Q m t : Nat) (hPm : P ≤ m) (hm : 0 < m) (ht : t < P * Q) :
    t < t / P * (P * Q / m) / Q * m + 3 * m := by
  have hP : 0 < P := Nat.pos_of_mul_pos_right (Nat.zero_lt_of_lt ht)
  have hQ : 0 < Q := Nat.pos_of_mul_pos_left (Nat.zero_lt_of_lt ht)
  have ht1 := Nat.div_add_mod t P
  have hr1 := Nat.mod_lt t hP
  have hmu := Nat.div_add_mod (P * Q) m
  have hr2 := Nat.mod_lt (P * Q) hm
  have hq3 := Nat.div_add_mod (t / P * (P * Q / m)) Q
  have hr3 := Nat.mod_lt (t / P * (P * Q / m)) hQ
  have hq1 : t / P < Q := Nat.div_lt_of_lt_mul ht
  generalize t / P * (P * Q / m) / Q = q3 at *
  generalize t / P * (P * Q / m) % Q = r3 at *
  generalize P * Q % m = r2 at *
  generalize P * Q / m = mu at *
  generalize t % P = r1 at *
  generalize t / P = q1 at *
  apply Nat.lt_of_mul_lt_mul_left (a := Q)
  calc Q * t = m * (Q * q3 + r3) + q1 * r2 + Q * r1 := by rw [hq3, ← ht1]; linear_combination q1 * hmu.symm
    _ < Q * (q3 * m + 3 * m) := by nlinarith

/-- Two corrections reduce what is below three times the modulus. -/
theorem correctAt_twice_eq_mod (m t : Nat) (h : t < 3 * m) : correctAt m m (correctAt (2 * m : Nat) m t) = (t % m : Nat) := by
  by_cases hlt : t < 2 * m
  · have hsame : correctAt (2 * m : Nat) m t = t := if_pos (by exact_mod_cast hlt)
    rw [hsame, correctAt_eq_mod m t hlt]
  · have hsub : correctAt (2 * m : Nat) m t = (t - m : Nat) := by
      unfold correctAt
      rw [if_neg (by exact_mod_cast hlt)]
      omega
    rw [hsub, correctAt_eq_mod m _ (by omega), ← Nat.mod_eq_sub_mod (by omega)]

/-- Barrett's reduction reduces, for t below m · m: two corrections bring the rest below m. -/
theorem barrett_eq_mod (m t : Nat) (hm : 0 < m) (ht : t < m * m) :
    barrett m (2 ^ (2 * (Nat.log2 m + 1)) / m) t = (t % m : Nat) := by
  have hlow : 2 ^ Nat.log2 m ≤ m := Nat.log2_self_le (by omega)
  have hhigh : m < 2 ^ (Nat.log2 m + 1) := Nat.lt_log2_self
  have hpow : 2 ^ (2 * (Nat.log2 m + 1)) = 2 ^ Nat.log2 m * 2 ^ (Nat.log2 m + 1 + 1) := by rw [← Nat.pow_add]; congr 1; omega
  have htPQ : t < 2 ^ Nat.log2 m * 2 ^ (Nat.log2 m + 1 + 1) := by
    rw [← hpow, Nat.two_mul, Nat.pow_add]
    exact Nat.lt_trans ht (Nat.mul_lt_mul'' hhigh hhigh)
  have hle := barrettQuotient_mul_le (2 ^ Nat.log2 m) (2 ^ (Nat.log2 m + 1 + 1)) m t (Nat.two_pow_pos _) hm
  have hlt := lt_barrettQuotient_mul (2 ^ Nat.log2 m) (2 ^ (Nat.log2 m + 1 + 1)) m t hlow hm htPQ
  simp only [barrett, hpow, Nat.add_sub_cancel]
  generalize t / 2 ^ Nat.log2 m * (2 ^ Nat.log2 m * 2 ^ (Nat.log2 m + 1 + 1) / m) / 2 ^ (Nat.log2 m + 1 + 1) = q at hle hlt ⊢
  obtain ⟨rest, rfl⟩ := Nat.exists_eq_add_of_le hle
  have hrest : ((q * m + rest : Nat) : Int) - (q * m : Nat) = rest := by omega
  rw [hrest, correctAt_twice_eq_mod m rest (by omega), Nat.mul_add_mod_self_right]

/-! ## Montgomery's reduction (R41) -/

/-- Montgomery's reduction gives the canonical element whose product with r is t modulo m. -/
theorem redc_spec (r m mprime t : Nat) (hr : 0 < r) (hprime : m * mprime % r = r - 1) (ht : t < m * r) :
    ∃ e : Nat, redc r m mprime t = e ∧ e < m ∧ e * r % m = t % m := by
  have hm : 0 < m := Nat.pos_of_mul_pos_right (Nat.zero_lt_of_lt ht)
  generalize hu : t % r * mprime % r = u
  have hur : u < r := hu ▸ Nat.mod_lt _ hr
  have hneg : r ∣ m * mprime + 1 := ⟨m * mprime / r + 1, by
    have hdiv := Nat.div_add_mod (m * mprime) r
    rw [Nat.mul_succ]
    omega⟩
  have hdvd : r ∣ t + u * m := by
    have hmod : u ≡ t * mprime [MOD r] := hu ▸ (Nat.mod_modEq _ r).trans ((Nat.mod_modEq t r).mul_right mprime)
    have hsum : t + u * m ≡ t * (m * mprime + 1) [MOD r] := calc
      t + u * m ≡ t + t * mprime * m [MOD r] := (hmod.mul_right m).add_left t
      _ = t * (m * mprime + 1) := by ring
    exact (Nat.modEq_zero_iff_dvd.1 (hsum.trans (Nat.modEq_zero_iff_dvd.2 (hneg.mul_left t))))
  have hx : (t + u * m) / r < 2 * m := by
    apply Nat.div_lt_of_lt_mul
    nlinarith
  refine ⟨(t + u * m) / r % m, ?_, Nat.mod_lt _ hm, ?_⟩
  · simp only [redc, hu]
    exact correctAt_eq_mod m _ hx
  · rw [Nat.mod_mul_mod, Nat.div_mul_cancel hdvd, Nat.add_mul_mod_self_right]

/-! ## The modular instructions (R246) -/

/-- What a modular instruction computes from the modulus register, the old element and the elements of va and vb, before it is reduced
to the width of the view. -/
def modularRaw (r : MReg) (d a b : Nat) : Instr → Int
  | .vmadd .. => ringAddRaw r.m.toNat a b
  | .vmsub .. => ringSubRaw r.m.toNat a b
  | .vmneg .. => ringNegRaw r.m.toNat a
  | .vmmul .. => mulRaw r a b
  | .vmmac .. => ringAddRaw r.m.toNat d (mulRaw r a b)
  | .vmont .. => redcRaw r (a * b)
  | .vmmacm .. => ringAddRaw r.m.toNat d (redcRaw r (a * b))
  | .vtom .. => redcRaw r (a * r.r2.toNat)
  | .vfromm .. => redcRaw r a
  | _ => 0

/-- The nine modular instructions of a core, with their fields. -/
inductive IsModular (c : CoreId) (f : VrFields) : Instr → Prop where
  | vmadd : IsModular c f (.vmadd c f)
  | vmsub : IsModular c f (.vmsub c f)
  | vmneg : IsModular c f (.vmneg c f)
  | vmmul : IsModular c f (.vmmul c f)
  | vmmac : IsModular c f (.vmmac c f)
  | vmont : IsModular c f (.vmont c f)
  | vmmacm : IsModular c f (.vmmacm c f)
  | vtom : IsModular c f (.vtom c f)
  | vfromm : IsModular c f (.vfromm c f)

theorem isModular_of_modularOf (i : Instr) (c : CoreId) (f : VrFields) (h : modularOf i = some (c, f)) : IsModular c f i := by
  unfold modularOf at h
  split at h <;> cases h <;> constructor

/-- Each runs as `modOp` of what it computes. -/
theorem exec_modular (s : State) (i : Instr) (c : CoreId) (f : VrFields) (h : modularOf i = some (c, f)) :
    exec i s = modOp s i c f (fun r d a b => modularRaw r d a b i) := by
  cases isModular_of_modularOf i c f h <;> rfl

/-- A modulus register that is not VALID or of the other width is MODULUS. -/
theorem exec_modular_error (s : State) (i : Instr) (c : CoreId) (f : VrFields) (hi : modularOf i = some (c, f)) (hready : kernelReady s c i = true)
    (hbad : (getCore s c).m[predIx f.mr].valid = false ∨ (getCore s c).m[predIx f.mr].w32 ≠ f.w) :
    exec i s = .next (kernelError s c 6) := by
  rw [exec_modular s i c f hi, modOp, issue_ready _ _ _ _ hready]
  exact congrArg _ (if_pos (by simpa using hbad))

/-- The register that a modular instruction writes. -/
def modularResult (k : Core) (f : VrFields) (i : Instr) : Vector W64 32 :=
  vecResult k f (fun _ d a b => wrapInt (8 * viewSize f.w) (modularRaw k.m[predIx f.mr] d a b i))

/-- Under a VALID one of the view's width, vd takes the computed elements. -/
theorem exec_modular_valid (s : State) (i : Instr) (c : CoreId) (f : VrFields) (hi : modularOf i = some (c, f))
    (hready : kernelReady s c i = true) (hvalid : (getCore s c).m[predIx f.mr].valid = true) (hwidth : (getCore s c).m[predIx f.mr].w32 = f.w) :
    exec i s = .next (retire (modCore s c (fun _ => putV (getCore s c) f.vd (modularResult (getCore s c) f i))) c 1) := by
  rw [exec_modular s i c f hi, modOp, issue_ready _ _ _ _ hready]
  exact congrArg _ (if_neg (by rw [hvalid, hwidth]; simp))

/-- The facts of a good modulus register, in numbers, with `r` the Montgomery radix of the view. -/
theorem goodModulus_facts (q : MReg) (w : Bool) (h : goodModulus q w) : q.w32 = w ∧ q.m.toNat % 2 = 1 ∧ 2 * q.m.toNat < montRadix w ∧
    q.m.toNat * q.mprime.toNat % montRadix w = montRadix w - 1 ∧ q.mu.toNat = 2 ^ (2 * (Nat.log2 q.m.toNat + 1)) / q.m.toNat ∧
    q.r2.toNat = montRadix w * montRadix w % q.m.toNat := by
  obtain ⟨-, hwidth, hfits, hmu, hr2⟩ := h
  simp only [modulusFits, Bool.and_eq_true, beq_iff_eq, decide_eq_true_eq] at hfits
  obtain ⟨⟨⟨⟨hodd, -⟩, hbits⟩, hprime⟩, h31⟩ := hfits
  have h61 : q.m.toNat < 2 ^ 61 := Nat.lt_of_lt_of_le Nat.lt_log2_self (Nat.pow_le_pow_right (by decide) hbits)
  cases w with
  | false => exact ⟨hwidth, hodd, (by omega : 2 * q.m.toNat < 2 ^ 64), hprime, hmu, hr2⟩
  | true =>
    have hsmall : q.m.toNat < 2 ^ 31 := by simpa using h31
    exact ⟨hwidth, hodd, (by omega : 2 * q.m.toNat < 2 ^ 32), hprime, hmu, hr2⟩

/-- What fits a width passes the reduction to it. -/
theorem wrapInt_of_lt (w e : Nat) (h : e < 2 ^ w) : wrapInt w e = e := by
  have hcast : ((e : Int) % (2 ^ w : Int)) = ((e % 2 ^ w : Nat) : Int) := by push_cast; rfl
  rw [wrapInt, hcast, Int.toNat_natCast, Nat.mod_eq_of_lt h]

theorem wrapInt_lt (w : Nat) (i : Int) : wrapInt w i < 2 ^ w := by
  have hpos : (0 : Int) < 2 ^ w := by positivity
  have hlt := Int.emod_lt_of_pos i hpos
  rw [wrapInt, Int.toNat_lt (Int.emod_nonneg _ hpos.ne')]
  exact_mod_cast hlt

theorem montRadix_eq_viewBits (w : Bool) : montRadix w = 2 ^ (8 * viewSize w) := by cases w <;> rfl

section Good
variable (q : MReg) (w : Bool) (hq : goodModulus q w)
include hq

/-- VMMUL's value is the product in the ring. -/
theorem mulRaw_eq_mod (a b : Nat) (ha : a < q.m.toNat) (hb : b < q.m.toNat) : mulRaw q a b = (a * b % q.m.toNat : Nat) := by
  obtain ⟨-, -, -, -, hmu, -⟩ := goodModulus_facts q w hq
  rw [mulRaw, hmu]
  exact barrett_eq_mod _ _ (Nat.zero_lt_of_lt ha) (Nat.mul_lt_mul'' ha hb)

/-- A Montgomery value is canonical, and its product with the radix is the operand modulo m. -/
theorem redcRaw_spec (t : Nat) (ht : t < q.m.toNat * q.m.toNat) :
    ∃ e : Nat, redcRaw q t = e ∧ e < q.m.toNat ∧ e * montRadix w % q.m.toNat = t % q.m.toNat := by
  obtain ⟨hwidth, -, hsmall, hprime, -, -⟩ := goodModulus_facts q w hq
  rw [redcRaw, hwidth]
  exact redc_spec _ _ _ _ (by omega) hprime (Nat.lt_of_lt_of_le ht (Nat.mul_le_mul_left _ (by omega)))

/-- The radix is a unit modulo m, which is odd. -/
theorem coprime_montRadix : Nat.Coprime q.m.toNat (montRadix w) := by
  obtain ⟨-, hodd, -⟩ := goodModulus_facts q w hq
  rw [montRadix_eq_viewBits]
  exact Nat.Coprime.pow_right _ (Nat.odd_iff.2 hodd).coprime_two_right

/-- VTOM's value is the product with the radix: R2 holds the radix twice, and the reduction takes it away once. -/
theorem redcRaw_mul_r2 (a : Nat) (ha : a < q.m.toNat) : redcRaw q (a * q.r2.toNat) = (a * montRadix w % q.m.toNat : Nat) := by
  obtain ⟨-, -, -, -, -, hr2⟩ := goodModulus_facts q w hq
  have hr2m : q.r2.toNat < q.m.toNat := hr2 ▸ Nat.mod_lt _ (Nat.zero_lt_of_lt ha)
  obtain ⟨e, he, hem, hspec⟩ := redcRaw_spec q w hq (a * q.r2.toNat) (Nat.mul_lt_mul'' ha hr2m)
  have hradix : e * montRadix w ≡ a * montRadix w * montRadix w [MOD q.m.toNat] := calc
    e * montRadix w ≡ a * q.r2.toNat [MOD q.m.toNat] := hspec
    _ ≡ a * (montRadix w * montRadix w) [MOD q.m.toNat] := (hr2 ▸ Nat.mod_modEq _ _ : q.r2.toNat ≡ _ [MOD q.m.toNat]).mul_left a
    _ = a * montRadix w * montRadix w := (Nat.mul_assoc ..).symm
  have hcancel : e % q.m.toNat = a * montRadix w % q.m.toNat := Nat.ModEq.cancel_right_of_coprime (coprime_montRadix q w hq) hradix
  rw [he, ← hcancel, Nat.mod_eq_of_lt hem]

/-- What a modular instruction writes to an element is the value that R246 names. -/
theorem modularValue_modularRaw (i : Instr) (c : CoreId) (f : VrFields) (hi : modularOf i = some (c, f)) (d a b : Nat) :
    modularValue q.m.toNat (montRadix w) d a b (wrapInt (8 * viewSize w) (modularRaw q d a b i)) i := by
  obtain ⟨-, -, hsmall, -⟩ := goodModulus_facts q w hq
  have hwrap : ∀ e, e < q.m.toNat → wrapInt (8 * viewSize w) e = e := fun e he =>
    wrapInt_of_lt _ _ (by rw [← montRadix_eq_viewBits]; omega)
  have hmod : ∀ x, 0 < q.m.toNat → wrapInt (8 * viewSize w) (x % q.m.toNat : Nat) = x % q.m.toNat := fun x hm => hwrap _ (Nat.mod_lt _ hm)
  cases isModular_of_modularOf i c f hi with
  | vmadd =>
    intro ha hb
    rw [modularRaw, ringAddRaw_eq_mod _ _ _ ha hb, hmod _ (by omega)]
  | vmsub =>
    intro ha hb
    rw [modularRaw, ringSubRaw_eq_mod _ _ _ ha hb, hmod _ (by omega)]
  | vmneg =>
    intro ha
    rw [modularRaw, ringNegRaw_eq_mod _ _ ha, hmod _ (by omega)]
  | vmmul =>
    intro ha hb
    rw [modularRaw, mulRaw_eq_mod q w hq a b ha hb, hmod _ (by omega)]
  | vmmac =>
    intro hd ha hb
    rw [modularRaw, mulRaw_eq_mod q w hq a b ha hb, ringAddRaw_eq_mod _ _ _ hd (Nat.mod_lt _ (by omega)), hmod _ (by omega), Nat.add_mod_mod]
  | vmont =>
    intro ha hb
    obtain ⟨e, he, hem, hspec⟩ := redcRaw_spec q w hq (a * b) (Nat.mul_lt_mul'' ha hb)
    rw [modularRaw, he, hwrap e hem]
    exact ⟨hem, hspec⟩
  | vmmacm =>
    intro hd ha hb
    obtain ⟨e, he, hem, hspec⟩ := redcRaw_spec q w hq (a * b) (Nat.mul_lt_mul'' ha hb)
    rw [modularRaw, he, ringAddRaw_eq_mod _ _ _ hd hem, hmod _ (by omega)]
    refine ⟨Nat.mod_lt _ (by omega), ?_⟩
    rw [Nat.mod_mul_mod, Nat.add_mul, Nat.add_mod, hspec, ← Nat.add_mod]
  | vtom =>
    intro ha
    rw [modularRaw, redcRaw_mul_r2 q w hq a ha, hmod _ (by omega)]
  | vfromm =>
    intro ha
    obtain ⟨e, he, hem, hspec⟩ := redcRaw_spec q w hq a (Nat.lt_of_lt_of_le ha (Nat.le_mul_self _))
    rw [modularRaw, he, hwrap e hem]
    exact ⟨hem, hspec.trans (Nat.mod_eq_of_lt ha)⟩

end Good

/-! ## The statement -/

/-- Settles O4: each modular instruction writes its value (`exec_modular`), which is the one R246 names (`modularValue_modularRaw`) by
Barrett's and Montgomery's reductions. -/
theorem modularInstructionsReduceByTheirModulus : Obligations.ModularInstructionsReduceByTheirModulus := by
  refine ⟨?results, fun s i c f => exec_modular_error s i c f⟩
  intro s i c f hi ⟨hready, h4, hl⟩ hgood
  refine ⟨modularResult (getCore s c) f i, _, exec_modular_valid s i c f hi hready hgood.1 hgood.2.1,
    ended_retire s c 1 _ _ h4 hl rfl (putV_keepsRun _ _ _), fun j hj => ?_⟩
  dsimp only
  rw [modularResult, velem_vecResult _ _ _ _ hj]
  split
  · rw [Nat.mod_eq_of_lt (wrapInt_lt _ _)]
    exact modularValue_modularRaw _ f.w hgood i c f hi _ _ _
  · rfl

end Sys2Proof.Machine

/-! PROOFS. The conversions (R43 to R45, R248): the checks they share, encoding and decoding part q of a register; then O6 from them. -/

namespace Sys2Proof.Machine

open Sys2Proof.Said

/-! ## Parts of a list of elements -/

/-- A list whose part of `e` places from `q` on is replaced. -/
theorem splice_map_range (g h : Nat → β) (n q e : Nat) (hqe : q + e ≤ n) :
    ((List.range n).map g).take q ++ (List.range e).map h ++ ((List.range n).map g).drop (q + e) =
      (List.range n).map (fun j => if q ≤ j ∧ j < q + e then h (j - q) else g j) := by
  apply List.ext_getElem
  · simp only [List.length_append, List.length_take, List.length_drop, List.length_map, List.length_range]
    omega
  · intro j _ hj
    have hjn : j < n := by simpa using hj
    have hlen : (((List.range n).map g).take q ++ (List.range e).map h).length = q + e := by
      simp only [List.length_append, List.length_take, List.length_map, List.length_range]
      omega
    rw [List.getElem_map, List.getElem_range]
    by_cases hlow : j < q
    · rw [List.getElem_append_left (by omega), List.getElem_append_left (by simp; omega), if_neg (by omega)]
      simp
    · by_cases hhigh : j < q + e
      · rw [List.getElem_append_left (by omega), List.getElem_append_right (by simp; omega), if_pos ⟨by omega, hhigh⟩]
        simp [Nat.min_eq_left (show q ≤ n by omega)]
      · rw [List.getElem_append_right (by omega), if_neg (by omega)]
        simp only [hlen, List.getElem_drop, List.getElem_map, List.getElem_range]
        congr 1
        omega

/-- Some enabled place of a list satisfies a test. -/
theorem any_mapIdx_map_range (g : Nat → Nat) (test : Nat → Bool) (p : W64) (n : Nat) :
    (((List.range n).map g).mapIdx (fun i x => p.getLsbD i && test x)).any id = true ↔ ∃ j < n, p.getLsbD j = true ∧ test (g j) = true := by
  simp only [List.any_eq_true, List.mem_mapIdx, List.length_map, List.length_range, List.getElem_map, List.getElem_range, id_eq]
  constructor
  · rintro ⟨x, ⟨j, hj, rfl⟩, hx⟩
    exact ⟨j, hj, by simpa using hx⟩
  · rintro ⟨j, hj, hx⟩
    exact ⟨_, ⟨j, hj, rfl⟩, by simpa using hx⟩

/-! ## What the conversions share (R248) -/

/-- The elements of a conversion are those of the view of the ring. -/
theorem partCount_eq (w : Bool) : (if w = true then 64 else 32) = vcount (viewSize w) := by cases w <;> rfl

section Checks
variable {s : State} {i : Instr} {c : CoreId} {f : VrFields} {b : Nat} {g : Core → State} (hready : kernelReady s c i = true)
include hready

/-- FMT of zero, or a view that does not fit it, is FORMAT. -/
theorem cvtOp_format (hfmt : (getCore s c).fmt = 0 ∨ fmtView (getCore s c).fmt ≠ f.w) : cvtOp s i c f b g = .next (kernelError s c 7) := by
  rw [cvtOp, issue_ready _ _ _ _ hready]
  exact congrArg _ (if_pos hfmt)

variable (hfmt : (getCore s c).fmt ≠ 0) (hview : fmtView (getCore s c).fmt = f.w)
include hfmt hview

/-- A part beyond the register is ILLEGAL. -/
theorem cvtOp_illegal (hb : b ≠ 0) (hpart : 256 < b * (vcount (viewSize f.w) * (f.vb.toNat + 1))) :
    cvtOp s i c f b g = .next (kernelError s c 1) := by
  rw [cvtOp, issue_ready _ _ _ _ hready, partCount_eq]
  exact congrArg _ ((if_neg (not_or.2 ⟨hfmt, not_not.2 hview⟩)).trans (if_pos ⟨hb, hpart⟩))

/-- A part inside the register is converted. -/
theorem cvtOp_part (hpart : b * (vcount (viewSize f.w) * f.vb.toNat + vcount (viewSize f.w)) ≤ 256) :
    cvtOp s i c f b g = .next (g (getCore s c)) := by
  rw [cvtOp, issue_ready _ _ _ _ hready, partCount_eq]
  exact congrArg _ ((if_neg (not_or.2 ⟨hfmt, not_not.2 hview⟩)).trans (if_neg fun hbeyond => Nat.not_lt.2 hpart hbeyond.2))

end Checks

/-- A part inside the register lies inside the elements of its view. -/
theorem part_le_vcount (b q e : Nat) (hb : b = 4 ∨ b = 2) (h : b * (q + e) ≤ 256) : q + e ≤ vcount b := by
  rcases hb with rfl | rfl <;> simp only [vcount] <;> omega

/-! ## Encoding (R43) -/

/-- The fp32 value of an element of `b` bytes: itself, or a bfloat16 with 16 zero bits behind. -/
def widened (b x : Nat) : Nat := if b = 4 then x else x * 2 ^ 16

/-- The fp32 value that element `j` of part q is encoded from. -/
def partReal (k : Core) (f : VrFields) (b j : Nat) : Nat := widened b (velem b (coreV k f.va) (vcount (viewSize f.w) * f.vb.toNat + j))

/-- The register that an encoding writes. -/
def encodedReg (k : Core) (f : VrFields) (b : Nat) : Vector W64 32 :=
  viewPack (viewSize f.w) (predElems (coreP k f.pr) (viewElems (viewSize f.w) (coreV k f.vd))
    ((List.range (vcount (viewSize f.w))).map (fun j => (encodeReal k.fmt.toNat (partReal k f b j)).getD 0)))

theorem velem_encodedReg (k : Core) (f : VrFields) (b j : Nat) (hj : j < vcount (viewSize f.w)) :
    velem (viewSize f.w) (encodedReg k f b) j = if (coreP k f.pr).getLsbD j then
      (encodeReal k.fmt.toNat (partReal k f b j)).getD 0 % 2 ^ viewBits f.w else velem (viewSize f.w) (coreV k f.vd) j := by
  have hb : viewSize f.w = 2 ∨ viewSize f.w = 4 ∨ viewSize f.w = 8 := .inr (viewSize_cases f.w)
  rw [encodedReg, viewElems_eq_map_velem _ hb, predElems_map_range, velem_viewPack _ hb _ _ hj]
  simp only [List.getD_eq_getElem?_getD, List.getElem?_map, List.getElem?_range hj, Option.map_some, Option.getD_some]
  split
  · rfl
  · exact Nat.mod_eq_of_lt (velem_lt _ _ _)

/-- The NAN flag of the open firing is set where `P` holds. -/
def markNan (k : Core) (P : Prop) [Decidable P] : Core := { k with firing := k.firing.map (fun y => if P then { y with nan := true } else y) }

/-- The core after an encoding: the register, and the firing's NAN flag where an enabled value is a NaN. -/
theorem encodePart_eq (s : State) (c : CoreId) (f : VrFields) (k : Core) (b : Nat) (hb : b = 4 ∨ b = 2)
    (hpart : b * (vcount (viewSize f.w) * f.vb.toNat + vcount (viewSize f.w)) ≤ 256) (P : Prop) [Decidable P]
    (hP : P ↔ ∃ j < vcount (viewSize f.w), (coreP k f.pr).getLsbD j = true ∧ fIsNan (partReal k f b j) = true) :
    encodePart s c f k b (widened b) = retire (modCore s c (fun _ => markNan (putV k f.vd (encodedReg k f b)) P)) c 1 := by
  have hview : b = 2 ∨ b = 4 ∨ b = 8 := hb.elim (fun h => .inr (.inl h)) .inl
  have hreals : (((viewElems b (coreV k f.va)).drop (vcount (viewSize f.w) * f.vb.toNat)).take (vcount (viewSize f.w))).map (widened b) =
      (List.range (vcount (viewSize f.w))).map (partReal k f b) := by
    rw [viewElems_eq_map_velem b hview, take_drop_map_range _ _ _ _ (part_le_vcount _ _ _ hb hpart), List.map_map]
    rfl
  simp only [encodePart, partCount_eq, hreals, List.map_map]
  congr 3
  funext _
  by_cases hnan : P
  · rw [if_pos ((any_mapIdx_map_range _ _ _ _).2 (hP.1 hnan))]
    simp only [markNan, if_pos hnan]
    rfl
  · rw [if_neg (fun h => hnan (hP.2 ((any_mapIdx_map_range _ _ _ _).1 h)))]
    simp only [markNan, if_neg hnan, Option.map_id']
    rfl

theorem markNan_keepsRun (k : Core) (r : BitVec 5) (x : Vector W64 32) (P : Prop) [Decidable P] : KeepsRun k (markNan (putV k r x) P) :=
  ⟨rfl, rfl, rfl, Option.isSome_map⟩

/-! ## Decoding (R44, R45) -/

/-- The value of `b` bytes that a ring element is decoded to. -/
def decoded (k : Core) (b x : Nat) : Nat := decodeReal (if b = 4 then 24 else 8) (fmtF k.fmt.toNat) (fmtSigned k x)

/-- The register that a decoding writes. -/
def decodedReg (k : Core) (f : VrFields) (b : Nat) : Vector W64 32 :=
  viewPack b ((List.range (vcount b)).map (fun j =>
    if vcount (viewSize f.w) * f.vb.toNat ≤ j ∧ j < vcount (viewSize f.w) * f.vb.toNat + vcount (viewSize f.w) ∧
        (coreP k f.pr).getLsbD (j - vcount (viewSize f.w) * f.vb.toNat) then
      decoded k b (velem (viewSize f.w) (coreV k f.va) (j - vcount (viewSize f.w) * f.vb.toNat))
    else velem b (coreV k f.vd) j))

theorem decodePart_eq (s : State) (c : CoreId) (f : VrFields) (k : Core) (b : Nat) (hb : b = 4 ∨ b = 2)
    (hpart : b * (vcount (viewSize f.w) * f.vb.toNat + vcount (viewSize f.w)) ≤ 256) :
    decodePart s c f k b = retire (modCore s c (fun _ => putV k f.vd (decodedReg k f b))) c 1 := by
  have hle := part_le_vcount _ _ _ hb hpart
  have hz : viewSize f.w = 2 ∨ viewSize f.w = 4 ∨ viewSize f.w = 8 := .inr (viewSize_cases f.w)
  have hview : b = 2 ∨ b = 4 ∨ b = 8 := hb.elim (fun h => .inr (.inl h)) .inl
  simp only [decodePart, partCount_eq, viewElems_eq_map_velem b hview, viewElems_eq_map_velem _ hz, List.map_map,
    take_drop_map_range _ _ _ _ hle, predElems_map_range, splice_map_range _ _ _ _ _ hle]
  refine congrArg (fun x => retire (modCore s c (fun _ => putV k f.vd (viewPack b x))) c 1) (List.map_congr_left fun j _ => ?_)
  generalize vcount (viewSize f.w) * f.vb.toNat = q
  by_cases hin : q ≤ j ∧ j < q + vcount (viewSize f.w)
  · rw [if_pos hin, Nat.add_sub_cancel' hin.1]
    by_cases hp : (coreP k f.pr).getLsbD (j - q) = true
    · rw [if_pos hp, if_pos (⟨hin.1, hin.2, hp⟩ : _ ∧ _ ∧ _)]
      rfl
    · rw [if_neg hp, if_neg fun h => hp h.2.2]
  · rw [if_neg hin, if_neg fun h => hin ⟨h.1, h.2.1⟩]

theorem velem_decodedReg (k : Core) (f : VrFields) (b j : Nat) (hb : b = 4 ∨ b = 2) (hj : j < vcount b) :
    velem b (decodedReg k f b) j =
      if vcount (viewSize f.w) * f.vb.toNat ≤ j ∧ j < vcount (viewSize f.w) * f.vb.toNat + vcount (viewSize f.w) ∧
          (coreP k f.pr).getLsbD (j - vcount (viewSize f.w) * f.vb.toNat) then
        decoded k b (velem (viewSize f.w) (coreV k f.va) (j - vcount (viewSize f.w) * f.vb.toNat)) % 2 ^ (8 * b)
      else velem b (coreV k f.vd) j := by
  rw [decodedReg, velem_viewPack _ (hb.elim (fun h => .inr (.inl h)) .inl) _ _ hj]
  simp only [List.getD_eq_getElem?_getD, List.getElem?_map, List.getElem?_range hj, Option.map_some, Option.getD_some]
  split
  · rfl
  · exact Nat.mod_eq_of_lt (velem_lt _ _ _)

/-! ## The statement -/

/-- FTOR and BTOR. -/
theorem exec_encode (s : State) (i : Instr) (c : CoreId) (f : VrFields) (b : Nat) (hi : i = .ftor c f ∧ b = 4 ∨ i = .btor c f ∧ b = 2) :
    exec i s = cvtOp s i c f b (fun k => encodePart s c f k b (widened b)) := by
  rcases hi with ⟨rfl, rfl⟩ | ⟨rfl, rfl⟩ <;> rfl

/-- RTOF and RTOB. -/
theorem exec_decode (s : State) (i : Instr) (c : CoreId) (f : VrFields) (b : Nat) (hi : i = .rtof c f ∧ b = 4 ∨ i = .rtob c f ∧ b = 2) :
    exec i s = cvtOp s i c f b (fun k => decodePart s c f k b) := by
  rcases hi with ⟨rfl, rfl⟩ | ⟨rfl, rfl⟩ <;> rfl

/-- Encodings and decodings whose checks pass. -/
theorem converted : Converted := by
  intro s c f hfmt hview
  refine ⟨fun i b hi hissues hpart => ?encode, fun i b hi hissues hpart => ?decode⟩
  all_goals
    obtain ⟨hready, h4, hl⟩ := hissues
    have hb : b = 4 ∨ b = 2 := hi.imp And.right And.right
  case encode =>
    have hrun := (exec_encode s i c f b hi).trans (cvtOp_part hready hfmt hview hpart)
    rw [encodePart_eq s c f _ b hb hpart _ Iff.rfl] at hrun
    exact ⟨encodedReg (getCore s c) f b, _, hrun, ended_retire s c 1 _ _ h4 hl rfl (markNan_keepsRun _ _ _ _),
      fun j hj => velem_encodedReg _ f b j hj⟩
  case decode =>
    have hrun := (exec_decode s i c f b hi).trans (cvtOp_part hready hfmt hview hpart)
    rw [decodePart_eq s c f _ b hb hpart] at hrun
    exact ⟨decodedReg (getCore s c) f b, _, hrun, ended_retire s c 1 _ _ h4 hl rfl (putV_keepsRun _ _ _),
      fun j hj => velem_decodedReg _ f b j hb hj⟩

/-- Every conversion makes the checks first. -/
theorem exec_conversion (s : State) (c : CoreId) (f : VrFields) (i : Instr)
    (hi : i = .ftor c f ∨ i = .btor c f ∨ i = .rtof c f ∨ i = .rtob c f ∨ i = .rtos c f ∨ i = .stor c f) :
    ∃ b g, exec i s = cvtOp s i c f b g := by
  rcases hi with rfl | rfl | rfl | rfl | rfl | rfl
  · exact ⟨_, _, exec_encode s _ c f 4 (.inl ⟨rfl, rfl⟩)⟩
  · exact ⟨_, _, exec_encode s _ c f 2 (.inr ⟨rfl, rfl⟩)⟩
  · exact ⟨_, _, exec_decode s _ c f 4 (.inl ⟨rfl, rfl⟩)⟩
  · exact ⟨_, _, exec_decode s _ c f 2 (.inr ⟨rfl, rfl⟩)⟩
  · exact ⟨_, _, show execRtos c f s = _ from rfl⟩
  · exact ⟨_, _, show execStor c f s = _ from rfl⟩

/-- Those of fp32 values use a part of 4-byte elements. -/
theorem exec_conversion_fp32 (s : State) (c : CoreId) (f : VrFields) (i : Instr) (hi : i = .ftor c f ∨ i = .rtof c f) :
    ∃ g, exec i s = cvtOp s i c f 4 g := by
  rcases hi with rfl | rfl
  · exact ⟨_, exec_encode s _ c f 4 (.inl ⟨rfl, rfl⟩)⟩
  · exact ⟨_, exec_decode s _ c f 4 (.inl ⟨rfl, rfl⟩)⟩

/-- Conversions whose checks fail. -/
theorem conversionErrors : ConversionErrors := by
  intro s c f i hi hready
  refine ⟨fun hfmt => ?format, fun hfmt hview hfp hpart => ?illegal⟩
  case format =>
    obtain ⟨b, g, hrun⟩ := exec_conversion s c f i hi
    exact hrun.trans (cvtOp_format hready hfmt)
  case illegal =>
    obtain ⟨g, hrun⟩ := exec_conversion_fp32 s c f i hfp
    exact hrun.trans (cvtOp_illegal hready hfmt hview (by decide) (by omega))

/-- Settles O6: the checks are those of `cvtOp`, encoding and decoding are element by element. -/
theorem conversionsFollowFmt : Obligations.ConversionsFollowFmt := ⟨converted, conversionErrors⟩

end Sys2Proof.Machine

/-! PROOFS. Sparse and dense tiles (R52): a copy of a bin that is listed twice, where the two differ; O38 fails by it. -/

namespace Sys2Proof.Machine

open Sys2Proof.Said

/-! ## A copy of a bin in a stack in which nothing has failed -/

theorem locModify_stack (s : State) (l : Loc) (hstack : l.sram = false) (off : Nat) (bs : List Byte) :
    locModify s l off bs = modMem s l.bay (fun m => dramModify m (l.base + off) bs) := by
  simp only [locModify, hstack, Bool.false_eq_true, if_false]

theorem locUe_false (s : State) (l : Loc) (hsound : Sound s.bays[l.bay].mem) (off n : Nat) : locUe s l off n = false := by
  obtain ⟨hpoison, hfenced, -⟩ := hsound
  rw [locUe, spanUe, if_pos ⟨hpoison, hfenced⟩, List.isEmpty_nil, Bool.not_true, Bool.and_false]

section InStack
variable {s : State} {l : Loc} (hstack : l.sram = false) (hsound : Sound s.bays[l.bay].mem)
include hstack hsound

theorem locRead_getD (off n i : Nat) (hi : i < n) : (locRead s l off n).getD i 0 = memGet s.bays[l.bay].mem.dram (l.base + off + i) := by
  obtain ⟨hpoison, hfenced, hwf⟩ := hsound
  have hread : locRead s l off n = memRead s.bays[l.bay].mem.dram (l.base + off) n := by
    simp only [locRead, hstack, Bool.false_eq_true, if_false, dramRead]
    rw [if_pos ⟨hpoison, hfenced⟩]
  rw [hread, memRead_getD _ _ _ _ hwf hi]

theorem locRead_length (off n : Nat) : (locRead s l off n).length = n := by
  obtain ⟨hpoison, hfenced, -⟩ := hsound
  simp only [locRead, hstack, Bool.false_eq_true, if_false, dramRead]
  rw [if_pos ⟨hpoison, hfenced⟩, memRead_length]

theorem locModify_sound (off : Nat) (bs : List Byte) : Sound (locModify s l off bs).bays[l.bay].mem := by
  obtain ⟨hpoison, hfenced, hwf⟩ := hsound
  rw [locModify_stack s l hstack, modMem_mem, if_pos rfl, dramModify, if_pos ⟨hpoison, hfenced⟩]
  exact ⟨hpoison, hfenced, memWrite_wf _ _ _ hwf⟩

theorem memGet_locModify (off : Nat) (bs : List Byte) (x : Nat) : memGet ((locModify s l off bs).bays[l.bay].mem).dram x =
    if l.base + off ≤ x ∧ x < l.base + off + bs.length then bs.getD (x - (l.base + off)) 0 else memGet s.bays[l.bay].mem.dram x := by
  obtain ⟨hpoison, hfenced, hwf⟩ := hsound
  rw [locModify_stack s l hstack, modMem_mem, if_pos rfl, dramModify, if_pos ⟨hpoison, hfenced⟩]
  exact memGet_memWrite _ _ _ _

end InStack

/-! ## The first element of a position of 8-byte elements -/

/-- The stack of copy `l` is sound, and the bytes from `a` on are those of the element `v`. -/
def WordAt (s : State) (l : Loc) (a v : Nat) : Prop :=
  Sound s.bays[l.bay].mem ∧ ∀ i < 8, memGet s.bays[l.bay].mem.dram (l.base + a + i) = (leBytes 8 v).getD i 0

/-- It speaks of a stack's bytes and faults only. -/
theorem WordAt.of_mem {s s' : State} {l : Loc} {a v : Nat} (hword : WordAt s l a v) (hdram : s'.bays[l.bay].mem.dram = s.bays[l.bay].mem.dram)
    (hpoisoned : s'.bays[l.bay].mem.poisoned = s.bays[l.bay].mem.poisoned) (hfenced : s'.bays[l.bay].mem.pcFenced = s.bays[l.bay].mem.pcFenced) :
    WordAt s' l a v := by
  unfold WordAt Sound at *
  rwa [hdram, hpoisoned, hfenced]

theorem WordAt.modMem {s : State} {l : Loc} {a v : Nat} (hword : WordAt s l a v) (b : BayId) (f : BayMem → BayMem)
    (hf : ∀ m, (f m).dram = m.dram ∧ (f m).poisoned = m.poisoned ∧ (f m).pcFenced = m.pcFenced) : WordAt (modMem s b f) l a v := by
  by_cases h : l.bay = b
  · subst h
    obtain ⟨hdram, hpoisoned, hfenced⟩ := hf s.bays[l.bay].mem
    exact hword.of_mem (by rw [modMem_same]; exact hdram) (by rw [modMem_same]; exact hpoisoned) (by rw [modMem_same]; exact hfenced)
  · unfold WordAt
    rwa [modMem_other _ _ _ _ h]

section Word
variable {s : State} {l : Loc} {a v : Nat} (hstack : l.sram = false) (hword : WordAt s l a v)
include hstack hword

/-- A write whose first bytes are those of `w` puts the element there. -/
theorem WordAt.locModify_head (w : Nat) (rest : List Byte) : WordAt (locModify s l a (leBytes 8 w ++ rest)) l a w := by
  obtain ⟨hsound, -⟩ := hword
  refine ⟨locModify_sound hstack hsound _ _, fun i hi => ?_⟩
  have hlen : i < (leBytes 8 w).length := by rwa [leBytes_length]
  rw [memGet_locModify hstack hsound, if_pos ⟨by omega, by rw [List.length_append]; omega⟩, Nat.add_sub_cancel_left,
    List.getD_append _ _ _ _ hlen]

/-- A write behind the element leaves it. -/
theorem WordAt.locModify_behind (off : Nat) (bs : List Byte) (hoff : a + 8 ≤ off) : WordAt (locModify s l off bs) l a v := by
  obtain ⟨hsound, hbytes⟩ := hword
  refine ⟨locModify_sound hstack hsound _ _, fun i hi => ?_⟩
  rw [memGet_locModify hstack hsound, if_neg (by omega), hbytes i hi]

/-- The element as a read of the copy gives it. -/
theorem WordAt.take_locRead (n : Nat) (hn : 8 ≤ n) : (locRead s l a n).take 8 = leBytes 8 v := by
  obtain ⟨hsound, hbytes⟩ := hword
  have hlen := locRead_length hstack hsound a n
  apply List.ext_getElem
  · rw [List.length_take, hlen, leBytes_length, Nat.min_eq_left hn]
  · intro i hi hi2
    have hi8 : i < 8 := by rwa [leBytes_length] at hi2
    have hbyte := (locRead_getD hstack hsound a n i (by omega)).trans (hbytes i hi8)
    rw [List.getD_eq_getElem _ _ (by omega), List.getD_eq_getElem _ _ hi2] at hbyte
    rw [List.getElem_take, hbyte]

/-- Setting one of the element's lowest eight bits. -/
theorem WordAt.locSetBit (w i : Nat) (hi : i < 8) (hset : leBytes 8 w = (byteOf v ||| byteOf (2 ^ i)) :: leBytes 7 (v / 256)) :
    WordAt (locSetBit s l a i) l a w := by
  have hbyte : (locRead s l a 1).headD 0 = byteOf v := by
    have hone := (locRead_getD hstack hword.1 a 1 0 (by decide)).trans (hword.2 0 (by decide))
    rwa [List.getD_eq_getElem?_getD, ← List.head?_eq_getElem?, ← List.headD_eq_head?_getD] at hone
  have hzero : i / 8 = 0 := Nat.div_eq_of_lt hi
  obtain ⟨hsound, hbytes⟩ := hword
  simp only [Machine.locSetBit, hzero, Nat.add_zero, hbyte, Nat.mod_eq_of_lt hi]
  refine ⟨locModify_sound hstack hsound _ _, fun j hj => ?_⟩
  rw [memGet_locModify hstack hsound, hset]
  cases j with
  | zero => rw [if_pos (by simp)]; simp
  | succ j =>
    rw [if_neg (by simp), hbytes _ hj]
    rfl

/-- Setting a bit behind the element leaves it. -/
theorem WordAt.locSetBit_behind (off i : Nat) (hoff : a + 8 ≤ off) : WordAt (Machine.locSetBit s l off i) l a v :=
  hword.locModify_behind hstack _ _ (Nat.le_add_right_of_le hoff)

end Word

/-! ## Adding a tile at the first element -/

/-- A sparse tile that lists one place, not the first, leaves the first element. -/
theorem WordAt.addAtLoc_sparse {s : State} {l : Loc} {k v : Nat} (hstack : l.sram = false) (hword : WordAt s l (k * 65536) v)
    (f : Nat → Nat → Nat) (t : Tile) (p x : Nat) (hsparse : t.hdr.sparse = true) (helems : tileElems 8 t = [(p, x)]) (hp : p ≠ 0) :
    WordAt (addAtLoc s l 8 f k t) l (k * 65536) v := by
  have htake := hword.take_locRead hstack 65536 (by decide)
  have hhead : ∀ rest, ∃ rest', (locRead s l (k * 65536) 65536).take (p * 8) ++ rest = leBytes 8 v ++ rest' := fun rest => by
    have hsplit := List.take_append_drop 8 ((locRead s l (k * 65536) 65536).take (p * 8))
    rw [List.take_take, Nat.min_eq_left (by omega), htake] at hsplit
    exact ⟨_, by rw [← hsplit, List.append_assoc]⟩
  obtain ⟨rest, hrest⟩ := hhead (leBytes 8 (f (fieldN (locRead s l (k * 65536) 65536) (p * 8) 8) x) ++
    (locRead s l (k * 65536) 65536).drop ((p + 1) * 8))
  have hnew : applyElems 8 f (locRead s l (k * 65536) 65536) [(p, x)] = leBytes 8 v ++ rest := by
    rw [← hrest, ← List.append_assoc]
    rfl
  rw [addAtLoc, hsparse, if_pos rfl, helems, hnew]
  exact hword.locModify_head hstack v rest

/-- The first piece of a cut list. -/
theorem chunks_eq_cons (n : Nat) (l : List α) (h : l ≠ []) : ∃ rest, chunks n l = l.take n :: rest := by
  cases l with
  | nil => exact absurd rfl h
  | cons a t => exact ⟨_, rfl⟩

/-- A dense tile adds its first value to the first element. -/
theorem WordAt.addAtLoc_dense {s : State} {l : Loc} {k v : Nat} (hstack : l.sram = false) (hword : WordAt s l (k * 65536) v) (hv : v < 256 ^ 8)
    (f : Nat → Nat → Nat) (t : Tile) (x : Nat) (rest : List Nat) (hdense : t.hdr.sparse = false)
    (helems : (tileElems 8 t).map (·.2) = x :: rest) : WordAt (addAtLoc s l 8 f k t) l (k * 65536) (f v x) := by
  have htake := hword.take_locRead hstack 65536 (by decide)
  have hhead : ((locRead s l (k * 65536) 65536).take ((x :: rest).length * 8)).take 8 = leBytes 8 v := by
    rw [List.take_take, Nat.min_eq_left (by rw [List.length_cons]; omega), htake]
  have hne : (locRead s l (k * 65536) 65536).take ((x :: rest).length * 8) ≠ [] := fun h => by
    rw [h] at hhead
    exact absurd hhead (by simp [leBytes])
  obtain ⟨pieces, hpieces⟩ := chunks_eq_cons 8 _ hne
  have hnew : ∃ tail, applyDense 8 f (locRead s l (k * 65536) 65536) (x :: rest) = leBytes 8 (f v x) ++ tail := by
    rw [applyDense, hpieces, List.zip_cons_cons, List.flatMap_cons, hhead, ofLe_leBytes, Nat.mod_eq_of_lt hv, List.append_assoc]
    exact ⟨_, rfl⟩
  obtain ⟨tail, htail⟩ := hnew
  rw [addAtLoc, hdense, if_neg Bool.false_ne_true, helems, htail]
  exact hword.locModify_head hstack _ tail

/-- The first value of the dense counterpart of a sparse tile that does not list place 0 is 0. -/
theorem denseOf_elems_head (t : Tile) (h0 : lookup 0 (sparsePairs 8 t.hdr.count t.payload) = none) :
    ∃ rest, (tileElems 8 (denseOf 8 t)).map (·.2) = 0 :: rest := by
  have hvals : (tileElems 8 (denseOf 8 t)).map (·.2) = readElems (denseOf 8 t).payload 0 8 (denseCap 8) := by
    rw [tileElems, if_neg (by simp [denseOf]), List.map_map]
    exact List.zipIdx_map_fst 0 _
  have hpayload : ∃ tail, (denseOf 8 t).payload = List.replicate 8 0 ++ tail := by
    have hrange : List.range (denseCap 8) = 0 :: (List.range (denseCap 8 - 1)).map Nat.succ := List.range_succ_eq_map
    rw [denseOf, hrange, List.map_cons, h0]
    exact ⟨_, rfl⟩
  obtain ⟨tail, htail⟩ := hpayload
  have hpad : (padTo (8 * denseCap 8) ((denseOf 8 t).payload.drop 0)).take 8 = List.replicate 8 0 := by
    rw [htail, padTo, List.drop_zero, List.take_append_of_le_length]
    · rw [List.take_take, List.take_append_of_le_length (by simp [denseCap])]
      simp [denseCap]
    · simp [denseCap]
  obtain ⟨pieces, hpieces⟩ := chunks_eq_cons 8 (padTo (8 * denseCap 8) ((denseOf 8 t).payload.drop 0)) (fun h => by
    rw [h] at hpad
    exact absurd hpad (by decide))
  rw [hvals, readElems, hpieces, hpad]
  exact ⟨_, rfl⟩

/-! ## One copy's share of a commit -/

/-- What TILE_ADD_COMPLETE does in one copy for a tile without poison, once its elements are added: bitmap, count and presence. -/
def noteTile (x : Bin) (k : Nat) (t : Tile) (s : State) (l : Loc) : State :=
  let c := t.hdr.contributor - x.clo
  let s2 := locSetBit s l (bitmapOff x) (c * x.t + k)
  let n := (fieldN (locRead s2 l (countsOff x + 2 * c) 2) 0 2 + 1) % 65536
  let s3 := locModify s2 l (countsOff x + 2 * c) (leBytes 2 n)
  if n = x.t then locSetBit s3 l (presenceOff x) c else s3

/-- Where the bitmap begins with an element, as it does in the element's lowest eight bits, the element becomes one with that bit set. -/
theorem WordAt.noteTile {s : State} {l : Loc} {v w : Nat} {x : Bin} {k : Nat} {t : Tile} (hstack : l.sram = false)
    (hword : WordAt s l (bitmapOff x) v) (hentry : (t.hdr.contributor - x.clo) * x.t + k < 8)
    (hset : leBytes 8 w = (byteOf v ||| byteOf (2 ^ ((t.hdr.contributor - x.clo) * x.t + k))) :: leBytes 7 (v / 256))
    (hcounts : bitmapOff x + 8 ≤ countsOff x) (hpresence : bitmapOff x + 8 ≤ presenceOff x) :
    WordAt (noteTile x k t s l) l (bitmapOff x) w := by
  have hbit := hword.locSetBit hstack w _ hentry hset
  have hcount := fun bs => hbit.locModify_behind hstack (countsOff x + 2 * (t.hdr.contributor - x.clo)) bs (by omega)
  unfold Machine.noteTile
  dsimp only
  split
  · exact (hcount _).locSetBit_behind hstack _ _ hpresence
  · exact hcount _

/-- What it does in one copy. -/
def commitCopy (home : BayId) (x : Bin) (r : Ring) (k : Nat) (t : Tile) (s : State) (l : Loc) : State :=
  let s1 := addAtLoc s l r.size (ringAdd r) k t
  noteTile x k t (if locUe s1 l (k * 65536) 65536 then setLocPoison s1 home l x k codeUncorrectableMemory else s1) l

/-- A commit of a tile without poison adds it in one copy after the other. -/
theorem commitTile_eq_foldl (s : State) (home : BayId) (x : Bin) (k : Nat) (t : Tile) (hpoison : t.hdr.poison = false) :
    commitTile s home x k t =
      modMem ((binLocs home x).foldl (commitCopy home x (binRing s x) k t) s) (serveBay home x) (fun m => { m with added := m.added + 1 }) := by
  simp only [commitTile, hpoison, Bool.false_eq_true, if_false]
  rfl

/-! ## A gatherer mirrored onto itself -/

/-- A gatherer of one contributor and one position over GF(2^61 − 1), whose mirror region is its own region. -/
def selfMirrored : Bin where
  index := 1
  part := 2
  kind := 1
  state := .opened
  mirror := true
  sram := false
  mirrorBay := 3
  ring := 3
  etype := 1
  job := 1
  lastCount := 0
  base := 0
  t := 1
  firstTile := 0
  clo := 0
  chi := 1
  region := 0
  mirrorRegion := 0
  regionSize := 0x40000

/-- Its only copy, which is listed twice. -/
def selfCopy : Loc := ⟨3, false, 0⟩

theorem binLocs_selfMirrored : binLocs 3 selfMirrored = [selfCopy, selfCopy] := rfl

theorem binRing_selfMirrored (s : State) : binRing s selfMirrored = ⟨gfP, 8⟩ := rfl

/-- A sparse tile that lists the value 0 at place 1. -/
def lateTile : Tile where
  hdr := { ring := 3, etype := 1, sparse := true, job := 1, contributor := 0, count := 1 }
  payload := [1]

theorem tileElems_lateTile : tileElems 8 lateTile = [(1, 0)] := by decide

theorem lateTile_shapeOk : payloadShapeOk 8 lateTile = true := by decide

/-- It waits to be added behind the bin's only position, where the bitmap lies: its bit is bit 1 of that position's first byte. -/
def lateFlight (t : Tile) : InFlight where
  home := 3
  index := 1
  entry := 1
  contributor := 0
  pos := 1
  tile := t
  port := 2
  slot := 0
  origin := none

/-- Bay 3 with that bin and that tile; the element under the bitmap is p − 2, which is canonical. -/
def lateState : State :=
  modMem State.reset 3 (fun m => { m with dram := cellsOf 65536 (leBytes 8 (gfP - 2)), bins := [(1, selfMirrored)], inFlight := [lateFlight lateTile] })

/-- The bitmap's bit sets bit 1 of the element. -/
def SetsBit1 (v w : Nat) : Prop := leBytes 8 w = (byteOf v ||| byteOf (2 ^ 1)) :: leBytes 7 (v / 256)

section Rounds
variable {t : Tile} {g : Nat → Nat} (hpoison : t.hdr.poison = false) (hcontributor : t.hdr.contributor = 0)
  (hadd : ∀ (s : State) (v : Nat), v < 256 ^ 8 → WordAt s selfCopy 65536 v →
    WordAt (addAtLoc s selfCopy 8 (ringAdd ⟨gfP, 8⟩) 1 t) selfCopy 65536 (g v))
include hcontributor hadd

/-- One round: the tile is added, and the bitmap's bit is set in the element. -/
theorem WordAt.commitCopy {s : State} {v w : Nat} (hword : WordAt s selfCopy 65536 v) (hv : v < 256 ^ 8) (hset : SetsBit1 (g v) w) :
    WordAt (commitCopy 3 selfMirrored ⟨gfP, 8⟩ 1 t s selfCopy) selfCopy 65536 w := by
  have hadded := hadd s v hv hword
  rw [Machine.commitCopy, locUe_false _ _ hadded.1, if_neg Bool.false_ne_true]
  exact hadded.noteTile (x := selfMirrored) rfl (by rw [hcontributor]; decide) (by rw [hcontributor]; exact hset) (by decide) (by decide)

include hpoison

/-- The bin's two rounds. -/
theorem WordAt.commitTile {s : State} {v w u : Nat} (hword : WordAt s selfCopy 65536 v) (hv : v < 256 ^ 8) (hfirst : SetsBit1 (g v) w)
    (hw : w < 256 ^ 8) (hsecond : SetsBit1 (g w) u) : WordAt (commitTile s 3 selfMirrored 1 t) selfCopy 65536 u := by
  have hrounds := (hword.commitCopy hcontributor hadd hv hfirst).commitCopy hcontributor hadd hw hsecond
  rw [commitTile_eq_foldl _ _ _ _ _ hpoison, binLocs_selfMirrored, binRing_selfMirrored, List.foldl_cons, List.foldl_cons, List.foldl_nil]
  exact hrounds.modMem _ _ fun _ => ⟨rfl, rfl, rfl⟩

end Rounds

/-- A slot's return touches no memory. -/
theorem returnSlot_mem (s : State) (r : StationRef) (p : PortId) (k : Nat) (b : BayId) : (returnSlot s r p k).bays[b].mem = s.bays[b].mem := by
  unfold returnSlot
  split
  · exact modSt_mem _ _ _ _
  · rfl

theorem WordAt.returnSlot {s : State} {l : Loc} {a v : Nat} (hword : WordAt s l a v) (r : StationRef) (p : PortId) (k : Nat) :
    WordAt (returnSlot s r p k) l a v :=
  hword.of_mem (by rw [returnSlot_mem]) (by rw [returnSlot_mem]) (by rw [returnSlot_mem])

/-- Reads that find nothing change no more than the count of corrected errors, by nothing. -/
theorem readFaults_clean (s : State) (b : BayId) (spans : List (Nat × Nat)) :
    readFaults s b spans clean = modMem s b (fun m => { m with ce := m.ce + word32 0 }) := by
  simp [readFaults, noteFaults, clean]

theorem binFaults_clean (s : State) (b : BayId) (x : Bin) (spans : List (Nat × Nat)) (hstack : (binLoc b x).sram = false) :
    binFaults s b x spans clean = modMem s (binLoc b x).bay (fun m => { m with ce := m.ce + word32 0 }) := by
  rw [binFaults, hstack, if_neg Bool.false_ne_true, readFaults_clean]

theorem findBin_modMem (s : State) (b c : BayId) (f : BayMem → BayMem) (i : Nat) (hf : ∀ m, (f m).bins = m.bins) :
    findBin (modMem s c f) b i = findBin s b i := by
  unfold findBin
  rw [modMem_mem]
  split
  · next h => rw [hf, h]
  · rfl

/-- The end of an addition that waits alone, answers no message and reads cleanly: the tile is committed and its slot returned. -/
theorem exec_tileAddComplete_alone (s : State) (b : BayId) (f : InFlight) (x : Bin) (hwaits : s.bays[b].mem.inFlight = [f])
    (hbin : findBin s f.home f.index = some x) (hstack : (binLoc f.home x).sram = false) (horigin : f.origin = none) (hdups : f.dups = []) :
    exec (.tileAddComplete b f.index f.entry clean) s = .next (returnSlot (commitTile
      (modMem (modMem s b (fun m => { m with inFlight := m.inFlight.erase f })) (binLoc f.home x).bay (fun m => { m with ce := m.ce + word32 0 }))
      f.home x f.pos f.tile) (.bay b .bin) f.port f.slot) := by
  have hfind : [f].find? (fun g => g.index == f.index && g.entry == f.entry) = some f := by simp
  have hbin1 : findBin (modMem s b (fun m => { m with inFlight := m.inFlight.erase f })) f.home f.index = some x := by
    exact (findBin_modMem s f.home b (fun m => { m with inFlight := m.inFlight.erase f }) f.index (fun _ => rfl)).trans hbin
  have hbin2 := (findBin_modMem _ f.home (binLoc f.home x).bay (fun m => { m with ce := m.ce + word32 0 }) f.index (fun _ => rfl)).trans hbin1
  show execTileAddComplete b f.index f.entry clean s = _
  simp only [execTileAddComplete, hwaits, hfind, hbin1, binFaults_clean _ _ _ _ hstack, hbin2, answerTile, horigin, hdups, List.foldl_nil]

/-- So ends the tile that waits for the place behind the bin's only position. -/
theorem exec_lateFlight (s : State) (t : Tile) (hwaits : s.bays[(3 : BayId)].mem.inFlight = [lateFlight t])
    (hbin : findBin s 3 1 = some selfMirrored) (hpoison : t.hdr.poison = false) (hcontributor : t.hdr.contributor = 0) {g : Nat → Nat}
    (hadd : ∀ (s : State) (v : Nat), v < 256 ^ 8 → WordAt s selfCopy 65536 v →
      WordAt (addAtLoc s selfCopy 8 (ringAdd ⟨gfP, 8⟩) 1 t) selfCopy 65536 (g v))
    {v w u : Nat} (hword : WordAt s selfCopy 65536 v) (hv : v < 256 ^ 8) (hfirst : SetsBit1 (g v) w) (hw : w < 256 ^ 8)
    (hsecond : SetsBit1 (g w) u) : Runs (.tileAddComplete 3 1 1 clean) s (fun s' => WordAt s' selfCopy 65536 u) := by
  refine ⟨_, exec_tileAddComplete_alone s 3 (lateFlight t) selfMirrored hwaits hbin rfl rfl rfl, ?_⟩
  have hread := (hword.modMem 3 (fun m => { m with inFlight := m.inFlight.erase (lateFlight t) }) fun _ => ⟨rfl, rfl, rfl⟩).modMem
    (binLoc 3 selfMirrored).bay (fun m => { m with ce := m.ce + word32 0 }) fun _ => ⟨rfl, rfl, rfl⟩
  have hcommit := hread.commitTile hpoison hcontributor hadd hv hfirst hw hsecond
  exact hcommit.returnSlot _ _ _

/-- A sparse tile's two rounds: the element becomes p − 2 with bit 1 set, which is p, and stays. -/
theorem exec_lateFlight_sparse (s : State) (hwaits : s.bays[(3 : BayId)].mem.inFlight = [lateFlight lateTile])
    (hbin : findBin s 3 1 = some selfMirrored) (hword : WordAt s selfCopy 65536 (gfP - 2)) :
    Runs (.tileAddComplete 3 1 1 clean) s (fun s' => WordAt s' selfCopy 65536 gfP) :=
  exec_lateFlight s lateTile hwaits hbin rfl rfl (g := id)
    (fun _ _ _ h => h.addAtLoc_sparse (k := 1) rfl _ lateTile 1 0 rfl tileElems_lateTile (by decide))
    hword (by decide) (w := gfP) (by unfold SetsBit1; decide) (by decide) (by unfold SetsBit1; decide)

/-- Its dense counterpart's: the second addition of 0 takes p, which is not canonical, to 0. -/
theorem exec_lateFlight_dense (s : State) (hwaits : s.bays[(3 : BayId)].mem.inFlight = [lateFlight (denseOf 8 lateTile)])
    (hbin : findBin s 3 1 = some selfMirrored) (hword : WordAt s selfCopy 65536 (gfP - 2)) :
    Runs (.tileAddComplete 3 1 1 clean) s (fun s' => WordAt s' selfCopy 65536 2) := by
  obtain ⟨rest, hrest⟩ := denseOf_elems_head lateTile (by decide)
  exact exec_lateFlight s (denseOf 8 lateTile) hwaits hbin rfl rfl (g := fun v => ringAdd ⟨gfP, 8⟩ v 0)
    (fun _ _ hv h => h.addAtLoc_dense (k := 1) rfl hv _ (denseOf 8 lateTile) 0 rest rfl hrest)
    hword (by decide) (w := gfP) (by unfold SetsBit1; decide) (by decide) (by unfold SetsBit1; decide)

/-! ## The hypotheses of R52's statement hold there -/

theorem sound_reset (b : BayId) : Sound (State.reset.bays[b]).mem := by
  refine ⟨by simp [State.reset], by simp [State.reset], ?_⟩
  rw [(reset_memories b).1]
  exact ⟨List.Pairwise.nil, by simp⟩

theorem sound_lateState (b : BayId) : Sound (lateState.bays[b]).mem := by
  rw [lateState, modMem_mem]
  split
  · exact ⟨(sound_reset 3).1, (sound_reset 3).2.1, cellsOf_wf _ _⟩
  · exact sound_reset b

theorem memGet_lateState (i : Nat) : memGet (lateState.bays[selfCopy.bay]).mem.dram (selfCopy.base + 65536 + i) = (leBytes 8 (gfP - 2)).getD i 0 := by
  have hbase : selfCopy.base + 65536 + i = 65536 + i := by rw [show selfCopy.base = 0 from rfl, Nat.zero_add]
  have hdram : (lateState.bays[selfCopy.bay]).mem.dram = cellsOf 65536 (leBytes 8 (gfP - 2)) :=
    congrArg (fun y : Bay => y.mem.dram) (modMem_same State.reset 3 _)
  rw [hdram, hbase, memGet_cellsOf, Nat.add_sub_cancel_left]
  split
  · rfl
  · rw [List.getD_eq_default]
    omega

theorem wordAt_lateState : WordAt lateState selfCopy 65536 (gfP - 2) :=
  ⟨sound_lateState _, fun i _ => memGet_lateState i⟩

/-- Bytes that are all zero spell 0. -/
theorem ofLe_eq_zero (l : List Byte) (h : ∀ b ∈ l, b = 0) : ofLe l = 0 := by
  induction l with
  | nil => rfl
  | cons b t ih =>
    rw [ofLe, ih fun x hx => h x (List.mem_cons_of_mem _ hx), h b (List.mem_cons_self ..)]
    rfl

/-- The elements of a span that has all its bytes are spelled by its pieces. -/
theorem exists_of_mem_readElems (p : List Byte) (size n e : Nat) (hsize : 0 < size) (hlen : p.length = size * n) (he : e ∈ readElems p 0 size n) :
    ∃ i, e = ofLe ((p.drop (size * i)).take size) := by
  have hpad : padTo (size * n) (p.drop 0) = p := by simp [padTo, ← hlen]
  rw [readElems, hpad] at he
  obtain ⟨piece, hpiece, rfl⟩ := List.mem_map.1 he
  obtain ⟨i, hi, rfl⟩ := List.mem_iff_getElem.1 hpiece
  exact ⟨i, by rw [← getD_chunks size hsize, List.getD_eq_getElem _ _ hi]⟩

theorem canonicalAt_lateState : CanonicalAt lateState selfCopy ⟨gfP, 8⟩ 1 := by
  intro e he
  have hsound := sound_lateState selfCopy.bay
  have hlen := locRead_length (l := selfCopy) rfl hsound 65536 65536
  obtain ⟨i, rfl⟩ := exists_of_mem_readElems _ 8 (denseCap 8) e (by decide) hlen he
  show ofLe (((locRead lateState selfCopy 65536 65536).drop (8 * i)).take 8) < gfP
  cases i with
  | zero =>
    rw [Nat.mul_zero, List.drop_zero, wordAt_lateState.take_locRead rfl 65536 (by decide), ofLe_leBytes]
    decide
  | succ i =>
    rw [ofLe_eq_zero]
    · decide
    · intro b hb
      obtain ⟨j, hj, rfl⟩ := List.mem_iff_getElem.1 (List.mem_of_mem_take hb)
      have hj2 : 8 * (i + 1) + j < (locRead lateState selfCopy 65536 65536).length := by
        rw [List.length_drop] at hj
        omega
      rw [List.getElem_drop, ← List.getD_eq_getElem _ 0 hj2, locRead_getD rfl hsound _ _ _ (hlen ▸ hj2), memGet_lateState, List.getD_eq_default]
      rw [leBytes_length]
      omega

/-- Refutes O38: over GF(2^61 − 1) a gatherer of one position is mirrored onto its own region, so that its one copy is listed twice, and a sparse
tile that lists the value 0 at place 1 waits for the place behind that position, where the bitmap lies. The first addition sets the bitmap's bit
in an element that is p − 2, which makes it p; the second one leaves it p when the tile is sparse, and takes it to 0 when the tile is dense. The
statement asks neither that the position lie in the bin nor that the bin's copies be two places. -/
theorem not_sparseEqualsDense : ¬ Obligations.SparseEqualsDense := by
  rintro ⟨-, hsame⟩
  have hcopies : ∀ l ∈ binLocs (lateFlight lateTile).home selfMirrored,
      CanonicalAt lateState l (binRing lateState selfMirrored) (lateFlight lateTile).pos ∧
        ∀ q ∈ binLocs (lateFlight lateTile).home selfMirrored, q.bay = l.bay → q = l := by
    have hself : ∀ l ∈ [selfCopy, selfCopy], l = selfCopy := by simp
    intro l hl
    obtain rfl := hself l hl
    exact ⟨canonicalAt_lateState, fun q hq _ => hself q hq⟩
  have heq := hsame lateState 3 (lateFlight lateTile) selfMirrored rfl rfl sound_lateState rfl rfl hcopies lateTile_shapeOk
  obtain ⟨t, hsparse, -, hp⟩ := exec_lateFlight_sparse lateState rfl rfl wordAt_lateState
  obtain ⟨t', hdense, -, h2⟩ := exec_lateFlight_dense
    (modMem lateState 3 (fun m => { m with inFlight := [lateFlight (denseOf 8 lateTile)] })) rfl rfl
    (wordAt_lateState.modMem 3 _ fun _ => ⟨rfl, rfl, rfl⟩)
  obtain rfl : t = t' := Host.Outcome.next.inj (hsparse.symm.trans (heq.trans hdense))
  exact absurd ((hp 1 (by decide)).symm.trans (h2 1 (by decide))) (by decide)

end Sys2Proof.Machine

/-! PROOFS. Stations (R65, R77, R78, R83, R111, R259, R294): what an update of one station leaves of the others, what the wait for a credit leaves; what a
token, a credit, the end of a firing and a fault do; what a control bit written and its arrival do. O13 and O14 from them. -/

namespace Sys2Proof.Machine

open Sys2Proof.Said

/-! ## An update of one station, read elsewhere -/

theorem getCore_modBay (s : State) (b : BayId) (f : Bay → Bay) (c : CoreId) (hcores : ∀ y, (f y).cores = y.cores) :
    getCore (modBay s b f) c = getCore s c := by
  unfold getCore
  by_cases h : b = c.bay
  · subst h
    rw [modBay_same, hcores]
  · rw [modBay_other _ _ _ _ (Ne.symm h)]

theorem getSt_modSt_other (s : State) (r q : StationRef) (f : Station → Station) (h : q ≠ r) : getSt (modSt s r f) q = getSt s q := by
  obtain ⟨b, k⟩ | c | _ | _ := r <;> obtain ⟨d, j⟩ | e | _ | _ := q
  case bay.bay =>
    by_cases hbay : d = b
    · subst hbay
      have hkind : j ≠ k := fun hjk => h (by rw [hjk])
      cases k <;> cases j <;> simp [getSt, modSt] at hkind ⊢
    · cases k <;> cases j <;> simp [getSt, modSt, modBay_other _ _ _ _ hbay]
  case bay.core =>
    have hcore : getCore (modSt s (.bay b k) f) e = getCore s e := by
      cases k <;> exact getCore_modBay s b _ e (fun _ => rfl)
    exact congrArg Core.ctl hcore
  case core.bay =>
    by_cases hbay : d = c.bay
    · subst hbay
      cases j <;> simp [getSt, modSt, modCore]
    · cases j <;> simp [getSt, modSt, modCore, modBay_other _ _ _ _ hbay]
  case core.core =>
    exact congrArg Core.ctl (getCore_modCore_other s c e _ (fun hec => h (by rw [hec])))
  case trn.trn | red.red => exact absurd rfl h
  case bay.trn | bay.red => cases k <;> rfl
  case trn.bay | red.bay => cases j <;> rfl
  case core.trn | core.red | trn.core | trn.red | red.core | red.trn => rfl

/-- What the update of a station keeps, whichever station is read. -/
theorem getSt_modSt_keeps {α : Type} (s : State) (r q : StationRef) (f : Station → Station) (g : Station → α) (hg : ∀ x, g (f x) = g x) :
    g (getSt (modSt s r f) q) = g (getSt s q) := by
  by_cases h : q = r
  · subst h
    rw [getSt_modSt, hg]
  · rw [getSt_modSt_other _ _ _ _ h]

@[simp] theorem modSt_round (s : State) (r : StationRef) (f : Station → Station) (b : BayId) : (modSt s r f).bays[b].round = s.bays[b].round := by
  obtain ⟨c, k⟩ | c | _ | _ := r
  case bay =>
    by_cases h : b = c
    · subst h
      cases k <;> simp only [modSt, modBay_same]
    · cases k <;> simp only [modSt, modBay_other _ _ _ _ h]
  case core =>
    by_cases h : b = c.bay
    · subst h
      simp only [modSt, modCore, modBay_same]
    · simp only [modSt, modCore, modBay_other _ _ _ _ h]
  case trn | red => rfl

@[simp] theorem modSt_msgs (s : State) (r : StationRef) (f : Station → Station) : (modSt s r f).trn.msgs = s.trn.msgs := by
  obtain ⟨c, k⟩ | c | _ | _ := r
  case bay => cases k <;> rfl
  case core | trn | red => rfl


/-! ## What the wait for credits leaves (R77) -/

/-- `t` differs from `s` at most in the STALL flags and output ports of stations. -/
structure SameButWaits (s t : State) : Prop where
  ins : ∀ q, (getSt t q).ins = (getSt s q).ins
  st : ∀ q, (getSt t q).st = (getSt s q).st
  enA : ∀ q, (getSt t q).enA = (getSt s q).enA
  firing : ∀ q, (getSt t q).firing = (getSt s q).firing
  tokFlight : t.tokFlight = s.tokFlight
  credFlight : t.credFlight = s.credFlight
  msgs : t.trn.msgs = s.trn.msgs
  round : ∀ b : BayId, t.bays[b].round = s.bays[b].round

theorem SameButWaits.refl (s : State) : SameButWaits s s where
  ins _ := rfl
  st _ := rfl
  enA _ := rfl
  firing _ := rfl
  tokFlight := rfl
  credFlight := rfl
  msgs := rfl
  round _ := rfl

theorem SameButWaits.trans {s t u : State} (h : SameButWaits s t) (h' : SameButWaits t u) : SameButWaits s u where
  ins q := (h'.ins q).trans (h.ins q)
  st q := (h'.st q).trans (h.st q)
  enA q := (h'.enA q).trans (h.enA q)
  firing q := (h'.firing q).trans (h.firing q)
  tokFlight := h'.tokFlight.trans h.tokFlight
  credFlight := h'.credFlight.trans h.credFlight
  msgs := h'.msgs.trans h.msgs
  round b := (h'.round b).trans (h.round b)

theorem SameButWaits.getIn {s t : State} (h : SameButWaits s t) (r : StationRef) (p : PortId) : getIn t r p = getIn s r p :=
  congrArg (fun v : Vector InPort 8 => v[p]) (h.ins r)

theorem sameButWaits_updWait (s : State) (r : StationRef) : SameButWaits s (updWait s r) where
  ins q := getSt_modSt_keeps s r q _ Station.ins fun _ => rfl
  st q := getSt_modSt_keeps s r q _ Station.st fun _ => rfl
  enA q := getSt_modSt_keeps s r q _ Station.enA fun _ => rfl
  firing q := getSt_modSt_keeps s r q _ Station.firing fun _ => rfl
  tokFlight := modSt_tokFlight s r _
  credFlight := modSt_credFlight s r _
  msgs := modSt_msgs s r _
  round := modSt_round s r _

theorem stopPump_running (s : State) (r : StationRef) (h : stopping (getSt s r) = false) : stopPump s r = s := by
  simp [stopPump, h]

/-- A producer that a credit finds with nothing else to do: it does not stop, and neither a staged message nor a gleaning round waits for
the credit. -/
def NothingWaits (s : State) (q : StationRef) : Prop :=
  stopping (getSt s q) = false ∧ (q = .trn → s.trn.msgs = []) ∧ ∀ b, q = .bay b .shr → s.bays[b].round = none

theorem NothingWaits.of_same {s t : State} (h : SameButWaits s t) {q : StationRef} (hq : NothingWaits s q) : NothingWaits t q := by
  obtain ⟨hstop, hmsgs, hround⟩ := hq
  refine ⟨?_, fun e => h.msgs.trans (hmsgs e), fun b e => (h.round b).trans (hround b e)⟩
  rw [stopping, h.st q]
  exact hstop

theorem intakePump_idle (s : State) (h : s.trn.msgs = []) : intakePump s = s := by
  simp [intakePump, h]

theorem sameButWaits_creditPump (s : State) (q : StationRef) (h : NothingWaits s q) : SameButWaits s (creditPump s q) := by
  obtain ⟨hstop, hmsgs, hround⟩ := h
  have hwait : SameButWaits s (updWait (stopPump s q) q) := by
    rw [stopPump_running s q hstop]
    exact sameButWaits_updWait s q
  obtain ⟨b, k⟩ | c | _ | _ := q
  case bay =>
    cases k
    case shr =>
      have hrun : creditPump s (.bay b .shr) = s := by
        show shareSend (stopPump s (.bay b .shr)) b = s
        rw [stopPump_running s _ hstop, shareSend, hround b rfl]
      rw [hrun]
      exact .refl s
    all_goals exact hwait
  case trn =>
    rw [show creditPump s .trn = intakePump s from rfl, intakePump_idle s (hmsgs rfl)]
    exact .refl s
  case core | red => exact hwait

theorem sameButWaits_foldl_creditPump (l : List StationRef) (s : State) (h : ∀ q ∈ l, NothingWaits s q) :
    SameButWaits s (l.foldl creditPump s) := by
  induction l generalizing s with
  | nil => exact .refl s
  | cons q l ih =>
    have hq := sameButWaits_creditPump s q (h q (List.mem_cons_self ..))
    exact hq.trans (ih _ fun r hr => (h r (List.mem_cons_of_mem _ hr)).of_same hq)

theorem getSt_modMem (s : State) (b : BayId) (f : BayMem → BayMem) (q : StationRef) : getSt (modMem s b f) q = getSt s q := by
  obtain ⟨d, k⟩ | c | _ | _ := q
  case bay =>
    by_cases h : d = b
    · subst h
      cases k <;> simp only [getSt, modMem_same]
    · cases k <;> simp only [getSt, modMem_other _ _ _ _ h]
  case core => exact congrArg Core.ctl (getCore_modBay s b _ c fun _ => rfl)
  case trn | red => rfl

/-! ## Tokens that arrive (R65, R83, R79) -/

theorem getSt_modIn_st (s : State) (r q : StationRef) (p : PortId) (f : InPort → InPort) : (getSt (modIn s r p f) q).st = (getSt s q).st :=
  getSt_modSt_keeps s r q _ Station.st fun _ => rfl

theorem stopping_modIn (s : State) (r q : StationRef) (p : PortId) (f : InPort → InPort) :
    stopping (getSt (modIn s r p f) q) = stopping (getSt s q) := by
  rw [stopping, getSt_modIn_st, stopping]

/-- A token has come to its port, and nothing has been done with it. -/
def tokenHeld (s : State) (r : StationRef) (p : PortId) (k : Token) : State :=
  modIn { s with tokFlight := s.tokFlight.erase (r, p, k) } r p (fun ip => { ip with
    held := ip.held ++ [k], tiles := ip.tiles + 1, poisons := if k.tile.hdr.poison then ip.poisons + 1 else ip.poisons })

theorem getIn_tokenHeld (s : State) (r : StationRef) (p : PortId) (k : Token) :
    getIn (tokenHeld s r p k) r p = { getIn s r p with
      held := (getIn s r p).held ++ [k], tiles := (getIn s r p).tiles + 1,
      poisons := if k.tile.hdr.poison then (getIn s r p).poisons + 1 else (getIn s r p).poisons } := by
  rw [tokenHeld, getIn_modIn, if_pos rfl]
  rfl

theorem tokenHeld_tokFlight (s : State) (r : StationRef) (p : PortId) (k : Token) :
    (tokenHeld s r p k).tokFlight = s.tokFlight.erase (r, p, k) := modIn_tokFlight _ r p _

theorem stopping_tokenHeld (s : State) (r : StationRef) (p : PortId) (k : Token) :
    stopping (getSt (tokenHeld s r p k) r) = stopping (getSt s r) := by
  rw [tokenHeld, stopping_modIn]
  rfl

/-- A core consumes a tile that its port owes; another station owes none. -/
def payOwed (s : State) (r : StationRef) (p : PortId) : State :=
  match r with
  | .core c => coreOwed s c p
  | _ => s

theorem exec_tokenArrive (s : State) (r : StationRef) (p : PortId) (k : Token)
    (hfind : s.tokFlight.find? (fun f => f.1 == r && f.2.1 == p) = some (r, p, k)) :
    exec (.tokenArrive r p) s = .next (updWait (stopPump (payOwed (tokenHeld s r p k) r p) r) r) := by
  show execTokenArrive r p s = _
  rw [execTokenArrive, hfind]
  cases r <;> rfl

theorem payOwed_none (s : State) (r : StationRef) (p : PortId) (h : ∀ c, r = .core c → (getIn s r p).owed = 0) : payOwed s r p = s := by
  cases r
  case core c =>
    show coreOwed s c p = s
    rw [coreOwed, if_neg (by rw [h c rfl]; exact fun hpos => absurd hpos.1 (Nat.lt_irrefl 0))]
  case bay | trn | red => rfl

theorem exec_tokenArrive_held (s : State) (r : StationRef) (p : PortId) (k : Token)
    (hfind : s.tokFlight.find? (fun f => f.1 == r && f.2.1 == p) = some (r, p, k)) (hrun : stopping (getSt s r) = false)
    (howed : ∀ c, r = .core c → (getIn s r p).owed = 0) :
    exec (.tokenArrive r p) s = .next (updWait (tokenHeld s r p k) r) := by
  have hnone : payOwed (tokenHeld s r p k) r p = tokenHeld s r p k :=
    payOwed_none _ r p fun c hc => by rw [getIn_tokenHeld]; exact howed c hc
  rw [exec_tokenArrive s r p k hfind, hnone, stopPump_running _ r ((stopping_tokenHeld s r p k).trans hrun)]

/-- Entries on an input stream leave its port's tokens, the stations' states and the tokens on their way. -/
theorem logCauses_port (s : State) (r : StationRef) (p : PortId) (t : Tile) (causes : List Nat) :
    (getIn (logCauses s r p t causes) r p).held = (getIn s r p).held ∧ (getIn (logCauses s r p t causes) r p).owed = (getIn s r p).owed ∧
      (logCauses s r p t causes).tokFlight = s.tokFlight ∧ (getSt (logCauses s r p t causes) r).st = (getSt s r).st := by
  unfold logCauses
  dsimp only
  generalize hlogged : List.foldl _ s _ = a
  have hsame : getSt a r = getSt s r ∧ a.tokFlight = s.tokFlight := by
    rw [← hlogged]
    refine foldl_keeps _ (fun a : State => getSt a r = getSt s r ∧ a.tokFlight = s.tokFlight) ?_ _ s ⟨rfl, rfl⟩
    exact fun _ _ h => h
  obtain ⟨hst, hflight⟩ := hsame
  have hin : getIn a r p = getIn s r p := congrArg (fun x : Station => x.ins[p]) hst
  simp [getIn_modIn, getSt_modIn_st, hin, hst, hflight]

/-- A slot's return leaves what its port holds and owes, the stations' states and the tokens on their way. -/
theorem returnSlot_port (s : State) (r : StationRef) (p : PortId) (k : Nat) :
    (getIn (returnSlot s r p k) r p).held = (getIn s r p).held ∧ (getIn (returnSlot s r p k) r p).owed = (getIn s r p).owed ∧
      (returnSlot s r p k).tokFlight = s.tokFlight ∧ (getSt (returnSlot s r p k) r).st = (getSt s r).st := by
  unfold returnSlot
  split
  · simp [getIn_modIn, getSt_modIn_st]
  · exact ⟨rfl, rfl, rfl, rfl⟩

/-- The only token of a port that owes a tile is the one it owes: it is taken off, and the port owes one less. -/
theorem coreDropHead_owed (s : State) (c : CoreId) (p : PortId) (cause : Nat) (k : Token) (hheld : (getIn s (.core c) p).held = [k])
    (howed : 0 < (getIn s (.core c) p).owed) :
    let t := coreDropHead s c p cause
    (getIn t (.core c) p).held = [] ∧ (getIn t (.core c) p).owed = (getIn s (.core c) p).owed - 1 ∧ t.tokFlight = s.tokFlight ∧
      (getSt t (.core c)).st = (getSt s (.core c)).st := by
  have hdue : ¬ (getIn s (.core c) p).owed = 0 := Nat.ne_of_gt howed
  obtain ⟨hlogHeld, hlogOwed, hlogFlight, hlogSt⟩ := logCauses_port s (.core c) p k.tile (tileCauses s (.core c) p k.tile []).1
  have htake := takeTok_some _ (.core c) p k [] (hlogHeld.trans hheld)
  simp only [coreDropHead, hheld, List.head?_cons, hdue, false_and, if_false, htake]
  obtain ⟨hretHeld, hretOwed, hretFlight, hretSt⟩ := returnSlot_port (modIn (modIn (logCauses s (.core c) p k.tile
    (tileCauses s (.core c) p k.tile []).1) (.core c) p _) (.core c) p fun ip => { ip with owed := ip.owed - 1 }) (.core c) p k.slot
  rw [hretHeld, hretOwed, hretFlight, hretSt]
  simp [getIn_modIn, getSt_modIn_st, hlogOwed, hlogFlight, hlogSt]

theorem exec_tokenArrive_owed (s : State) (c : CoreId) (p : PortId) (k : Token)
    (hfind : s.tokFlight.find? (fun f => f.1 == .core c && f.2.1 == p) = some (.core c, p, k)) (hrun : stopping (getSt s (.core c)) = false)
    (howed : 0 < (getIn s (.core c) p).owed) (hheld : (getIn s (.core c) p).held = []) :
    exec (.tokenArrive (.core c) p) s = .next (updWait (coreDropHead (tokenHeld s (.core c) p k) c p codeAborted) (.core c)) := by
  have hin := getIn_tokenHeld s (.core c) p k
  have hkept : (getIn (tokenHeld s (.core c) p k) (.core c) p).held = [k] := by rw [hin, hheld]; rfl
  have hdue : 0 < (getIn (tokenHeld s (.core c) p k) (.core c) p).owed := by rw [hin]; exact howed
  have hpay : payOwed (tokenHeld s (.core c) p k) (.core c) p = coreDropHead (tokenHeld s (.core c) p k) c p codeAborted := by
    show coreOwed _ c p = _
    rw [coreOwed, if_pos ⟨hdue, by rw [hkept]; exact List.cons_ne_nil _ _⟩]
  obtain ⟨-, -, -, hst⟩ := coreDropHead_owed _ c p codeAborted k hkept hdue
  rw [exec_tokenArrive s (.core c) p k hfind, hpay, stopPump_running]
  rw [stopping, hst, ← hrun, ← stopping_tokenHeld s (.core c) p k, stopping]

/-! ## Credits that arrive, and the end of a firing (R65, R83) -/

/-- A credit has come to the producer of its port. -/
def creditCame (s : State) (r : StationRef) (p : PortId) (slot : Nat) : State :=
  modIn { s with credFlight := s.credFlight.erase (r, p, slot) } r p (fun ip => { ip with avail := ip.avail + 1, busy := ip.busy.erase slot })

theorem getIn_creditCame (s : State) (r : StationRef) (p : PortId) (slot : Nat) :
    getIn (creditCame s r p slot) r p = { getIn s r p with
      avail := (getIn s r p).avail + 1, busy := (getIn s r p).busy.erase slot } := by
  rw [creditCame, getIn_modIn, if_pos rfl]
  rfl

theorem exec_creditArrive (s : State) (r q : StationRef) (p n : PortId) (slot : Nat)
    (hfind : s.credFlight.find? (fun f => f.1 == r && f.2.1 == p) = some (r, p, slot)) (hprod : (getIn s r p).prod = some (q, n)) :
    exec (.creditArrive r p) s = .next (creditPump (creditCame s r p slot) q) := by
  have hprod' : (getIn (creditCame s r p slot) r p).prod = some (q, n) := by rw [getIn_creditCame]; exact hprod
  show execCreditArrive r p s = _
  rw [execCreditArrive, hfind]
  show Host.Outcome.next (match (getIn (creditCame s r p slot) r p).prod with
    | some (q, _) => creditPump (creditCame s r p slot) q
    | none => creditCame s r p slot) = _
  rw [hprod']

theorem nothingWaits_creditCame (s : State) (r q : StationRef) (p : PortId) (slot : Nat) (hstop : stopping (getSt s q) = false)
    (htrn : q ≠ .trn) (hshr : ∀ b, q ≠ .bay b .shr) : NothingWaits (creditCame s r p slot) q := by
  refine ⟨?_, fun h => absurd h htrn, fun b h => absurd h (hshr b)⟩
  rw [creditCame, stopping_modIn]
  exact hstop

/-- The tokens of a firing's outputs as they cross: each to the port that its output feeds. -/
def crossings (s : State) (r : StationRef) (outs : List (PortId × Token)) : List (StationRef × PortId × Token) :=
  outs.filterMap (fun o => (getOut s r o.1).cons.map (fun c => (c.1, c.2, o.2)))

theorem getSt_fillSlot (s : State) (r c : StationRef) (p : PortId) (k : Token) (q : StationRef) : getSt (fillSlot s r c p k) q = getSt s q := by
  obtain h | ⟨b, -, h⟩ := fillSlot_cases s r c p k <;> rw [h]
  exact getSt_modMem s b _ q

theorem fillSlot_credFlight (s : State) (r c : StationRef) (p : PortId) (k : Token) : (fillSlot s r c p k).credFlight = s.credFlight := by
  obtain h | ⟨b, -, h⟩ := fillSlot_cases s r c p k <;> rw [h]
  rfl

/-- An output port counts a tile that it passes (R81). -/
def countPassed (k : Token) (x : OutPort) : OutPort :=
  { x with tiles := x.tiles + 1, poisons := if k.tile.hdr.poison then x.poisons + 1 else x.poisons }

/-- Passing a token changes at most the counts of its port among the stations, and no credit. -/
theorem passTok_station (s : State) (r : StationRef) (n : PortId) (k : Token) :
    getSt (passTok s r n k) r = getSt (modOut s r n (countPassed k)) r ∧ (passTok s r n k).credFlight = s.credFlight := by
  unfold passTok
  dsimp only
  split
  · next c p _ =>
    exact ⟨getSt_fillSlot (modOut s r n (countPassed k)) r c p k r, (fillSlot_credFlight _ r c p k).trans (modOut_credFlight s r n _)⟩
  · exact ⟨rfl, modOut_credFlight s r n _⟩

/-- What passing a token leaves: where the outputs lead, the credits on their way, and the station's state. -/
theorem passTok_keeps (s : State) (r : StationRef) (n : PortId) (k : Token) :
    (∀ m, (getOut (passTok s r n k) r m).cons = (getOut s r m).cons) ∧ (passTok s r n k).credFlight = s.credFlight ∧
      (getSt (passTok s r n k) r).st = (getSt s r).st := by
  obtain ⟨hsame, hcred⟩ := passTok_station s r n k
  refine ⟨fun m => ?_, hcred, ?_⟩
  · have hport : getOut (passTok s r n k) r m = getOut (modOut s r n (countPassed k)) r m := congrArg (fun x : Station => x.outs[m]) hsame
    rw [hport, getOut_modOut]
    split
    · next h => rw [h]; rfl
    · rfl
  · rw [hsame]
    exact getSt_modSt_keeps s r r _ Station.st fun _ => rfl

theorem passTok_tokFlight (s : State) (r : StationRef) (n : PortId) (k : Token) :
    (passTok s r n k).tokFlight = s.tokFlight ++ crossings s r [(n, k)] := by
  cases hcons : (getOut s r n).cons with
  | none => simp [passTok_none s r n k hcons, crossings, hcons]
  | some c => simp [passTok_some s r n k c hcons, crossings, hcons]

theorem passTok_foldl (outs : List (PortId × Token)) (s : State) (r : StationRef) :
    let t := outs.foldl (fun s o => passTok s r o.1 o.2) s
    t.tokFlight = s.tokFlight ++ crossings s r outs ∧ t.credFlight = s.credFlight ∧ (getSt t r).st = (getSt s r).st := by
  induction outs generalizing s with
  | nil => simp [crossings]
  | cons o outs ih =>
    obtain ⟨hcons, hcred, hst⟩ := passTok_keeps s r o.1 o.2
    obtain ⟨hflight', hcred', hst'⟩ := ih (passTok s r o.1 o.2)
    refine ⟨?_, hcred'.trans hcred, hst'.trans hst⟩
    have hcross : crossings (passTok s r o.1 o.2) r outs = crossings s r outs := by simp only [crossings, hcons]
    have hsplit : crossings s r (o :: outs) = crossings s r [o] ++ crossings s r outs := by
      rw [crossings, ← List.singleton_append, List.filterMap_append, crossings, crossings]
    rw [hsplit, ← List.append_assoc, ← hcross, ← passTok_tokFlight]
    exact hflight'

theorem returnSlot_foldl (ins : List (PortId × Token)) (s : State) (r : StationRef) :
    let t := ins.foldl (fun s i => returnSlot s r i.1 i.2.slot) s
    t.tokFlight = s.tokFlight ∧ ((getSt s r).st ≠ .draining → t.credFlight = s.credFlight ++ ins.map (fun i => (r, i.1, i.2.slot))) := by
  induction ins generalizing s with
  | nil => simp
  | cons i ins ih =>
    obtain ⟨-, -, hflight, hst⟩ := returnSlot_port s r i.1 i.2.slot
    obtain ⟨hflight', hcred'⟩ := ih (returnSlot s r i.1 i.2.slot)
    refine ⟨hflight'.trans hflight, fun hrun => ?_⟩
    have hfirst : (returnSlot s r i.1 i.2.slot).credFlight = s.credFlight ++ [(r, i.1, i.2.slot)] := by rw [returnSlot_else s r _ _ hrun]
    have hrest := hcred' (by rw [hst]; exact hrun)
    rw [hfirst, List.append_assoc] at hrest
    exact hrest

/-- A firing that ends: its outputs cross, its inputs' slots are returned. -/
def firingEnded (s : State) (r : StationRef) (f : Firing) : State :=
  f.ins.foldl (fun s i => returnSlot s r i.1 i.2.slot) (f.outs.foldl (fun s o => passTok s r o.1 o.2) s)

theorem exec_firingEnd (s : State) (r : StationRef) (f : Firing) (hf : (getSt s r).firing = some f) :
    exec (.firingEnd r) s = .next (updWait (modSt (firingEnded s r f) r (fun x => { x with firing := none, st := afterFiring x })) r) := by
  show execFiringEnd r s = _
  rw [execFiringEnd, hf]
  rfl

theorem exec_stall (s : State) (r : StationRef) (n p : PortId) (since : W64) (hstall : (getSt s r).stall = false)
    (hsince : ((getSt s r).outs[n]).waitSince = some since)
    (hheld : allPorts.find? (fun p => !((getSt s r).ins[p]).held.isEmpty) = some p) (hlong : elapsed s since 1000000 = true) :
    exec (.stall r n) s = .next (logStream (modSt s r (fun y => { y with stall := true })) r codeStationStall (8 + n.1)
      ((getSt s r).outs[n]).stream ((getSt s r).outs[n]).nextOrd
      ((((getSt s r).ins[p]).held.head?.map (fun k => k.tile.hdr.job.toNat)).getD 0) (8 + n.1)) := by
  show execStall r n s = _
  simp only [execStall, hstall, hsince, hheld, hlong, if_true, if_false, Bool.false_eq_true]

/-! ## Tokens and credits, together -/

theorem tokensAndCredits : TokensAndCredits := by
  refine ⟨?held, ?owed, ?credit, ?firing, ?stall⟩
  case held =>
    intro s r p k hfind hrun howed
    have hsame := sameButWaits_updWait (tokenHeld s r p k) r
    have hin := (hsame.getIn r p).trans (getIn_tokenHeld s r p k)
    refine ⟨_, exec_tokenArrive_held s r p k hfind hrun howed, hsame.tokFlight.trans (tokenHeld_tokFlight s r p k), ?_⟩
    rw [hin]
    exact ⟨rfl, rfl, rfl⟩
  case owed =>
    intro s c p k hfind hrun howed hheld
    have hin := getIn_tokenHeld s (.core c) p k
    obtain ⟨hnone, hless, hflight, -⟩ := coreDropHead_owed (tokenHeld s (.core c) p k) c p codeAborted k (by rw [hin, hheld]; rfl)
      (by rw [hin]; exact howed)
    have hsame := sameButWaits_updWait (coreDropHead (tokenHeld s (.core c) p k) c p codeAborted) (.core c)
    refine ⟨_, exec_tokenArrive_owed s c p k hfind hrun howed hheld,
      (hsame.tokFlight.trans hflight).trans (tokenHeld_tokFlight s (.core c) p k), ?_⟩
    rw [hsame.getIn, hnone, hless, hin]
    exact ⟨rfl, rfl⟩
  case credit =>
    intro s r q p n slot hfind hprod hstop htrn hshr
    have hsame := sameButWaits_creditPump _ q (nothingWaits_creditCame s r q p slot hstop htrn hshr)
    refine ⟨_, exec_creditArrive s r q p n slot hfind hprod, hsame.credFlight.trans (modIn_credFlight _ r p _), ?_⟩
    rw [hsame.getIn, getIn_creditCame]
    exact ⟨rfl, rfl⟩
  case firing =>
    intro s r f hf
    obtain ⟨hpass, hpassCred, hpassSt⟩ := passTok_foldl f.outs s r
    obtain ⟨hreturn, hcred⟩ := returnSlot_foldl f.ins (f.outs.foldl (fun s o => passTok s r o.1 o.2) s) r
    have hsame := sameButWaits_updWait (modSt (firingEnded s r f) r (fun x => { x with firing := none, st := afterFiring x })) r
    refine ⟨_, exec_firingEnd s r f hf, ?_, ?_, fun hrun => ?_⟩
    · rw [hsame.firing, getSt_modSt]
    · rw [hsame.tokFlight, modSt_tokFlight]
      exact hreturn.trans hpass
    · rw [hsame.credFlight, modSt_credFlight, firingEnded, hcred (by rw [hpassSt]; exact hrun), hpassCred]
  case stall =>
    intro s r n p since hstall hsince hheld hlong
    refine ⟨_, exec_stall s r n p since hstall hsince hheld hlong, ?_, ?_⟩
    · exact congrArg Station.stall (getSt_modSt s r (fun y => { y with stall := true }))
    · obtain ⟨e, hin, hcode, -, hsource, -, -, -, hd3⟩ := logEv_dbkIn (modSt s r (fun y => { y with stall := true }))
        (stOwner (modSt s r (fun y => { y with stall := true })) r) (stPage r) codeStationStall
        ((8 + n.1) * 0x10000 + ((getSt s r).outs[n]).stream % 0x10000) ((getSt s r).outs[n]).nextOrd
        ((((getSt s r).ins[p]).held.head?.map (fun k => k.tile.hdr.job.toNat)).getD 0) (8 + n.1)
      rw [modSt_dbkIn] at hin
      exact ⟨_, hin, hcode, hd3, hsource⟩

/-! ## Station faults (R78, R259) -/

/-- A Mask station that stops drops nothing at once. -/
theorem stopPump_mask (s : State) (b : BayId) : stopPump s (.bay b .msk) = s := by
  simp [stopPump]

theorem exec_stationFault_mask (s : State) (b : BayId) (hidle : (getSt s (.bay b .msk)).firing = none) :
    exec (.stationFault (.bay b .msk)) s = .next (modSt s (.bay b .msk) (fun x => { x with fault := true, st := .fenced, stall := false })) := by
  have hdrop : dropFiring s (.bay b .msk) codeStationFault = s := by rw [dropFiring, hidle]
  show execStationFault (.bay b .msk) s = _
  simp only [execStationFault, hdrop, stopParts, stopPump_mask]

/-- A list of counts that add up to 0 counts nothing. -/
theorem held_of_heldCount (s : State) (r : StationRef) (h : heldCount s r = 0) (p : PortId) : (getIn s r p).held = [] := by
  rw [heldCount, ← List.sum_eq_foldl, List.sum_eq_zero_iff] at h
  have hp := h _ (List.mem_map.2 ⟨getIn s r p, ?_, rfl⟩)
  · exact List.eq_nil_of_length_eq_zero hp
  · exact Vector.mem_toList_iff.2 (Vector.getElem_mem _)

/-- A stopped core without tokens drops nothing. -/
theorem stopPump_core_empty (s : State) (c : CoreId) (h : ∀ p, (getIn s (.core c) p).held = []) : stopPump s (.core c) = s := by
  unfold stopPump
  dsimp only
  split
  · rfl
  · refine List.foldl_fixed' (fun p => ?_) _
    rw [h p]
    rfl

/-- Bays that keep their memory and cores keep every byte of memory. -/
theorem sameMemory_modBay (s : State) (b : BayId) (f : Bay → Bay) (h : ∀ y, (f y).mem = y.mem ∧ (f y).cores = y.cores) :
    sameMemory s (modBay s b f) := by
  intro d
  by_cases hd : d = b
  · subst hd
    obtain ⟨hmem, hcores⟩ := h s.bays[d]
    rw [modBay_same, hmem, hcores]
    exact ⟨fun _ => rfl, fun _ _ => rfl, fun _ _ => rfl⟩
  · rw [modBay_other _ _ _ _ hd]
    exact ⟨fun _ => rfl, fun _ _ => rfl, fun _ _ => rfl⟩

theorem sameMemory_modCore (s : State) (c : CoreId) (f : Core → Core) (h : ∀ k, (f k).ls = k.ls) : sameMemory s (modCore s c f) := by
  intro d
  refine ⟨fun a => by rw [modCore_mem], fun a _ => by rw [modCore_mem], fun k a => ?_⟩
  have hcore : ((getCore (modCore s c f) ⟨d, k⟩).ls) = (getCore s ⟨d, k⟩).ls := by
    by_cases he : (⟨d, k⟩ : CoreId) = c
    · rw [he, getCore_modCore, h]
    · rw [getCore_modCore_other _ _ _ _ he]
  exact congrArg (fun m => memGet m a) hcore

theorem sameMemory_trans {s t u : State} (h : sameMemory s t) (h' : sameMemory t u) : sameMemory s u := by
  intro b
  obtain ⟨hdram, hstore, hlocal⟩ := h b
  obtain ⟨hdram', hstore', hlocal'⟩ := h' b
  exact ⟨fun a => (hdram' a).trans (hdram a), fun a hn => (hstore' a hn).trans (hstore a hn), fun k a => (hlocal' k a).trans (hlocal k a)⟩

/-- A core as a fault leaves it that finds no firing (R259). -/
def fencedCore (bits : BitVec 5) (k : Core) : Core :=
  { k with faultBits := k.faultBits ||| bits, run := .stopped, dma := .replicate 4 [],
           ctl := { k.ctl with fault := true, st := .fenced, stall := false } }

theorem getIn_fencedCore (s : State) (c : CoreId) (bits : BitVec 5) (p : PortId) (t : State) (ht : getCore t c = fencedCore bits (getCore s c)) :
    (getIn t (.core c) p).held = (getIn s (.core c) p).held := by
  show ((getCore t c).ctl.ins[p]).held = _
  rw [ht]
  rfl

/-- `t` is `s` after a core's fence: the core is as `fencedCore` says, memory is as it was, and CORE_FENCED is written. -/
def Fenced (c : CoreId) (bits : BitVec 5) (s t : State) : Prop :=
  getCore t c = fencedCore bits (getCore s c) ∧ sameMemory s t ∧ oneEntry s t codeCoreFenced

/-- The bay's note of the re-map that it waits for (R260) changes none of this. -/
theorem Fenced.modBay {c : CoreId} {bits : BitVec 5} {s t : State} (h : Fenced c bits s t) (b : BayId) (f : Bay → Bay)
    (hf : ∀ y, (f y).mem = y.mem ∧ (f y).cores = y.cores) : Fenced c bits s (modBay t b f) := by
  obtain ⟨hcore, hmem, hlog⟩ := h
  exact ⟨(getCore_modBay t b f c fun y => (hf y).2).trans hcore, sameMemory_trans hmem (sameMemory_modBay t b f hf), hlog⟩

/-- A core's fault is noted on its page and in the daybook. -/
def faultNoted (s : State) (c : CoreId) (bits : BitVec 5) : State :=
  let s1 := modCore s c (fun k => { k with faultBits := k.faultBits ||| bits, ctl := { k.ctl with fault := true } })
  logK s1 c codeCoreFenced 0 (getCore s c).pc (firstOrdinal (getCore s c)) (stErr s1 (.core c))

/-- A core is fenced: it stops, and its DMA with it. -/
def coreStopped (s : State) (c : CoreId) : State :=
  modCore s c (fun k => { k with run := .stopped, dma := .replicate 4 [], ctl := { k.ctl with st := .fenced, stall := false } })

/-- A bay notes that a core of it waits for the re-map of R260. -/
def remapAsked (c : CoreId) (y : Bay) : Bay :=
  if y.remapping.isNone then { y with remapping := some c.core.1 }
  else if y.remapping = some c.core.1 ∨ y.remapQ.contains c.core.1 then y else { y with remapQ := y.remapQ ++ [c.core.1] }

theorem remapAsked_keeps (c : CoreId) (y : Bay) : (remapAsked c y).mem = y.mem ∧ (remapAsked c y).cores = y.cores := by
  unfold remapAsked
  split
  · exact ⟨rfl, rfl⟩
  · split <;> exact ⟨rfl, rfl⟩

theorem fenceCore_eq (s : State) (c : CoreId) (bits : BitVec 5) :
    let t := stopPump (coreStopped (markFiring (faultNoted s c bits) c causeCoreFenced) c) (.core c)
    fenceCore s c bits = if (getCore s c).bind.isNone then t else modBay t c.bay (remapAsked c) := rfl

theorem getCore_faultNoted (s : State) (c : CoreId) (bits : BitVec 5) : getCore (faultNoted s c bits) c =
    { getCore s c with faultBits := (getCore s c).faultBits ||| bits, ctl := { (getCore s c).ctl with fault := true } } :=
  getCore_modCore s c _

theorem fenced_coreStopped (s : State) (c : CoreId) (bits : BitVec 5) : Fenced c bits s (coreStopped (faultNoted s c bits) c) := by
  refine ⟨?core, ?memory, _, rfl, rfl⟩
  case core =>
    rw [coreStopped, getCore_modCore, getCore_faultNoted]
    rfl
  case memory =>
    have hnoted : sameMemory s (faultNoted s c bits) := sameMemory_modCore s c
      (fun k => { k with faultBits := k.faultBits ||| bits, ctl := { k.ctl with fault := true } }) fun _ => rfl
    exact sameMemory_trans hnoted (sameMemory_modCore _ c _ fun _ => rfl)

/-- A core without a firing and without tokens is fenced and no more. -/
theorem fenced_fenceCore (s : State) (c : CoreId) (bits : BitVec 5) (hfiring : (getCore s c).firing = none) (hheld : heldCount s (.core c) = 0) :
    Fenced c bits s (fenceCore s c bits) := by
  have hmark : markFiring (faultNoted s c bits) c causeCoreFenced = faultNoted s c bits := by
    simp [markFiring, getCore_faultNoted, hfiring]
  have hfenced := fenced_coreStopped s c bits
  have ⟨hcore, _, _⟩ := hfenced
  have hpump : stopPump (coreStopped (faultNoted s c bits) c) (.core c) = coreStopped (faultNoted s c bits) c :=
    stopPump_core_empty _ c fun p => by rw [getIn_fencedCore s c bits p _ hcore, held_of_heldCount s _ hheld]
  rw [fenceCore_eq, hmark, hpump]
  split
  · exact hfenced
  · exact hfenced.modBay c.bay _ (remapAsked_keeps c)

theorem stationFaults : StationFaults := by
  refine ⟨exec_stationFault_mask, fun s c kind hfiring hheld => ?_⟩
  obtain ⟨hcore, hmem, hlog⟩ := fenced_fenceCore s c (1#5 <<< kind.1) hfiring hheld
  refine ⟨_, rfl, ?_⟩
  simp only [hcore]
  exact ⟨rfl, rfl, rfl, rfl, fun ch => by simp [fencedCore], hmem, hlog⟩

/-- Settles O13: a token, a credit and a firing's end move exactly what they name (`tokensAndCredits`), and a fence stops what it names
(`stationFaults`). -/
theorem stationEventsMoveTokensAndCredits : Obligations.StationEventsMoveTokensAndCredits := ⟨tokensAndCredits, stationFaults⟩

/-! ## A write of one control bit (R77, Table 00.3) -/

/-- Of EN, ABORT and DRAIN_REQ, bits 15 to 13, an MW write of one takes the bit written, and the others stay. -/
theorem mwMerge_ctlBits (i : Nat) (hi : i = 15 ∨ i = 14 ∨ i = 13) (en abort drain on : Bool) :
    let v := mwMerge (ctlBits en abort drain) (mwBit i on).toNat
    bitOf v 15 = (if i = 15 then on else en) ∧ bitOf v 14 = (if i = 14 then on else abort) ∧ bitOf v 13 = (if i = 13 then on else drain) := by
  obtain rfl | rfl | rfl := hi <;> cases en <;> cases abort <;> cases drain <;> cases on <;> decide

theorem regKind_pgCtrl (r : StationRef) : regKind (stPage r) 0x008 = some .mw := by
  simp [regKind, headRows, regRun, rowHas]

theorem pageStation_stPage (r : StationRef) : pageStation (stPage r) = some r := by
  cases r <;> rfl

theorem regWrite_pgCtrl (s : State) (fn : Fn) (r : StationRef) (v : W32) : regWrite s fn (stPage r) 0x008 v = stationCtlEff s r v.toNat := by
  unfold regWrite
  rw [if_pos rfl, pageStation_stPage]

/-- A write of one bit of PG_CTRL that takes effect sets that bit of the station's control. -/
theorem busWrite_pgCtrl (s : State) (fn : Fn) (r : StationRef) (i : Nat) (hi : i = 15 ∨ i = 14 ∨ i = 13) (on : Bool)
    (ho : Open s fn (stPage r) 0x008) :
    busWrite s fn (stPage r) 0x008 (mwBit i on) = modSt (relocked s (stPage r)) r (fun x => { x with
      en := if i = 15 then on else x.en, abort := if i = 14 then on else x.abort, drain := if i = 13 then on else x.drain }) := by
  rw [busWrite_open s fn (stPage r) 0x008 _ .mw ho (regKind_pgCtrl r) (by decide) (by decide), regWrite_pgCtrl, stationCtlEff]
  refine congrArg (modSt _ r) (funext fun x => ?_)
  obtain ⟨hen, habort, hdrain⟩ := mwMerge_ctlBits i hi x.en x.abort x.drain on
  simp only [hen, habort, hdrain]

theorem controlBits : ControlBits := fun s fn r on ho =>
  ⟨congrArg Host.Outcome.next (busWrite_pgCtrl s fn r 15 (by decide) on ho),
    congrArg Host.Outcome.next (busWrite_pgCtrl s fn r 14 (by decide) on ho),
    congrArg Host.Outcome.next (busWrite_pgCtrl s fn r 13 (by decide) on ho)⟩

/-! ## Shares of Intake and Reduce (R111, R294) -/

theorem regKind_trnShare : ∀ p : TenantId, regKind .trn (0x400 + p.1 * 0x20) = some .mw := by decide
theorem regKind_redShare : ∀ p : TenantId, regKind .red (0x400 + p.1 * 0x20) = some .mw := by decide

/-- The share whose CTRL register stands at an offset. -/
theorem shareOf_offset (p : TenantId) : finOpt 16 ((0x400 + p.1 * 0x20 - 0x400) / 0x20) = some p := by
  have hp : (0x400 + p.1 * 0x20 - 0x400) / 0x20 = p.1 := by omega
  rw [hp, finOpt, dif_pos p.2]

theorem regWrite_trnShare (s : State) (fn : Fn) (p : TenantId) (v : W32) :
    regWrite s fn .trn (0x400 + p.1 * 0x20) v = intakeShareEff s p v.toNat := by
  have hctrl : ¬ 0x400 + p.1 * 0x20 = 0x008 := by omega
  have hshare : 0x400 ≤ 0x400 + p.1 * 0x20 := by omega
  simp only [regWrite, if_neg hctrl, trnEff, if_pos hshare, shareOf_offset]

theorem regWrite_redShare (s : State) (fn : Fn) (p : TenantId) (v : W32) :
    regWrite s fn .red (0x400 + p.1 * 0x20) v = reduceShareEff s p v.toNat := by
  have hctrl : ¬ 0x400 + p.1 * 0x20 = 0x008 := by omega
  simp only [regWrite, if_neg hctrl, shareOf_offset]

/-- With no message staged an effective ABORT of a share answers nothing. -/
theorem intakeAbortNow_idle (s : State) (p : TenantId) (h : s.trn.msgs = []) : intakeAbortNow s p = s := by
  rw [intakeAbortNow, h]
  split <;> rfl

/-- With no transfer in its step an effective ABORT of a share ends none. -/
theorem redAbortNow_idle (s : State) (p : TenantId) (h : s.red.runs = []) : redAbortNow s p = s := by
  rw [redAbortNow, endRuns, h]
  split
  · split <;> rfl
  · rfl

/-- The update of one place of a vector depends on what it makes of that place alone. -/
theorem vmod_congr {α : Type} {n : Nat} (v : Vector α n) (i : Fin n) (f g : α → α) (h : f v[i] = g v[i]) : vmod v i f = vmod v i g :=
  congrArg (fun a => v.set i.1 a i.2) h

theorem busWrite_trnShare (s : State) (fn : Fn) (p : TenantId) (i : Nat) (hi : i = 15 ∨ i = 14 ∨ i = 13) (on : Bool)
    (ho : Open s fn .trn (0x400 + p.1 * 0x20)) (hmsgs : s.trn.msgs = []) :
    busWrite s fn .trn (0x400 + p.1 * 0x20) (mwBit i on) = modShare (relocked s .trn) p (fun h => { h with
      en := if i = 15 then on else h.en, abort := if i = 14 then on else h.abort, drain := if i = 13 then on else h.drain }) := by
  rw [busWrite_open s fn .trn _ _ .mw ho (regKind_trnShare p) (by decide) (by decide), regWrite_trnShare, intakeShareEff,
    intakeAbortNow_idle (modShare (relocked s .trn) p _) p hmsgs, intakePump_idle (modShare (relocked s .trn) p _) hmsgs]
  refine congrArg (fun v => modTrn (relocked s .trn) (fun t => { t with shares := v })) (vmod_congr _ p _ _ ?_)
  obtain ⟨hen, habort, hdrain⟩ := mwMerge_ctlBits i hi (getShare (relocked s .trn) p).en (getShare (relocked s .trn) p).abort
    (getShare (relocked s .trn) p).drain on
  simp only [hen, habort, hdrain]
  rfl

theorem busWrite_redShare (s : State) (fn : Fn) (p : TenantId) (i : Nat) (hi : i = 15 ∨ i = 14 ∨ i = 13) (on : Bool)
    (ho : Open s fn .red (0x400 + p.1 * 0x20)) (hruns : s.red.runs = []) :
    busWrite s fn .red (0x400 + p.1 * 0x20) (mwBit i on) = modRedShare (relocked s .red) p (fun h => { h with
      en := if i = 15 then on else h.en, abort := if i = 14 then on else h.abort, drain := if i = 13 then on else h.drain }) := by
  rw [busWrite_open s fn .red _ _ .mw ho (regKind_redShare p) (by decide) (by decide), regWrite_redShare, reduceShareEff,
    redAbortNow_idle (modRedShare (relocked s .red) p _) p hruns]
  refine congrArg (fun v => modRed (relocked s .red) (fun t => { t with shares := v })) (vmod_congr _ p _ _ ?_)
  obtain ⟨hen, habort, hdrain⟩ := mwMerge_ctlBits i hi (relocked s .red).red.shares[p].en (relocked s .red).red.shares[p].abort
    (relocked s .red).red.shares[p].drain on
  simp only [hen, habort, hdrain]

theorem shareControl : ShareControl :=
  ⟨fun s fn p on ho hmsgs =>
    ⟨congrArg Host.Outcome.next (busWrite_trnShare s fn p 15 (by decide) on ho hmsgs),
      congrArg Host.Outcome.next (busWrite_trnShare s fn p 14 (by decide) on ho hmsgs),
      congrArg Host.Outcome.next (busWrite_trnShare s fn p 13 (by decide) on ho hmsgs)⟩,
    fun s fn p on ho hruns =>
    ⟨congrArg Host.Outcome.next (busWrite_redShare s fn p 15 (by decide) on ho hruns),
      congrArg Host.Outcome.next (busWrite_redShare s fn p 14 (by decide) on ho hruns),
      congrArg Host.Outcome.next (busWrite_redShare s fn p 13 (by decide) on ho hruns)⟩⟩

/-! ## The control bits reach the station (R78, Table 03.8) -/

/-- The bits written have arrived, and the station has not moved yet. -/
def bitsCame (s : State) (r : StationRef) : State := modSt s r (fun x => { x with enA := x.en, abortA := x.abort, drainA := x.drain })

theorem getSt_bitsCame (s : State) (r : StationRef) : getSt (bitsCame s r) r =
    { getSt s r with enA := (getSt s r).en, abortA := (getSt s r).abort, drainA := (getSt s r).drain } := getSt_modSt s r _

theorem ins_bitsCame (s : State) (r : StationRef) : (getSt (bitsCame s r) r).ins = (getSt s r).ins := by rw [getSt_bitsCame]

theorem ins_moved (s : State) (r : StationRef) (f : Station → Station) (hf : ∀ x, (f x).ins = x.ins) :
    (getSt (modSt (bitsCame s r) r f) r).ins = (getSt s r).ins := by
  rw [getSt_modSt, hf, ins_bitsCame]

/-- Does the station's move grant a credit of one of its pools? -/
def grantsCredit (s : State) (r : StationRef) : Bool :=
  allPorts.any (fun p => (getIn (moveStation (bitsCame s r) r) r p).avail != (getIn (bitsCame s r) r p).avail)

theorem exec_stationControlArrive (s : State) (r : StationRef) : exec (.stationControlArrive r) s = .next
    (if grantsCredit s r then pumpProducers (moveStation (bitsCame s r) r) r else moveStation (bitsCame s r) r) := rfl

/-- A move that grants no credit is all that the arrival does. -/
theorem exec_stationControlArrive_ungranted (s t : State) (r : StationRef) (hmove : moveStation (bitsCame s r) r = t)
    (hins : (getSt t r).ins = (getSt s r).ins) : exec (.stationControlArrive r) s = .next t := by
  have hnone : grantsCredit s r = false := by simp [grantsCredit, hmove, getIn, hins, ins_bitsCame]
  rw [exec_stationControlArrive, hnone, hmove]
  rfl

theorem moveStation_fenced (s : State) (r : StationRef) (h : (getSt s r).st = .fenced) : moveStation (bitsCame s r) r = bitsCame s r := by
  simp [moveStation, getSt_bitsCame, h]

theorem moveStation_drain (s : State) (r : StationRef) (hfenced : (getSt s r).st ≠ .fenced) (habort : (getSt s r).abort = false)
    (hdrain : (getSt s r).drain = true) :
    moveStation (bitsCame s r) r = modSt (bitsCame s r) r (fun x => { x with st := .draining }) := by
  simp [moveStation, getSt_bitsCame, hfenced, habort, hdrain, setState]

theorem moveStation_pause (s : State) (r : StationRef) (hrest : (getSt s r).st = .idle ∨ (getSt s r).st = .busy)
    (habort : (getSt s r).abort = false) (hdrain : (getSt s r).drain = false) (hen : (getSt s r).en = false) :
    moveStation (bitsCame s r) r = modSt (bitsCame s r) r (fun x => { x with st := .paused }) := by
  obtain hst | hst := hrest <;> simp [moveStation, getSt_bitsCame, hst, habort, hdrain, hen, setState]

/-- A station out of OFF: at rest or in its firing, its pools granted, before it notes its waits. -/
def grantedFromOff (s : State) (r : StationRef) : State :=
  grantPools (setState (bitsCame s r) r (restState (bitsCame s r) r)) r

theorem moveStation_start (s : State) (r : StationRef) (hoff : (getSt s r).st = .off) (habort : (getSt s r).abort = false)
    (hdrain : (getSt s r).drain = false) (hen : (getSt s r).en = true) (hready : (getSt s r).ready = true) :
    moveStation (bitsCame s r) r = updWait (grantedFromOff s r) r := by
  simp [moveStation, getSt_bitsCame, hoff, habort, hdrain, hen, hready, comeBack, grantedFromOff]

theorem moveStation_abort_mask (s : State) (b : BayId) (hidle : (getSt s (.bay b .msk)).st = .idle)
    (hfiring : (getSt s (.bay b .msk)).firing = none) (habort : (getSt s (.bay b .msk)).abort = true) :
    moveStation (bitsCame s (.bay b .msk)) (.bay b .msk) =
      modSt (bitsCame s (.bay b .msk)) (.bay b .msk) (fun x => { x with st := .aborting, stall := false }) := by
  have hdrop : dropFiring (bitsCame s (.bay b .msk)) (.bay b .msk) codeAborted = bitsCame s (.bay b .msk) := by
    rw [dropFiring, getSt_bitsCame, hfiring]
  simp [moveStation, getSt_bitsCame, hidle, habort, hdrop, stopPump_mask, stopParts]

theorem getSt_grantedFromOff (s : State) (r : StationRef) : getSt (grantedFromOff s r) r =
    { getSt s r with
      enA := (getSt s r).en, abortA := (getSt s r).abort, drainA := (getSt s r).drain, st := restState (bitsCame s r) r
      ins := vmap (getSt s r).ins (fun ip => if ip.conn then { ip with avail := ip.pool - ip.busy.length } else ip) } := by
  rw [grantedFromOff, grantPools, getSt_modSt, setState, getSt_modSt, getSt_bitsCame]

theorem restState_cases (s : State) (r : StationRef) : restState s r = .idle ∨ restState s r = .busy := by
  unfold restState
  split <;> split <;> simp

/-- What leaves `OFF` grants each connected port's free slots; its producers, with nothing to do, find no use for them. -/
theorem nothingWaits_grantedFromOff (s : State) (r q : StationRef) (hq : NothingWaits s q) : NothingWaits (grantedFromOff s r) q := by
  obtain ⟨hstop, hmsgs, hround⟩ := hq
  refine ⟨?_, fun h => ?_, fun b h => ?_⟩
  · by_cases hqr : q = r
    · subst hqr
      rw [stopping, getSt_grantedFromOff]
      obtain hrest | hrest := restState_cases (bitsCame s q) q <;> simp [hrest]
    · have hother : getSt (grantedFromOff s r) q = getSt s q := by
        simp only [grantedFromOff, grantPools, setState, bitsCame, getSt_modSt_other _ _ _ _ hqr]
      rw [hother]
      exact hstop
  · simp [grantedFromOff, grantPools, setState, bitsCame, hmsgs h]
  · simp only [grantedFromOff, grantPools, setState, bitsCame, modSt_round, hround b h]

/-- The producers of a station's inputs. -/
theorem mem_producers (s : State) (r q : StationRef) (h : q ∈ (allPorts.filterMap (fun p => (getIn s r p).prod.map (·.1))).dedup) :
    ∃ p n, (getIn s r p).prod = some (q, n) := by
  simp only [List.mem_dedup, List.mem_filterMap, Option.map_eq_some_iff] at h
  obtain ⟨p, -, ⟨q', n⟩, hprod, rfl⟩ := h
  exact ⟨p, n, hprod⟩

theorem exec_stationControlArrive_start (s : State) (r : StationRef) (hoff : (getSt s r).st = .off) (habort : (getSt s r).abort = false)
    (hdrain : (getSt s r).drain = false) (hen : (getSt s r).en = true) (hready : (getSt s r).ready = true)
    (hprod : ∀ p q n, (getIn s r p).prod = some (q, n) → NothingWaits s q) :
    Runs (.stationControlArrive r) s (SameButWaits (grantedFromOff s r)) := by
  have hwait := sameButWaits_updWait (grantedFromOff s r) r
  have hpump : SameButWaits (grantedFromOff s r) (pumpProducers (updWait (grantedFromOff s r) r) r) := by
    refine hwait.trans (sameButWaits_foldl_creditPump _ _ fun q hq => ?_)
    obtain ⟨p, n, hqn⟩ := mem_producers _ r q hq
    have hport : (getIn (grantedFromOff s r) r p).prod = (getIn s r p).prod := by
      rw [getIn, getSt_grantedFromOff, vmap_get, getIn]
      split <;> rfl
    rw [hwait.getIn, hport] at hqn
    exact (nothingWaits_grantedFromOff s r q (hprod p q n hqn)).of_same hwait
  refine ⟨_, exec_stationControlArrive s r, ?_⟩
  rw [moveStation_start s r hoff habort hdrain hen hready]
  split
  · exact hpump
  · exact hwait

theorem stationControlArrive : StationControlArrive := by
  intro s r
  refine ⟨?fenced, ?drain, ?pause, ?start, ?abort⟩
  case fenced =>
    exact fun h => exec_stationControlArrive_ungranted s _ r (moveStation_fenced s r h) (ins_bitsCame s r)
  case drain =>
    exact fun hfenced habort hdrain => exec_stationControlArrive_ungranted s _ r (moveStation_drain s r hfenced habort hdrain)
      (ins_moved s r _ fun _ => rfl)
  case pause =>
    exact fun hrest habort hdrain hen => exec_stationControlArrive_ungranted s _ r (moveStation_pause s r hrest habort hdrain hen)
      (ins_moved s r _ fun _ => rfl)
  case start =>
    intro hoff habort hdrain hen hready hprod
    obtain ⟨t, hrun, hsame⟩ := exec_stationControlArrive_start s r hoff habort hdrain hen hready fun p q n hq => hprod p q n hq
    refine ⟨t, hrun, ?_, ?_, fun p hconn => ?_⟩
    · rw [hsame.st, getSt_grantedFromOff]
      exact restState_cases _ r
    · rw [hsame.enA, getSt_grantedFromOff]
      exact hen
    · rw [hsame.getIn, getIn, getSt_grantedFromOff, vmap_get, if_pos hconn]
  case abort =>
    rintro b rfl hidle hfiring habort
    exact exec_stationControlArrive_ungranted s _ _ (moveStation_abort_mask s b hidle hfiring habort) (ins_moved s _ _ fun _ => rfl)

/-- Settles O14: a write of one control bit sets that bit (`busWrite_pgCtrl`, `busWrite_trnShare`, `busWrite_redShare`), and its arrival moves
the station (`stationControlArrive`). -/
theorem stationControlBitsArrive : Obligations.StationControlBitsArrive := ⟨controlBits, stationControlArrive, shareControl⟩

end Sys2Proof.Machine

/-! PROOFS. Bay memory (R72, R124 to R127, R147): what keeps a stack's record of faults, and so what a bay's failure, a line found uncorrectable and a
zeroing that ends leave of it. O36 from them. -/

namespace Sys2Proof.Machine

open Sys2Proof.Said

/-! ## What keeps the record of faults -/

/-- What a stack records of its faults: whether it failed, its fenced pseudo-channels and poisoned lines, and the uncorrectable lines counted. -/
def faultRecord (m : BayMem) : Bool × List (Fin 64) × List Nat × W32 × Nat := (m.failed, m.pcFenced, m.poisoned, m.ue, m.ueAddr)

/-- Every stack's record of faults is in `t` as in `s`, and no daybook entry of `s` is lost. -/
structure FaultsKept (s t : State) : Prop where
  record : ∀ b : BayId, faultRecord t.bays[b].mem = faultRecord s.bays[b].mem
  logged : s.dbkIn <+: t.dbkIn

theorem FaultsKept.refl (s : State) : FaultsKept s s := ⟨fun _ => rfl, List.prefix_refl _⟩

theorem FaultsKept.trans {s t u : State} (h : FaultsKept s t) (h' : FaultsKept t u) : FaultsKept s u :=
  ⟨fun b => (h'.record b).trans (h.record b), h.logged.trans h'.logged⟩

theorem FaultsKept.foldl {α : Type} (f : State → α → State) (hf : ∀ s a, FaultsKept s (f s a)) (l : List α) (s : State) :
    FaultsKept s (l.foldl f s) :=
  foldl_keeps f (FaultsKept s) (fun t a h => h.trans (hf t a)) l s (.refl s)

theorem FaultsKept.of_mem {s t : State} (hmem : ∀ b : BayId, t.bays[b].mem = s.bays[b].mem) (hlog : t.dbkIn = s.dbkIn) : FaultsKept s t :=
  ⟨fun b => congrArg faultRecord (hmem b), hlog ▸ List.prefix_refl _⟩

theorem FaultsKept.withTokFlight {s t : State} (h : FaultsKept s t) (l : List (StationRef × PortId × Token)) :
    FaultsKept s { t with tokFlight := l } := ⟨h.record, h.logged⟩

theorem faultsKept_modBay (s : State) (b : BayId) (f : Bay → Bay) (hf : ∀ y, faultRecord (f y).mem = faultRecord y.mem) :
    FaultsKept s (modBay s b f) := by
  refine ⟨fun c => ?_, List.prefix_refl _⟩
  by_cases h : c = b
  · subst h
    rw [modBay_same, hf]
  · rw [modBay_other _ _ _ _ h]

theorem faultsKept_modMem (s : State) (b : BayId) (f : BayMem → BayMem) (hf : ∀ m, faultRecord (f m) = faultRecord m) :
    FaultsKept s (modMem s b f) := faultsKept_modBay s b _ fun y => hf y.mem

theorem faultsKept_modSt (s : State) (r : StationRef) (f : Station → Station) : FaultsKept s (modSt s r f) :=
  .of_mem (modSt_mem s r f) (modSt_dbkIn s r f)

theorem faultsKept_logEv (s : State) (p : PartId) (g : Page) (c d0 d1 d2 d3 : Nat) : FaultsKept s (logEv s p g c d0 d1 d2 d3) :=
  ⟨fun _ => rfl, List.prefix_append _ _⟩

theorem faultsKept_logB (s : State) (b : BayId) (src : Page) (code : Nat) (handle : W32) (addr d3 : Nat) :
    FaultsKept s (logB s b src code handle addr d3) := faultsKept_logEv s _ _ _ _ _ _ _

theorem faultsKept_complete (s : State) (h : CmdHdr) (status : Nat) (result : List Byte) : FaultsKept s (complete s h status result) :=
  .of_mem (fun b => by rw [complete_bays]) (complete_dbkIn s h status result)

theorem faultsKept_modBin (s : State) (b : BayId) (i : Nat) (f : Bin → Bin) : FaultsKept s (modBin s b i f) := by
  unfold modBin
  split
  · exact faultsKept_modMem s b _ fun _ => rfl
  · exact .refl s

theorem faultsKept_revokeWin (s : State) (i cause : Nat) : FaultsKept s (revokeWin s i cause) := by
  have hfree : FaultsKept s (freeWin s i) := by
    unfold freeWin
    split
    · exact .refl s
    · exact .of_mem (fun _ => rfl) rfl
  unfold revokeWin
  split
  · exact .refl s
  · exact hfree.trans (faultsKept_logEv _ _ _ _ _ _ _ _)

theorem faultsKept_revokeBinWins (s : State) (b : BayId) (x : Bin) (cause : Nat) : FaultsKept s (revokeBinWins s b x cause) :=
  .foldl (fun s i => revokeWin s i cause) (fun s i => faultsKept_revokeWin s i cause) _ s

/-! ## The failure of a bay and of its bins (R126, R137, R144) -/

theorem faultsKept_failBin (s : State) (b : BayId) (i : Nat) (at_ : BayId × Nat) : FaultsKept s (failBin s b i at_) := by
  unfold failBin
  split
  · exact .refl s
  · next x _ =>
    have hrevoked := ((faultsKept_logB s at_.1 (.st at_.1 .bin) codeUeMetadata (binHandle s b x) at_.2 0).trans
      (faultsKept_modBin _ b i (fun x => { x with state := .failed, wait := match x.wait with
        | some (.zero _) => none
        | w => w }))).trans (faultsKept_revokeBinWins _ b x 4)
    dsimp only
    split
    · refine (hrevoked.trans (.foldl _ ?_ _ _)).trans (faultsKept_complete _ _ _ _)
      exact fun s c => faultsKept_modMem s c _ fun _ => rfl
    · exact hrevoked

theorem faultsKept_returnSlot (s : State) (r : StationRef) (p : PortId) (k : Nat) : FaultsKept s (returnSlot s r p k) := by
  refine .of_mem (returnSlot_mem s r p k) ?_
  unfold returnSlot
  split
  · exact modIn_dbkIn s r p _
  · rfl

theorem faultsKept_modIn (s : State) (r : StationRef) (p : PortId) (f : InPort → InPort) : FaultsKept s (modIn s r p f) :=
  faultsKept_modSt s r _

theorem faultsKept_modOut (s : State) (r : StationRef) (p : PortId) (f : OutPort → OutPort) : FaultsKept s (modOut s r p f) :=
  faultsKept_modSt s r _

theorem faultsKept_spendSlot (s : State) (r : StationRef) (p : PortId) : FaultsKept s (spendSlot s r p).2 := by
  unfold spendSlot
  dsimp only
  refine FaultsKept.trans ?_ (faultsKept_modIn _ r p _)
  exact .of_mem (fun _ => rfl) rfl

theorem faultsKept_handTile (s : State) (home : BayId) (p : PortId) (x : Bin) (t : Tile) (ref : MsgRef) :
    FaultsKept s (handTile s home p x t ref) := by
  have hsent := (faultsKept_spendSlot s (.bay (serveBay home x) .bin) p).trans
    (faultsKept_modIn _ (.bay (serveBay home x) .bin) p (fun q => { q with sent := q.sent + 1 }))
  unfold handTile
  dsimp only
  refine FaultsKept.withTokFlight ?_ _
  split
  · exact hsent.trans (faultsKept_modOut _ _ _ _)
  · exact hsent

theorem faultsKept_takeOver (s : State) (b : BayId) (x : Bin) : FaultsKept s (takeOver s b x) := by
  unfold takeOver
  dsimp only
  refine FaultsKept.trans ?_ (faultsKept_logB _ _ _ _ _ _ _)
  refine FaultsKept.trans ?_ (.foldl _ (fun s ps => faultsKept_returnSlot s _ _ _) _ _)
  refine FaultsKept.trans ?_ (.foldl _ ?handed _ _)
  case handed =>
    intro s pt
    have hreturned := faultsKept_returnSlot s (.bay b .bin) pt.1 pt.2.slot
    split
    · exact hreturned
    · split
      · split
        · exact hreturned
        · exact hreturned.trans (faultsKept_handTile _ _ _ _ _ _)
      · exact hreturned
  refine FaultsKept.trans ?_ (faultsKept_modBin _ _ _ _)
  refine FaultsKept.trans ?_ (faultsKept_modMem _ _ _ fun _ => rfl)
  refine FaultsKept.trans ?_ (.foldl _ (fun s p => faultsKept_modIn s _ p _) _ _)
  exact .of_mem (fun _ => rfl) rfl

theorem faultsKept_failBins (s : State) (b : BayId) : FaultsKept s (failBins s b) := by
  unfold failBins
  refine FaultsKept.trans ?own (.foldl _ (fun s h => .foldl _ (fun s i => ?_) _ s) _ _)
  case own =>
    refine .foldl _ (fun s i => ?_) _ s
    split
    · exact .refl s
    · dsimp only
      split
      · exact .refl s
      · split
        · exact faultsKept_takeOver _ _ _
        · split
          · exact faultsKept_failBin _ _ _ _
          · exact .refl s
  split
  · exact .refl s
  · split
    · split
      · split
        · exact faultsKept_failBin _ _ _ _
        · exact .refl s
      · exact (faultsKept_modBin _ _ _ _).trans (faultsKept_logB _ _ _ _ _ _ _)
    · exact .refl s

/-! ## A gleaning round that ends early (Table 06.10) -/

/-- Every bay's memory and the daybook unit's input are in `t` as in `s`. -/
structure MemKept (s t : State) : Prop where
  mem : ∀ b : BayId, t.bays[b].mem = s.bays[b].mem
  logged : t.dbkIn = s.dbkIn

theorem MemKept.refl (s : State) : MemKept s s := ⟨fun _ => rfl, rfl⟩

theorem MemKept.trans {s t u : State} (h : MemKept s t) (h' : MemKept t u) : MemKept s u :=
  ⟨fun b => (h'.mem b).trans (h.mem b), h'.logged.trans h.logged⟩

theorem MemKept.foldl {α : Type} (f : State → α → State) (hf : ∀ s a, MemKept s (f s a)) (l : List α) (s : State) :
    MemKept s (l.foldl f s) :=
  foldl_keeps f (MemKept s) (fun t a h => h.trans (hf t a)) l s (.refl s)

theorem MemKept.faults {s t : State} (h : MemKept s t) : FaultsKept s t := .of_mem h.mem h.logged

theorem memKept_modBay (s : State) (b : BayId) (f : Bay → Bay) (hf : ∀ y, (f y).mem = y.mem) : MemKept s (modBay s b f) := by
  refine ⟨fun c => ?_, rfl⟩
  by_cases h : c = b
  · subst h
    rw [modBay_same, hf]
  · rw [modBay_other _ _ _ _ h]

theorem memKept_complete (s : State) (h : CmdHdr) (status : Nat) (result : List Byte) : MemKept s (complete s h status result) :=
  ⟨fun b => by rw [complete_bays], complete_dbkIn s h status result⟩

theorem memKept_stopMasks (s : State) (r : Round) : MemKept s (stopMasks s r) := by
  unfold stopMasks
  split
  · exact .refl s
  · refine .foldl _ (fun s x => ?_) _ s
    exact memKept_modBay s x.bay _ fun _ => rfl

theorem memKept_idleRound (s : State) (lead : BayId) : MemKept s (idleRound s lead) := by
  unfold idleRound
  split
  · exact .refl s
  · next r _ =>
    have hstopped := (memKept_modBay s lead (fun y => { y with round := none }) fun _ => rfl).trans (memKept_stopMasks _ r)
    dsimp only
    split
    · exact hstopped.trans (memKept_complete _ _ _ _)
    · exact hstopped

theorem memKept_idleRoundsOfBay (s : State) (b : BayId) : MemKept s (idleRoundsOfBay s b) := by
  refine .foldl _ (fun s l => ?_) _ s
  split
  · split
    · exact memKept_idleRound s l
    · exact .refl s
  · exact .refl s

theorem memKept_settleRounds (s : State) : MemKept s (settleRounds s) := by
  refine .foldl _ (fun s l => ?_) _ s
  split
  · split
    · exact memKept_idleRound s l
    · exact .refl s
  · exact .refl s

/-! ## A pseudo-channel that fails with its bay (R126) -/

theorem faultsKept_setBayAbort (s : State) (b : BayId) : FaultsKept s (setBayAbort s b) := by
  refine .foldl _ (fun s r => ?_) _ s
  exact faultsKept_modSt s r _

theorem failBay_healthy (s : State) (b : BayId) (src : Page) (h : s.bays[b].mem.failed = false) :
    FaultsKept (modMem s b (fun m => { m with failed := true })) (failBay s b src) := by
  unfold failBay
  rw [if_neg (by rw [h]; exact Bool.false_ne_true)]
  refine FaultsKept.trans ?_ (memKept_idleRoundsOfBay _ b).faults
  refine FaultsKept.trans ?_ (faultsKept_failBins _ b)
  refine FaultsKept.trans ?_ (faultsKept_setBayAbort _ b)
  exact faultsKept_logEv _ _ _ _ _ _ _ _

/-- The pseudo-channel is fenced and its entry written; the bay has not failed yet. -/
def channelFenced (s : State) (b : BayId) (pc : Fin 64) : State :=
  logB (modMem s b (fun m => { m with pcFenced := m.pcFenced ++ [pc] })) b (.mem b) codePcFenced 0 0 pc.1

theorem channelFenced_mem (s : State) (b : BayId) (pc : Fin 64) :
    ((channelFenced s b pc).bays[b]).mem = { s.bays[b].mem with pcFenced := s.bays[b].mem.pcFenced ++ [pc] } :=
  (modMem_mem s b b (fun m => { m with pcFenced := m.pcFenced ++ [pc] })).trans (if_pos rfl)

theorem channelFenced_logs (s : State) (b : BayId) (pc : Fin 64) : oneEntry s (channelFenced s b pc) codePcFenced := ⟨_, rfl, rfl⟩

theorem exec_pseudoChannelFence (s : State) (b : BayId) (pc : Fin 64) (hpc : pc ∉ s.bays[b].mem.pcFenced) :
    exec (.pseudoChannelFence b pc true) s = .next (failBay (channelFenced s b pc) b (.mem b)) := by
  show execPseudoChannelFence b pc true s = _
  rw [execPseudoChannelFence, if_neg (by simpa using hpc)]
  rfl

theorem pseudoChannelFence_trainingFailed (s : State) (b : BayId) (pc : Fin 64) (hpc : pc ∉ s.bays[b].mem.pcFenced)
    (hhealthy : s.bays[b].mem.failed = false) :
    Runs (.pseudoChannelFence b pc true) s (fun t => (t.bays[b]).mem.failed = true ∧ (t.bays[b]).mem.pcFenced = s.bays[b].mem.pcFenced ++ [pc] ∧
      firstEntry s t 0x5003) := by
  have hkept := failBay_healthy (channelFenced s b pc) b (.mem b) (by rw [channelFenced_mem]; exact hhealthy)
  have hrecord := hkept.record b
  rw [modMem_same, channelFenced_mem] at hrecord
  simp only [faultRecord, Prod.mk.injEq] at hrecord
  obtain ⟨hfailed, hfenced, -⟩ := hrecord
  obtain ⟨later, hlater⟩ := hkept.logged
  obtain ⟨e, hentry, hcode⟩ := channelFenced_logs s b pc
  refine ⟨_, exec_pseudoChannelFence s b pc hpc, hfailed, hfenced, e, later, ?_, hcode⟩
  rw [← hlater, modMem_dbkIn, hentry, List.append_assoc, List.singleton_append]

/-! ## What an uncorrectable line means to the bins (R137) and to a gleaning round (R164) -/

theorem faultRecord_sramWrite (fuel : Nat) (y : Bay) (a : Nat) (bs : List Byte) : faultRecord (sramWrite y fuel a bs).mem = faultRecord y.mem := by
  induction fuel generalizing y a bs with
  | zero => rfl
  | succ fuel ih =>
    simp only [sramWrite]
    split
    · rfl
    · rw [ih]
      split <;> rfl

theorem faultRecord_dramModify (m : BayMem) (a : Nat) (bs : List Byte) : faultRecord (dramModify m a bs) = faultRecord m := by
  unfold dramModify
  split
  · rfl
  · refine foldl_keeps _ (fun n : BayMem => faultRecord n = faultRecord m) (fun n p hn => ?_) _ m rfl
    split
    · exact hn
    · exact hn

theorem faultsKept_locModify (s : State) (l : Loc) (off : Nat) (bs : List Byte) : FaultsKept s (locModify s l off bs) := by
  unfold locModify
  split
  · exact faultsKept_modBay s l.bay _ fun y => faultRecord_sramWrite 52 y _ bs
  · exact faultsKept_modMem s l.bay _ fun m => faultRecord_dramModify m _ bs

theorem faultsKept_setLocPoison (s : State) (b : BayId) (l : Loc) (x : Bin) (k cause : Nat) : FaultsKept s (setLocPoison s b l x k cause) := by
  unfold setLocPoison
  split
  · exact (faultsKept_locModify s l _ _).trans (faultsKept_modMem _ b _ fun _ => rfl)
  · exact .refl s

theorem faultsKept_ueCopy (s : State) (home : BayId) (i : Nat) (l : Loc) (a : Nat) : FaultsKept s (ueCopy s home i l a) := by
  unfold ueCopy
  split
  · exact .refl s
  · dsimp only
    split
    · split
      · exact (faultsKept_setLocPoison _ _ _ _ _ _).trans (faultsKept_logB _ _ _ _ _ _ _)
      · exact .refl s
    · split
      · exact .refl s
      · split
        · split
          · exact faultsKept_failBin _ _ _ _
          · split
            · exact faultsKept_modBin _ _ _ _
            · exact .refl s
        · split
          · refine .foldl _ (fun s k => ?_) _ s
            split
            · split
              · exact faultsKept_modMem s home _ fun _ => rfl
              · exact .refl s
            · exact faultsKept_setLocPoison _ _ _ _ _ _
          · exact .refl s

theorem FaultsKept.withRot {s t : State} (h : FaultsKept s t) (r : Rot) : FaultsKept s { t with rot := r } := ⟨h.record, h.logged⟩

theorem faultsKept_ueWorking (s : State) (b : BayId) (a : Nat) : FaultsKept s (ueWorking s b a) := by
  refine .foldl _ (fun s p => ?_) _ s
  split
  · exact .refl s
  · split
    · exact .refl s
    · dsimp only
      split
      · exact .refl s
      · refine FaultsKept.withRot ?_ _
        split
        · split
          · split
            · exact .refl s
            · exact (memKept_idleRound s b).faults
          · exact .refl s
        · exact .refl s

/-! ## Patrol scrub (R127) -/

theorem mem_insertNat (k : Nat) (l : List Nat) : k ∈ insertNat k l := by
  induction l with
  | nil => simp [insertNat]
  | cons j l ih =>
    simp only [insertNat]
    split
    · simp
    · split
      · next h => simp [h]
      · simp [ih]

/-- Reads that find no line uncorrectable count what they correct. -/
theorem readFaults_corrected (s : State) (b : BayId) (spans : List (Nat × Nat)) (n : Nat) :
    readFaults s b spans { ue := [], ce := n } = modMem s b (fun m => { m with ce := m.ce + word32 n }) := by
  simp [readFaults, noteFaults]

/-- A stack in which a read has found one more line uncorrectable. -/
def lineFound (a : Nat) (at_ : W64) (m : BayMem) : BayMem :=
  { m with ce := m.ce + word32 0, poisoned := insertNat a m.poisoned, ue := m.ue + 1, ueAddr := a, recentUe := (a, at_) :: m.recentUe }

/-- A line read and found uncorrectable for the first time is counted, poisoned and recorded. -/
theorem noteFaults_line (s : State) (b : BayId) (a : Nat) (hline : lineAddr a = a) (hfresh : lineUe s.bays[b].mem a = false) :
    ((noteFaults s b [(a, 64)] { ue := [a], ce := 0 }).bays[b]).mem = lineFound a s.alm.t s.bays[b].mem := by
  have hspan : inSpans [(a, 64)] a = true := by simp [inSpans]
  have hone : [a].dedup = [a] := (List.nodup_singleton a).dedup
  have hfresh' : lineUe { s.bays[b].mem with ce := s.bays[b].mem.ce + word32 0 } a = false := hfresh
  rw [noteFaults, modMem_mem, if_pos rfl]
  simp only [List.map_cons, List.map_nil, hline, hone, List.foldl_cons, List.foldl_nil, hspan, hfresh', Bool.not_false,
    Bool.and_self, if_true]
  rfl

theorem faultsKept_readFaults (s : State) (b : BayId) (spans : List (Nat × Nat)) (lf : LineFaults) :
    FaultsKept (noteFaults s b spans lf) (readFaults s b spans lf) := by
  refine .foldl _ (fun s x => ?_) _ _
  refine FaultsKept.trans ?_ (faultsKept_ueWorking _ b x)
  exact .foldl _ (fun s c => faultsKept_ueCopy s _ _ _ x) _ s

/-- What the patrol does with a line read (R127). -/
def scrubLine (s : State) (b : BayId) (line : Nat) : LineRead → State
  | .clean => s
  | .corrected => modMem s b (fun m => { m with ce := m.ce + 1 })
  | .uncorrectable => readFaults s b [(64 * line, 64)] { ue := [64 * line], ce := 0 }

section Patrolled
variable {s : State} {b : BayId} {line : Nat} (hline : line < 2 ^ 31) (htrained : s.bays[b].mem.trained = true)
  (hpatrol : s.bays[b].mem.patrolEn = true) (hawake : s.bays[b].mem.selfRefresh = false)
include hline htrained hpatrol hawake

theorem exec_patrolScrubRead (found : LineRead) :
    exec (.patrolScrubRead b line found) s = .next (scrubLine s b line found) := by
  have haddr : line % 2 ^ 31 * 64 = 64 * line := by rw [Nat.mod_eq_of_lt hline, Nat.mul_comm]
  have hruns : (!s.bays[b].mem.trained || !s.bays[b].mem.patrolEn || s.bays[b].mem.selfRefresh) = false := by
    rw [htrained, hpatrol, hawake]; rfl
  show execPatrolScrubRead b line found s = _
  simp only [execPatrolScrubRead, hruns, haddr, Bool.false_eq_true, if_false]
  cases found with
  | clean | uncorrectable => rfl
  | corrected => exact congrArg Host.Outcome.next (readFaults_corrected s b _ 1)

theorem patrolScrubRead_uncorrectable (hfresh : lineUe s.bays[b].mem (64 * line) = false) :
    Runs (.patrolScrubRead b line .uncorrectable) s (fun t =>
      lineUe (t.bays[b]).mem (64 * line) = true ∧ (t.bays[b]).mem.ue = s.bays[b].mem.ue + 1 ∧ (t.bays[b]).mem.ueAddr = 64 * line) := by
  have haddr : lineAddr (64 * line) = 64 * line := by unfold lineAddr; omega
  have hrecord := (faultsKept_readFaults s b [(64 * line, 64)] { ue := [64 * line], ce := 0 }).record b
  rw [noteFaults_line s b (64 * line) haddr hfresh] at hrecord
  simp only [faultRecord, lineFound, Prod.mk.injEq] at hrecord
  obtain ⟨-, -, hpoisoned, hcount, hlast⟩ := hrecord
  have hue : lineUe ((readFaults s b [(64 * line, 64)] { ue := [64 * line], ce := 0 }).bays[b]).mem (64 * line) = true := by
    rw [lineUe, hpoisoned, haddr]
    simp [mem_insertNat]
  exact ⟨_, exec_patrolScrubRead hline htrained hpatrol hawake .uncorrectable, hue, hcount, hlast⟩

end Patrolled

/-! ## A zeroing that ends (R147) -/

/-- A zeroed span reads 0 outside the fenced lines, and all else as before. -/
theorem memGet_dramZero (m : BayMem) (a n x : Nat) : memGet (dramZero m a n).dram x =
    if a ≤ x ∧ x < a + n ∧ lineFenced m x = false then 0 else memGet m.dram x := by
  unfold dramZero
  split
  · next hnone =>
    have hclear : lineFenced m x = false := by simp [lineFenced, hnone]
    simp [memGet_memZero, hclear]
  · have hfilter := memGet_filter m.dram (fun k => decide (k < a) || decide (a + n ≤ k) || lineFenced m k) x
    refine hfilter.trans ?_
    by_cases hlow : x < a <;> by_cases hhigh : a + n ≤ x <;> cases lineFenced m x <;>
      simp [hlow, hhigh, Nat.le_of_not_lt, Nat.lt_of_not_le]

/-- The bay's memory once the zeroing at the head of its scrub engine is done (R390: that of a partial reset follows the training). -/
def zeroed (q : ScrubReq) (rest : List ScrubReq) (m : BayMem) : BayMem :=
  { dramZero (if q.why = .prst then memTrained m else m) q.base q.len with scrub := rest }

theorem exec_scrubZeroComplete (s : State) (b : BayId) (q : ScrubReq) (rest : List ScrubReq) (hhead : s.bays[b].mem.scrub = q :: rest)
    (hawake : s.bays[b].mem.selfRefresh = false) :
    exec (.scrubZeroComplete b) s = .next (scrubDone (modMem s b (zeroed q rest)) b q) := by
  show execScrubZeroComplete b s = _
  simp only [execScrubZeroComplete, hhead, hawake, Bool.false_eq_true, if_false]
  rfl

theorem memGet_zeroed_in (m : BayMem) (q : ScrubReq) (rest : List ScrubReq) (a : Nat) (hlo : q.base ≤ a) (hhi : a < q.base + q.len)
    (hclear : lineFenced m a = false) : memGet (zeroed q rest m).dram a = 0 := by
  have hclear' : lineFenced (if q.why = .prst then memTrained m else m) a = false := by
    split
    · rfl
    · exact hclear
  exact (memGet_dramZero _ q.base q.len a).trans (if_pos ⟨hlo, hhi, hclear'⟩)

theorem memGet_zeroed_out (m : BayMem) (q : ScrubReq) (rest : List ScrubReq) (a : Nat) (hout : a < q.base ∨ q.base + q.len ≤ a) :
    memGet (zeroed q rest m).dram a = memGet m.dram a := by
  have hdram : (if q.why = .prst then memTrained m else m).dram = m.dram := by split <;> rfl
  have hspan : ¬ (q.base ≤ a ∧ a < q.base + q.len ∧ lineFenced (if q.why = .prst then memTrained m else m) a = false) := by omega
  exact ((memGet_dramZero _ q.base q.len a).trans (if_neg hspan)).trans (by rw [hdram])

theorem zeroed_bins (m : BayMem) (q : ScrubReq) (rest : List ScrubReq) :
    (zeroed q rest m).bins = m.bins ∧ (zeroed q rest m).binGen = m.binGen := by
  unfold zeroed dramZero
  split <;> split <;> exact ⟨rfl, rfl⟩

/-! ## What follows a zeroing -/

/-- Every bay's stack and scrub engine is in `t` as in `s`. -/
def StacksKept (s t : State) : Prop := ∀ b : BayId, (t.bays[b]).mem.dram = s.bays[b].mem.dram ∧ (t.bays[b]).mem.scrub = s.bays[b].mem.scrub

theorem stacksKept_modMem (s : State) (b : BayId) (f : BayMem → BayMem) (hf : ∀ m, (f m).dram = m.dram ∧ (f m).scrub = m.scrub) :
    StacksKept s (modMem s b f) := by
  intro c
  rw [modMem_mem]
  split
  · next h => rw [h]; exact hf _
  · exact ⟨rfl, rfl⟩

theorem StacksKept.of_mem {s t u : State} (h : StacksKept s t) (h' : MemKept t u) : StacksKept s u := by
  intro b
  rw [h'.mem b]
  exact h b

theorem stacksKept_modBin (s : State) (b : BayId) (i : Nat) (f : Bin → Bin) : StacksKept s (modBin s b i f) := by
  unfold modBin
  split
  · exact stacksKept_modMem s b _ fun _ => ⟨rfl, rfl⟩
  · exact fun _ => ⟨rfl, rfl⟩

/-- What a zeroing was for: a bin, a free index or a trained stack goes into use, and no byte changes. -/
theorem stacksKept_scrubDone (s : State) (b : BayId) (q : ScrubReq) : StacksKept s (scrubDone s b q) := by
  have hsame : StacksKept s s := fun _ => ⟨rfl, rfl⟩
  unfold scrubDone
  split
  · split
    · exact hsame
    · unfold allocDone
      split
      · exact hsame
      · split
        · exact (stacksKept_modBin _ _ _ _).of_mem (memKept_complete _ _ _ _)
        · exact hsame
  · split
    · exact hsame
    · refine StacksKept.of_mem (StacksKept.of_mem ?_ (memKept_complete _ _ _ _)) (memKept_settleRounds _)
      exact stacksKept_modMem s _ _ fun _ => ⟨rfl, rfl⟩
  · exact stacksKept_modMem s b (fun m => { m with trained := true, training := false, trainFail := false, failed := false })
      fun _ => ⟨rfl, rfl⟩
  · exact hsame

/-- A stack in service is trained and has not failed, and BAY_READY says so (R386, R388). -/
theorem stackInService_ready (s : State) (b : BayId) : ((stackInService s b).bays[b]).mem.trained = true ∧
    ((stackInService s b).bays[b]).mem.failed = false ∧ oneEntry s (stackInService s b) 0xD00C := by
  have hmem : ((stackInService s b).bays[b]).mem = { s.bays[b].mem with trained := true, training := false, trainFail := false, failed := false } :=
    (modMem_mem s b b (fun m => { m with trained := true, training := false, trainFail := false, failed := false })).trans (if_pos rfl)
  rw [hmem]
  exact ⟨rfl, rfl, _, rfl, rfl⟩

theorem completes_complete (s : State) (h : CmdHdr) (status : Nat) (result : List Byte) : completes s (complete s h status result) h status result :=
  ⟨complete_inFlight s h status result, complete_held s h status result, fun hd => (complete_dead s h status result hd).1⟩

@[simp] theorem findBin_complete (s : State) (h : CmdHdr) (status : Nat) (result : List Byte) (b : BayId) (i : Nat) :
    findBin (complete s h status result) b i = findBin s b i := by
  simp only [findBin, complete_bays]

/-- A bin that is changed in place is found changed. -/
theorem findBin_modBin_same (s : State) (b : BayId) (i : Nat) (f : Bin → Bin) (x : Bin) (hx : findBin s b i = some x) :
    findBin (modBin s b i f) b i = some { f x with index := i } := by
  have hput : modBin s b i f = putBin s b { f x with index := i } := by rw [modBin, hx]
  rw [hput, findBin]
  unfold putBin
  rw [modMem_mem, if_pos rfl]
  exact lookup_insertKey_same i _ _

theorem modBin_qm (s : State) (b : BayId) (i : Nat) (f : Bin → Bin) : (modBin s b i f).qm = s.qm := by
  unfold modBin
  split <;> rfl

/-- The bin that BIN_ALLOC asked for goes into use: OPEN a gatherer, SUM another, and the command returns its handle. -/
theorem allocDone_zeroing (s : State) (home : BayId) (h : CmdHdr) (x : Bin) (hx : findBin s home x.index = some x) (hstate : x.state = .zeroing) :
    completes s (allocDone s home x.index h) h 0 (leBytes 4 (binHandle s home x).toNat) ∧
      findBin (allocDone s home x.index h) home x.index = some { x with state := if x.kind = 1 then .opened else .sum, wait := none } := by
  have hdone : allocDone s home x.index h = complete (modBin s home x.index (fun x =>
      { x with state := if isGatherer x then .opened else .sum, wait := none })) h 0 (leBytes 4 (binHandle s home x).toNat) := by
    rw [allocDone, hx]
    exact if_pos hstate
  refine ⟨?_, ?_⟩
  · have hcompletes := completes_complete (modBin s home x.index (fun x => { x with state := if isGatherer x then .opened else .sum, wait := none }))
      h 0 (leBytes 4 (binHandle s home x).toNat)
    rw [completes, modBin_qm] at hcompletes
    rw [hdone]
    exact hcompletes
  · rw [hdone, findBin_complete, findBin_modBin_same s home x.index _ x hx]
    simp [isGatherer]

/-- No zeroing for a purpose is left once the one that ended was the last for it. -/
theorem scrubLeft_last (s : State) (b : BayId) (q : ScrubReq) (rest : List ScrubReq)
    (hlast : ∀ c : BayId, ∀ y ∈ (if c = b then rest else s.bays[c].mem.scrub), y.why ≠ q.why) :
    scrubLeft (modMem s b (zeroed q rest)) q.why = false := by
  rw [scrubLeft, List.any_eq_false]
  intro c _
  rw [modMem_mem, Bool.not_eq_true, List.any_eq_false]
  intro y hy
  have hne := hlast c y (by
    split at hy
    · next h => rw [if_pos h]; exact hy
    · next h => rw [if_neg h]; exact hy)
  simpa using hne

/-- What SCRUB_ZERO_COMPLETE leaves in the stack: its scrub engine goes on, the span reads 0 outside the fenced lines, and all else is as
before. -/
theorem scrubDone_stack (s : State) (b : BayId) (q : ScrubReq) (rest : List ScrubReq) :
    let t := scrubDone (modMem s b (zeroed q rest)) b q
    (t.bays[b]).mem.scrub = rest ∧
      (∀ a, q.base ≤ a → a < q.base + q.len → lineFenced s.bays[b].mem a = false → memGet (t.bays[b]).mem.dram a = 0) ∧
      (∀ a, a < q.base ∨ q.base + q.len ≤ a → memGet (t.bays[b]).mem.dram a = memGet s.bays[b].mem.dram a) := by
  have hmem : ((modMem s b (zeroed q rest)).bays[b]).mem = zeroed q rest s.bays[b].mem := (modMem_mem s b b _).trans (if_pos rfl)
  obtain ⟨hdram, hscrub⟩ := stacksKept_scrubDone (modMem s b (zeroed q rest)) b q b
  rw [hmem] at hdram hscrub
  simp only [hdram]
  exact ⟨hscrub, fun a hlo hhi hclear => memGet_zeroed_in _ q rest a hlo hhi hclear, fun a hout => memGet_zeroed_out _ q rest a hout⟩

/-- The last zeroing of a BIN_ALLOC puts its bin into use and completes it. -/
theorem scrubDone_binAlloc (s : State) (b : BayId) (q : ScrubReq) (rest : List ScrubReq) (home : BayId) (h : CmdHdr) (x : Bin)
    (hwhy : q.why = .binAlloc home x.index h) (hx : findBin s home x.index = some x) (hstate : x.state = .zeroing)
    (hlast : ∀ c : BayId, ∀ y ∈ (if c = b then rest else s.bays[c].mem.scrub), y.why ≠ q.why) :
    completes s (scrubDone (modMem s b (zeroed q rest)) b q) h 0 (leBytes 4 (binHandle s home x).toNat) ∧
      findBin (scrubDone (modMem s b (zeroed q rest)) b q) home x.index =
        some { x with state := if x.kind = 1 then .opened else .sum, wait := none } := by
  have hleft := scrubLeft_last s b q rest hlast
  have hdone : scrubDone (modMem s b (zeroed q rest)) b q = allocDone (modMem s b (zeroed q rest)) home x.index h := by
    rw [scrubDone, hwhy]
    rw [hwhy] at hleft
    exact if_neg (by rw [hleft]; exact Bool.false_ne_true)
  have hx' : findBin (modMem s b (zeroed q rest)) home x.index = some x :=
    (findBin_modMem s home b _ x.index fun m => (zeroed_bins m q rest).1).trans hx
  have hgen : binGenOf (modMem s b (zeroed q rest)) home x.index = binGenOf s home x.index := by
    rw [binGenOf, modMem_mem]
    split
    · next hb => rw [(zeroed_bins _ q rest).2, hb, binGenOf]
    · rfl
  have hhandle : binHandle (modMem s b (zeroed q rest)) home x = binHandle s home x := by rw [binHandle, hgen, binHandle]
  rw [hdone, ← hhandle]
  exact allocDone_zeroing (modMem s b (zeroed q rest)) home h x hx' hstate

theorem scrubDone_trained (s : State) (b : BayId) (q : ScrubReq) (rest : List ScrubReq) (hwhy : q.why = .trained) :
    let t := scrubDone (modMem s b (zeroed q rest)) b q
    (t.bays[b]).mem.trained = true ∧ (t.bays[b]).mem.failed = false ∧ oneEntry s t 0xD00C := by
  have hdone : scrubDone (modMem s b (zeroed q rest)) b q = stackInService (modMem s b (zeroed q rest)) b := by rw [scrubDone, hwhy]
  simp only [hdone]
  exact stackInService_ready (modMem s b (zeroed q rest)) b

/-! ## The statement -/

theorem exec_selfRefreshEnter (s : State) (b : BayId) (hwanted : s.bays[b].mem.selfRefreshWanted = true) (hdrained : s.bays[b].mem.inFlight = []) :
    exec (.selfRefreshEnter b) s = .next (modMem s b (fun m => { m with selfRefresh := true, selfRefreshWanted := false })) := by
  show execSelfRefreshEnter b s = _
  rw [execSelfRefreshEnter, hwanted, hdrained]
  rfl

/-- Settles O36: a bay's failure keeps the fence and its entry (`failBay_healthy`), a line found keeps its record whatever it means to the bins
(`faultsKept_readFaults`), and what follows a zeroing changes no byte (`stacksKept_scrubDone`). -/
theorem bayMemoryRefreshesScrubsAndZeroes : Obligations.BayMemoryRefreshesScrubsAndZeroes := by
  refine ⟨exec_selfRefreshEnter, pseudoChannelFence_trainingFailed, ?patrol, ?zero⟩
  case patrol =>
    intro s b line hline htrained hpatrol hawake
    exact ⟨exec_patrolScrubRead hline htrained hpatrol hawake .clean, exec_patrolScrubRead hline htrained hpatrol hawake .corrected,
      patrolScrubRead_uncorrectable hline htrained hpatrol hawake⟩
  case zero =>
    intro s b q rest hhead hawake
    obtain ⟨hscrub, hzero, hkept⟩ := scrubDone_stack s b q rest
    refine ⟨_, exec_scrubZeroComplete s b q rest hhead hawake, hscrub, hzero, hkept, scrubDone_trained s b q rest, ?_⟩
    rintro home i h x hwhy hx rfl hstate hlast
    exact scrubDone_binAlloc s b q rest home h x hwhy hx hstate hlast

end Sys2Proof.Machine

/-! PROOFS. Windows (R112 to R115): keyed lists, and what freeing, closing and revoking a window do, each once; then O35 from them. -/

namespace Sys2Proof.Machine

open Sys2Proof.Said

/-! ## Keyed lists -/

/-- Another key is found as before, whatever the order of the list. -/
theorem lookup_insertKey_other (k j : Nat) (a : α) (l : List (Nat × α)) (hne : j ≠ k) : lookup j (insertKey k a l) = lookup j l := by
  have hk : (k == j) = false := by simpa using Ne.symm hne
  induction l with
  | nil => simp [insertKey, lookup, hk]
  | cons p t ih =>
    obtain ⟨i, b⟩ := p
    simp only [insertKey]
    split
    · simp [lookup, List.find?_cons, hk]
    · split
      · next heq => subst heq; simp [lookup, hk]
      · cases hi : i == j with
        | true => simp [lookup, hi]
        | false => simpa [lookup, List.find?_cons, hi] using ih

/-- A key that was taken out is not found. -/
theorem lookup_eraseKey_same (k : Nat) (l : List (Nat × α)) : lookup k (eraseKey k l) = none := by
  simp [lookup, eraseKey, List.find?_eq_none]

/-- What a key is found with is listed under it. -/
theorem mem_of_lookup {k : Nat} {a : α} {l : List (Nat × α)} (h : lookup k l = some a) : (k, a) ∈ l := by
  obtain ⟨p, hp, rfl⟩ := Option.map_eq_some_iff.1 h
  obtain rfl : p.1 = k := by simpa using List.find?_some hp
  exact List.mem_of_find?_eq_some hp

/-- A list with a key put in lists nothing else new. -/
theorem mem_insertKey {k : Nat} {a : α} {l : List (Nat × α)} {q : Nat × α} (h : q ∈ insertKey k a l) : q = (k, a) ∨ q ∈ l := by
  induction l with
  | nil => simpa [insertKey] using h
  | cons p t ih =>
    obtain ⟨i, b⟩ := p
    simp only [insertKey] at h
    split at h
    · simpa using h
    · split at h
      · rcases List.mem_cons.1 h with h | h
        · exact .inl h
        · exact .inr (List.mem_cons_of_mem _ h)
      · rcases List.mem_cons.1 h with h | h
        · exact .inr (h ▸ List.mem_cons_self)
        · exact (ih h).imp_right (List.mem_cons_of_mem _)

/-! ## How a queue command ends -/

/-- A command that leaves the queue manager as its begin left it completes once, with its status. -/
theorem completes_begun {s u : State} {i : Instr} (hqm : u.qm = (begun s i).qm) (h : CmdHdr) (status : Nat) (result : List Byte) :
    completes s (complete u h status result) h status result := by
  have hdone := completes_complete u h status result
  unfold completes at hdone ⊢
  rwa [hqm] at hdone

/-- The completion itself moves nothing of Intake and writes no entry. -/
@[simp] theorem getWin_complete (s : State) (h : CmdHdr) (st : Nat) (r : List Byte) (i : Nat) : getWin (complete s h st r) i = getWin s i := by
  simp only [getWin, complete_wins]
@[simp] theorem winGenOf_complete (s : State) (h : CmdHdr) (st : Nat) (r : List Byte) (i : Nat) :
    winGenOf (complete s h st r) i = winGenOf s i := by
  simp only [winGenOf, complete_wins]
@[simp] theorem winMsgs_complete (s : State) (h : CmdHdr) (st : Nat) (r : List Byte) (sm : W32) :
    winMsgs (complete s h st r) sm = winMsgs s sm := by
  simp only [winMsgs, complete_trn]
@[simp] theorem getChan_complete (s : State) (h : CmdHdr) (st : Nat) (r : List Byte) (c : Nat) : getChan (complete s h st r) c = getChan s c := by
  simp only [getChan, complete_trn]
@[simp] theorem oneEntry_complete (s u : State) (h : CmdHdr) (st : Nat) (r : List Byte) (code : Nat) :
    oneEntry s (complete u h st r) code ↔ oneEntry s u code := by
  simp only [oneEntry, complete_dbkIn]

/-- The tenant that issued a command of its partition. -/
theorem issuer_tenant {h : CmdHdr} {p : TenantId} (hp : h.part = tenantPart p) : issuer h = some p := by
  simp [issuer, partTenant, hp, tenantPart, finOpt]

/-! ## A window's state (Table 04.10) -/

section Window
variable {s : State} {i : Nat} {w : Window} (hw : getWin s i = some w)
include hw

theorem modWin_eq (f : Window → Window) : modWin s i f = { s with wins := { s.wins with tab := insertKey i (f w) s.wins.tab } } := by
  simp [modWin, hw]

theorem getWin_modWin (f : Window → Window) : getWin (modWin s i f) i = some (f w) := by
  rw [modWin_eq hw]
  exact lookup_insertKey_same i (f w) s.wins.tab

theorem winMsgs_modWin (f : Window → Window) (sm : W32) : winMsgs (modWin s i f) sm = winMsgs s sm := by
  rw [modWin_eq hw]
  rfl

/-- A window that returns to FREE: its messages that are not a transfer's are gone, its generation is one higher. -/
theorem freeWin_eq : freeWin s i = { s with
    trn := { s.trn with msgs := s.trn.msgs.filter (fun m => m.reduce || m.shelfmark != shelfmarkOf w i) }
    wins := { s.wins with tab := eraseKey i s.wins.tab, gen := insertKey i (nextGen w.gen) s.wins.gen } } := by
  simp [freeWin, hw, modTrn]

theorem getWin_freeWin : getWin (freeWin s i) i = none := by
  rw [freeWin_eq hw]
  exact lookup_eraseKey_same i s.wins.tab

theorem winGenOf_freeWin : winGenOf (freeWin s i) i = nextGen w.gen := by
  rw [freeWin_eq hw]
  exact congrArg (·.getD 1) (lookup_insertKey_same i (nextGen w.gen) s.wins.gen)

theorem winMsgs_freeWin : winMsgs (freeWin s i) (shelfmarkOf w i) = [] := by
  rw [freeWin_eq hw]
  simp only [winMsgs, List.filter_filter, List.filter_eq_nil_iff]
  intro m _
  cases m.reduce <;> simp

theorem revokeWin_eq (cause : Nat) :
    revokeWin s i cause = logEv (freeWin s i) w.part .win codeWindowRevoked (shelfmarkOf w i).toNat w.chan w.job.toNat cause := by
  simp [revokeWin, hw]

/-- A window in CLOSING that messages are still staged for stays so. -/
theorem settleWin_waits (hstaged : winMsgs s (shelfmarkOf w i) ≠ []) : settleWin s i = s := by
  simp [settleWin, hw, hstaged]

/-- With none left it settles. -/
theorem settleWin_settles (hstate : w.state = .closing) (hnone : winMsgs s (shelfmarkOf w i) = []) :
    settleWin s i = if w.place then freeWin s i else modWin s i (fun w => { w with state := .closed }) := by
  simp [settleWin, hw, hstate, hnone]

section Closing
variable (hopen : w.state = .opened)
include hopen

theorem closeWin_eq : closeWin s i = settleWin (modWin s i (fun w => { w with state := .closing })) i := by
  simp [closeWin, hw, hopen]

/-- Closing a window that messages are staged for. -/
theorem getWin_closeWin_staged (hstaged : winMsgs s (shelfmarkOf w i) ≠ []) :
    getWin (closeWin s i) i = some { w with state := .closing } := by
  have hclosing := getWin_modWin hw (fun w => { w with state := .closing })
  rw [closeWin_eq hw hopen, settleWin_waits hclosing (by rwa [winMsgs_modWin hw]), hclosing]

/-- Closing a window with nothing staged. -/
theorem closeWin_settled (hnone : winMsgs s (shelfmarkOf w i) = []) : closeWin s i =
    if w.place then freeWin (modWin s i (fun w => { w with state := .closing })) i
    else modWin (modWin s i (fun w => { w with state := .closing })) i (fun w => { w with state := .closed }) := by
  have hclosing := getWin_modWin hw (fun w => { w with state := .closing })
  rw [closeWin_eq hw hopen, settleWin_settles hclosing rfl (by rwa [winMsgs_modWin hw])]

theorem getWin_closeWin_accumulate (hnone : winMsgs s (shelfmarkOf w i) = []) (hplace : w.place = false) :
    getWin (closeWin s i) i = some { w with state := .closed } := by
  have hclosing := getWin_modWin hw (fun w => { w with state := .closing })
  rw [closeWin_settled hw hopen hnone, if_neg (by simp [hplace]), getWin_modWin hclosing]

theorem closeWin_place (hnone : winMsgs s (shelfmarkOf w i) = []) (hplace : w.place = true) :
    getWin (closeWin s i) i = none ∧ winGenOf (closeWin s i) i = nextGen w.gen := by
  have hclosing := getWin_modWin hw (fun w => { w with state := .closing })
  rw [closeWin_settled hw hopen hnone, if_pos hplace]
  exact ⟨getWin_freeWin hclosing, (winGenOf_freeWin hclosing :)⟩

end Closing
end Window

/-- The window that a shelfmark names lies at its index, and the shelfmark is the window's. -/
theorem winCurrent_some {s : State} {sm : W32} {w : Window} (h : winCurrent s sm = some w) :
    getWin s (winIndex sm) = some w ∧ shelfmarkOf w (winIndex sm) = sm := by
  unfold winCurrent at h
  split at h
  · next v hv =>
    split at h
    · next hsm => exact Option.some.inj h ▸ ⟨hv, hsm⟩
    · cases h
  · cases h

/-! ## Closing and settling touch no queue -/

theorem modWin_qm (s : State) (i : Nat) (f : Window → Window) : (modWin s i f).qm = s.qm := by unfold modWin; split <;> rfl
theorem freeWin_qm (s : State) (i : Nat) : (freeWin s i).qm = s.qm := by unfold freeWin; split <;> rfl
theorem settleWin_qm (s : State) (i : Nat) : (settleWin s i).qm = s.qm := by
  unfold settleWin
  split
  · rfl
  · split
    · split
      · exact freeWin_qm s i
      · exact modWin_qm s i _
    · rfl
theorem closeWin_qm (s : State) (i : Nat) : (closeWin s i).qm = s.qm := by
  unfold closeWin
  split
  · rfl
  · split
    · exact (settleWin_qm _ i).trans (modWin_qm s i _)
    · rfl
theorem revokeWin_qm (s : State) (i cause : Nat) : (revokeWin s i cause).qm = s.qm := by
  unfold revokeWin
  split
  · rfl
  · exact freeWin_qm s i

/-! ## The window commands -/

/-- A descriptor that is accepted, with no expiry already past. -/
theorem exec_winOpen_accepted {s : State} {h : CmdHdr} {d : List Byte} (hok : winOk s h d = true)
    (hexpiry : u64 d 0x38 = 0 ∨ s.alm.t.toNat < u64 d 0x38) :
    let w := parseWindow d h.part (winGenOf s (u16 d 4))
    exec (.winOpen h d) s = .next (complete
      { begun s (.winOpen h d) with wins := { s.wins with tab := insertKey (u16 d 4) w s.wins.tab } } h 0
      (leBytes 4 (shelfmarkOf w (u16 d 4)).toNat)) := by
  have hok' : winOk (begun s (.winOpen h d)) h d = true := hok
  have hlate : ¬ (u64 d 0x38 ≠ 0 ∧ u64 d 0x38 ≤ s.alm.t.toNat) := by omega
  show execWinOpen h d s = _
  unfold execWinOpen
  simp only [hok', Bool.not_true, Bool.false_eq_true, if_false]
  exact congrArg (fun u => Host.Outcome.next (complete u h 0 _)) (if_neg hlate)

theorem exec_winOpen_refused {s : State} {h : CmdHdr} {d : List Byte} (hbad : winOk s h d = false) :
    exec (.winOpen h d) s = .next (complete (begun s (.winOpen h d)) h codeWindowViolation []) := by
  have hbad' : winOk (begun s (.winOpen h d)) h d = false := hbad
  show execWinOpen h d s = _
  simp [execWinOpen, hbad']

section Owned
variable {s : State} {h : CmdHdr} {sm : W32} {w : Window} (hw : winCurrent s sm = some w) (hmine : w.part = h.part)
include hw hmine

theorem myWindow_owned : myWindow s h sm = some (winIndex sm) := by simp [myWindow, hw, hmine]

theorem exec_winClose_owned :
    exec (.winClose h sm) s = .next (complete (closeWin (begun s (.winClose h sm)) (winIndex sm)) h 0 []) := by
  have hi : myWindow (begun s (.winClose h sm)) h sm = some (winIndex sm) := myWindow_owned hw hmine
  show execWinClose h sm s = _
  simp [execWinClose, hi]

theorem exec_winRevoke_owned :
    exec (.winRevoke h sm) s = .next (complete (revokeWin (begun s (.winRevoke h sm)) (winIndex sm) 1) h 0 []) := by
  have hi : myWindow (begun s (.winRevoke h sm)) h sm = some (winIndex sm) := myWindow_owned hw hmine
  show execWinRevoke h sm s = _
  simp [execWinRevoke, hi]

end Owned

theorem exec_windowExpiry_reached {s : State} {i : W16} {w : Window} (hw : getWin s i.toNat = some w) (hopen : w.state = .opened)
    (hset : w.expiry ≠ 0) (hpast : w.expiry ≤ s.alm.t.toNat) : exec (.windowExpiry i) s = .next (closeWin s i.toNat) := by
  show execWindowExpiry i s = _
  simp [execWindowExpiry, hw, hopen, hset, hpast]

/-- Settles O35: each command runs as its equation above says, and what its window is then is `getWin_closeWin_staged`,
`getWin_closeWin_accumulate`, `closeWin_place` or `getWin_freeWin`. -/
theorem windowsOpenCloseAndAreRevoked : Obligations.WindowsOpenCloseAndAreRevoked := by
  refine ⟨fun s h d => ⟨?opens, ?refused⟩, fun s h sm w hw hmine => ⟨?closes, ?revoked⟩, ?expires⟩
  case opens =>
    intro hok hexpiry
    refine ⟨_, exec_winOpen_accepted hok hexpiry, ?_, completes_begun (i := .winOpen h d) ?_ h 0 _⟩
    · rw [getWin_complete]
      exact lookup_insertKey_same _ _ _
    · rfl
  case refused =>
    intro hbad
    exact ⟨_, exec_winOpen_refused hbad, complete_wins _ _ _ _, completes_begun rfl h _ _⟩
  case closes =>
    intro hopen
    have hrun := exec_winClose_owned hw hmine
    obtain ⟨hget, hsm⟩ := winCurrent_some hw
    generalize winIndex sm = i at hrun hget hsm ⊢
    subst hsm
    refine ⟨_, hrun, completes_begun (closeWin_qm _ _) h 0 [], ?_⟩
    simp only [getWin_complete, winGenOf_complete]
    exact ⟨getWin_closeWin_staged (s := begun s _) hget hopen, getWin_closeWin_accumulate (s := begun s _) hget hopen,
      closeWin_place (s := begun s _) hget hopen⟩
  case revoked =>
    have hrun := exec_winRevoke_owned hw hmine
    obtain ⟨hget, hsm⟩ := winCurrent_some hw
    generalize winIndex sm = i at hrun hget hsm ⊢
    subst hsm
    have hbegun : getWin (begun s (.winRevoke h (shelfmarkOf w i))) i = some w := hget
    refine ⟨_, hrun, completes_begun (revokeWin_qm _ _ _) h 0 [], ?_⟩
    simp only [getWin_complete, winGenOf_complete, winMsgs_complete, oneEntry_complete]
    rw [revokeWin_eq hbegun]
    refine ⟨getWin_freeWin hbegun, winGenOf_freeWin hbegun, winMsgs_freeWin hbegun, ?_⟩
    rw [freeWin_eq hbegun]
    exact ⟨_, rfl, rfl⟩
  case expires =>
    intro s i w hw hopen hset hpast
    exact ⟨_, exec_windowExpiry_reached hw hopen hset hpast, fun hplace hnone => getWin_closeWin_accumulate hw hopen hnone hplace,
      getWin_closeWin_staged hw hopen, fun hplace hnone => (closeWin_place hw hopen hnone hplace).1⟩

end Sys2Proof.Machine

/-! PROOFS. The channels of Intake (R92 to R104): their contexts, what discarding messages leaves alone, a channel's reset, and the packets
that answer. -/

namespace Sys2Proof.Machine

open Sys2Proof.Said

/-! ## Contexts -/

@[simp] theorem getChan_putChan_same (s : State) (c : Nat) (x : Chan) : getChan (putChan s c x) c = some x :=
  lookup_insertKey_same c x s.trn.chans

theorem getChan_putChan_other (s : State) (c d : Nat) (x : Chan) (hne : d ≠ c) : getChan (putChan s c x) d = getChan s d :=
  lookup_insertKey_other c d x s.trn.chans hne

@[simp] theorem putChan_msgs (s : State) (c : Nat) (x : Chan) : (putChan s c x).trn.msgs = s.trn.msgs := rfl

theorem modChan_eq {s : State} {c : Nat} {x : Chan} (hx : getChan s c = some x) (f : Chan → Chan) : modChan s c f = putChan s c (f x) := by
  simp [modChan, hx]

theorem getChan_modChan {s : State} {c : Nat} {x : Chan} (hx : getChan s c = some x) (f : Chan → Chan) :
    getChan (modChan s c f) c = some (f x) := by
  rw [modChan_eq hx, getChan_putChan_same]

/-- The state with another list of contexts and another use count: nothing else of Intake's work on a packet that authenticates, but for
what the packet asks for. -/
def withChans (s : State) (l : List (Nat × Chan)) (n : Nat) : State := { s with trn := { s.trn with chans := l, useCount := n } }

theorem modChan_withChans (s : State) (c : Nat) (f : Chan → Chan) : ∃ l, modChan s c f = withChans s l s.trn.useCount := by
  unfold modChan
  split
  · exact ⟨_, rfl⟩
  · exact ⟨s.trn.chans, rfl⟩

theorem touchChan_withChans (s : State) (c : Nat) : ∃ l n, touchChan s c = withChans s l n := by
  obtain ⟨l, hl⟩ := modChan_withChans (modTrn s (fun t => { t with useCount := t.useCount + 1 })) c (fun x => { x with lastUse := s.trn.useCount })
  exact ⟨l, _, hl⟩

theorem modChan_qm (s : State) (c : Nat) (f : Chan → Chan) : (modChan s c f).qm = s.qm := by
  obtain ⟨l, hl⟩ := modChan_withChans s c f
  rw [hl]
  rfl

theorem touchChan_qm (s : State) (c : Nat) : (touchChan s c).qm = s.qm := by
  obtain ⟨l, n, htouch⟩ := touchChan_withChans s c
  rw [htouch]
  rfl

theorem modChan_dbkIn (s : State) (c : Nat) (f : Chan → Chan) : (modChan s c f).dbkIn = s.dbkIn := by
  obtain ⟨l, hl⟩ := modChan_withChans s c f
  rw [hl]
  rfl

theorem getChan_touchChan {s : State} {c : Nat} {x : Chan} (hx : getChan s c = some x) :
    getChan (touchChan s c) c = some { x with lastUse := s.trn.useCount } :=
  getChan_modChan (s := modTrn s (fun t => { t with useCount := t.useCount + 1 })) hx _

/-! ## Messages discarded: what is left alone -/

/-- `t` with the flow of tiles, the windows and the staged messages as `s` has them. -/
def withFlowOf (s t : State) : State :=
  { t with tokFlight := s.tokFlight, credFlight := s.credFlight, red := s.red, bays := s.bays, wins := s.wins,
           trn := { t.trn with msgs := s.trn.msgs } }

/-- `t` is `s` after messages were discarded: no message is new, and no window on another channel; their slots and windows may have become
free, and all else is as before. -/
structure Discards (s t : State) : Prop where
  frame : withFlowOf s t = s
  msgs : t.trn.msgs ⊆ s.trn.msgs
  wins : ∀ w ∈ t.wins.tab, ∃ v ∈ s.wins.tab, v.2.chan = w.2.chan

/-- No message is new and the windows stay. -/
theorem Discards.of_wins {s t : State} (hframe : withFlowOf s t = s) (hmsgs : t.trn.msgs ⊆ s.trn.msgs) (hwins : t.wins = s.wins) :
    Discards s t :=
  ⟨hframe, hmsgs, fun w hw => ⟨w, hwins ▸ hw, rfl⟩⟩

theorem Discards.refl (s : State) : Discards s s := .of_wins rfl (fun _ h => h) rfl

theorem Discards.trans {s t u : State} (h : Discards s t) (h' : Discards t u) : Discards s u where
  frame := (congrArg (withFlowOf s) h'.frame).trans h.frame
  msgs := fun _ hm => h.msgs (h'.msgs hm)
  wins := fun w hw => by
    obtain ⟨v, hv, hchan⟩ := h'.wins w hw
    obtain ⟨o, ho, hchan'⟩ := h.wins v hv
    exact ⟨o, ho, hchan'.trans hchan⟩

theorem Discards.foldl {α : Type} (f : State → α → State) (hf : ∀ s a, Discards s (f s a)) (l : List α) (s : State) :
    Discards s (l.foldl f s) :=
  foldl_keeps f (Discards s) (fun t a h => h.trans (hf t a)) l s (.refl s)

theorem Discards.putChan {s t : State} (h : Discards s t) (c : Nat) (x : Chan) : Discards (putChan s c x) (putChan t c x) :=
  ⟨congrArg (fun u => Machine.putChan u c x) h.frame, h.msgs, h.wins⟩

section Frame
variable {s t : State} (h : Discards s t)
include h

theorem Discards.qm : t.qm = s.qm := (congrArg State.qm h.frame :)
theorem Discards.out : t.out = s.out := (congrArg State.out h.frame :)
theorem Discards.eth : t.eth = s.eth := (congrArg State.eth h.frame :)
theorem Discards.dbkIn : t.dbkIn = s.dbkIn := (congrArg State.dbkIn h.frame :)
theorem Discards.fetching : t.trn.fetching = s.trn.fetching := (congrArg (fun u => u.trn.fetching) h.frame :)
theorem Discards.chans : t.trn.chans = s.trn.chans := (congrArg (fun u => u.trn.chans) h.frame :)
theorem Discards.getChan (c : Nat) : getChan t c = getChan s c := congrArg (lookup c) h.chans

end Frame

theorem discards_keepMsgs (s : State) (p : Msg → Bool) : Discards s (modTrn s (fun t => { t with msgs := t.msgs.filter p })) :=
  .of_wins rfl (List.filter_subset_self _) rfl

theorem discards_modBay (s : State) (b : BayId) (f : Bay → Bay) : Discards s (modBay s b f) := .of_wins rfl (fun _ h => h) rfl

theorem discards_returnSlot (s : State) (b : BayId) (p : PortId) (k : Nat) : Discards s (returnSlot s (.bay b .bin) p k) := by
  unfold returnSlot
  split
  · exact discards_modBay s b _
  · exact .of_wins rfl (fun _ h => h) rfl

theorem discards_discardHanded (s : State) (c : Nat) : Discards s (discardHanded s c) := by
  refine Discards.trans (t := { s with
    tokFlight := s.tokFlight.map (fun f => (f.1, f.2.1, voidTok c f.2.2)),
    red := { s.red with inq := s.red.inq.filter (fun q => !ofChan c q.origin) } }) (.of_wins rfl (fun _ h => h) rfl) (.foldl _ (fun u b => ?_) _ _)
  exact ((discards_modBay u b _).trans (discards_modBay _ b _)).trans (.foldl _ (fun v _ => discards_returnSlot v b _ _) _ _)

theorem discards_modWin (s : State) (i : Nat) (f : Window → Window) (hchan : ∀ w, (f w).chan = w.chan) :
    Discards s (modWin s i f) := by
  unfold modWin
  split
  · next w hw =>
    refine ⟨rfl, fun _ h => h, fun q hq => ?_⟩
    rcases mem_insertKey hq with rfl | hq
    · exact ⟨(i, w), mem_of_lookup hw, (hchan w).symm⟩
    · exact ⟨q, hq, rfl⟩
  · exact .refl s

theorem discards_freeWin (s : State) (i : Nat) : Discards s (freeWin s i) := by
  unfold freeWin
  split
  · exact .refl s
  · exact (discards_keepMsgs s _).trans ⟨rfl, fun _ h => h, fun w hw => ⟨w, (List.mem_filter.1 hw).1, rfl⟩⟩

theorem discards_settleWin (s : State) (i : Nat) : Discards s (settleWin s i) := by
  unfold settleWin
  split
  · exact .refl s
  · split
    · split
      · exact discards_freeWin s i
      · exact discards_modWin s i _ fun _ => rfl
    · exact .refl s

theorem discards_dropMsg (s : State) (c : Nat) (sm id : W32) : Discards s (dropMsg s c sm id) := discards_keepMsgs s _

theorem endMsg_of_dropMsg (s : State) (m : Msg) : Discards (dropMsg s m.chan m.shelfmark m.msgId) (endMsg s m) := by
  unfold endMsg
  dsimp only
  split
  · exact .refl _
  · exact discards_settleWin _ _

theorem discards_endMsg (s : State) (m : Msg) : Discards s (endMsg s m) :=
  (discards_dropMsg s m.chan m.shelfmark m.msgId).trans (endMsg_of_dropMsg s m)

/-! ## A message that is found, and one that is gone -/

theorem findMsg_some {s : State} {c : Nat} {sm id : W32} {m : Msg} (h : findMsg s c sm id = some m) :
    m.chan = c ∧ m.shelfmark = sm ∧ m.msgId = id := by
  have hm := List.find?_some h
  simpa [and_assoc] using hm

/-- A message that is gone stays gone while none comes. -/
theorem findMsg_none_of_subset {s t : State} {c : Nat} {sm id : W32} (hgone : findMsg s c sm id = none) (hsub : t.trn.msgs ⊆ s.trn.msgs) :
    findMsg t c sm id = none := by
  rw [findMsg, List.find?_eq_none] at hgone ⊢
  exact fun m hm => hgone m (hsub hm)

theorem findMsg_endMsg (s : State) (m : Msg) : findMsg (endMsg s m) m.chan m.shelfmark m.msgId = none := by
  have hdropped : findMsg (dropMsg s m.chan m.shelfmark m.msgId) m.chan m.shelfmark m.msgId = none := by
    simp only [findMsg, dropMsg, modTrn, List.find?_eq_none, List.mem_filter]
    intro q hq
    simpa only [Bool.not_eq_true, Bool.not_eq_true'] using hq.2
  exact findMsg_none_of_subset hdropped (endMsg_of_dropMsg s m).msgs

/-! ## A channel's reset (R104) -/

/-- The context of a channel in RESET: keys and link key erased. -/
def wiped (x : Chan) : Chan :=
  { x with state := .reset, linkKey := none, linkJob := 0, epoch := 0, nextInst := false, old := none, rxHigh := 0, txEpoch := 0, txSeq := 0,
           nakCount := 0 }

/-- The state without the staged messages of a channel. -/
def withoutMsgs (s : State) (c : Nat) : State := modTrn s (fun t => { t with msgs := t.msgs.filter (fun m => m.chan != c) })

/-- Windows that staged messages have left settle. -/
def settleMsgs (s : State) (gone : List Msg) : State := (gone.filter (fun m => !m.reduce)).foldl (fun s m => settleWin s (winIndex m.shelfmark)) s

theorem resetChan_some {s : State} {c : Nat} {x : Chan} (hx : getChan s c = some x) (code : Nat) :
    resetChan s c code = logC (settleMsgs (putChan (discardHanded (withoutMsgs s c) c) c (wiped x)) (s.trn.msgs.filter (fun m => m.chan == c)))
      x.part code c 0 0 x.epoch 0 := by
  unfold resetChan
  rw [hx]
  rfl

theorem discards_settleMsgs (s : State) (gone : List Msg) : Discards s (settleMsgs s gone) :=
  .foldl _ (fun s _ => discards_settleWin s _) _ _

/-- A reset wipes the context and discards the channel's messages; then its entry is written. -/
theorem resetChan_eq {s : State} {c : Nat} {x : Chan} (hx : getChan s c = some x) (code : Nat) :
    ∃ u, resetChan s c code = logC u x.part code c 0 0 x.epoch 0 ∧ Discards (putChan s c (wiped x)) u ∧ ∀ m ∈ u.trn.msgs, m.chan ≠ c := by
  have hkept : Discards s (withoutMsgs s c) := discards_keepMsgs s _
  have hhanded := discards_discardHanded (withoutMsgs s c) c
  have hsettled := discards_settleMsgs (putChan (discardHanded (withoutMsgs s c) c) c (wiped x)) (s.trn.msgs.filter (fun m => m.chan == c))
  refine ⟨_, resetChan_some hx code, ((hkept.trans hhanded).putChan c (wiped x)).trans hsettled, fun m hm => ?_⟩
  have hput := hsettled.msgs hm
  rw [putChan_msgs] at hput
  simpa using (List.mem_filter.1 (hhanded.msgs hput)).2

section Reset
variable {s : State} {c : Nat} {x : Chan} (hx : getChan s c = some x) (code : Nat)
include hx

theorem getChan_resetChan : getChan (resetChan s c code) c = some (wiped x) := by
  obtain ⟨u, hreset, hu, -⟩ := resetChan_eq hx code
  rw [hreset]
  exact (hu.getChan c).trans (getChan_putChan_same s c _)

theorem resetChan_logs : oneEntry s (resetChan s c code) code := by
  obtain ⟨u, hreset, hu, -⟩ := resetChan_eq hx code
  rw [hreset]
  exact ⟨_, congrArg (· ++ _) hu.dbkIn, rfl⟩

theorem msgs_resetChan : ∀ m ∈ (resetChan s c code).trn.msgs, m.chan ≠ c := by
  obtain ⟨u, hreset, -, hgone⟩ := resetChan_eq hx code
  rw [hreset]
  exact hgone

theorem resetChan_fetching : (resetChan s c code).trn.fetching = s.trn.fetching := by
  obtain ⟨u, hreset, hu, -⟩ := resetChan_eq hx code
  rw [hreset]
  exact hu.fetching

theorem resetChan_qm : (resetChan s c code).qm = s.qm := by
  obtain ⟨u, hreset, hu, -⟩ := resetChan_eq hx code
  rw [hreset]
  exact hu.qm

end Reset

/-- Whether or not the channel exists, its reset sends nothing and no message is new. -/
theorem resetChan_out_msgs (s : State) (c code : Nat) :
    (resetChan s c code).out = s.out ∧ (resetChan s c code).trn.msgs ⊆ s.trn.msgs := by
  cases hx : getChan s c with
  | none => simp [resetChan, hx]
  | some x =>
    obtain ⟨u, hreset, hu, -⟩ := resetChan_eq hx code
    rw [hreset]
    exact ⟨hu.out, hu.msgs⟩

/-! ## A reply under the channel's key (R92 to R94) -/

/-- It goes out whether or not it resets the channel behind it, and no message is new. -/
theorem reply_sends {s : State} {r : MsgRef} {x : Chan} (hx : getChan s r.chan = some x) (hmay : mayTransmit s x r.port r.half = true)
    (hseq : nextSeq x < 2 ^ 32) (rep : Reply) :
    (reply s r rep).out = s.out ++ [.wrdPacket { replyWay s r x.mac with
      payload := sealPacket (x.linkKey.getD []) r.chan x.rxHigh (nextSeq x)
        (wrdHead (replyOp rep) {} x.rxHigh r.replyChan r.chan (nextSeq x) ++ replyBody r rep) [] }] ∧
      (reply s r rep).trn.msgs ⊆ s.trn.msgs := by
  have hroom : ¬ 2 ^ 32 ≤ nextSeq x := by omega
  simp only [reply, hx, hmay, Bool.not_true, Bool.false_eq_true, if_false, if_neg hroom]
  split
  · obtain ⟨hout, hmsgs⟩ := resetChan_out_msgs (modTrn (sendSealed s r.chan (repliedChan s.alm.t x rep) (replyWay s r x.mac) (replyOp rep) {}
      r.replyChan (replyBody r rep) []) (fun t => { t with holds := if isHold rep then t.holds + 1 else t.holds })) r.chan codeViolationLimit
    exact ⟨hout, hmsgs⟩
  · exact ⟨rfl, fun _ h => h⟩

/-- After messages were discarded the device still answers as it could before. -/
theorem replies_of_discards {s u : State} (hu : Discards s u) {r : MsgRef} (hcan : CanReply s r) (rep : Reply) :
    Replies s (reply u r rep) r rep ∧ (reply u r rep).trn.msgs ⊆ u.trn.msgs := by
  obtain ⟨x, hx, hmay, hseq⟩ := hcan
  have hmay' : mayTransmit u x r.port r.half = true := by rwa [mayTransmit, hu.eth]
  obtain ⟨hout, hmsgs⟩ := reply_sends ((hu.getChan r.chan).trans hx) hmay' hseq rep
  have hkeyed : x.linkKey.isSome = true := by
    simp only [mayTransmit, Bool.and_eq_true] at hmay
    exact hmay.1.2
  obtain ⟨lk, hlk⟩ := Option.isSome_iff_exists.1 hkeyed
  have hway : replyWay u r x.mac = replyWay s r x.mac := by simp only [replyWay, hu.eth]
  rw [hlk, hway, hu.out] at hout
  exact ⟨⟨x, lk, hx, hlk, hout⟩, hmsgs⟩

/-! ## A context that comes on chip (R101) -/

/-- The fetch of a context has ended, and no packet waits for it. -/
def fetchDone (s : State) (c : Nat) : State :=
  modTrn s (fun t => { t with fetching := t.fetching.filter (· != c), miss := t.miss.filter (fun q => q.1 != c) })

/-- With room in the share, and no packet waiting, the context is installed as it was; one that fails authentication resets its channel. -/
theorem installContext_eq {s : State} {c : Nat} {x : Chan} {p : TenantId} (hx : getChan s c = some x) (hwaits : ∀ q ∈ s.trn.miss, q.1 ≠ c)
    (hroom : (cachedOf s p).length < (getShare s p).contexts) :
    ∃ u l n, installContext s p c true = u ∧ installContext s p c false = resetChan u c codeContextIntegrity ∧ u = withChans (fetchDone s c) l n ∧
      getChan u c = some { x with cached := true, lastUse := s.trn.useCount } := by
  have hnone : s.trn.miss.filter (fun q => q.1 == c) = [] := by
    simpa [List.filter_eq_nil_iff] using hwaits
  have hroom' : (cachedOf (fetchDone s c) p).length < (getShare (fetchDone s c) p).contexts := hroom
  have hmade : makeRoom (fetchDone s c) p = some (fetchDone s c) := if_pos hroom'
  have hcached := getChan_modChan (s := fetchDone s c) hx (fun x => { x with cached := true })
  obtain ⟨l, hl⟩ := modChan_withChans (fetchDone s c) c (fun x => { x with cached := true })
  obtain ⟨l', n, htouch⟩ := touchChan_withChans (modChan (fetchDone s c) c (fun x => { x with cached := true })) c
  refine ⟨touchChan (modChan (fetchDone s c) c (fun x => { x with cached := true })) c, l', n, ?_, ?_, htouch.trans (by rw [hl]; rfl), ?_⟩
  · simp only [installContext, hnone]
    rw [← fetchDone, hmade]
    rfl
  · simp only [installContext, hnone]
    rw [← fetchDone, hmade]
    rfl
  · rw [getChan_touchChan hcached, hl]
    rfl

end Sys2Proof.Machine

/-! PROOFS. WRD packets and the timers of Intake (R87, R92, R95, R98, R101, R108, R109, R447): the packet that is taken next, each answer to
it, the first segment of a tile message; then O33 from them. -/

namespace Sys2Proof.Machine

open Sys2Proof.Said

/-! ## The packet that is taken next (R87) -/

theorem modEth_get (s : State) (p q : PortId) (f : Eth → Eth) : (modEth s p f).eth[q] = if q = p then f s.eth[p] else s.eth[q] := vmod_get _ _ _ _

/-- What an update of a port leaves of a port, it leaves of every port. -/
theorem modEth_keeps (s : State) (p q : PortId) (f : Eth → Eth) (g : Eth → α) (hg : ∀ e, g (f e) = g e) : g ((modEth s p f).eth[q]) = g s.eth[q] := by
  rw [modEth_get]
  split
  · next hq => rw [hg, hq]
  · rfl

/-- A packet is taken: it waits no more, and its port's rotation has moved on. -/
def rxTaken (s : State) (k : RxPacket) (row : TenantId) (left : Nat) : State :=
  modEth (modTrn s (fun t => { t with rx := t.rx.erase k })) k.port (fun e => { e with rxRow := row, rxLeft := left })

theorem nextRx_some {s s1 : State} {k : RxPacket} (h : nextRx s = some (k, s1)) : ∃ row left, s1 = rxTaken s k row left := by
  unfold nextRx at h
  split at h
  · cases h
  · next first rest _ =>
    split at h
    · cases h
    · next row left _ =>
      obtain ⟨k', hfound, heq⟩ := Option.map_eq_some_iff.1 h
      obtain ⟨rfl, rfl⟩ := Prod.mk.inj heq
      have hport : k'.port = first.port := by
        have hk := List.find?_some hfound
        simp only [Bool.and_eq_true, beq_iff_eq] at hk
        exact hk.1
      exact ⟨row, left, by rw [rxTaken, hport]⟩

/-- Every row comes up in a rotation. -/
theorem mem_rotation (from_ row : TenantId) : row ∈ (List.range 16).filterMap (fun i => finOpt 16 ((from_.1 + 1 + i) % 16)) := by
  refine List.mem_filterMap.2 ⟨(row.1 + 15 - from_.1) % 16, by simp; omega, ?_⟩
  have hrow : (from_.1 + 1 + (row.1 + 15 - from_.1) % 16) % 16 = row.1 := by omega
  simp [hrow, finOpt]

/-- The row that is served next has a packet waiting. -/
theorem rxTurn_waits {s : State} {p : PortId} {row : TenantId} (hwaits : rxWaits s p row = true) :
    ∃ r left, rxTurn s p = some (r, left) ∧ rxWaits s p r = true := by
  unfold rxTurn
  dsimp only
  split
  · next hturn => exact ⟨_, _, rfl, hturn.2⟩
  · cases hfound : ((List.range 16).filterMap (fun i => finOpt 16 (((s.eth[p]).rxRow.1 + 1 + i) % 16))).find? (rxWaits s p) with
    | none => exact absurd hwaits (List.find?_eq_none.1 hfound row (mem_rotation _ row))
    | some r => exact ⟨r, _, rfl, List.find?_some hfound⟩

/-- A packet that waits longest has its port served. -/
theorem nextRx_of_waiting {s : State} {h : RxPacket} {rest : List RxPacket} (hrx : s.trn.rx = h :: rest) :
    ∃ k s1, nextRx s = some (k, s1) ∧ k ∈ s.trn.rx ∧ k.port = h.port := by
  have hwaits : rxWaits s h.port h.row = true := by simp [rxWaits, hrx]
  obtain ⟨r, left, hturn, hr⟩ := rxTurn_waits hwaits
  obtain ⟨k, hfound⟩ := Option.isSome_iff_exists.1 (List.find?_isSome.2 (by simpa [rxWaits] using hr) :
    (s.trn.rx.find? (fun k => k.port == h.port && k.row == r)).isSome = true)
  have hport := List.find?_some hfound
  simp only [Bool.and_eq_true, beq_iff_eq] at hport
  have hnext : nextRx s = some (k, modEth (modTrn s (fun t => { t with rx := t.rx.erase k })) h.port
      (fun e => { e with rxRow := r, rxLeft := left })) := by
    unfold nextRx
    rw [hrx] at hfound ⊢
    simp only [hturn, hfound, Option.map_some]
  exact ⟨k, _, hnext, List.mem_of_find?_eq_some hfound, hport.1⟩

theorem exec_wrdPacketReceive {s s1 : State} {k : RxPacket} (h : nextRx s = some (k, s1)) :
    exec .wrdPacketReceive s = .next (packetIn s1 k) := by
  show execWrdPacketReceive s = _
  simp [execWrdPacketReceive, h]

section Taken
variable (s : State) (k : RxPacket) (row : TenantId) (left : Nat)

/-- Taking a packet leaves the ports' links and addresses. -/
theorem ethUp_rxTaken (p : PortId) (half : Bool) : ethUp ((rxTaken s k row left).eth[p]) half = ethUp s.eth[p] half :=
  modEth_keeps _ k.port p _ (ethUp · half) fun _ => rfl

theorem replyWay_rxTaken (r : MsgRef) (mac : List Byte) : replyWay (rxTaken s k row left) r mac = replyWay s r mac := by
  have hrows : ((rxTaken s k row left).eth[r.port]).rows = (s.eth[r.port]).rows := modEth_keeps _ k.port r.port _ Eth.rows fun _ => rfl
  simp only [replyWay, rowAddr, hrows]

end Taken

theorem repliesOpen_of_rxTaken {s t : State} {k : RxPacket} {row : TenantId} {left : Nat} {r : MsgRef} {rep : Reply}
    (h : RepliesOpen (rxTaken s k row left) t r rep) : RepliesOpen s t r rep := by
  obtain ⟨mac, hmac, hout⟩ := h
  rw [replyWay_rxTaken] at hout
  exact ⟨mac, hmac, hout⟩

/-! ## A reply outside the channel's key (R98) -/

/-- `t` with the rates, the free values, what left the package and the counts of replies as `s` has them. -/
def withRepliesOf (s t : State) : State :=
  { t with rates := s.rates, free := s.free, eth := s.eth, out := s.out,
           trn := { t.trn with holds := s.trn.holds, noReply := s.trn.noReply, suppressed := s.trn.suppressed } }

/-- A reply outside the key changes nothing else. -/
theorem replyUnauth_frame (s : State) (r : MsgRef) (rep : Reply) : withRepliesOf s (replyUnauth s r rep) = s := by
  unfold replyUnauth
  split
  · rfl
  · split
    · unfold replyMac
      dsimp only
      split <;> rfl
    · rfl

section Unauth
variable (s : State) (r : MsgRef) (rep : Reply)

theorem replyUnauth_rx : (replyUnauth s r rep).trn.rx = s.trn.rx := (congrArg (fun u : State => u.trn.rx) (replyUnauth_frame s r rep) :)
theorem replyUnauth_miss : (replyUnauth s r rep).trn.miss = s.trn.miss := (congrArg (fun u : State => u.trn.miss) (replyUnauth_frame s r rep) :)
theorem replyUnauth_dbkIn : (replyUnauth s r rep).dbkIn = s.dbkIn := (congrArg State.dbkIn (replyUnauth_frame s r rep) :)

end Unauth

section Unauth
variable {s : State} {r : MsgRef} (hup : ethUp s.eth[r.port] r.half = true)
include hup

theorem replyUnauth_sends (hrate : rateOk s (.unauth r.chan) 100000 = true) (rep : Reply) : RepliesOpen s (replyUnauth s r rep) r rep := by
  refine ⟨(replyMac (rateMark s (.unauth r.chan)) r.chan).1, ?_, ?_⟩
  · intro x hx
    have hx' : getChan (rateMark s (.unauth r.chan)) r.chan = some x := hx
    simp [replyMac, hx']
  · unfold replyUnauth replyMac
    simp only [hup, hrate, Bool.not_true, Bool.false_eq_true, if_false, if_true]
    split <;> rfl

theorem replyUnauth_limited (hrate : rateOk s (.unauth r.chan) 100000 = false) (rep : Reply) :
    replyUnauth s r rep = modTrn s (fun t => { t with suppressed := t.suppressed + 1 }) := by
  simp only [replyUnauth, hup, hrate, Bool.not_true, Bool.false_eq_true, if_false]

end Unauth

/-! ## Step 1 of R447: the channel of a packet -/

section Channel
variable {s : State} {k : RxPacket}

/-- A channel index with a reserved bit set names no channel. -/
theorem packetIn_unknown (hresv : (parseWrd k.bytes).chanResv ≠ 0) :
    packetIn s k = match chanOwner s (parseWrd k.bytes).chan with
      | some p => logC (replyUnauth s (refOf (parseWrd k.bytes) k) (.nak codeUnknownChannel 0)) (tenantPart p) codeUnknownChannel
          (parseWrd k.bytes).chan 0 (parseWrd k.bytes).seq (parseWrd k.bytes).epoch 0
      | none => replyUnauth s (refOf (parseWrd k.bytes) k) (.nak codeUnknownChannel 0) := by
  unfold packetIn
  exact if_pos hresv

variable (hresv : (parseWrd k.bytes).chanResv = 0) {x : Chan} (hx : getChan s (parseWrd k.bytes).chan = some x)
include hresv hx

theorem packetIn_reset (hcached : x.cached = true) (hstate : x.state = .reset) :
    packetIn s k = replyUnauth s (refOf (parseWrd k.bytes) k) (.nak codeChannelReset 0) := by
  simp [packetIn, hresv, hx, hcached, hstate]

theorem packetIn_opened (hcached : x.cached = true) (hstate : x.state = .opened) : packetIn s k = processPacket s k := by
  simp [packetIn, hresv, hx, hcached, hstate]

section OffChip
variable (hcached : x.cached = false) {p : TenantId} (hpart : x.part = tenantPart p)
include hcached hpart

theorem packetIn_missFull (hfull : (getShare s p).missKib * 1024 < missUsed s p + missRoom k) :
    packetIn s k = replyUnauth s (refOf (parseWrd k.bytes) k) (.hold codeMissFull s.trn.holdMin.toNat) := by
  have hp : partTenant x.part = some p := by simp [partTenant, hpart, tenantPart, finOpt]
  simp [packetIn, hresv, hx, hcached, hp, hfull]

theorem packetIn_miss (hroom : missUsed s p + missRoom k ≤ (getShare s p).missKib * 1024) :
    packetIn s k =
      let s1 := modTrn s (fun t => { t with miss := t.miss ++ [((parseWrd k.bytes).chan, k)] })
      if (parseWrd k.bytes).chan ∈ s.trn.fetching then s1
      else emitOut (modTrn s1 (fun t => { t with fetching := t.fetching ++ [(parseWrd k.bytes).chan] }))
        (.cacheRead (spillAddr s (parseWrd k.bytes).chan) 256) := by
  have hp : partTenant x.part = some p := by simp [partTenant, hpart, tenantPart, finOpt]
  simp [packetIn, hresv, hx, hcached, hp, Nat.not_lt.2 hroom]

end OffChip
end Channel

/-! ## Steps 2 to 6 of R447 on a packet whose context is on chip -/

theorem processPacket_elsewhere {s : State} {k : RxPacket} {x : Chan} (hx : getChan s (parseWrd k.bytes).chan = some x) (hsrc : k.src ≠ x.peer) :
    processPacket s k = logC (noReply (touchChan s (parseWrd k.bytes).chan)) x.part codePeerMismatch (parseWrd k.bytes).chan 0
      (parseWrd k.bytes).seq (parseWrd k.bytes).epoch 0 := by
  simp [processPacket, hx, hsrc]

/-- What a packet opens to under the key of its epoch, or of the channel's where its own is unknown (R447 step 3). -/
def openedBy (x : Chan) (now : W64) (k : RxPacket) : Option (List Byte) :=
  let w := parseWrd k.bytes
  let e := authEpoch x now w.epoch
  gcmOpen (chanKeyOf (x.linkKey.getD []) w.chan e) (chanNonce (x.linkKey.getD []) w.chan e w.epoch false w.seq.toNat)
    (k.bytes.take 48) (k.bytes.drop 48)

theorem touchChan_alm (s : State) (c : Nat) : (touchChan s c).alm = s.alm := by
  obtain ⟨l, n, htouch⟩ := touchChan_withChans s c
  rw [htouch]
  rfl

section Peer
variable {s : State} {k : RxPacket} {x : Chan} (hx : getChan s (parseWrd k.bytes).chan = some x) (hsrc : k.src = x.peer)
  (hvlan : k.vlan.getD 0 = x.vlan) (hport : bitOf x.portMask k.port.1 = true) (henc : (parseWrd k.bytes).enc = true)
include hx hsrc hvlan hport henc

/-- A packet from the channel's peer that authenticates goes on to its checks. -/
theorem processPacket_authentic {pt : List Byte} (hopens : openedBy x s.alm.t k = some pt) :
    processPacket s k = checkedPacket (touchChan s (parseWrd k.bytes).chan) x k (parseWrd k.bytes) pt := by
  rw [← touchChan_alm s (parseWrd k.bytes).chan] at hopens
  unfold openedBy at hopens
  simp only [processPacket, hx, hsrc, hvlan, hport, henc, hopens]
  simp

/-- One that does not is counted, and may be logged. -/
theorem processPacket_forged (hforged : openedBy x s.alm.t k = none) :
    let s1 := noReply (touchChan s (parseWrd k.bytes).chan)
    processPacket s k = if rateOk s1 (.authFail (parseWrd k.bytes).chan) 1000000 then
      logC (rateMark s1 (.authFail (parseWrd k.bytes).chan)) x.part codeAuthFail (parseWrd k.bytes).chan 0 (parseWrd k.bytes).seq
        (parseWrd k.bytes).epoch 0
    else s1 := by
  rw [← touchChan_alm s (parseWrd k.bytes).chan] at hforged
  unfold openedBy at hforged
  simp only [processPacket, hx, hsrc, hvlan, hport, henc, hforged]
  simp

end Peer

/-- What a segment must meet to be the first of a new TILE message for an open window, with a staging slot free and more segments to
come (R99, R105 to R107, R111). -/
structure NewTile (s : State) (p : TenantId) (w : Wrd) (win : Window) : Prop where
  op : w.op = 1
  ackreq : w.ackreq = false
  segOff : w.segOff = 0
  long : 8192 < w.msgLen
  takes : shareHold s p true = none
  fresh : findMsg s w.chan w.shelf w.msgId = none
  notHanded : handedSeg s w = none
  window : winCheck s w.shelf w.chan (tenantPart p) false = .ok win
  room : stagingUsed s p < (getShare s p).staging

/-- The contexts are no part of it. -/
theorem NewTile.withChans {s : State} {p : TenantId} {w : Wrd} {win : Window} (h : NewTile s p w win) (l : List (Nat × Chan)) (n : Nat) :
    NewTile (withChans s l n) p w win :=
  ⟨h.op, h.ackreq, h.segOff, h.long, h.takes, h.fresh, h.notHanded, h.window, h.room⟩

theorem NewTile.rxTaken {s : State} {p : TenantId} {w : Wrd} {win : Window} (h : NewTile s p w win) (k : RxPacket) (row : TenantId) (left : Nat) :
    NewTile (rxTaken s k row left) p w win :=
  ⟨h.op, h.ackreq, h.segOff, h.long, h.takes, h.fresh, h.notHanded, h.window, h.room⟩

/-- The message after its first segment. -/
def firstMsg (s : State) (p : TenantId) (w : Wrd) (k : RxPacket) (pt : List Byte) : Msg where
  part := tenantPart p
  chan := w.chan
  shelfmark := w.shelf
  msgId := w.msgId
  put := false
  msgLen := w.msgLen
  segs := 1
  hdr := some (pt.take 64)
  data := [(0, pt.drop 64)]
  lastT := s.alm.t
  ref := refOf w k

/-- A message of more than 8,192 bytes has more than one segment. -/
theorem segsFull_firstMsg {s : State} {p : TenantId} {w : Wrd} {k : RxPacket} {pt : List Byte} (hlong : 8192 < w.msgLen) :
    segsFull (firstMsg s p w k pt) = false := by
  have hsegs : 2 ≤ segCount w.msgLen := by unfold segCount ceilDiv; omega
  have hpow : 2 ^ 2 ≤ 2 ^ segCount w.msgLen := Nat.pow_le_pow_right (by decide) hsegs
  have hne : 1 ≠ 2 ^ segCount w.msgLen - 1 := by omega
  simpa [segsFull, firstMsg] using hne

/-- A message that no staged one has the name of is put behind them. -/
theorem putMsg_fresh {s : State} {m : Msg} (hfresh : findMsg s m.chan m.shelfmark m.msgId = none) :
    putMsg s m = modTrn s (fun t => { t with msgs := t.msgs ++ [m] }) := by
  have hkept : s.trn.msgs.filter (fun q => !(q.chan == m.chan && q.shelfmark == m.shelfmark && q.msgId == m.msgId)) = s.trn.msgs := by
    rw [List.filter_eq_self]
    rw [findMsg, List.find?_eq_none] at hfresh
    intro q hq
    simpa only [Bool.not_eq_true, Bool.not_eq_true'] using hfresh q hq
  simp only [putMsg, dropMsg, modTrn, hkept]

theorem windowSegment_newTile {s : State} {p : TenantId} {w : Wrd} {win : Window} (h : NewTile s p w win) (k : RxPacket) (pt : List Byte) :
    windowSegment s p w k pt = putMsg s (firstMsg s p w k pt) := by
  have hnotPut : (w.op == 2) = false := by simp [h.op]
  have hop2 : ¬ (w.op = 2) := by simp [h.op]
  have hroom : ¬ (getShare s p).staging ≤ stagingUsed s p := Nat.not_le.2 h.room
  simp only [windowSegment, h.fresh, h.notHanded, Option.isNone_none, h.takes, ite_self, hnotPut, h.window, hop2, false_and, if_false, hroom,
    and_false]
  have hfull : segsFull (firstMsg s p w k pt) = false := segsFull_firstMsg h.long
  unfold firstMsg at hfull ⊢
  simp [placeSeg, bitOf, segHdr, segData, h.op, h.segOff, h.ackreq, insertKey, hfull]

/-- Such a segment for a window is staged, whatever the packet's congestion mark and epoch do to the context. -/
theorem checkedPacket_newTile {s : State} {x : Chan} {k : RxPacket} {p : TenantId} {win : Window} (h : NewTile s p (parseWrd k.bytes) win)
    (hepoch : epochKnown x s.alm.t (parseWrd k.bytes).epoch = true) (henc : (parseWrd k.bytes).enc = true)
    (hformat : formatOk (parseWrd k.bytes) k.bytes = true) (hshelf : (parseWrd k.bytes).shelf ≠ 0) (hpart : x.part = tenantPart p) (pt : List Byte) :
    ∃ l n, checkedPacket s x k (parseWrd k.bytes) pt = putMsg (withChans s l n) (firstMsg s p (parseWrd k.bytes) k pt) := by
  have hp : partTenant x.part = some p := by simp [partTenant, hpart, tenantPart, finOpt]
  have hdata : isData (parseWrd k.bytes) = true := by simp [isData, h.op]
  obtain ⟨l, hl⟩ := modChan_withChans s (parseWrd k.bytes).chan (fun x =>
    let x := if x.nextInst && (parseWrd k.bytes).epoch == x.epoch + 1 then
      { x with epoch := (parseWrd k.bytes).epoch, nextInst := false, old := some (x.epoch, s.alm.t + 10000000) } else x
    { x with rxHigh := max x.rxHigh (parseWrd k.bytes).epoch })
  have hswitch : epochSwitch s (parseWrd k.bytes).chan (parseWrd k.bytes).epoch = withChans s l s.trn.useCount := hl
  obtain ⟨l', n, hce⟩ : ∃ l' n, (if k.ce then modChan (withChans s l s.trn.useCount) (parseWrd k.bytes).chan
      (fun x => { x with ceCount := min 255 (x.ceCount + 1) }) else withChans s l s.trn.useCount) = withChans s l' n := by
    split
    · obtain ⟨l', hl'⟩ := modChan_withChans (withChans s l s.trn.useCount) (parseWrd k.bytes).chan
        (fun x => { x with ceCount := min 255 (x.ceCount + 1) })
      exact ⟨l', _, hl'⟩
    · exact ⟨l, _, rfl⟩
  refine ⟨l', n, ?_⟩
  simp only [checkedPacket, hepoch, henc, hformat, hdata, hp, hswitch, dataSegment, hce, hshelf, Bool.not_true, Bool.false_eq_true, if_false, if_true]
  exact windowSegment_newTile (h.withChans l' n) k pt

/-- A packet that should begin a tile message and does not authenticate is counted, and nothing is staged. -/
theorem processPacket_forged_counts {s : State} {k : RxPacket} {x : Chan} (hx : getChan s (parseWrd k.bytes).chan = some x) (hsrc : k.src = x.peer)
    (hvlan : k.vlan.getD 0 = x.vlan) (hport : bitOf x.portMask k.port.1 = true) (henc : (parseWrd k.bytes).enc = true)
    (hforged : openedBy x s.alm.t k = none) :
    (processPacket s k).trn.rx = s.trn.rx ∧ (processPacket s k).out = s.out ∧ (processPacket s k).trn.noReply = s.trn.noReply + 1 ∧
      (processPacket s k).trn.msgs = s.trn.msgs := by
  obtain ⟨l, n, htouch⟩ := touchChan_withChans s (parseWrd k.bytes).chan
  have hrun := processPacket_forged hx hsrc hvlan hport henc hforged
  rw [htouch] at hrun
  dsimp only at hrun
  rw [hrun]
  split <;> exact ⟨rfl, rfl, rfl, rfl⟩

/-- One that does is staged as the first segment of its message. -/
theorem processPacket_newTile {s : State} {k : RxPacket} {x : Chan} (hx : getChan s (parseWrd k.bytes).chan = some x) (hsrc : k.src = x.peer)
    (hvlan : k.vlan.getD 0 = x.vlan) (hport : bitOf x.portMask k.port.1 = true) (henc : (parseWrd k.bytes).enc = true) {pt : List Byte}
    (hopens : openedBy x s.alm.t k = some pt) {p : TenantId} {win : Window} (h : NewTile s p (parseWrd k.bytes) win)
    (hepoch : epochKnown x s.alm.t (parseWrd k.bytes).epoch = true) (hformat : formatOk (parseWrd k.bytes) k.bytes = true)
    (hshelf : (parseWrd k.bytes).shelf ≠ 0) (hpart : x.part = tenantPart p) :
    (processPacket s k).trn.rx = s.trn.rx ∧ (processPacket s k).out = s.out ∧
      (processPacket s k).trn.msgs = s.trn.msgs ++ [firstMsg s p (parseWrd k.bytes) k pt] := by
  obtain ⟨l, n, htouch⟩ := touchChan_withChans s (parseWrd k.bytes).chan
  obtain ⟨l', n', hstaged⟩ := checkedPacket_newTile (h.withChans l n) (x := x) hepoch henc hformat hshelf hpart pt
  have hfresh : findMsg (withChans (withChans s l n) l' n') (parseWrd k.bytes).chan (parseWrd k.bytes).shelf (parseWrd k.bytes).msgId = none := h.fresh
  rw [processPacket_authentic hx hsrc hvlan hport henc hopens, htouch, hstaged, putMsg_fresh hfresh]
  exact ⟨rfl, rfl, rfl⟩

/-! ## The packet that WRD_PACKET_RECEIVE takes -/

section Receive
variable {s s1 : State} {k : RxPacket} (hnext : nextRx s = some (k, s1))
include hnext

/-- A channel index with a reserved bit set, on a port with its link. -/
theorem receive_unknown (hup : ethUp s.eth[k.port] k.half = true) (hresv : (parseWrd k.bytes).chanResv ≠ 0) :
    let w := parseWrd k.bytes
    (rateOk s (.unauth w.chan) 100000 = true → Runs .wrdPacketReceive s (fun t => t.trn.rx = s.trn.rx.erase k ∧
      RepliesOpen s t (refOf w k) (.nak 0x4003 0) ∧ (match chanOwner s w.chan with
        | none => t.dbkIn = s.dbkIn
        | some _ => oneEntry s t 0x4003))) ∧
    (rateOk s (.unauth w.chan) 100000 = false → Runs .wrdPacketReceive s (fun t => t.trn.rx = s.trn.rx.erase k ∧ t.out = s.out ∧
      t.trn.suppressed = s.trn.suppressed + 1)) := by
  intro w
  have hrun := exec_wrdPacketReceive hnext
  obtain ⟨row, left, rfl⟩ := nextRx_some hnext
  rw [packetIn_unknown hresv] at hrun
  have hup' : ethUp ((rxTaken s k row left).eth[(refOf w k).port]) (refOf w k).half = true := (ethUp_rxTaken s k row left k.port k.half).trans hup
  refine ⟨fun hrate => ⟨_, hrun, ?_⟩, fun hrate => ⟨_, hrun, ?_⟩⟩
  · have hsent := repliesOpen_of_rxTaken (replyUnauth_sends (r := refOf w k) hup' hrate (.nak codeUnknownChannel 0))
    have howner : chanOwner (rxTaken s k row left) w.chan = chanOwner s w.chan := rfl
    rw [howner]
    cases chanOwner s w.chan with
    | none => exact ⟨replyUnauth_rx _ _ _, hsent, replyUnauth_dbkIn _ _ _⟩
    | some p =>
      obtain ⟨e, hin, hcode, -⟩ := logEv_dbkIn (replyUnauth (rxTaken s k row left) (refOf w k) (.nak codeUnknownChannel 0)) (tenantPart p) .trn
        codeUnknownChannel w.chan (0 : W32).toNat w.seq.toNat (0 * 0x10000 + w.epoch % 0x10000)
      rw [replyUnauth_dbkIn] at hin
      exact ⟨replyUnauth_rx _ _ _, hsent, _, hin, hcode⟩
  · rw [replyUnauth_limited (r := refOf w k) hup' hrate]
    split <;> exact ⟨rfl, rfl, rfl⟩

variable (hresv : (parseWrd k.bytes).chanResv = 0) {x : Chan} (hx : getChan s (parseWrd k.bytes).chan = some x)
include hresv hx

theorem receive_reset (hup : ethUp s.eth[k.port] k.half = true) (hcached : x.cached = true) (hstate : x.state = .reset)
    (hrate : rateOk s (.unauth (parseWrd k.bytes).chan) 100000 = true) :
    Runs .wrdPacketReceive s (fun t => t.trn.rx = s.trn.rx.erase k ∧ RepliesOpen s t (refOf (parseWrd k.bytes) k) (.nak 0x4004 0)) := by
  have hrun := exec_wrdPacketReceive hnext
  obtain ⟨row, left, rfl⟩ := nextRx_some hnext
  rw [packetIn_reset (s := rxTaken s k row left) hresv hx hcached hstate] at hrun
  exact ⟨_, hrun, replyUnauth_rx _ _ _, repliesOpen_of_rxTaken (replyUnauth_sends (r := refOf (parseWrd k.bytes) k)
    ((ethUp_rxTaken s k row left k.port k.half).trans hup) hrate _)⟩

theorem receive_missFull (hup : ethUp s.eth[k.port] k.half = true) (hcached : x.cached = false) {p : TenantId} (hpart : x.part = tenantPart p)
    (hfull : (getShare s p).missKib * 1024 < missUsed s p + missRoom k) (hrate : rateOk s (.unauth (parseWrd k.bytes).chan) 100000 = true) :
    Runs .wrdPacketReceive s (fun t => t.trn.rx = s.trn.rx.erase k ∧ t.trn.miss = s.trn.miss ∧
      RepliesOpen s t (refOf (parseWrd k.bytes) k) (.hold 0x4014 s.trn.holdMin.toNat)) := by
  have hrun := exec_wrdPacketReceive hnext
  obtain ⟨row, left, rfl⟩ := nextRx_some hnext
  rw [packetIn_missFull (s := rxTaken s k row left) hresv hx hcached hpart hfull] at hrun
  exact ⟨_, hrun, replyUnauth_rx _ _ _, replyUnauth_miss _ _ _, repliesOpen_of_rxTaken (replyUnauth_sends (r := refOf (parseWrd k.bytes) k)
    ((ethUp_rxTaken s k row left k.port k.half).trans hup) hrate _)⟩

theorem receive_miss (hcached : x.cached = false) {p : TenantId} (hpart : x.part = tenantPart p)
    (hroom : missUsed s p + missRoom k ≤ (getShare s p).missKib * 1024) :
    let w := parseWrd k.bytes
    Runs .wrdPacketReceive s (fun t => t.trn.rx = s.trn.rx.erase k ∧ t.trn.miss = s.trn.miss ++ [(w.chan, k)] ∧ w.chan ∈ t.trn.fetching ∧
      t.out = if w.chan ∈ s.trn.fetching then s.out else s.out ++ [.cacheRead (spillAddr s w.chan) 256]) := by
  intro w
  have hrun := exec_wrdPacketReceive hnext
  obtain ⟨row, left, rfl⟩ := nextRx_some hnext
  rw [packetIn_miss (s := rxTaken s k row left) hresv hx hcached hpart hroom] at hrun
  by_cases hfetch : w.chan ∈ s.trn.fetching
  · have hfetch' : (parseWrd k.bytes).chan ∈ (rxTaken s k row left).trn.fetching := hfetch
    dsimp only at hrun
    rw [if_pos hfetch'] at hrun
    exact ⟨_, hrun, rfl, rfl, hfetch, (if_pos hfetch).symm⟩
  · have hfetch' : (parseWrd k.bytes).chan ∉ (rxTaken s k row left).trn.fetching := hfetch
    dsimp only at hrun
    rw [if_neg hfetch'] at hrun
    exact ⟨_, hrun, rfl, rfl, List.mem_append_right _ (List.mem_singleton.2 rfl), (if_neg hfetch).symm⟩

section OnChip
variable (hcached : x.cached = true) (hstate : x.state = .opened)
include hcached hstate

theorem exec_wrdPacketReceive_opened : exec .wrdPacketReceive s = .next (processPacket s1 k) := by
  have hrun := exec_wrdPacketReceive hnext
  obtain ⟨row, left, rfl⟩ := nextRx_some hnext
  rwa [packetIn_opened (s := rxTaken s k row left) hresv hx hcached hstate] at hrun

theorem receive_elsewhere (hsrc : k.src ≠ x.peer) :
    Runs .wrdPacketReceive s (fun t => t.trn.rx = s.trn.rx.erase k ∧ t.out = s.out ∧ t.trn.noReply = s.trn.noReply + 1 ∧ oneEntry s t 0x4011) := by
  have hrun := exec_wrdPacketReceive_opened hnext hresv hx hcached hstate
  obtain ⟨row, left, rfl⟩ := nextRx_some hnext
  obtain ⟨l, n, htouch⟩ := touchChan_withChans (rxTaken s k row left) (parseWrd k.bytes).chan
  rw [processPacket_elsewhere (s := rxTaken s k row left) hx hsrc, htouch] at hrun
  exact ⟨_, hrun, rfl, rfl, rfl, _, rfl, rfl⟩

end OnChip
end Receive

theorem wrdPackets : WrdPackets := by
  refine ⟨fun s h rest hrx => nextRx_of_waiting hrx, fun s s1 k hnext => ?_⟩
  dsimp only
  refine ⟨fun hup => ⟨?unknown, ?limited, ?reset, ?missFull⟩, ?miss, fun x hresv hx hcached hstate => ⟨?elsewhere, ?newTile⟩⟩
  case unknown => exact fun hresv hrate => (receive_unknown hnext hup hresv).1 hrate
  case limited => exact fun hresv hrate => (receive_unknown hnext hup hresv).2 hrate
  case reset => exact fun x hresv hx hcached hstate hrate => receive_reset hnext hresv hx hup hcached hstate hrate
  case missFull => exact fun x p hresv hx hcached hpart hfull hrate => receive_missFull hnext hresv hx hup hcached hpart hfull hrate
  case miss => exact fun x p hresv hx hcached hpart hroom => receive_miss hnext hresv hx hcached hpart hroom
  case elsewhere => exact fun hsrc => receive_elsewhere hnext hresv hx hcached hstate hsrc
  case newTile =>
    intro hsrc hvlan hport henc hepoch hformat hop hackreq hsegOff hlong hshelf p win hpart htakes hfresh hhanded hwindow hstaging
    have hrun := exec_wrdPacketReceive_opened hnext hresv hx hcached hstate
    obtain ⟨row, left, rfl⟩ := nextRx_some hnext
    have hnew : NewTile s p (parseWrd k.bytes) win := ⟨hop, hackreq, hsegOff, hlong, htakes, hfresh, hhanded, hpart ▸ hwindow, hstaging⟩
    cases hopens : openedBy x s.alm.t k with
    | none =>
      obtain ⟨hrx, hout, hcount, hmsgs⟩ := processPacket_forged_counts (s := rxTaken s k row left) hx hsrc hvlan hport henc hopens
      refine ⟨_, hrun, hrx, hout, ?_⟩
      rw [show gcmOpen _ _ _ _ = none from hopens]
      exact ⟨hcount, hmsgs⟩
    | some pt =>
      obtain ⟨hrx, hout, hmsgs⟩ := processPacket_newTile (s := rxTaken s k row left) hx hsrc hvlan hport henc hopens (hnew.rxTaken k row left)
        hepoch hformat hshelf hpart
      refine ⟨_, hrun, hrx, hout, ?_⟩
      rw [show gcmOpen _ _ _ _ = some pt from hopens]
      exact ⟨_, hmsgs, rfl, rfl, rfl, rfl, rfl, rfl, rfl⟩

/-! ## The timers of Intake -/

theorem exec_contextFetchComplete {s : State} {c : Nat} {x : Chan} {p : TenantId} (hfetch : c ∈ s.trn.fetching) (hx : getChan s c = some x)
    (hpart : x.part = tenantPart p) (authentic : Bool) :
    exec (.contextFetchComplete c authentic) s = .next (installContext s p c authentic) := by
  have hp : partTenant x.part = some p := by simp [partTenant, hpart, tenantPart, finOpt]
  show execContextFetchComplete c authentic s = _
  simp [execContextFetchComplete, hfetch, hx, hp]

/-- A context that is fetched comes on chip as it was, or resets its channel. -/
theorem contextFetchComplete_installs {s : State} {c : Nat} {x : Chan} {p : TenantId} (hfetch : c ∈ s.trn.fetching) (hx : getChan s c = some x)
    (hpart : x.part = tenantPart p) (hwaits : ∀ q ∈ s.trn.miss, q.1 ≠ c) (hroom : (cachedOf s p).length < (getShare s p).contexts) :
    Runs (.contextFetchComplete c true) s (fun t => c ∉ t.trn.fetching ∧ ∃ y, getChan t c = some y ∧ y.cached = true ∧ y.state = x.state ∧
      y.epoch = x.epoch ∧ y.linkKey = x.linkKey) ∧
    Runs (.contextFetchComplete c false) s (fun t => c ∉ t.trn.fetching ∧ oneEntry s t 0x4012 ∧ ∃ y, getChan t c = some y ∧ y.cached = true ∧
      y.state = .reset ∧ y.linkKey = none) := by
  obtain ⟨u, l, n, hinstalled, hreset, hu, hget⟩ := installContext_eq hx hwaits hroom
  have hgone : c ∉ u.trn.fetching := by
    rw [hu]
    simp [withChans, fetchDone, modTrn]
  have hlog : u.dbkIn = s.dbkIn := by rw [hu]; rfl
  refine ⟨⟨_, exec_contextFetchComplete hfetch hx hpart true, ?_⟩, ⟨_, exec_contextFetchComplete hfetch hx hpart false, ?_⟩⟩
  · rw [hinstalled]
    exact ⟨hgone, _, hget, rfl, rfl, rfl, rfl⟩
  · obtain ⟨e, hin, hcode⟩ := resetChan_logs hget codeContextIntegrity
    rw [hlog] at hin
    rw [hreset, resetChan_fetching hget]
    exact ⟨hgone, ⟨e, hin, hcode⟩, _, getChan_resetChan hget _, rfl, rfl, rfl⟩

theorem exec_oldEpochExpiry {s : State} {c : Nat} {x : Chan} {o : Nat} {until_ : W64} (hx : getChan s c = some x) (hold : x.old = some (o, until_))
    (hpast : until_.toNat ≤ s.alm.t.toNat) : exec (.oldEpochExpiry c) s = .next (putChan s c { x with old := none }) := by
  show execOldEpochExpiry c s = _
  simp [execOldEpochExpiry, hx, hold, hpast]

/-- A message that ends with a reply is gone, and the reply goes out. -/
theorem endMsg_replies {s : State} {c : Nat} {sm id : W32} {m : Msg} (hm : findMsg s c sm id = some m) (hcan : CanReply s m.ref) (rep : Reply) :
    findMsg (reply (endMsg s m) m.ref rep) c sm id = none ∧ Replies s (reply (endMsg s m) m.ref rep) m.ref rep := by
  obtain ⟨rfl, rfl, rfl⟩ := findMsg_some hm
  obtain ⟨hreplies, hmsgs⟩ := replies_of_discards (discards_endMsg s m) hcan rep
  exact ⟨findMsg_none_of_subset (findMsg_endMsg s m) hmsgs, hreplies⟩

theorem intakeTimers : IntakeTimers := by
  refine ⟨fun s c x p hfetch hx hpart hwaits hroom => contextFetchComplete_installs hfetch hx hpart hwaits hroom,
    fun s c x o until_ hx hold hpast => exec_oldEpochExpiry hx hold hpast, fun s c sm id m hm hcan => ⟨?timeout, ?written⟩⟩
  case timeout =>
    intro hlate hopen
    have hrun : exec (.messageTimeout c sm id) s = .next (reply (endMsg s m) m.ref (.nak codeIncomplete m.segs)) := by
      show execMessageTimeout c sm id s = _
      simp [execMessageTimeout, hm, hlate, hopen]
    exact ⟨_, hrun, endMsg_replies hm hcan _⟩
  case written =>
    intro hput hfull
    have hrun : exec (.putWriteComplete c sm id) s = .next (replyAck (endMsg s m) m.ref 0 m.segs) := by
      show execPutWriteComplete c sm id s = _
      simp [execPutWriteComplete, hm, hput, hfull]
    have ⟨x, hx, _⟩ := hcan
    have hx' : getChan (endMsg s m) m.ref.chan = some x := ((discards_endMsg s m).getChan _).trans hx
    simp only [replyAck, hx'] at hrun
    obtain ⟨hgone, hreplies⟩ := endMsg_replies hm hcan (.ack 0 x.ceCount _ m.segs)
    exact ⟨_, hrun, hgone, _, _, hreplies⟩

/-- Settles O33: the packets by the step of R447 that answers them (`receive_…`, `processPacket_newTile`), the timers by what they leave of a
context (`installContext_eq`) or of a message (`endMsg_replies`). -/
theorem intakeAnswersWrdPackets : Obligations.IntakeAnswersWrdPackets := ⟨wrdPackets, intakeTimers⟩

end Sys2Proof.Machine

/-! PROOFS. The channel commands (R96, R103, R104, R347): a channel that is freed stays freed whatever Intake answers to the packets that
waited for its context; then O34. -/

namespace Sys2Proof.Machine

open Sys2Proof.Said

/-! ## A freed channel -/

/-- The queue manager is as given, channel `c` has no context, and no window names it. -/
structure Freed (q : Qm) (c : Nat) (s : State) : Prop where
  qm : s.qm = q
  absent : getChan s c = none
  wins : ∀ w ∈ s.wins.tab, w.2.chan ≠ c

section Freed
variable {q : Qm} {c : Nat} {s : State} (h : Freed q c s)
include h

/-- What touches no queue, no context and no window keeps it so. -/
theorem Freed.of_eq {t : State} (hqm : t.qm = s.qm) (hchans : t.trn.chans = s.trn.chans) (hwins : t.wins = s.wins) : Freed q c t :=
  ⟨hqm.trans h.qm, (congrArg (lookup c) hchans).trans h.absent, fun w hw => h.wins w (hwins ▸ hw)⟩

theorem Freed.of_discards {t : State} (hd : Discards s t) : Freed q c t where
  qm := hd.qm.trans h.qm
  absent := (hd.getChan c).trans h.absent
  wins := fun w hw => by
    obtain ⟨v, hv, hchan⟩ := hd.wins w hw
    exact hchan ▸ h.wins v hv

/-- A context that exists is another channel's. -/
theorem freed_putChan {d : Nat} {x : Chan} (hx : getChan s d = some x) {y : Chan} : Freed q c (putChan s d y) := by
  have hne : c ≠ d := by
    rintro rfl
    rw [h.absent] at hx
    cases hx
  exact ⟨h.qm, (getChan_putChan_other s d c y hne).trans h.absent, h.wins⟩

theorem freed_modChan {d : Nat} {f : Chan → Chan} : Freed q c (modChan s d f) := by
  cases hx : getChan s d with
  | none => rwa [modChan, hx]
  | some x =>
    rw [modChan_eq hx]
    exact freed_putChan h hx

theorem freed_touchChan {d : Nat} : Freed q c (touchChan s d) := by
  refine freed_modChan ?_
  exact h.of_eq rfl rfl rfl

theorem freed_resetChan {d code : Nat} : Freed q c (resetChan s d code) := by
  cases hx : getChan s d with
  | none => rwa [resetChan, hx]
  | some x =>
    obtain ⟨u, hreset, hu, -⟩ := resetChan_eq hx code
    rw [hreset]
    exact ((freed_putChan h hx (y := wiped x)).of_discards hu).of_eq rfl rfl rfl

/-! ## … under the device's answers -/

theorem freed_reply {r : MsgRef} {rep : Reply} : Freed q c (reply s r rep) := by
  unfold reply
  split
  · exact h
  · next x hx =>
    split
    · split
      · exact h
      · exact h.of_eq rfl rfl rfl
    · split
      · exact freed_resetChan h
      · have hsent := freed_putChan h hx (y := { repliedChan s.alm.t x rep with
          txEpoch := (repliedChan s.alm.t x rep).rxHigh, txSeq := nextSeq (repliedChan s.alm.t x rep) + 1 })
        dsimp only
        split
        · refine freed_resetChan ?_
          exact hsent.of_eq rfl rfl rfl
        · exact hsent.of_eq rfl rfl rfl

theorem freed_replyAck {r : MsgRef} {status bitmap : Nat} : Freed q c (replyAck s r status bitmap) := by
  unfold replyAck
  split
  · exact h
  · exact freed_reply h

theorem freed_replyHold {r : MsgRef} {reason : Nat} : Freed q c (replyHold s r reason) := freed_reply h

theorem freed_replyUnauth {r : MsgRef} {rep : Reply} : Freed q c (replyUnauth s r rep) :=
  h.of_eq (congrArg State.qm (replyUnauth_frame s r rep) :) (congrArg (fun u : State => u.trn.chans) (replyUnauth_frame s r rep) :)
    (congrArg State.wins (replyUnauth_frame s r rep) :)

theorem freed_logC {p : PartId} {code chan : Nat} {shelf msg : W32} {epoch check : Nat} : Freed q c (logC s p code chan shelf msg epoch check) :=
  h.of_eq rfl rfl rfl

theorem freed_nakLog {r : MsgRef} {part : PartId} {epoch code check : Nat} : Freed q c (nakLog s r part epoch code check) :=
  freed_reply (freed_logC h)

theorem freed_nakViolation {r : MsgRef} {part : PartId} {epoch check : Nat} : Freed q c (nakViolation s r part epoch check) := by
  refine freed_reply (freed_logC ?_)
  split
  · split
    · exact h
    · exact freed_logC h
  · exact h

theorem freed_endMsg {m : Msg} : Freed q c (endMsg s m) := h.of_discards (discards_endMsg s m)

/-! ## … and under the work on a message -/

theorem freed_modSt {r : StationRef} {f : Station → Station} : Freed q c (modSt s r f) := by
  refine h.of_eq (modSt_qm s r f) ?_ (modSt_wins s r f)
  obtain ⟨b, k⟩ | k | _ | _ := r
  · cases k <;> rfl
  all_goals rfl

theorem freed_handTile {home : BayId} {p : PortId} {x : Bin} {t : Tile} {ref : MsgRef} : Freed q c (handTile s home p x t ref) := by
  have hspent : Freed q c (spendSlot s (.bay (serveBay home x) .bin) p).2 := by
    unfold spendSlot modIn
    dsimp only
    refine freed_modSt ?_
    exact h.of_eq rfl rfl rfl
  unfold handTile
  dsimp only
  split
  · exact (freed_modSt (freed_modSt hspent)).of_eq rfl rfl rfl
  · exact (freed_modSt hspent).of_eq rfl rfl rfl

theorem freed_finishTile {m : Msg} {epoch : Nat} : Freed q c (finishTile s m epoch) := by
  have hended : Freed q c (endMsg s m) := freed_endMsg h
  unfold finishTile
  dsimp only
  split
  · exact freed_nakLog hended
  · exact freed_reply hended
  · exact freed_nakViolation hended
  · exact freed_nakLog hended
  · exact freed_nakLog hended
  · refine freed_replyAck (freed_endMsg ?_)
    exact h.of_eq rfl rfl rfl
  · split
    · exact freed_replyHold hended
    · split
      · exact h
      · exact freed_endMsg (freed_handTile h)

theorem freed_finishReduce {m : Msg} {epoch : Nat} : Freed q c (finishReduce s m epoch) := by
  have hfail : ∀ check, Freed q c (nakLog (endMsg s m) m.ref m.part epoch codeMalformedTile check) := fun _ => freed_nakLog (freed_endMsg h)
  unfold finishReduce
  dsimp only
  split
  · exact freed_endMsg h
  · split
    · exact hfail 2
    · split
      · exact hfail 2
      · split
        · exact hfail 5
        · exact h.of_eq rfl rfl rfl

theorem freed_finishMsg {m : Msg} {epoch : Nat} : Freed q c (finishMsg s m epoch) := by
  unfold finishMsg
  split
  · exact freed_finishReduce h
  · exact freed_finishTile h

theorem freed_openWrite {b : BayId} {a : Nat} {bs : List Byte} : Freed q c (openWrite s b a bs) := by
  refine foldl_keeps _ (Freed q c) (fun t p ht => ?_) _ _ h
  split
  · exact ht
  · exact ht.of_eq rfl rfl rfl

theorem freed_putMsg {m : Msg} : Freed q c (putMsg s m) := h.of_eq rfl rfl rfl

theorem freed_placeSeg {m : Msg} {w : Wrd} {r : MsgRef} {pt : List Byte} : Freed q c (placeSeg s m w r pt) := by
  unfold placeSeg
  extract_lets bit m1 s1 s2
  have hplaced : Freed q c s2 := by
    refine freed_putMsg ?_
    unfold s1
    split
    · split
      · split
        · exact freed_openWrite h
        · exact h
      · exact h
    · exact h
  clear_value s2
  split
  · split
    · exact freed_replyAck h
    · exact h
  · split
    · split
      · exact hplaced
      · exact freed_finishMsg hplaced
    · split
      · exact freed_replyAck hplaced
      · exact hplaced

theorem freed_lateSegment {m r : MsgRef} {w : Wrd} {pt : List Byte} {part : PartId} : Freed q c (lateSegment s m r w pt part) := by
  unfold lateSegment
  split
  · exact freed_nakLog h
  · split
    · exact freed_replyAck h
    · exact h

theorem freed_windowSegment {p : TenantId} {w : Wrd} {k : RxPacket} {pt : List Byte} : Freed q c (windowSegment s p w k pt) := by
  unfold windowSegment
  dsimp only
  split
  · split
    · exact freed_replyHold h
    · split
      · exact freed_nakLog (freed_endMsg h)
      · split
        · exact freed_nakViolation h
        · split
          · exact freed_nakLog (freed_endMsg h)
          · split
            · exact freed_nakViolation h
            · exact freed_placeSeg h
  · split
    · exact freed_replyHold h
    · split
      · exact freed_lateSegment h
      · split
        · exact freed_nakLog h
        · exact freed_reply h
        · exact freed_nakViolation h
        · split
          · exact freed_nakViolation h
          · split
            · exact freed_replyHold h
            · split
              · exact freed_replyHold h
              · exact freed_placeSeg h

theorem freed_reduceSegment {p : TenantId} {w : Wrd} {k : RxPacket} {pt : List Byte} : Freed q c (reduceSegment s p w k pt) := by
  unfold reduceSegment
  dsimp only
  split
  · split
    · exact freed_replyHold h
    · split
      · exact freed_nakLog (freed_endMsg h)
      · exact freed_placeSeg h
  · split
    · exact freed_replyHold h
    · split
      · exact freed_replyHold h
      · exact freed_placeSeg h

theorem freed_dataSegment {p : TenantId} {w : Wrd} {k : RxPacket} {pt : List Byte} : Freed q c (dataSegment s p w k pt) := by
  unfold dataSegment
  extract_lets s1
  have hmarked : Freed q c s1 := by
    unfold s1
    split
    · exact freed_modChan h
    · exact h
  clear_value s1
  split
  · split
    · exact freed_reduceSegment hmarked
    · exact freed_nakViolation hmarked
  · exact freed_windowSegment hmarked

/-! ## … and under a peer's reply -/

theorem freed_sendSeg {m : TxMsg} {k : Nat} {f : WrdFlags} : Freed q c (sendSeg s m k f) := by
  unfold sendSeg
  split
  · exact h
  · next x hx =>
    split
    · exact h
    · split
      · exact h
      · split
        · exact freed_resetChan h
        · exact (freed_putChan h hx (y := { x with txEpoch := x.rxHigh, txSeq := nextSeq x + 1 })).of_eq rfl rfl rfl

theorem freed_sendSegs {m : TxMsg} {ks : List Nat} {f : WrdFlags} : Freed q c (sendSegs s m ks f) :=
  foldl_keeps _ (Freed q c) (fun _ _ ht => freed_sendSeg ht) ks s h

theorem freed_peerPartial {w : Wrd} {bitmap : Nat} : Freed q c (peerPartial s w bitmap) := by
  unfold peerPartial
  split
  · exact h
  · dsimp only
    split
    · exact h.of_eq rfl rfl rfl
    · refine freed_sendSegs ?_
      exact h.of_eq rfl rfl rfl

theorem freed_peerReply {w : Wrd} {b : List Byte} {authentic : Bool} : Freed q c (peerReply s w b authentic) := by
  have hpressed : Freed q c (if authentic ∧ w.op = 3 then modChan s w.chan (fun x => { x with pressed := bitOf (u8 b 26) 0 }) else s) := by
    split
    · exact freed_modChan h
    · exact h
  unfold peerReply
  dsimp only
  split
  · exact freed_modChan hpressed
  · split
    · exact hpressed
    · split
      · exact hpressed.of_eq rfl rfl rfl
      · split
        · split
          · exact freed_peerPartial hpressed
          · exact hpressed
        · split
          · exact hpressed.of_eq rfl rfl rfl
          · exact hpressed

/-! ## … and under a packet -/

theorem freed_checkedPacket {x : Chan} {k : RxPacket} {w : Wrd} {pt : List Byte} : Freed q c (checkedPacket s x k w pt) := by
  have hswitched : Freed q c (if w.enc then epochSwitch s w.chan w.epoch else s) := by
    split
    · exact freed_modChan h
    · exact h
  unfold checkedPacket
  dsimp only
  split
  · exact freed_nakLog h
  · split
    · exact freed_nakLog hswitched
    · split
      · split
        · exact freed_dataSegment hswitched
        · exact hswitched
      · exact freed_peerReply hswitched

theorem freed_processPacket {k : RxPacket} : Freed q c (processPacket s k) := by
  have htouched : Freed q c (touchChan s (parseWrd k.bytes).chan) := freed_touchChan h
  have hcounted : Freed q c (noReply (touchChan s (parseWrd k.bytes).chan)) := htouched.of_eq rfl rfl rfl
  unfold processPacket
  dsimp only
  split
  · exact h
  · split
    · exact freed_logC hcounted
    · split
      · exact freed_checkedPacket htouched
      · split
        · split
          · refine freed_logC ?_
            exact hcounted.of_eq rfl rfl rfl
          · exact hcounted
        · exact freed_checkedPacket htouched

theorem freed_packetIn {k : RxPacket} : Freed q c (packetIn s k) := by
  have hrefused : Freed q c (replyUnauth s (refOf (parseWrd k.bytes) k) (.nak codeUnknownChannel 0)) := freed_replyUnauth h
  unfold packetIn
  dsimp only
  split
  · split
    · exact freed_logC hrefused
    · exact hrefused
  · split
    · split
      · exact freed_logC hrefused
      · exact hrefused
    · split
      · split
        · exact h
        · split
          · exact freed_replyUnauth h
          · split
            · exact h.of_eq rfl rfl rfl
            · exact h.of_eq rfl rfl rfl
      · split
        · split
          · exact freed_logC hrefused
          · exact hrefused
        · split
          · exact freed_replyUnauth h
          · exact freed_processPacket h

end Freed

/-! ## CHAN_FREE (R103) -/

/-- A window that is revoked is in the table no more. -/
theorem revokeWin_tab (s : State) (i cause : Nat) : (revokeWin s i cause).wins.tab = eraseKey i s.wins.tab := by
  cases hw : getWin s i with
  | none =>
    have hnone : ∀ q ∈ s.wins.tab, (q.1 == i) = false := by
      have hfind := Option.map_eq_none_iff.1 hw
      simpa [List.find?_eq_none] using hfind
    have hkept : eraseKey i s.wins.tab = s.wins.tab := by
      simpa [eraseKey, List.filter_eq_self] using hnone
    simp [revokeWin, hw, hkept]
  | some w =>
    rw [revokeWin_eq hw, freeWin_eq hw]
    rfl

theorem mem_tab_of_revoked {l : List Nat} {cause : Nat} {s : State} {w : Nat × Window}
    (hw : w ∈ (l.foldl (fun s i => revokeWin s i cause) s).wins.tab) : w ∈ s.wins.tab ∧ w.1 ∉ l := by
  induction l generalizing s with
  | nil => exact ⟨hw, List.not_mem_nil⟩
  | cons i l ih =>
    obtain ⟨htab, hl⟩ := ih hw
    rw [revokeWin_tab, eraseKey, List.mem_filter] at htab
    obtain ⟨hin, hne⟩ := htab
    exact ⟨hin, by simpa [hl] using hne⟩

/-- The release whose message is lost notes it: no queue and no window is touched. -/
theorem loseTx_keeps (s : State) (c : Nat) : (loseTx s c).qm = s.qm ∧ (loseTx s c).wins = s.wins := by
  unfold loseTx
  refine foldl_keeps _ (fun t : State => t.qm = s.qm ∧ t.wins = s.wins) (fun t b ht => ?_) _ _ ⟨rfl, rfl⟩
  exact ht

theorem freed_dropChan (s : State) (c : Nat) : Freed s.qm c (dropChan s c) := by
  unfold dropChan
  extract_lets wins s1 waiting s2
  have hqm : s1.qm = s.qm := foldl_keeps _ (fun t : State => t.qm = s.qm) (fun t i ht => (revokeWin_qm t i 2).trans ht) wins s rfl
  have hwins : ∀ w ∈ s1.wins.tab, w.2.chan ≠ c := by
    intro w hw hchan
    obtain ⟨hin, hnot⟩ := mem_tab_of_revoked hw
    exact hnot (List.mem_map.2 ⟨w, List.mem_filter.2 ⟨hin, by simpa using hchan⟩, rfl⟩)
  have hdropped : Freed s.qm c s2 := by
    obtain ⟨hlostQm, hlostWins⟩ := loseTx_keeps s1 c
    exact ⟨hlostQm.trans hqm, lookup_eraseKey_same c _, fun w hw => hwins w (hlostWins ▸ hw)⟩
  exact foldl_keeps _ (Freed s.qm c) (fun _ _ ht => freed_packetIn ht) waiting s2 hdropped

/-! ## What the channel commands check -/

/-- The context that CHAN_KEY leaves: the first epoch opens the channel, the next one is installed beside it (R96). -/
def keyedChan (e : Nat) (x : Chan) : Chan :=
  if x.state = .opened then { x with nextInst := true }
  else { x with state := .opened, epoch := e, nextInst := false, old := none, rxHigh := e, txEpoch := e, txSeq := 0 }

theorem exec_chanKey_accepted {s : State} {h : CmdHdr} {c : Nat} {job : W32} {e : Nat} (hst : chanKeyStatus s h c job e = 0) :
    exec (.chanKey h c job e) s = .next (complete (modChan (begun s (.chanKey h c job e)) c (keyedChan e)) h 0 []) := by
  have hst' : chanKeyStatus (begun s (.chanKey h c job e)) h c job e = 0 := hst
  show execChanKey h c job e s = _
  unfold execChanKey
  dsimp only
  rw [if_neg (by simp [hst'])]
  rfl

theorem exec_chanKey_refused {s : State} {h : CmdHdr} {c : Nat} {job : W32} {e : Nat} (hst : chanKeyStatus s h c job e = codeChanEpoch) :
    exec (.chanKey h c job e) s = .next (complete (begun s (.chanKey h c job e)) h codeChanEpoch []) := by
  have hst' : chanKeyStatus (begun s (.chanKey h c job e)) h c job e = codeChanEpoch := hst
  show execChanKey h c job e s = _
  simp [execChanKey, hst']

section Mine
variable {s : State} {h : CmdHdr} {p : TenantId} {c : Nat} (hpart : h.part = tenantPart p) (howner : chanOwner s c = some p)
include hpart howner

theorem chanMine_owned : chanMine s h c = some p := by simp [chanMine, issuer_tenant hpart, howner]

/-- With room in the share a channel that has no context is made. -/
theorem exec_chanCreate_free {vlan mask paths : Nat} {mac peer : List Byte} (hlo : 1 ≤ paths) (hhi : paths ≤ 16) (hnone : getChan s c = none)
    (hroom : (cachedOf s p).length < (getShare s p).contexts) :
    exec (.chanCreate h c vlan mask paths mac peer) s = .next (complete (touchChan (putChan (begun s (.chanCreate h c vlan mask paths mac peer)) c
      { part := h.part, vlan := vlan, portMask := mask, paths := paths, mac := mac, peer := peer }) c) h 0 []) := by
  have hmade : makeRoom (begun s (.chanCreate h c vlan mask paths mac peer)) p = some (begun s (.chanCreate h c vlan mask paths mac peer)) := if_pos hroom
  have hmine : chanMine (begun s (.chanCreate h c vlan mask paths mac peer)) h c = some p := chanMine_owned hpart howner
  have hpaths : ¬ paths = 0 ∧ paths ≤ 16 := ⟨by omega, hhi⟩
  have hnone' : getChan (begun s (.chanCreate h c vlan mask paths mac peer)) c = none := hnone
  have hst : chanCreateStatus (begun s (.chanCreate h c vlan mask paths mac peer)) h c paths = 0 := by
    simpa [chanCreateStatus, hmine, hnone', hmade] using hpaths
  show execChanCreate h c vlan mask paths mac peer s = _
  simp [execChanCreate, hst, issuer_tenant hpart, hmade]

theorem exec_chanCreate_exists {vlan mask paths : Nat} {mac peer : List Byte} (hlo : 1 ≤ paths) (hhi : paths ≤ 16) (hsome : (getChan s c).isSome) :
    exec (.chanCreate h c vlan mask paths mac peer) s =
      .next (complete (begun s (.chanCreate h c vlan mask paths mac peer)) h codeChanState []) := by
  have hmine : chanMine (begun s (.chanCreate h c vlan mask paths mac peer)) h c = some p := chanMine_owned hpart howner
  have hpaths : ¬ paths = 0 ∧ paths ≤ 16 := ⟨by omega, hhi⟩
  have hsome' : (getChan (begun s (.chanCreate h c vlan mask paths mac peer)) c).isSome = true := hsome
  have hst : chanCreateStatus (begun s (.chanCreate h c vlan mask paths mac peer)) h c paths = codeChanState := by
    simpa [chanCreateStatus, hmine, hsome'] using hpaths
  show execChanCreate h c vlan mask paths mac peer s = _
  simp [execChanCreate, hst]

variable {x : Chan} (hx : getChan s c = some x)
include hx

theorem chanNameStatus_owned : chanNameStatus s h c = 0 := by simp [chanNameStatus, chanMine_owned hpart howner, hx]

theorem exec_chanReset_owned : exec (.chanReset h c) s = .next (complete (resetChan (begun s (.chanReset h c)) c codeChannelReset) h 0 []) := by
  have hst : chanNameStatus (begun s (.chanReset h c)) h c = 0 := chanNameStatus_owned hpart howner hx
  show execChanReset h c s = _
  simp [execChanReset, hst]

theorem exec_chanFree_owned : exec (.chanFree h c) s = .next (complete (dropChan (begun s (.chanFree h c)) c) h 0 []) := by
  have hst : chanNameStatus (begun s (.chanFree h c)) h c = 0 := chanNameStatus_owned hpart howner hx
  show execChanFree h c s = _
  simp [execChanFree, hst]

/-- The status of CHAN_KEY of the job whose link key the channel holds: the epoch decides it (R96). -/
theorem chanKeyStatus_linked {job : W32} {e : Nat} {j : Job} (hjob : (getPart s p).job = some j) (hj : j.job = job) (hkey : x.linkKey.isSome)
    (hlink : x.linkJob = job) : chanKeyStatus s h c job e =
      if x.state = .opened then (if e = x.epoch + 1 ∧ e ≤ 65535 then 0 else codeChanEpoch)
      else if 1 ≤ e ∧ e ≤ 65535 then 0 else codeChanEpoch := by
  have hof : jobOfPart s h.part = some j := by
    have hp : partTenant h.part = some p := issuer_tenant hpart
    simp only [jobOfPart, hp, Option.bind_some]
    exact hjob
  have hne : x.linkKey ≠ none := Option.isSome_iff_ne_none.1 hkey
  simp [chanKeyStatus, chanMine_owned hpart howner, hof, hj, hx, hne, hlink]

/-- The status of a pin for which the share has pins left. -/
theorem chanPinStatus_owned {pin : Nat} (hpin : pin = 0 ∨ pin = 1 ∧
    2 * ((s.trn.chans.filter (fun q => q.2.pinned && q.2.part == h.part && q.1 != c)).length + 1) ≤ (getShare s p).contexts)
    (hroom : pin = 1 → x.cached = true ∨ (makeRoom s p).isSome) : chanPinStatus s h c pin = 0 := by
  rcases hpin with rfl | ⟨rfl, hleft⟩
  · simp [chanPinStatus, chanMine_owned hpart howner, hx]
  · have hfits : ¬ (getShare s p).contexts < 2 * ((s.trn.chans.filter (fun q => q.2.pinned && q.2.part == h.part && q.1 != c)).length + 1) := by omega
    have hhere : ¬ (x.cached = false ∧ makeRoom s p = none) := by
      rintro ⟨hoff, hfull⟩
      simp [hoff, hfull] at hroom
    simpa [chanPinStatus, chanMine_owned hpart howner, hx, hfits] using hhere

theorem exec_chanPin_unpins (a : Bool) : exec (.chanPin h c ⟨0, a⟩) s =
    .next (complete (modChan (begun s (.chanPin h c ⟨0, true⟩)) c (fun x => { x with pinned := false })) h 0 []) := by
  have hst : chanPinStatus (begun s (.chanPin h c ⟨0, true⟩)) h c 0 = 0 :=
    chanPinStatus_owned (s := begun s _) hpart howner hx (.inl rfl) (fun h => absurd h (by decide))
  show execChanPin h c ⟨0, a⟩ s = _
  simp [execChanPin, hst]

section Pins
variable (hleft : 2 * ((s.trn.chans.filter (fun q => q.2.pinned && q.2.part == h.part && q.1 != c)).length + 1) ≤ (getShare s p).contexts)
include hleft

theorem exec_chanPin_here (a : Bool) (hcached : x.cached = true) : exec (.chanPin h c ⟨1, a⟩) s =
    .next (complete (modChan (begun s (.chanPin h c ⟨1, true⟩)) c (fun x => { x with pinned := true })) h 0 []) := by
  have hst : chanPinStatus (begun s (.chanPin h c ⟨1, true⟩)) h c 1 = 0 :=
    chanPinStatus_owned (s := begun s _) hpart howner hx (.inr ⟨rfl, hleft⟩) fun _ => .inl hcached
  have hx' : getChan (begun s (.chanPin h c ⟨1, true⟩)) c = some x := hx
  show execChanPin h c ⟨1, a⟩ s = _
  simp [execChanPin, hst, hx', issuer_tenant hpart, hcached]

/-- The context is read from the spill area, where no read of it is on its way yet, and installed. -/
theorem exec_chanPin_installs (hcached : x.cached = false) (hroom : (cachedOf s p).length < (getShare s p).contexts) :
    ∃ u, u.trn = s.trn ∧ u.qm = (begun s (.chanPin h c ⟨1, true⟩)).qm ∧ u.dbkIn = s.dbkIn ∧ ∀ a, exec (.chanPin h c ⟨1, a⟩) s =
      .next (complete (modChan (installContext u p c a) c (fun x => { x with pinned := true })) h 0 []) := by
  have hmade : makeRoom (begun s (.chanPin h c ⟨1, true⟩)) p = some (begun s (.chanPin h c ⟨1, true⟩)) := if_pos hroom
  have hst : chanPinStatus (begun s (.chanPin h c ⟨1, true⟩)) h c 1 = 0 :=
    chanPinStatus_owned (s := begun s _) hpart howner hx (.inr ⟨rfl, hleft⟩) fun _ => .inr (by rw [hmade]; rfl)
  have hx' : getChan (begun s (.chanPin h c ⟨1, true⟩)) c = some x := hx
  refine ⟨if (begun s (.chanPin h c ⟨1, true⟩)).trn.fetching.contains c then begun s (.chanPin h c ⟨1, true⟩)
    else emitOut (begun s (.chanPin h c ⟨1, true⟩)) (.cacheRead (spillAddr (begun s (.chanPin h c ⟨1, true⟩)) c) 256), ?_, ?_, ?_, ?_⟩
  case refine_4 =>
    intro a
    show execChanPin h c ⟨1, a⟩ s = _
    simp only [execChanPin, hst, hx', issuer_tenant hpart, hcached, ne_eq, not_true_eq_false, if_false, if_true, Bool.false_eq_true]
  all_goals split <;> rfl

end Pins
end Mine

/-! ## The statement -/

/-- A command that changes a context in place and completes. -/
theorem modChan_completes {s : State} {i : Instr} {h : CmdHdr} {c : Nat} {x : Chan} {f : Chan → Chan} (hx : getChan s c = some x)
    (j : Instr) (hrun : exec i s = .next (complete (modChan (begun s j) c f) h 0 [])) :
    Runs i s (fun t => completes s t h 0 [] ∧ getChan t c = some (f x)) := by
  refine ⟨_, hrun, completes_begun (modChan_qm _ c f) h 0 [], ?_⟩
  rw [getChan_complete]
  exact getChan_modChan (s := begun s j) hx f

section Settled
variable {s : State} {h : CmdHdr} {p : TenantId} {c : Nat} (hpart : h.part = tenantPart p) (howner : chanOwner s c = some p)
include hpart howner

theorem chanCreate_makes {vlan mask paths : Nat} {mac peer : List Byte} (hlo : 1 ≤ paths) (hhi : paths ≤ 16) (hnone : getChan s c = none)
    (hroom : (cachedOf s p).length < (getShare s p).contexts) :
    Runs (.chanCreate h c vlan mask paths mac peer) s (fun t => completes s t h 0 [] ∧ ∃ y, getChan t c = some y ∧ y.part = h.part ∧
      y.state = .unkeyed ∧ y.vlan = vlan ∧ y.portMask = mask ∧ y.paths = paths ∧ y.mac = mac ∧ y.peer = peer ∧ y.cached = true ∧ y.linkKey = none) := by
  have hget := getChan_touchChan (getChan_putChan_same (begun s (.chanCreate h c vlan mask paths mac peer)) c
    { part := h.part, vlan := vlan, portMask := mask, paths := paths, mac := mac, peer := peer })
  refine ⟨_, exec_chanCreate_free hpart howner hlo hhi hnone hroom, completes_begun (i := .chanCreate h c vlan mask paths mac peer) ?_ h 0 [], ?_⟩
  · rw [touchChan_qm]
    rfl
  · rw [getChan_complete]
    exact ⟨_, hget, rfl, rfl, rfl, rfl, rfl, rfl, rfl, rfl, rfl⟩

variable {x : Chan} (hx : getChan s c = some x)
include hx

theorem chanKey_settles {job : W32} {e : Nat} {j : Job} (hjob : (getPart s p).job = some j) (hj : j.job = job) (hkey : x.linkKey.isSome)
    (hlink : x.linkJob = job) :
    (x.state ≠ .opened → 1 ≤ e → e ≤ 65535 → Runs (.chanKey h c job e) s (fun t => completes s t h 0 [] ∧ getChan t c = some { x with
      state := .opened, epoch := e, nextInst := false, old := none, rxHigh := e, txEpoch := e, txSeq := 0 })) ∧
    (x.state = .opened → e = x.epoch + 1 → e ≤ 65535 → Runs (.chanKey h c job e) s (fun t => completes s t h 0 [] ∧
      getChan t c = some { x with nextInst := true })) ∧
    (x.state = .opened → e ≠ x.epoch + 1 → Runs (.chanKey h c job e) s (fun t => completes s t h 0x400C [] ∧ getChan t c = some x)) := by
  have hst := chanKeyStatus_linked hpart howner hx hjob hj hkey hlink (e := e)
  refine ⟨fun hclosed hlo hhi => ?_, fun hopen hnext hhi => ?_, fun hopen hwrong => ?_⟩
  · rw [if_neg hclosed, if_pos ⟨hlo, hhi⟩] at hst
    have hruns := modChan_completes hx _ (exec_chanKey_accepted hst)
    rwa [keyedChan, if_neg hclosed] at hruns
  · rw [if_pos hopen, if_pos ⟨hnext, hhi⟩] at hst
    have hruns := modChan_completes hx _ (exec_chanKey_accepted hst)
    rwa [keyedChan, if_pos hopen] at hruns
  · rw [if_pos hopen, if_neg fun hboth => hwrong hboth.1] at hst
    exact ⟨_, exec_chanKey_refused hst, completes_begun rfl h _ _, (getChan_complete _ _ _ _ _).trans hx⟩

/-- A pin that brings the context on chip: as it was, or, when it does not authenticate, of a channel in RESET. -/
theorem chanPin_fetches (hleft : 2 * ((s.trn.chans.filter (fun q => q.2.pinned && q.2.part == h.part && q.1 != c)).length + 1) ≤
    (getShare s p).contexts) (hcached : x.cached = false) (hroom : (cachedOf s p).length < (getShare s p).contexts)
    (hwaits : ∀ q ∈ s.trn.miss, q.1 ≠ c) :
    Runs (.chanPin h c ⟨1, true⟩) s (fun t => completes s t h 0 [] ∧ ∃ y, getChan t c = some y ∧ y.cached = true ∧ y.pinned = true ∧
      y.state = x.state ∧ y.linkKey = x.linkKey) ∧
    Runs (.chanPin h c ⟨1, false⟩) s (fun t => completes s t h 0 [] ∧ oneEntry s t 0x4012 ∧ ∃ y, getChan t c = some y ∧ y.cached = true ∧
      y.pinned = true ∧ y.state = .reset ∧ y.linkKey = none) := by
  obtain ⟨u, htrn, hqm, hlog, hrun⟩ := exec_chanPin_installs hpart howner hx hleft hcached hroom
  obtain ⟨v, l, n, hinstalled, hreset, hv, hget⟩ := installContext_eq (s := u) (p := p) (by rwa [getChan, htrn]) (by rwa [htrn])
    (by rwa [cachedOf, getShare, htrn])
  have hvqm : v.qm = (begun s (.chanPin h c ⟨1, true⟩)).qm := by
    rw [hv]
    exact hqm
  have hvlog : v.dbkIn = s.dbkIn := by
    rw [hv]
    exact hlog
  have hhere := hrun true
  have hfailed := hrun false
  rw [hinstalled] at hhere
  rw [hreset] at hfailed
  refine ⟨⟨_, hhere, completes_begun ((modChan_qm v c _).trans hvqm) h 0 [], ?_⟩, ⟨_, hfailed, completes_begun
    ((modChan_qm _ c _).trans ((resetChan_qm hget _).trans hvqm)) h 0 [], ?_, ?_⟩⟩
  · rw [getChan_complete]
    exact ⟨_, getChan_modChan hget _, rfl, rfl, rfl, rfl⟩
  · obtain ⟨e, hin, hcode⟩ := resetChan_logs hget codeContextIntegrity
    rw [oneEntry_complete]
    exact ⟨e, (modChan_dbkIn _ _ _).trans (hvlog ▸ hin), hcode⟩
  · rw [getChan_complete]
    exact ⟨_, getChan_modChan (getChan_resetChan hget _) _, rfl, rfl, rfl, rfl⟩

theorem chanReset_wipes : Runs (.chanReset h c) s (fun t => completes s t h 0 [] ∧ oneEntry s t 0x4004 ∧ (∀ m ∈ t.trn.msgs, m.chan ≠ c) ∧
    ∃ y, getChan t c = some y ∧ y.state = .reset ∧ y.linkKey = none) := by
  have hx' : getChan (begun s (.chanReset h c)) c = some x := hx
  refine ⟨_, exec_chanReset_owned hpart howner hx, completes_begun (resetChan_qm hx' _) h 0 [], ?_⟩
  rw [oneEntry_complete, complete_trn, getChan_complete]
  exact ⟨resetChan_logs hx' _, msgs_resetChan hx' _, _, getChan_resetChan hx' _, rfl, rfl⟩

theorem chanFree_frees : Runs (.chanFree h c) s (fun t => completes s t h 0 [] ∧ getChan t c = none ∧ ∀ w ∈ t.wins.tab, w.2.chan ≠ c) := by
  obtain ⟨hqm, habsent, hwins⟩ := freed_dropChan (begun s (.chanFree h c)) c
  refine ⟨_, exec_chanFree_owned hpart howner hx, completes_begun hqm h 0 [], ?_⟩
  rw [getChan_complete, complete_wins]
  exact ⟨habsent, hwins⟩

end Settled

/-- Settles O34: each command completes as its equation says (`exec_chan…`), a reset by `resetChan_eq`, and a freed channel stays freed
whatever the packets that waited for it name (`freed_packetIn`). -/
theorem channelCommandsChangeChannelState : Obligations.ChannelCommandsChangeChannelState := by
  intro s h p c hpart howner
  refine ⟨fun vlan mask paths mac peer hlo hhi => ⟨chanCreate_makes hpart howner hlo hhi, ?taken⟩, fun x hx => ⟨fun job e j hjob hj hkey hlink =>
    chanKey_settles hpart howner hx hjob hj hkey hlink, fun hleft => ⟨?pinned, fun hcached hroom hwaits =>
    chanPin_fetches hpart howner hx hleft hcached hroom hwaits⟩, ?unpinned, chanReset_wipes hpart howner hx, chanFree_frees hpart howner hx⟩⟩
  case taken =>
    intro hsome
    exact ⟨_, exec_chanCreate_exists hpart howner hlo hhi hsome, completes_begun rfl h _ _, complete_trn _ _ _ _⟩
  case pinned => exact fun a hcached => modChan_completes hx _ (exec_chanPin_here hpart howner hx hleft a hcached)
  case unpinned => exact fun a => modChan_completes hx _ (exec_chanPin_unpins hpart howner hx a)

end Sys2Proof.Machine

/-! PROOFS. Ethernet links and frames (R85 to R88): what an update of a port leaves, a link that is lost, a frame by its kind; then O32. -/

namespace Sys2Proof.Machine

open Sys2Proof.Said

/-- Two updates of one port in turn are one update. -/
theorem modEth_modEth (s : State) (p : PortId) (f g : Eth → Eth) : modEth (modEth s p f) p g = modEth s p (fun e => g (f e)) := by
  simp [modEth, vmod]

theorem modEth_same (s : State) (p : PortId) (f : Eth → Eth) : (modEth s p f).eth[p] = f s.eth[p] := (modEth_get s p p f).trans (if_pos rfl)

/-! ## Links (R85) -/

theorem exec_ethLinkUp {s : State} {p : PortId} {half : Bool} (hup : s.pow.inReset = false) (href : s.pow.refs.getLsbD 1 = true)
    (hmode : ethMode s.eth[p] half = true) : exec (.ethLinkUp p half) s = .next (modEth s p (fun e =>
      if half then { e with link1 := true, training1 := false } else { e with link0 := true, training := false })) := by
  show execEthLinkUp p half s = _
  rw [execEthLinkUp, hup, href, hmode]
  rfl

/-- A port or half-port that loses its link trains anew in an Ethernet mode. -/
def linkLost (half : Bool) (e : Eth) : Eth :=
  if ethMode e half then halfLink e half false else if half then { e with link1 := false } else { e with link0 := false }

/-- The transfers that a lost link ends are SENDs: they touch no port. -/
theorem endRuns_send_eth (s : State) (p : TenantId) (test : Xfer → XferRun → Bool) (hsend : ∀ x r, test x r = true → x.send = true) :
    (endRuns s p test).eth = s.eth := by
  unfold endRuns
  split
  · rfl
  · next g _ =>
    refine foldl_keeps _ (fun t : State => t.eth = s.eth) (fun t r ht => ?_) _ s rfl
    split
    · next x _ =>
      split
      · next hends =>
        obtain ⟨-, htest⟩ : r.ended = false ∧ test x r = true := by simpa using hends
        simp only [xferEnd, hsend x r htest, if_true]
        split <;> exact ht
      · exact ht
    · exact ht

theorem portDownSends_eth (s : State) (p : PortId) : (portDownSends s p).eth = s.eth := by
  refine foldl_keeps _ (fun t : State => t.eth = s.eth) (fun t q ht => ?_) _ s rfl
  refine (endRuns_send_eth t q _ fun x r htest => ?_).trans ht
  simp only [Bool.and_eq_true] at htest
  exact htest.1.1

theorem ethDown_port (s : State) (p : PortId) (half : Bool) : (ethDown s p half).eth[p] = linkLost half s.eth[p] := by
  have hlost : (modEth s p (linkLost half)).eth[p] = linkLost half s.eth[p] := modEth_same s p _
  have hsends : ∀ t : State, (if (t.eth[p]).link0 || (t.eth[p]).link1 then t else portDownSends t p).eth = t.eth := by
    intro t
    split
    · rfl
    · exact portDownSends_eth t p
  have hdown : (ethDown s p half).eth = (modEth s p (linkLost half)).eth := hsends (modEth s p (linkLost half))
  rw [hdown, hlost]

theorem exec_ethLinkDown {s : State} {p : PortId} {half : Bool} (hlink : (if half then (s.eth[p]).link1 else (s.eth[p]).link0) = true) :
    exec (.ethLinkDown p half) s = .next (ethDown s p half) := by
  show execEthLinkDown p half s = _
  rw [execEthLinkDown, hlink]
  rfl

theorem ethLinkDown_first {s : State} {p : PortId} (hlink : (s.eth[p]).link0 = true) :
    Runs (.ethLinkDown p false) s (fun t => (t.eth[p]).link0 = false ∧ (t.eth[p]).link1 = (s.eth[p]).link1 ∧
      (ethMode s.eth[p] false = true → (t.eth[p]).training = true)) := by
  refine ⟨_, exec_ethLinkDown (half := false) hlink, ?_⟩
  simp only [ethDown_port, linkLost]
  split
  · exact ⟨rfl, rfl, fun _ => rfl⟩
  · next hmode => exact ⟨rfl, rfl, fun h => absurd h hmode⟩

theorem ethLinkDown_second {s : State} {p : PortId} (hlink : (s.eth[p]).link1 = true) :
    Runs (.ethLinkDown p true) s (fun t => (t.eth[p]).link1 = false ∧ (t.eth[p]).link0 = (s.eth[p]).link0 ∧
      (ethMode s.eth[p] true = true → (t.eth[p]).training1 = true)) := by
  refine ⟨_, exec_ethLinkDown (half := true) hlink, ?_⟩
  simp only [ethDown_port, linkLost]
  split
  · exact ⟨rfl, rfl, fun _ => rfl⟩
  · next hmode => exact ⟨rfl, rfl, fun h => absurd h hmode⟩

/-! ## A frame, by its kind (R86, R88) -/

/-- An untagged MAC control frame is PAUSE or PFC by its opcode. -/
theorem frameKind_pause {e : Eth} {p : PortId} {half : Bool} {f : List Byte} (htype : be16 f 12 = 0x8808)
    (hopcode : be16 f 14 = 1 ∨ be16 f 14 = 0x0101) : frameKind e p half f = .pause := by
  simp [frameKind, htype, hopcode]

section Frame
variable {s : State} {p : PortId} {half : Bool} {f : List Byte} (hup : ethUp s.eth[p] half = true)
include hup

theorem exec_frameReceive_pause (hkind : frameKind s.eth[p] p half f = .pause) : exec (.frameReceive p half f) s =
    .next (modEth s p (fun e => { e with rxFrames := e.rxFrames + 1, pauseRx := e.pauseRx + 1 })) := by
  show execFrameReceive p half f s = _
  simp only [execFrameReceive, hup, hkind, modEth_modEth, Bool.not_true, Bool.false_eq_true, if_false]

theorem exec_frameReceive_bad (hkind : frameKind s.eth[p] p half f = .bad) : exec (.frameReceive p half f) s =
    .next (modEth s p (fun e => { e with rxFrames := e.rxFrames + 1, rxDiscard := e.rxDiscard + 1 })) := by
  show execFrameReceive p half f s = _
  simp only [execFrameReceive, hup, hkind, modEth_modEth, Bool.not_true, Bool.false_eq_true, if_false]

theorem exec_frameReceive_answer {b : List Byte} (hkind : frameKind s.eth[p] p half f = .answer b) : exec (.frameReceive p half f) s =
    .next (emitOut (modEth s p (fun e => { e with rxFrames := e.rxFrames + 1, txFrames := e.txFrames + 1 })) (.arpReply p b)) := by
  show execFrameReceive p half f s = _
  simp only [execFrameReceive, hup, hkind, modEth_modEth, Bool.not_true, Bool.false_eq_true, if_false]

theorem exec_frameReceive_wrd {k : RxPacket} (hkind : frameKind s.eth[p] p half f = .wrd k) : exec (.frameReceive p half f) s =
    .next (modTrn (modEth s p (fun e => { e with rxFrames := e.rxFrames + 1 })) (fun t => { t with rx := t.rx ++ [k] })) := by
  show execFrameReceive p half f s = _
  simp only [execFrameReceive, hup, hkind, Bool.not_true, Bool.false_eq_true, if_false]

end Frame

/-- Settles O32: a link that is lost ends only SENDs (`portDownSends_eth`), and a frame does what its kind says (`exec_frameReceive_…`). -/
theorem ethernetFramesAreAcceptedOrDiscarded : Obligations.EthernetFramesAreAcceptedOrDiscarded := by
  refine ⟨fun s p half => exec_ethLinkUp, fun s p => ⟨ethLinkDown_first, ethLinkDown_second⟩, fun s p f hmode hlink => ?_⟩
  have hup : ethUp s.eth[p] false = true := by
    rw [ethUp, hmode]
    exact hlink
  refine ⟨fun htype hopcode => exec_frameReceive_pause hup (frameKind_pause htype hopcode), exec_frameReceive_bad hup,
    fun b hkind => ⟨_, exec_frameReceive_answer hup hkind, rfl, ?_, ?_, rfl⟩, fun k hkind => ⟨_, exec_frameReceive_wrd hup hkind, rfl, rfl, ?_⟩⟩
  · exact congrArg Eth.rxFrames (modEth_same s p _)
  · exact congrArg Eth.txFrames (modEth_same s p _)
  · exact congrArg Eth.rxFrames (modEth_same s p _)

end Sys2Proof.Machine

/-! PROOFS. Firmware that becomes the running one (R356, R389), an own segment sent again (R108, R118), one round of a channel's rate (R118)
and the I3C address (R403); then O27 from them. -/

namespace Sys2Proof.Machine

open Sys2Proof.Said

/-! ## Firmware activation (R356, R389) -/

theorem exec_fwActivate {s : State} {comp : Fin 12} (hup : s.pow.inReset = false) (hrot : comp.1 ≠ 0) (hlinks : comp.1 ≠ 4)
    (hacc : (s.rot.comps[comp]).accepted.isSome) (hidle : (s.rot.comps[comp]).active = false) :
    exec (.fwActivate comp) s = .next (modComp s comp (fun c => { c with active := true, switched := [] })) := by
  obtain ⟨img, himg⟩ := Option.isSome_iff_exists.1 hacc
  show execFwActivate comp s = _
  simp [execFwActivate, hup, hrot, hlinks, himg, hidle, -Fin.getElem_fin]

/-- The hub's components have no microcode in the stations. -/
theorem compStations_hub {i : Nat} (hi : i < 8) : compStations i = [] := by
  have h8 : i ≠ 8 := by omega
  have h9 : i ≠ 9 := by omega
  have h10 : i ≠ 10 := by omega
  have h11 : i ≠ 11 := by omega
  simp [compStations, h8, h9, h10, h11]

/-- A component that is neither the DRAM interface's nor the stations' switches at once. -/
theorem compDone_hub (s : State) {comp : Fin 12} (hcomp : comp.1 < 7) : compDone s comp = true := by
  have h7 : comp.1 ≠ 7 := by omega
  simp [compDone, h7, compStations_hub (show comp.1 < 8 by omega)]

theorem exec_fwActivationComplete_hub {s : State} {comp : Fin 12} (hactive : (s.rot.comps[comp]).active = true) (hcomp : comp.1 < 7)
    (hrot : comp.1 ≠ 1) (hintake : comp.1 ≠ 3) : exec (.fwActivationComplete comp) s = .next (compRuns (compNote s comp) comp) := by
  show execFwActivationComplete comp s = _
  simp [execFwActivationComplete, hactive, compDone_hub _ hcomp, hrot, hintake, -Fin.getElem_fin]

theorem applyDeferred_comps {s : State} (hnone : s.rot.deferred = []) : (applyDeferred s).rot.comps = s.rot.comps := by
  simp [applyDeferred, hnone, modRot]

theorem modComp_same (s : State) (i : Fin 12) (f : FwComp → FwComp) : (modComp s i f).rot.comps[i] = f s.rot.comps[i] := vmod_same _ _ _

/-- The accepted image is the running one. -/
theorem compRuns_comp {s : State} {comp : Fin 12} {svn : Nat} {d : List Byte} (hacc : (s.rot.comps[comp]).accepted = some (svn, d))
    (hnone : s.rot.deferred = []) :
    (compRuns s comp).rot.comps[comp] =
      { s.rot.comps[comp] with svn := svn, digest := d, accepted := none, active := false, switched := [] } := by
  rw [compRuns, applyDeferred_comps (s := modComp s comp _) hnone, modComp_same]
  simp only [hacc]

theorem fwActivationComplete_runs {s : State} {comp : Fin 12} {svn : Nat} {d : List Byte} (hactive : (s.rot.comps[comp]).active = true)
    (hacc : (s.rot.comps[comp]).accepted = some (svn, d)) (hcomp : comp = 2 ∨ comp = 4 ∨ comp = 5 ∨ comp = 6) (hnone : s.rot.deferred = []) :
    Runs (.fwActivationComplete comp) s (fun t => (t.rot.comps[comp]).active = false ∧ (t.rot.comps[comp]).accepted = none ∧
      (t.rot.comps[comp]).svn = svn ∧ (t.rot.comps[comp]).digest = d) := by
  have hhub : comp.1 < 7 ∧ comp.1 ≠ 1 ∧ comp.1 ≠ 3 := by
    rcases hcomp with rfl | rfl | rfl | rfl <;> decide
  obtain ⟨hlt, hrot, hintake⟩ := hhub
  refine ⟨_, exec_fwActivationComplete_hub hactive hlt hrot hintake, ?_⟩
  have hnoted : ((compNote s comp).rot.comps[comp]).accepted = some (svn, d) := by
    rw [compNote, modComp_same]
    exact hacc
  simp only [compRuns_comp hnoted (show (compNote s comp).rot.deferred = [] from hnone), and_self]

/-! ## A segment goes out (R86, R89 to R95, R118) -/

/-- On an open channel with its key, a link and a seq left, a segment of an own message goes out. -/
theorem sendSeg_sends {s : State} {m : TxMsg} {x : Chan} (hx : getChan s m.chan = some x) (hopened : x.state = .opened)
    (hkey : x.linkKey.isSome) (hport : (txPort s x).isSome) (hseq : nextSeq x < 2 ^ 32) (k : Nat) (f : WrdFlags) :
    SentSegment s m.chan x m k f (sendSeg s m k f) := by
  obtain ⟨⟨p, half⟩, hp⟩ := Option.isSome_iff_exists.1 hport
  have huses : bitOf x.portMask p.1 = true ∧ ethUp s.eth[p] half = true := by
    simpa using List.find?_some hp
  obtain ⟨hallowed, hlink⟩ := huses
  have hmay : mayTransmit s x p half = true := by simp only [mayTransmit, hopened, hkey, hlink, beq_self_eq_true, Bool.and_self]
  have hpaths : k % max 1 x.paths < max 1 x.paths := Nat.mod_lt _ (by omega)
  simp only [sendSeg, hx, hp, hmay, Nat.not_le.2 hseq, Bool.not_true, Bool.false_eq_true, if_false]
  exact ⟨⟨_, rfl, rfl, rfl, rfl, hpaths, hallowed, hlink, rfl⟩, _, getChan_putChan_same s m.chan _, rfl, rfl⟩

section Timeout
variable {s : State} {chan : Nat} {id : W32} {m : TxMsg} (hm : s.trn.tx.find? (fun m => m.chan == chan && m.msgId == id) = some m)
  (hgoes : m.refused = false) (hfree : heldOff s chan = false) {k : Nat}
include hm hgoes hfree

theorem exec_retransmissionTimeout_again (hall : (txSegs m).filter (fun k => !bitOf m.sent k) = []) (hlowest : lowestUnacked m = [k]) :
    exec (.retransmissionTimeout chan id) s = .next (sendSeg s m k { retx := true, ackreq := true }) := by
  show execRetransmissionTimeout chan id s = _
  simp [execRetransmissionTimeout, hm, hgoes, hfree, hall, hlowest, sendSegs]

theorem exec_retransmissionTimeout_first (hone : (txSegs m).filter (fun k => !bitOf m.sent k) = [k]) :
    exec (.retransmissionTimeout chan id) s = .next (sendSeg s m k {}) := by
  show execRetransmissionTimeout chan id s = _
  simp [execRetransmissionTimeout, hm, hgoes, hfree, hone, sendSegs]

end Timeout

theorem heldOff_of_past {s : State} {chan : Nat} {x : Chan} (hx : getChan s chan = some x) (hpast : x.holdUntil.toNat ≤ s.alm.t.toNat) :
    heldOff s chan = false := by
  simpa [heldOff, hx] using hpast

/-! ## One round of a channel's rate (R118) -/

theorem exec_rateUpdate {s : State} {chan rtt ce acked : Nat} {x : Chan} (hx : getChan s chan = some x) (hopened : x.state = .opened)
    (hrtt : 0 < rtt) (hacked : 0 < acked) :
    exec (.rateUpdate chan rtt ce acked) s = .next (putChan s chan (rateStep x rtt ce ((ce : Rat) / acked))) := by
  show execRateUpdate chan rtt ce acked s = _
  simp [execRateUpdate, hx, hopened, hrtt.ne', hacked.ne']

/-- The least rate, a hundredth of a segment each round trip. -/
theorem rateStep_floor (rtt : Nat) : (8192 * 1000000000 / (rtt : Rat)) / 100 = 81920000000 / rtt := by ring

theorem le_rateStep_rate (x : Chan) (rtt ce : Nat) (frac : Rat) : (81920000000 : Rat) / rtt ≤ (rateStep x rtt ce frac).rate := by
  rw [← rateStep_floor rtt]
  exact le_max_right _ _

/-- Under PRESSURE, with no mark, the rate is not raised. -/
theorem rateStep_pressed {x : Chan} (hpressed : x.pressed = true) (rtt : Nat) (frac : Rat) :
    (rateStep x rtt 0 frac).rate = max x.rate (81920000000 / rtt) := by
  rw [← rateStep_floor rtt]
  simp [rateStep, hpressed]

/-! ## The I3C address (R403) -/

section I3c
variable {s : State} (hup : s.pow.inReset = false) (hnone : s.link.i3cDyn = none) (a : BitVec 7)
include hup hnone

theorem exec_i3c_entdaa : exec (.i3cDynamicAddress (.entdaa a)) s = .next { s with link := { s.link with i3cDyn := some a } } := by
  show execI3cDynamicAddress (.entdaa a) s = _
  simp [execI3cDynamicAddress, hup, hnone, modLink]

theorem exec_i3c_setdasa {st : BitVec 7} (hstatic : st.toNat = 0x48 + s.link.i3cSa.toNat) :
    exec (.i3cDynamicAddress (.setdasa st a)) s = .next { s with link := { s.link with i3cDyn := some a } } := by
  show execI3cDynamicAddress (.setdasa st a) s = _
  simp [execI3cDynamicAddress, hup, hnone, hstatic, modLink]

end I3c

/-- Settles O27: a segment that goes out is `sendSeg_sends`, and what a timeout sends is one `sendSeg`. -/
theorem firmwareActivatesAndWireTimersAct : Obligations.FirmwareActivatesAndWireTimersAct := by
  refine ⟨fun s comp => exec_fwActivate, fun s comp svn d => fwActivationComplete_runs,
    fun s chan id m x k hm hx hgoes hpast hopened hkey hport hseq => ?_, fun s chan rtt ce acked x hx hopened hrtt hacked => ?_,
    fun s a hup hnone => ⟨exec_i3c_entdaa hup hnone a, fun st => exec_i3c_setdasa hup hnone a⟩⟩
  · have hfree : heldOff s chan = false := heldOff_of_past hx hpast
    obtain rfl : m.chan = chan := by
      have hname := List.find?_some hm
      simp only [Bool.and_eq_true, beq_iff_eq] at hname
      exact hname.1
    exact ⟨fun hall hlowest => ⟨_, exec_retransmissionTimeout_again hm hgoes hfree hall hlowest, sendSeg_sends hx hopened hkey hport hseq k _⟩,
      fun hone => ⟨_, exec_retransmissionTimeout_first hm hgoes hfree hone, sendSeg_sends hx hopened hkey hport hseq k _⟩⟩
  · refine ⟨_, exec_rateUpdate hx hopened hrtt hacked, _, getChan_putChan_same s chan _, rfl, le_rateStep_rate _ _ _ _, ?_⟩
    rintro hpressed rfl
    exact rateStep_pressed hpressed _ _

end Sys2Proof.Machine

/-! PROOFS. Bins in the stack (R124, R128, R132): reads that find nothing, bytes put into a sound stack, the positions of a plain bin, elements combined
into one. -/

namespace Sys2Proof.Machine

open Sys2Proof.Said

/-! ## Reads that find nothing change nothing -/

theorem vmod_eq_self (v : Vector α n) (i : Fin n) (f : α → α) (h : f v[i] = v[i]) : vmod v i f = v := by
  have h' : f v[i.1] = v[i.1] := h
  simp [vmod, h']

theorem modBay_eq_self (s : State) (b : BayId) (f : Bay → Bay) (h : f s.bays[b] = s.bays[b]) : modBay s b f = s := by
  rw [modBay, vmod_eq_self _ _ _ h]

theorem modMem_eq_self (s : State) (b : BayId) (f : BayMem → BayMem) (h : f s.bays[b].mem = s.bays[b].mem) : modMem s b f = s :=
  modBay_eq_self s b _ (by rw [h])

theorem word32_zero_right (x : W32) : x + word32 0 = x := by simp [word32]

theorem sramFaults_clean (s : State) (home : BayId) (x : Bin) (l : Loc) (spans : List (Nat × Nat)) : sramFaults s home x l spans clean = s := by
  simp only [sramFaults, clean, List.map_nil, List.dedup_nil, List.filter_nil, List.length_nil, List.foldl_nil, word32_zero_right]
  split
  · exact modBay_eq_self s l.bay _ (by rw [vmod_eq_self _ _ _ rfl])
  · exact modMem_eq_self s l.bay _ rfl

/-- A read of a bin's first copy, in the stack or in SRAM, that finds no line faulty. -/
theorem binFaults_clean_eq (s : State) (b : BayId) (x : Bin) (spans : List (Nat × Nat)) : binFaults s b x spans clean = s := by
  cases hsram : (binLoc b x).sram with
  | true => rw [binFaults, hsram, if_pos rfl, sramFaults_clean]
  | false =>
    rw [binFaults_clean s b x spans hsram]
    exact modMem_eq_self s _ _ (by rw [word32_zero_right])

/-! ## Bytes put into a stack -/

/-- An update of a bay's memory depends on what it makes of that memory. -/
theorem modMem_congr (s : State) (b : BayId) {f g : BayMem → BayMem} (h : f s.bays[b].mem = g s.bays[b].mem) : modMem s b f = modMem s b g := by
  have h' : f s.bays[b.1].mem = g s.bays[b.1].mem := h
  simp only [modMem, modBay, vmod, Fin.getElem_fin, h']

/-- Bytes written to the stack of bay `b` at `a`, and nothing else. -/
def putBytes (s : State) (b : BayId) (a : Nat) (bs : List Byte) : State := modMem s b (fun m => { m with dram := memWrite m.dram a bs })

theorem putBytes_mem (s : State) (b : BayId) (a : Nat) (bs : List Byte) :
    (putBytes s b a bs).bays[b].mem = { s.bays[b].mem with dram := memWrite s.bays[b].mem.dram a bs } := by
  rw [putBytes, modMem_mem, if_pos rfl]

theorem memGet_putBytes (s : State) (b : BayId) (a : Nat) (bs : List Byte) (i : Nat) : memGet (putBytes s b a bs).bays[b].mem.dram i =
    if a ≤ i ∧ i < a + bs.length then bs.getD (i - a) 0 else memGet s.bays[b].mem.dram i := by
  rw [putBytes_mem]
  exact memGet_memWrite _ _ _ _

theorem sound_putBytes {s : State} {b : BayId} (hsound : Sound s.bays[b].mem) (a : Nat) (bs : List Byte) : Sound (putBytes s b a bs).bays[b].mem := by
  obtain ⟨hpoison, hfenced, hwf⟩ := hsound
  rw [putBytes_mem]
  exact ⟨hpoison, hfenced, memWrite_wf _ _ _ hwf⟩

/-- Bytes that agree read alike. -/
theorem memRead_congr {m n : Mem} (hm : Memory.wf m) (hn : Memory.wf n) (a len : Nat) (h : ∀ i < len, memGet m (a + i) = memGet n (a + i)) :
    memRead m a len = memRead n a len := by
  apply List.ext_getElem
  · rw [memRead_length, memRead_length]
  · intro i hi hi'
    have hlen : i < len := by rwa [memRead_length] at hi
    rw [← List.getD_eq_getElem _ 0 hi, ← List.getD_eq_getElem _ 0 hi', memRead_getD _ _ _ _ hm hlen, memRead_getD _ _ _ _ hn hlen, h i hlen]

/-- A span that was written reads as written. -/
theorem memRead_memWrite_same {m : Mem} (hm : Memory.wf m) (a : Nat) (bs : List Byte) : memRead (memWrite m a bs) a bs.length = bs := by
  apply List.ext_getElem
  · exact memRead_length _ _ _
  · intro i hi hi'
    rw [← List.getD_eq_getElem _ 0 hi, ← List.getD_eq_getElem _ 0 hi', memRead_getD _ _ _ _ (memWrite_wf _ _ _ hm) hi', memGet_memWrite,
      if_pos (by omega), Nat.add_sub_cancel_left]

/-! ## The copy of a plain bin -/

/-- The copy of a bin in the stack of its own bay. -/
def stackCopy (b : BayId) (x : Bin) : Loc := ⟨b, false, x.region⟩

theorem binLocs_plain {x : Bin} (hx : Plain x) (b : BayId) : binLocs b x = [stackCopy b x] := by
  obtain ⟨hsram, hmirror, hover⟩ := hx
  simp [binLocs, hsram, hmirror, hover, stackCopy]

theorem binLoc_plain {x : Bin} (hx : Plain x) (b : BayId) : binLoc b x = stackCopy b x := by
  rw [binLoc, binLocs_plain hx]
  rfl

section Stack
variable {s : State} {b : BayId} (hsound : Sound s.bays[b].mem)
include hsound

theorem locModify_stackCopy (x : Bin) (off : Nat) (bs : List Byte) :
    locModify s (stackCopy b x) off bs = putBytes s b (x.region + off) bs := by
  obtain ⟨hpoison, hfenced, -⟩ := hsound
  rw [locModify_stack _ _ rfl]
  exact modMem_congr s b (if_pos ⟨hpoison, hfenced⟩)

theorem locWrite_stackCopy (x : Bin) (off : Nat) (bs : List Byte) :
    locWrite s (stackCopy b x) off bs = putBytes s b (x.region + off) bs := by
  obtain ⟨hpoison, hfenced, -⟩ := hsound
  simp only [locWrite, stackCopy, Bool.false_eq_true, if_false]
  exact modMem_congr s b (if_pos ⟨hpoison, hfenced⟩)

theorem locRead_stackCopy (x : Bin) (k : Nat) : locRead s (stackCopy b x) (k * 65536) 65536 = posBytes s b x k := by
  obtain ⟨hpoison, hfenced, -⟩ := hsound
  simp only [locRead, stackCopy, Bool.false_eq_true, if_false]
  exact if_pos ⟨hpoison, hfenced⟩

theorem posRead_plain {x : Bin} (hx : Plain x) (k : Nat) : posRead s b x k = posBytes s b x k := by
  have hloc : posLoc s b x k = stackCopy b x := by
    rw [posLoc, binLocs_plain hx, binLoc_plain hx, List.find?_singleton]
    split <;> rfl
  rw [posRead, hloc, locRead_stackCopy hsound]

/-- A position that is written reads as written. -/
theorem posBytes_putBytes (x : Bin) (k : Nat) {bs : List Byte} (hlen : bs.length = 65536) :
    posBytes (putBytes s b (x.region + k * 65536) bs) b x k = bs := by
  obtain ⟨-, -, hwf⟩ := hsound
  rw [posBytes, putBytes_mem, ← hlen]
  exact memRead_memWrite_same hwf _ _

end Stack

theorem posBytes_length (s : State) (b : BayId) (x : Bin) (k : Nat) : (posBytes s b x k).length = 65536 := memRead_length _ _ _

/-- A position none of whose bytes changed. -/
theorem posBytes_congr {s t : State} {b : BayId} (hs : Sound s.bays[b].mem) (ht : Sound t.bays[b].mem) (x : Bin) (k : Nat)
    (h : ∀ a, x.region + k * 65536 ≤ a → a < x.region + (k + 1) * 65536 → memGet t.bays[b].mem.dram a = memGet s.bays[b].mem.dram a) :
    posBytes t b x k = posBytes s b x k := by
  obtain ⟨-, -, hwfs⟩ := hs
  obtain ⟨-, -, hwft⟩ := ht
  exact memRead_congr hwft hwfs _ _ fun i hi => h _ (by omega) (by omega)

/-! ## Elements combined into a position (Table 05.2) -/

theorem binRing_size (s : State) (x : Bin) : (binRing s x).size = 4 ∨ (binRing s x).size = 8 := by
  unfold binRing ringOf
  split
  · exact .inl rfl
  · split
    · exact .inr rfl
    · split
      · exact .inr rfl
      · split
        · cases (modsOf s x.part x.job)[x.ring - 0x40]? with
          | none => exact .inr rfl
          | some q =>
            show (if q < 2 ^ 31 then 4 else 8) = 4 ∨ (if q < 2 ^ 31 then 4 else 8) = 8
            split
            · exact .inl rfl
            · exact .inr rfl
        · exact .inr rfl

theorem chunks_length (n m : Nat) (hn : 0 < n) (l : List α) (hl : l.length = n * m) : (chunks n l).length = m := by
  suffices ∀ fuel m (l : List α), l.length ≤ fuel → l.length = n * m → (chunksAux n fuel l).length = m from this _ m l le_rfl hl
  intro fuel
  induction fuel with
  | zero =>
    intro m l hfuel hlen
    have hzero : n * m = 0 := by omega
    rcases Nat.mul_eq_zero.1 hzero with h | h
    · omega
    · simp [chunksAux, h]
  | succ fuel ih =>
    intro m l hfuel hlen
    cases l with
    | nil =>
      have hzero : n * m = 0 := by simpa using hlen.symm
      rcases Nat.mul_eq_zero.1 hzero with h | h
      · omega
      · simp [chunksAux, h]
    | cons a t =>
      cases m with
      | zero => simp at hlen
      | succ m =>
        have hdrop : ((a :: t).drop n).length = n * m := by
          rw [List.length_drop, hlen, Nat.mul_succ]
          omega
        rw [chunksAux, List.length_cons, ih m _ (by rw [List.length_drop]; omega) hdrop]
        exact List.cons_ne_nil a t

/-- Combining keeps the length of a span of whole elements, however many operands there are. -/
theorem applyDense_length (size m : Nat) (hsize : 0 < size) (f : Nat → Nat → Nat) (old : List Byte) (hold : old.length = size * m) (vals : List Nat) :
    (applyDense size f old vals).length = old.length := by
  have htake : (old.take (vals.length * size)).length = size * min vals.length m := by
    rw [List.length_take, hold, Nat.mul_comm vals.length, Nat.mul_min_mul_left]
  have hblocks : ∀ l : List (List Byte × Nat), (l.flatMap (fun p => leBytes size (f (ofLe p.1) p.2))).length = size * l.length := fun l => by
    simp [List.length_flatMap, leBytes_length, Nat.mul_comm]
  rw [applyDense, List.length_append, hblocks, List.length_zip, chunks_length size _ hsize _ htake, Nat.min_eq_left (Nat.min_le_left _ _),
    List.length_drop, hold, Nat.mul_comm vals.length, ← Nat.mul_sub, ← Nat.mul_add]
  congr 1
  omega

/-- A position keeps its length. -/
theorem combined_length (s u : State) (b : BayId) (x : Bin) (f : Nat → Nat → Nat) (k : Nat) (vals : List Nat) :
    (combined s x f (posBytes u b x k) vals).length = 65536 := by
  have hlen := posBytes_length u b x k
  rw [combined]
  rcases binRing_size s x with hsize | hsize <;> rw [hsize]
  · rw [applyDense_length 4 16384 (by decide) f _ hlen, hlen]
  · rw [applyDense_length 8 8192 (by decide) f _ hlen, hlen]

end Sys2Proof.Machine

/-! PROOFS. A duplicate tile whose channel has no sequence number left (R94, R104, R136): its answer resets the channel, which discards the channel's
additions; O37 fails by it. -/

namespace Sys2Proof.Machine

open Sys2Proof.Said

/-- A gatherer of one contributor and two positions over Z/2^64, at the start of the stack of bay 3. -/
def pairGatherer : Bin where
  index := 1
  part := 2
  kind := 1
  state := .opened
  mirror := false
  sram := false
  mirrorBay := 0
  ring := 2
  etype := 1
  job := 1
  lastCount := 0
  base := 0
  t := 2
  firstTile := 0
  clo := 0
  chi := 1
  region := 0
  mirrorRegion := 0
  regionSize := 0x40000

/-- A message of channel 0. -/
def spentRef : MsgRef where
  chan := 0
  shelfmark := 0
  msgId := 0
  seq := 0
  port := 0
  replyChan := 0

/-- The header of contributor 0's tile for a position. -/
def pairHdr (k : Nat) : TileHdr := { ring := 2, etype := 1, job := 1, contributor := 0, tileIndex := k, count := 1 }

/-- Position 0's tile, as Intake hands it on. -/
def againToken : Token := { tile := { hdr := pairHdr 0 }, origin := some spentRef, target := some (3, 1, 1) }

/-- The addition of position 1's tile, from the same channel. -/
def queuedAddition : InFlight where
  home := 3
  index := 1
  entry := 1
  contributor := 0
  pos := 1
  tile := { hdr := pairHdr 1 }
  port := 2
  slot := 0
  origin := some spentRef

/-- A Bin station that may fire, with position 0's tile on a port that Intake feeds. -/
def againStation : Station where
  enA := true
  ready := true
  st := .idle
  ins := vmod (Vector.replicate 8 {}) 2 (fun ip => { ip with conn := true, job := 1, prod := some (.trn, 0), held := [againToken] })

/-- An open channel that has sent the last sequence number of its epoch. -/
def spentChan : Chan := { part := 2, state := .opened, linkKey := some [], txSeq := 2 ^ 32 }

/-- Position 0's tile is committed, position 1's addition is queued, and position 0's tile has come again; the channel of them all, whose port
carries Ethernet traffic, has no sequence number left. -/
def spentState : State :=
  modBay
    { State.reset with
      trn := { chans := [(0, spentChan)] }
      eth := vmod State.reset.eth 0 (fun e => { e with modeV := 1, link0 := true }) }
    3 (fun y => { y with bin := againStation, mem := { y.mem with
      dram := [(bitmapOff pairGatherer, 1)], bins := [(1, pairGatherer)], inFlight := [queuedAddition] } })

/-- The tile is a duplicate of one that is committed. -/
theorem isDup_againToken : isDup spentState 3 3 pairGatherer (binEntry pairGatherer (pairHdr 0)) = true := by decide

theorem inTurn_againToken : inTurn spentState (.bay 3 .bin) 2 (binReady spentState 3) = true := by decide

/-- The duplicate's answer resets the channel, and the queued addition is gone. -/
theorem exec_binAddTile_againToken : Runs (.binAddTile 3 2) spentState (fun t => (t.bays[(3 : BayId)]).mem.inFlight = []) := ⟨_, rfl, by decide⟩

/-- Refutes O37: a duplicate whose original is committed is answered at once (R136), and where the channel has no sequence number left the answer
resets the channel instead (R94), which discards the channel's additions (R104). The clause on duplicates asks that the in-flight table keep its
length, and does not ask that the device can reply. -/
theorem not_tilesAreAddedOnceModuloTheRing : ¬ Obligations.TilesAreAddedOnceModuloTheRing := by
  rintro ⟨htaken, -⟩
  have hholds : Holds spentState (.bay 3 .bin) 2 againToken [] := ⟨rfl, rfl, rfl⟩
  obtain ⟨-, hduplicate⟩ := htaken spentState 3 2 againToken [] 3 pairGatherer hholds rfl (by decide) inTurn_againToken rfl
  obtain ⟨t, hrun, -, -, -, hlength⟩ := hduplicate isDup_againToken
  obtain ⟨t', hrun', hempty⟩ := exec_binAddTile_againToken
  obtain rfl : t = t' := Host.Outcome.next.inj (hrun.symm.trans hrun')
  rw [hempty] at hlength
  exact absurd hlength (by decide)

end Sys2Proof.Machine

/-! PROOFS. The streams of a Bin station (R128, R446): what taking a token leaves, a tile that fits applied to its position, the tile of a READ stream;
then O40 from them. -/

namespace Sys2Proof.Machine

open Sys2Proof.Said

/-! ## A stream's entry -/

theorem findStream_port {s : State} {b : BayId} {p : Nat} {y : BinStream} (h : findStream s b p = some y) : y.port = p := by
  simpa using List.find?_some h

theorem find_map_replaced {p : Nat} {y : BinStream} (z : BinStream) (hz : z.port = p) (l : List BinStream)
    (h : l.find? (fun x => x.port == p) = some y) :
    (l.map (fun x => if x.port = z.port then z else x)).find? (fun x => x.port == p) = some z := by
  induction l with
  | nil => simp at h
  | cons x t ih =>
    by_cases hx : x.port = p
    · simp [hx, hz]
    · have ht : t.find? (fun x => x.port == p) = some y := by simpa [List.find?_cons, hx] using h
      simpa [List.find?_cons, hx, hz] using ih ht

/-- A stream whose progress is stored is found with it. -/
theorem findStream_putStream {s : State} {b : BayId} {p : Nat} {y : BinStream} (h : findStream s b p = some y) {z : BinStream} (hz : z.port = p) :
    findStream (putStream s b z) b p = some z := by
  unfold putStream
  rw [findStream, modMem_mem, if_pos rfl]
  exact find_map_replaced z hz _ h

/-- It depends on the list of streams alone. -/
theorem findStream_congr {s t : State} {b : BayId} (h : t.bays[b].mem.streams = s.bays[b].mem.streams) (p : Nat) : findStream t b p = findStream s b p := by
  rw [findStream, h, findStream]

/-! ## A token that a Bin station takes -/

section Taken
variable (s : State) (b : BayId) (p : PortId)

theorem modSt_bin_owner (f : Station → Station) (c : BayId) : (modSt s (.bay b .bin) f).bays[c].owner = s.bays[c].owner := by
  by_cases h : c = b
  · subst h
    simp only [modSt, modBay_same]
  · exact congrArg Bay.owner (modBay_other s b c _ h)

theorem getIn_noteTurn (r : StationRef) (l : List PortId) (q : PortId) : getIn (noteTurn s r p l) r q = getIn s r q := by
  simp [getIn, noteTurn]

theorem modsOf_congr {s t : State} (h : t.rot = s.rot) (q : PartId) (job : W32) : modsOf t q job = modsOf s q job := by
  simp only [modsOf, jobOfPart, h]

theorem binRing_congr {s t : State} (h : t.rot = s.rot) (x : Bin) : binRing t x = binRing s x := by
  rw [binRing, modsOf_congr h, binRing]

theorem stOwner_noteTurn (l : List PortId) : stOwner (noteTurn s (.bay b .bin) p l) (.bay b .bin) = stOwner s (.bay b .bin) :=
  modSt_bin_owner s b _ b

theorem noteTurn_rot (r : StationRef) (l : List PortId) : (noteTurn s r p l).rot = s.rot := modSt_rot s r _

theorem noteTurn_mem (r : StationRef) (l : List PortId) (c : BayId) : (noteTurn s r p l).bays[c].mem = s.bays[c].mem := modSt_mem s r _ c

/-- The causes of a tile depend on the port, the bay's owner and the partitions, which a turn leaves. -/
theorem portCauses_noteTurn (l : List PortId) (t : Tile) : portCauses (noteTurn s (.bay b .bin) p l) (.bay b .bin) p t = portCauses s (.bay b .bin) p t := by
  unfold portCauses
  rw [getIn_noteTurn, stOwner_noteTurn, modsOf_congr (noteTurn_rot s p _ l)]

theorem streamCauses_noteTurn (l : List PortId) (y : BinStream) (x : Bin) (t : Tile) :
    streamCauses (noteTurn s (.bay b .bin) p l) b y x t = streamCauses s b y x t := by
  unfold streamCauses readsPayload
  rw [stOwner_noteTurn, modsOf_congr (noteTurn_rot s p _ l), binRing_congr (noteTurn_rot s p _ l)]

/-- The front token is off its port, and has created no cause. -/
def tokenTaken (r : StationRef) (t : Tile) (rest : List Token) : State :=
  modIn (logCauses s r p t []) r p (fun x => { x with
    held := rest, nextOrd := if t.hdr.last then 0 else x.nextOrd + 1,
    seqBad := if t.hdr.last then false else x.seqBad || (!x.unord && t.hdr.ordinal != x.nextOrd) })

theorem takeTok_noCause {r : StationRef} {tok : Token} {rest : List Token} (h : (getIn s r p).held = tok :: rest) :
    takeTok (logCauses s r p tok.tile []) r p = some (tok, tokenTaken s p r tok.tile rest) :=
  takeTok_some _ r p tok rest ((logCauses_port s r p tok.tile []).1.trans h)

theorem getIn_tokenTaken_held (r : StationRef) (t : Tile) (rest : List Token) : (getIn (tokenTaken s p r t rest) r p).held = rest := by
  rw [tokenTaken, getIn_modIn, if_pos rfl]

theorem logCauses_noCause (r : StationRef) (t : Tile) :
    logCauses s r p t [] = modIn s r p (fun x => { x with logged := if t.hdr.last then [] else x.logged }) := by
  simp [logCauses]

theorem tokenTaken_mem (r : StationRef) (t : Tile) (rest : List Token) (c : BayId) : (tokenTaken s p r t rest).bays[c].mem = s.bays[c].mem := by
  rw [tokenTaken, logCauses_noCause]
  exact (modSt_mem _ r _ c).trans (modSt_mem s r _ c)

theorem tokenTaken_dbkIn (r : StationRef) (t : Tile) (rest : List Token) : (tokenTaken s p r t rest).dbkIn = s.dbkIn := by
  rw [tokenTaken, modIn_dbkIn, logCauses_nil]

theorem tokenTaken_rot (r : StationRef) (t : Tile) (rest : List Token) : (tokenTaken s p r t rest).rot = s.rot := by
  rw [tokenTaken, modIn_rot, logCauses_noCause, modIn_rot]

end Taken

/-! ## A tile that fits, applied (R128, R446.3) -/

/-- The bytes of a position after a dense tile of a stream is applied: added, stored, or else subtracted. -/
def applied (s : State) (x : Bin) (mode : Nat) (old : List Byte) (t : Tile) : List Byte :=
  if mode = 4 then padTo 65536 t.payload
  else combined s x (if mode = 2 then ringAdd (binRing s x) else ringSub (binRing s x)) old (tileVals s x t)

theorem applied_length (s u : State) (b : BayId) (x : Bin) (mode k : Nat) (t : Tile) : (applied s x mode (posBytes u b x k) t).length = 65536 := by
  unfold applied
  split
  · exact padTo_length _ _
  · exact combined_length _ _ _ _ _ _ _

theorem addAtLoc_stackCopy {s : State} {b : BayId} (hsound : Sound s.bays[b].mem) (x : Bin) (f : Nat → Nat → Nat) (k : Nat) {t : Tile}
    (hdense : t.hdr.sparse = false) : addAtLoc s (stackCopy b x) (binRing s x).size f k t =
      putBytes s b (x.region + k * 65536) (combined s x f (posBytes s b x k) (tileVals s x t)) := by
  rw [addAtLoc, hdense, if_neg Bool.false_ne_true, locModify_stackCopy hsound, locRead_stackCopy hsound, combined, tileVals]

theorem applyTile_plain {s : State} {b : BayId} (hsound : Sound s.bays[b].mem) (y : BinStream) {x : Bin} (hx : Plain x) (k : Nat) {t : Tile}
    (hdense : t.hdr.sparse = false) : applyTile s b y x k t = putBytes s b (x.region + k * 65536) (applied s x y.mode (posBytes s b x k) t) := by
  unfold applyTile applied
  rw [binLocs_plain hx, List.foldl_cons, List.foldl_nil]
  split
  · rw [hdense, if_neg Bool.false_ne_true, locWrite_stackCopy hsound]
  · dsimp only
    rw [addAtLoc_stackCopy hsound x _ k hdense, locUe_false _ _ (sound_putBytes hsound _ _), if_neg Bool.false_ne_true]

/-- The front token of a port fits its stream: the bin that the stream bound, now `z`, is as it was and takes tiles, and the tile creates no cause,
carries no poison, is dense and lies at position `k`. -/
structure Fits (s : State) (b : BayId) (p : PortId) (tok : Token) (rest : List Token) (y : BinStream) (gen : Nat) (x z : Bin) (k : Nat) : Prop where
  held : (getIn s (.bay b .bin) p).held = tok :: rest
  stream : findStream s b p.1 = some y
  here : y.gone = 0
  gen : binGenOf s b x.index = gen
  bin : findBin s b x.index = some z
  state : z.state = .sum
  kept : z.freeing = false
  portCauses : portCauses s (.bay b .bin) p tok.tile = []
  causes : streamCauses s b y x tok.tile = []
  unpoisoned : tok.tile.hdr.poison = false
  dense : tok.tile.hdr.sparse = false
  pos : slicePos y x tok.tile.hdr.sliceOffset = some k
  plain : Plain x
  sound : Sound s.bays[b].mem

section Fitting
variable {s : State} {b : BayId} {p : PortId} {tok : Token} {rest : List Token} {y : BinStream} {gen : Nat} {x z : Bin} {k : Nat}
  (hfits : Fits s b p tok rest y gen x z k)
include hfits

/-- The turn that serves the port leaves all that. -/
theorem Fits.noteTurn (l : List PortId) : Fits (noteTurn s (.bay b .bin) p l) b p tok rest y gen x z k := by
  have hmem := noteTurn_mem s p (.bay b .bin) l b
  exact { hfits with
    held := (congrArg InPort.held (getIn_noteTurn s p _ l p)).trans hfits.held
    stream := (findStream_congr (congrArg BayMem.streams hmem) p.1).trans hfits.stream
    gen := by rw [binGenOf, hmem]; exact hfits.gen
    bin := by rw [findBin, hmem]; exact hfits.bin
    portCauses := (portCauses_noteTurn s b p l _).trans hfits.portCauses
    causes := (streamCauses_noteTurn s b p l _ _ _).trans hfits.causes
    sound := by rw [hmem]; exact hfits.sound }

/-- Such a tile is applied, and its slot returned. -/
theorem Fits.streamTake : streamTake s b p y gen x tok none clean =
    returnSlot (putStream (putBytes (tokenTaken s p (.bay b .bin) tok.tile rest) b (x.region + k * 65536)
      (applied s x y.mode (posBytes s b x k) tok.tile)) b (afterTile y tok.tile.hdr.last)) (.bay b .bin) p tok.slot := by
  have hcauses : tileCauses s (.bay b .bin) p tok.tile (streamCauses s b y x tok.tile) = ([], none) := by
    simp [tileCauses, hfits.portCauses, hfits.causes, hfits.unpoisoned, pickCause]
  have hmem := tokenTaken_mem s p (.bay b .bin) tok.tile rest b
  have happlied : applyTile (tokenTaken s p (.bay b .bin) tok.tile rest) b y x k tok.tile =
      putBytes (tokenTaken s p (.bay b .bin) tok.tile rest) b (x.region + k * 65536) (applied s x y.mode (posBytes s b x k) tok.tile) := by
    have hold : posBytes (tokenTaken s p (.bay b .bin) tok.tile rest) b x k = posBytes s b x k := by rw [posBytes, hmem, posBytes]
    rw [applyTile_plain (by rw [hmem]; exact hfits.sound) y hfits.plain k hfits.dense, hold]
    simp only [applied, combined, tileVals, binRing_congr (tokenTaken_rot s p (.bay b .bin) tok.tile rest)]
  simp [Machine.streamTake, hfits.here, hfits.gen, hfits.bin, hfits.state, hfits.kept, hcauses, takeTok_noCause s p hfits.held, hfits.pos,
    binFaults_clean_eq, happlied]

end Fitting

/-! ## What that leaves -/

theorem returnSlot_dbkIn (s : State) (r : StationRef) (p : PortId) (k : Nat) : (returnSlot s r p k).dbkIn = s.dbkIn := by
  unfold returnSlot
  split
  · exact modIn_dbkIn s r p _
  · rfl

/-- A slot goes back, and the station waits for what it waits for. -/
def slotBack (s : State) (b : BayId) (p : PortId) (k : Nat) : State := updWait (returnSlot s (.bay b .bin) p k) (.bay b .bin)

section SlotBack
variable (s : State) (b : BayId) (p : PortId) (k : Nat)

theorem slotBack_mem (c : BayId) : (slotBack s b p k).bays[c].mem = s.bays[c].mem :=
  (modSt_mem _ _ _ c).trans (returnSlot_mem s _ p k c)

theorem slotBack_dbkIn : (slotBack s b p k).dbkIn = s.dbkIn := (modSt_dbkIn _ _ _).trans (returnSlot_dbkIn s _ p k)

theorem getIn_slotBack_held : (getIn (slotBack s b p k) (.bay b .bin) p).held = (getIn s (.bay b .bin) p).held :=
  (congrArg InPort.held ((sameButWaits_updWait _ _).getIn _ p)).trans (returnSlot_port s _ p k).1

end SlotBack

theorem getIn_modMem (s : State) (b : BayId) (f : BayMem → BayMem) (r : StationRef) (p : PortId) : getIn (modMem s b f) r p = getIn s r p := by
  rw [getIn, getSt_modMem, getIn]

/-- The front token is taken, bytes are put into the stack, the stream's entry is `z`, and the token's slot is back. -/
def tileStreamed (s : State) (b : BayId) (p : PortId) (tok : Token) (rest : List Token) (a : Nat) (bs : List Byte) (z : BinStream) : State :=
  slotBack (putStream (putBytes (tokenTaken s p (.bay b .bin) tok.tile rest) b a bs) b z) b p tok.slot

section Streamed
variable (s : State) (b : BayId) (p : PortId) (tok : Token) (rest : List Token) (a : Nat) (bs : List Byte) (z : BinStream)

theorem tileStreamed_mem : (tileStreamed s b p tok rest a bs z).bays[b].mem = (putStream (putBytes s b a bs) b z).bays[b].mem := by
  rw [tileStreamed, slotBack_mem, putStream, putStream, modMem_mem, modMem_mem, if_pos rfl, if_pos rfl, putBytes_mem, putBytes_mem, tokenTaken_mem]

theorem getIn_tileStreamed_held : (getIn (tileStreamed s b p tok rest a bs z) (.bay b .bin) p).held = rest := by
  rw [tileStreamed, getIn_slotBack_held, putStream, getIn_modMem, putBytes, getIn_modMem, getIn_tokenTaken_held]

theorem tileStreamed_dbkIn : (tileStreamed s b p tok rest a bs z).dbkIn = s.dbkIn := by
  rw [tileStreamed, slotBack_dbkIn, putStream, modMem_dbkIn, putBytes, modMem_dbkIn, tokenTaken_dbkIn]

theorem tileStreamed_dram : (tileStreamed s b p tok rest a bs z).bays[b].mem.dram = (putBytes s b a bs).bays[b].mem.dram := by
  rw [tileStreamed_mem, putStream, modMem_mem, if_pos rfl]

theorem findStream_tileStreamed {y : BinStream} (hstream : findStream s b p.1 = some y) (hz : z.port = p.1) :
    findStream (tileStreamed s b p tok rest a bs z) b p.1 = some z := by
  have hput : findStream (putBytes s b a bs) b p.1 = some y := (findStream_congr (by rw [putBytes_mem]) p.1).trans hstream
  exact (findStream_congr (congrArg BayMem.streams (tileStreamed_mem s b p tok rest a bs z)) p.1).trans (findStream_putStream hput hz)

end Streamed

theorem afterTile_port (y : BinStream) (last : Bool) : (afterTile y last).port = y.port := by
  unfold afterTile
  split <;> rfl

/-- BIN_STREAM_APPLY on a tile that fits. -/
theorem exec_binStreamApply {s : State} {b : BayId} {p : PortId} {tok : Token} {rest : List Token} {y : BinStream} {gen : Nat} {x z : Bin} {k : Nat}
    (hfits : Fits s b p tok rest y gen x z k) (hfire : mayFire s (.bay b .bin) = true) (hbound : y.bound = [(gen, x)])
    (hturn : inTurn s (.bay b .bin) p (binReady s b) = true) :
    ∃ u, exec (.binStreamApply b p clean) s = .next (tileStreamed u b p tok rest (x.region + k * 65536)
      (applied s x y.mode (posBytes s b x k) tok.tile) (afterTile y tok.tile.hdr.last)) ∧
      u.bays[b].mem = s.bays[b].mem ∧ u.dbkIn = s.dbkIn := by
  have hmem := noteTurn_mem s p (.bay b .bin) (binReady s b) b
  have happlied : applied (Machine.noteTurn s (.bay b .bin) p (binReady s b)) x y.mode
      (posBytes (Machine.noteTurn s (.bay b .bin) p (binReady s b)) b x k) tok.tile = applied s x y.mode (posBytes s b x k) tok.tile := by
    simp only [applied, combined, tileVals, binRing_congr (noteTurn_rot s p _ _), posBytes, hmem]
  have htake := (hfits.noteTurn (binReady s b)).streamTake
  rw [happlied] at htake
  refine ⟨Machine.noteTurn s (.bay b .bin) p (binReady s b), ?_, hmem, modSt_dbkIn s _ _⟩
  show execBinStreamApply b p clean s = _
  simp [execBinStreamApply, hfits.held, hfits.stream, hfire, hturn, hbound, htake, tileStreamed, slotBack]

/-- What it leaves of the port, the stream, the daybook and the stack. -/
theorem binStreamApply_applies {s : State} {b : BayId} {p : PortId} {tok : Token} {rest : List Token} {y : BinStream} {gen : Nat} {x z : Bin} {k : Nat}
    (hfits : Fits s b p tok rest y gen x z k) (hfire : mayFire s (.bay b .bin) = true) (hbound : y.bound = [(gen, x)])
    (hturn : inTurn s (.bay b .bin) p (binReady s b) = true) :
    Runs (.binStreamApply b p clean) s (fun t => (getIn t (.bay b .bin) p).held = rest ∧ findStream t b p.1 = some (afterTile y tok.tile.hdr.last) ∧
      t.dbkIn = s.dbkIn ∧ posBytes t b x k = applied s x y.mode (posBytes s b x k) tok.tile ∧
      ∀ a, a < x.region + k * 65536 ∨ x.region + (k + 1) * 65536 ≤ a → memGet (t.bays[b]).mem.dram a = memGet s.bays[b].mem.dram a) := by
  obtain ⟨u, hrun, hmem, hlog⟩ := exec_binStreamApply hfits hfire hbound hturn
  have hlen := applied_length s s b x y.mode k tok.tile
  have hdram := tileStreamed_dram u b p tok rest (x.region + k * 65536) (applied s x y.mode (posBytes s b x k) tok.tile)
    (afterTile y tok.tile.hdr.last)
  have hstream : findStream u b p.1 = some y := (findStream_congr (congrArg BayMem.streams hmem) p.1).trans hfits.stream
  have hsound : Sound u.bays[b].mem := by rw [hmem]; exact hfits.sound
  refine ⟨_, hrun, getIn_tileStreamed_held _ _ _ _ _ _ _ _, findStream_tileStreamed _ _ _ _ _ _ _ _ hstream ?port,
    (tileStreamed_dbkIn _ _ _ _ _ _ _ _).trans hlog, ?position, fun a ha => ?outside⟩
  case port => exact (afterTile_port y _).trans (findStream_port hfits.stream)
  case position =>
    rw [posBytes, hdram]
    exact posBytes_putBytes hsound x k hlen
  case outside => rw [hdram, memGet_putBytes, if_neg (by omega), hmem]

/-! ## The tile of a READ stream (R446.1) -/

theorem stOuts_modIn (s : State) (r q : StationRef) (p : PortId) (f : InPort → InPort) (n : PortId) : getOut (modIn s q p f) r n = getOut s r n :=
  congrArg (fun v : Vector OutPort 8 => v[n]) (getSt_modSt_keeps s q r _ Station.outs fun _ => rfl)

/-- An output port whose consumer has a credit reserves a slot for a tile: it bears the connection's stream and ordinal. -/
theorem reserveOut_some {s : State} {r : StationRef} {n : PortId} {c : StationRef × PortId} (hfeeds : Feeds s r n c) (t : Tile) (o : Option MsgRef) :
    ∃ slot u, reserveOut s r n t o = some (n, { tile := { t with hdr := { t.hdr with
        stream := (getOut s r n).stream, ordinal := (getOut s r n).nextOrd } }, slot := slot, origin := o }, u) ∧
      (getOut u r n).cons = some c ∧ u.tokFlight = s.tokFlight ∧ ∀ b : BayId, u.bays[b].mem = s.bays[b].mem := by
  obtain ⟨hcons, hcredit⟩ := hfeeds
  have hout : getOut (spendSlot s c.1 c.2).2 r n = getOut s r n := stOuts_modIn _ r c.1 c.2 _ n
  refine ⟨(spendSlot s c.1 c.2).1, (stampOut (spendSlot s c.1 c.2).2 r n t).2, ?_, ?_, ?_, fun b => ?_⟩
  · rw [reserveOut, spendCredit_some s r n c hcons hcredit]
    simp only [stampOut, hout]
  · rw [stampOut, getOut_modOut, if_pos rfl, hout, ← hcons]
  · rw [stampOut, modOut_tokFlight]
    exact modIn_tokFlight _ _ _ _
  · exact (modSt_mem _ _ _ b).trans (modSt_mem _ _ _ b)

theorem slotWrite_streams (m : BayMem) (a : Nat) (t : Tile) : (slotWrite m a t).streams = m.streams := by
  unfold slotWrite
  split <;> rfl

/-- A token that passes changes no stream. -/
theorem findStream_passTok (s : State) (r : StationRef) (n : PortId) (k : Token) (b : BayId) (p : Nat) :
    findStream (passTok s r n k) b p = findStream s b p := by
  refine findStream_congr ?_ p
  have hcount : ∀ c : BayId, (modOut s r n (countPassed k)).bays[c].mem = s.bays[c].mem := fun c => modSt_mem s r _ c
  unfold passTok
  dsimp only
  split
  · next c q _ =>
    show (fillSlot (modOut s r n (countPassed k)) r c q k).bays[b].mem.streams = _
    obtain h | ⟨d, -, h⟩ := fillSlot_cases (modOut s r n (countPassed k)) r c q k <;> rw [h]
    · rw [hcount]
    · rw [modMem_mem]
      split
      · next hb => rw [slotWrite_streams, hcount, hb]
      · rw [hcount]
  · show (modOut s r n (countPassed k)).bays[b].mem.streams = _
    rw [hcount]

/-- The tile that a bound READ stream passes: the position's elements under the stream's header. -/
def readData (s : State) (b : BayId) (y : BinStream) (x : Bin) (k : Nat) : Tile :=
  let h := readHdr s b y x k (readNoise s b y x)
  { hdr := h, payload := (posBytes s b x k).take (h.count * binElem x) }

/-- Its token, with the connection's stream and ordinal. -/
def readToken (s : State) (b : BayId) (n : PortId) (y : BinStream) (x : Bin) (k slot : Nat) : Token :=
  let t := readData s b y x k
  { tile := { t with hdr := { t.hdr with stream := (getOut s (.bay b .bin) n).stream, ordinal := (getOut s (.bay b .bin) n).nextOrd } }, slot := slot }

/-- A bound READ stream that goes on at position `k` of bin `x`, which is as it was and clean there. -/
structure Reads (s : State) (b : BayId) (n : PortId) (y : BinStream) (x : Bin) (k : Nat) : Prop where
  stream : findStream s b (8 + n.1) = some y
  mode : y.mode = 1
  more : y.ended = false
  bound : y.bound ≠ []
  here : y.gone = 0
  fits : y.misfit = false
  kept : ∀ q ∈ y.bound, stillBound s b q = true
  place : readPlace y = some (x, k)
  bin : findBin s b x.index = some x
  plain : Plain x
  sound : Sound s.bays[b].mem
  clean : posPoison s b x k = 0

section Reading
variable {s : State} {b : BayId} {n : PortId} {y : BinStream} {x : Bin} {k : Nat} (hreads : Reads s b n y x k)
include hreads

theorem Reads.readTile : readTile s b x k (readHdr s b y x k (readNoise s b y x)) = readData s b y x k := by
  simp [Machine.readTile, hreads.clean, posRead_plain hreads.sound hreads.plain, readData]

theorem Reads.readUe : readUe s b x k = none := by
  have hclean : locUe s (stackCopy b x) (k * 65536) 65536 = false := locUe_false s (stackCopy b x) hreads.sound _ _
  simp [Machine.readUe, binLocs_plain hreads.plain, hclean]

theorem Reads.readOne {c : StationRef × PortId} (hfeeds : Feeds s (.bay b .bin) n c) :
    ∃ slot u, readOne s b n y Said.clean = putStream (passTok u (.bay b .bin) n (readToken s b n y x k slot)) b (readNext y (readNoise s b y x)) ∧
      (getOut u (.bay b .bin) n).cons = some c ∧ u.tokFlight = s.tokFlight ∧ ∀ b : BayId, u.bays[b].mem = s.bays[b].mem := by
  obtain ⟨slot, u, hreserved, hkept⟩ := reserveOut_some hfeeds (readData s b y x k) none
  refine ⟨slot, u, ?_, hkept⟩
  simp only [Machine.readOne, hreads.place, binFaults_clean_eq, hreads.bin, Option.getD_some, hreads.readTile, hreads.readUe, hreserved, readToken]

theorem exec_binReadEmit (hfire : mayFire s (.bay b .bin) = true) (hrun : stopping (getSt s (.bay b .bin)) = false)
    (hdrain : (getSt s (.bay b .bin)).st ≠ .draining) {c : StationRef × PortId} (hfeeds : Feeds s (.bay b .bin) n c) :
    exec (.binReadEmit b n Said.clean) s = .next (Machine.readOne s b n y Said.clean) := by
  obtain ⟨hcons, hcredit⟩ := hfeeds
  have hcredits : outCredits s (.bay b .bin) n ≠ 0 := by rw [outCredits, hcons]; exact hcredit
  have hall : y.bound.all (stillBound s b) = true := List.all_eq_true.2 hreads.kept
  show execBinReadEmit b n Said.clean s = _
  simp [execBinReadEmit, hreads.stream, hreads.mode, hreads.more, hcredits, hreads.bound, hreads.here, hrun, hfire, hdrain, hreads.fits, hall]

theorem binReadEmit_passes (hfire : mayFire s (.bay b .bin) = true) (hrun : stopping (getSt s (.bay b .bin)) = false)
    (hdrain : (getSt s (.bay b .bin)).st ≠ .draining) {c : StationRef × PortId} (hfeeds : Feeds s (.bay b .bin) n c) :
    Runs (.binReadEmit b n Said.clean) s (fun t => Passed s t (.bay b .bin) n c (readData s b y x k).hdr (readData s b y x k).payload ∧
      findStream t b (8 + n.1) = some (readNext y (readNoise s b y x))) := by
  obtain ⟨slot, u, hone, hcons, hflight, hmem⟩ := hreads.readOne hfeeds
  refine ⟨_, exec_binReadEmit hreads hfire hrun hdrain hfeeds, ?_⟩
  rw [hone]
  refine ⟨⟨readToken s b n y x k slot, ?_, rfl, rfl⟩, findStream_putStream (y := y) ?_ (findStream_port (y := y) hreads.stream)⟩
  · rw [putStream, modMem_tokFlight, passTok_some _ _ _ _ c hcons, hflight]
  · rw [findStream_passTok]
    exact (findStream_congr (congrArg BayMem.streams (hmem b)) _).trans hreads.stream

end Reading

theorem readNoise_small (s : State) (b : BayId) (y : BinStream) {x : Bin} (h : x.ring ≤ 3) : readNoise s b y x = 0 := if_pos h

/-- Settles O40: a tile that fits is applied (`binStreamApply_applies`), and a READ stream passes its position under the header of its bin
(`binReadEmit_passes`). -/
theorem binStreamsAddSubtractWriteRead : Obligations.BinStreamsAddSubtractWriteRead := by
  refine ⟨?writes, ?reads⟩
  case writes =>
    intro s b p tok rest y gen x z k hholds hstream hbound hgone hgen hbin hsum hkept hturn hport hcauses hpoison hdense hpos hplain hsound
    obtain ⟨hfire, -, hheld⟩ := hholds
    have hfits : Fits s b p tok rest y gen x z k :=
      ⟨hheld, hstream, hgone, hgen, hbin, hsum, hkept, hport, hcauses, hpoison, hdense, hpos, hplain, hsound⟩
    obtain ⟨t, hrun, hleft, hentry, hlog, hposition, houtside⟩ := binStreamApply_applies hfits hfire hbound hturn
    refine ⟨t, hrun, hleft, hentry, hlog, ?_, ?_, ?_, houtside⟩ <;> intro hmode <;> rw [hposition, applied, hmode] <;> rfl
  case reads =>
    intro s b n c y x k hfire hrun hdrain hfeeds hstream hmode hmore hbound hgone hmisfit hkept hplace hbin hplain hsound hclean
    obtain ⟨t, hexec, hpassed, hentry⟩ := binReadEmit_passes ⟨hstream, hmode, hmore, hbound, hgone, hmisfit, hkept, hplace, hbin, hplain, hsound, hclean⟩
      hfire hrun hdrain hfeeds
    exact ⟨t, hexec, (readData s b y x k).hdr, readNoise s b y x, hpassed, rfl, rfl, rfl, rfl, rfl, beq_eq_decide _ _, rfl,
      readNoise_small s b y, rfl, hentry⟩

end Sys2Proof.Machine

/-! PROOFS. The commands on bins (R131, R138, R141, R142, R444): what an update of one bin leaves, each command's equation, and what its bin is then. -/

namespace Sys2Proof.Machine

open Sys2Proof.Said

/-! ## Bins by their index -/

theorem findBin_modBin_other (s : State) (b : BayId) {i j : Nat} (h : j ≠ i) (f : Bin → Bin) : findBin (modBin s b i f) b j = findBin s b j := by
  unfold modBin
  split
  · rw [findBin, putBin, modMem_mem, if_pos rfl]
    exact lookup_insertKey_other i j _ _ h
  · rfl

theorem binGenOf_modBin (s : State) (b c : BayId) (i j : Nat) (f : Bin → Bin) : binGenOf (modBin s b i f) c j = binGenOf s c j := by
  unfold modBin
  split
  · rw [binGenOf, putBin, modMem_mem]
    split
    · next h => rw [h, binGenOf]
    · rfl
  · rfl

theorem modBin_out (s : State) (b : BayId) (i : Nat) (f : Bin → Bin) : (modBin s b i f).out = s.out := by
  unfold modBin
  split <;> rfl

theorem finOpt_val (b : BayId) : finOpt 16 b.1 = some b := by simp [finOpt]

/-- Clearing a span of SRAM leaves the bins. -/
theorem sramClear_bins (fuel : Nat) (y : Bay) (a n : Nat) :
    (sramClear y fuel a n).mem.bins = y.mem.bins ∧ (sramClear y fuel a n).mem.binGen = y.mem.binGen := by
  induction fuel generalizing y a n with
  | zero => exact ⟨rfl, rfl⟩
  | succ fuel ih =>
    simp only [sramClear]
    split
    · exact ⟨rfl, rfl⟩
    · rw [(ih _ _ _).1, (ih _ _ _).2]
      split <;> exact ⟨rfl, rfl⟩

/-- The SRAM lines of a bin's region are cleared. -/
def sramCleared (s : State) (b : BayId) (a n : Nat) : State := modBay s b (fun y => sramClear y 52 a n)

theorem findBin_sramCleared (s : State) (b : BayId) (a n i : Nat) : findBin (sramCleared s b a n) b i = findBin s b i := by
  rw [sramCleared, findBin, modBay_same, (sramClear_bins 52 _ a n).1, findBin]

theorem binGenOf_sramCleared (s : State) (b : BayId) (a n i : Nat) : binGenOf (sramCleared s b a n) b i = binGenOf s b i := by
  rw [sramCleared, binGenOf, modBay_same, (sramClear_bins 52 _ a n).2, binGenOf]

theorem findBin_askScrub (s : State) (b c : BayId) (a n : Nat) (why : ScrubFor) (i : Nat) : findBin (askScrub s c a n why) b i = findBin s b i :=
  findBin_modMem s b c _ i fun _ => rfl

theorem askScrub_scrub (s : State) (b : BayId) (a n : Nat) (why : ScrubFor) :
    ((askScrub s b a n why).bays[b]).mem.scrub = s.bays[b].mem.scrub ++ [{ base := a, len := n, why := why }] := by
  rw [askScrub, modMem_mem, if_pos rfl]

theorem modBin_scrub (s : State) (b : BayId) (i : Nat) (f : Bin → Bin) : ((modBin s b i f).bays[b]).mem.scrub = s.bays[b].mem.scrub :=
  (stacksKept_modBin s b i f b).2

/-! ## BIN_ALLOC (R131, R145 to R147) -/

/-- The bin that a descriptor asks for is ZEROING, and the command waits for that. -/
def allocBegun (s : State) (b : BayId) (h : CmdHdr) (d : List Byte) : State :=
  putBin (begun s (.binAlloc h d)) b { parseBin h.part d with wait := some (.zero h) }

theorem findBin_allocBegun (s : State) (b : BayId) (h : CmdHdr) (d : List Byte) : findBin (allocBegun s b h d) b (parseBin h.part d).index =
    some { parseBin h.part d with wait := some (.zero h) } := by
  unfold allocBegun putBin
  rw [findBin, modMem_mem, if_pos rfl]
  exact lookup_insertKey_same _ _ _

theorem allocBegun_mem (s : State) (b : BayId) (h : CmdHdr) (d : List Byte) :
    (allocBegun s b h d).bays[b].mem.scrub = s.bays[b].mem.scrub ∧ (allocBegun s b h d).bays[b].mem.binGen = s.bays[b].mem.binGen := by
  unfold allocBegun putBin
  rw [modMem_mem, if_pos rfl]
  exact ⟨rfl, rfl⟩

section Alloc
variable {s : State} {h : CmdHdr} {d : List Byte} {b : BayId} (hbay : u8 d 2 = b.1)
include hbay

theorem exec_binAlloc_refused (hbad : binAllocStatus s h d ≠ 0) :
    exec (.binAlloc h d) s = .next (complete (begun s (.binAlloc h d)) h (binAllocStatus s h d) []) := by
  have hbad' : binAllocStatus (begun s (.binAlloc h d)) h d ≠ 0 := hbad
  show execBinAlloc h d s = _
  simp only [execBinAlloc, hbay, finOpt_val, if_pos hbad']
  rfl

variable (hok : binAllocStatus s h d = 0)
include hok

theorem exec_binAlloc_stack (hsram : (parseBin h.part d).sram = false) (hmirror : (parseBin h.part d).mirror = false) :
    exec (.binAlloc h d) s = .next (askScrub (allocBegun s b h d) b (parseBin h.part d).region (layoutLen (parseBin h.part d))
      (.binAlloc b (parseBin h.part d).index h)) := by
  have hok' : binAllocStatus (begun s (.binAlloc h d)) h d = 0 := hok
  show execBinAlloc h d s = _
  simp only [execBinAlloc, allocBegun, hbay, finOpt_val, hok', hsram, hmirror, Bool.false_eq_true, if_false, ne_eq, not_true_eq_false]
  split <;> rfl

theorem exec_binAlloc_sram (hsram : (parseBin h.part d).sram = true) :
    exec (.binAlloc h d) s = .next (allocDone (sramCleared (allocBegun s b h d) b (parseBin h.part d).region (layoutLen (parseBin h.part d))) b
      (parseBin h.part d).index h) := by
  have hok' : binAllocStatus (begun s (.binAlloc h d)) h d = 0 := hok
  show execBinAlloc h d s = _
  simp only [execBinAlloc, allocBegun, hbay, finOpt_val, hok', hsram, if_true, ne_eq, not_true_eq_false, if_false]
  rfl

end Alloc

/-- In the partition's own bay an index that is taken gives BIN_STATE. -/
theorem binAllocStatus_taken {s : State} {h : CmdHdr} {d : List Byte} {b : BayId} (hbay : u8 d 2 = b.1) (howner : s.bays[b].owner = h.part)
    (htaken : (findBin s b (parseBin h.part d).index).isSome) : binAllocStatus s h d = codeBinState := by
  have hholds : holdsBay s h.part b = true := by rw [holdsBay, howner, beq_self_eq_true]
  simp only [binAllocStatus, hbay, finOpt_val]
  exact if_pos ⟨hholds, .inl htaken⟩

theorem binAlloc_stack {s : State} {h : CmdHdr} {d : List Byte} {b : BayId} (hbay : u8 d 2 = b.1) (hok : binAllocStatus s h d = 0)
    (hsram : (parseBin h.part d).sram = false) (hmirror : (parseBin h.part d).mirror = false) : Runs (.binAlloc h d) s (fun t =>
      findBin t b (parseBin h.part d).index = some { parseBin h.part d with wait := some (.zero h) } ∧ t.qm.held = s.qm.held ∧
      (t.bays[b]).mem.scrub = s.bays[b].mem.scrub ++
        [{ base := (parseBin h.part d).region, len := layoutLen (parseBin h.part d), why := .binAlloc b (parseBin h.part d).index h }]) := by
  refine ⟨_, exec_binAlloc_stack hbay hok hsram hmirror, ?_, rfl, ?_⟩
  · rw [findBin_askScrub, findBin_allocBegun]
  · rw [askScrub_scrub, (allocBegun_mem s b h d).1]

theorem binAlloc_sram {s : State} {h : CmdHdr} {d : List Byte} {b : BayId} (hbay : u8 d 2 = b.1) (hok : binAllocStatus s h d = 0)
    (hsram : (parseBin h.part d).sram = true) : Runs (.binAlloc h d) s (fun t =>
      findBin t b (parseBin h.part d).index =
        some { parseBin h.part d with state := if (parseBin h.part d).kind = 1 then .opened else .sum } ∧
      completes s t h 0 (leBytes 4 (handleWord h.part.1 b (parseBin h.part d).index (binGenOf s b (parseBin h.part d).index)).toNat)) := by
  have hfound := (findBin_sramCleared (allocBegun s b h d) b (parseBin h.part d).region (layoutLen (parseBin h.part d)) _).trans
    (findBin_allocBegun s b h d)
  have hgen : binGenOf (sramCleared (allocBegun s b h d) b (parseBin h.part d).region (layoutLen (parseBin h.part d))) b
      (parseBin h.part d).index = binGenOf s b (parseBin h.part d).index := by
    rw [binGenOf_sramCleared, binGenOf, (allocBegun_mem s b h d).2, binGenOf]
  obtain ⟨hcompletes, hbin⟩ := allocDone_zeroing _ b h { parseBin h.part d with wait := some (.zero h) } hfound rfl
  have hhandle : binHandle (sramCleared (allocBegun s b h d) b (parseBin h.part d).region (layoutLen (parseBin h.part d))) b
      { parseBin h.part d with wait := some (.zero h) } = handleWord h.part.1 b (parseBin h.part d).index (binGenOf s b (parseBin h.part d).index) := by
    rw [← hgen]
    rfl
  rw [hhandle] at hcompletes
  exact ⟨_, exec_binAlloc_sram hbay hok hsram, hbin, hcompletes⟩

/-! ## BIN_SEAL (R138) -/

/-- The gatherer's contributors that have sent some of their tiles and not all (R138). -/
def partialCount (s : State) (b : BayId) (x : Bin) : Nat := ((binCounts s b x).filter (fun n => n != 0 && n != x.t)).length

/-- The presence bits go to the host; a bin that no contributor has filled in part is SEALED, another stays OPEN. -/
def sealed (s : State) (h : CmdHdr) (buf : W64) (b : BayId) (x : Bin) : State :=
  let s1 := emitOut s (.hostWrite h.part buf (locRead s (binLoc b x) (presenceOff x) (presenceLen x)))
  if partialCount s b x = 0 then complete (modBin s1 b x.index (fun z => { z with state := .sealed })) h 0 (leBytes 4 (presentCount s b x))
  else complete s1 h codeBinPartial (leBytes 4 (partialCount s b x))

theorem exec_binSeal {s : State} {h : CmdHdr} {w : W32} {b : BayId} {x : Bin} (hnames : Names s h w b x) (buf : W64) (hkind : x.kind = 1)
    (hopen : x.state = .opened) (hidle : x.wait = none) (hwins : winsPending s b x = false)
    (hbusy : binBusyTiles s b x.index (binGenOf s b x.index) = false) :
    exec (.binSeal h w buf clean) s = .next (sealed (begun s (.binSeal h w buf noFaults)) h buf b x) := by
  obtain ⟨hhandle, hbin⟩ := hnames
  have hhandle' : handleBin (begun s (.binSeal h w buf noFaults)) h.part w = some (b, x) := hhandle
  have hbin' : findBin (begun s (.binSeal h w buf noFaults)) b x.index = some x := hbin
  have hwins' : winsPending (begun s (.binSeal h w buf noFaults)) b x = false := hwins
  have hbusy' : binBusyTiles (begun s (.binSeal h w buf noFaults)) b x.index (binGenOf (begun s (.binSeal h w buf noFaults)) b x.index) = false := hbusy
  show execBinSeal h w buf clean s = _
  simp only [execBinSeal, hhandle', isGatherer, hkind, hopen, hidle, hwins', hbusy', binFaults_clean_eq, hbin', sealed, partialCount]
  simp only [beq_self_eq_true, bne_self_eq_false, Bool.not_true, Bool.or_self, Option.isSome_none, Bool.false_eq_true, if_false, ne_eq,
    not_true_eq_false]
  rfl

theorem sealed_eq {s : State} {h : CmdHdr} {w : W32} {buf : W64} {b : BayId} {x : Bin} (hbin : findBin s b x.index = some x) :
    let t := sealed (begun s (.binSeal h w buf noFaults)) h buf b x
    t.out = s.out ++ [.hostWrite h.part buf (locRead s (binLoc b x) (presenceOff x) (presenceLen x))] ∧
      (partialCount s b x = 0 → completes s t h 0 (leBytes 4 (presentCount s b x)) ∧ findBin t b x.index = some { x with state := .sealed }) ∧
      (partialCount s b x ≠ 0 → completes s t h codeBinPartial (leBytes 4 (partialCount s b x)) ∧ findBin t b x.index = some x) := by
  have hcount : partialCount (begun s (.binSeal h w buf noFaults)) b x = partialCount s b x := rfl
  have hpresent : presentCount (begun s (.binSeal h w buf noFaults)) b x = presentCount s b x := rfl
  simp only [sealed, hcount, hpresent]
  split
  · next hzero =>
    refine ⟨?_, fun _ => ⟨?_, ?_⟩, fun hpartial => absurd hzero hpartial⟩
    · rw [complete_out, modBin_out]
      rfl
    · refine completes_begun (i := .binSeal h w buf noFaults) ?_ h _ _
      exact modBin_qm _ _ _ _
    · rw [findBin_complete]
      exact findBin_modBin_same _ b x.index (fun z => { z with state := .sealed }) x hbin
  · next hpartial =>
    refine ⟨complete_out _ _ _ _, fun hzero => absurd hzero hpartial, fun _ => ⟨?_, ?_⟩⟩
    · refine completes_begun (i := .binSeal h w buf noFaults) ?_ h _ _
      rfl
    · rw [findBin_complete]
      exact hbin

/-! ## The windows of a bin (R115, R141) -/

theorem freeWin_bays (s : State) (i : Nat) : (freeWin s i).bays = s.bays := by
  unfold freeWin
  split <;> rfl

theorem revokeWin_bays (s : State) (i cause : Nat) : (revokeWin s i cause).bays = s.bays := by
  unfold revokeWin
  split
  · rfl
  · exact freeWin_bays s i

/-- A window that is FREE is listed no more; what stays is as it was. -/
theorem mem_freeWin_tab {s : State} {i : Nat} {v : Nat × Window} (hv : v ∈ (freeWin s i).wins.tab) : v ∈ s.wins.tab ∧ v.1 ≠ i := by
  cases hw : getWin s i with
  | none =>
    have hnone : freeWin s i = s := by simp [freeWin, hw]
    rw [hnone] at hv
    refine ⟨hv, ?_⟩
    simp only [getWin, lookup, Option.map_eq_none_iff, List.find?_eq_none] at hw
    simpa using hw v hv
  | some w =>
    rw [freeWin_eq hw] at hv
    simpa [eraseKey] using hv

theorem mem_revokeWin_tab {s : State} {i cause : Nat} {v : Nat × Window} (hv : v ∈ (revokeWin s i cause).wins.tab) : v ∈ s.wins.tab ∧ v.1 ≠ i := by
  refine mem_freeWin_tab ?_
  cases hw : getWin s i with
  | none => simpa [revokeWin, freeWin, hw] using hv
  | some w =>
    rw [revokeWin_eq hw] at hv
    exact hv

theorem mem_revokeWins_tab {l : List Nat} {s : State} {cause : Nat} {v : Nat × Window}
    (hv : v ∈ (l.foldl (fun s i => revokeWin s i cause) s).wins.tab) : v ∈ s.wins.tab ∧ v.1 ∉ l := by
  induction l generalizing s with
  | nil => exact ⟨hv, List.not_mem_nil⟩
  | cons i l ih =>
    obtain ⟨hlater, hl⟩ := ih hv
    obtain ⟨hmem, hi⟩ := mem_revokeWin_tab hlater
    exact ⟨hmem, by simp [hi, hl]⟩

section Revoked
variable (s : State) (b : BayId) (x : Bin) (cause : Nat)

theorem revokeBinWins_bays : (revokeBinWins s b x cause).bays = s.bays :=
  foldl_keeps _ (fun t : State => t.bays = s.bays) (fun t i h => (revokeWin_bays t i cause).trans h) _ _ rfl

theorem revokeBinWins_qm : (revokeBinWins s b x cause).qm = s.qm :=
  foldl_keeps _ (fun t : State => t.qm = s.qm) (fun t i h => (revokeWin_qm t i cause).trans h) _ _ rfl

/-- No accumulate window names the bin any more. -/
theorem revokeBinWins_tab : ∀ v ∈ (revokeBinWins s b x cause).wins.tab, v.2.place = true ∨ v.2.bin ≠ binHandle s b x := by
  intro v hv
  obtain ⟨hmem, hgone⟩ := mem_revokeWins_tab hv
  by_contra hnames
  rw [not_or, not_ne_iff, Bool.not_eq_true] at hnames
  obtain ⟨hplace, hbin⟩ := hnames
  exact hgone (List.mem_map.2 ⟨v, List.mem_filter.2 ⟨hmem, by simp [hplace, hbin]⟩, rfl⟩)

end Revoked

/-! ## BIN_DISCARD and BIN_FREE (R141, R142) -/

section Named
variable {s : State} {h : CmdHdr} {w : W32} {b : BayId} {x : Bin} (hnames : Names s h w b x)
include hnames

theorem exec_binDiscard_waits (hallowed : discardable x = true) (hidle : x.wait = none) : exec (.binDiscard h w) s =
    .next (revokeBinWins (modBin (begun s (.binDiscard h w)) b x.index (fun y => { y with wait := some (.discard h) })) b x 5) := by
  have hhandle : handleBin (begun s (.binDiscard h w)) h.part w = some (b, x) := hnames.1
  show execBinDiscard h w s = _
  simp [execBinDiscard, hhandle, hallowed, hidle]

theorem exec_binDiscard_refused (hforbidden : discardable x = false) :
    exec (.binDiscard h w) s = .next (complete (begun s (.binDiscard h w)) h codeBinState []) := by
  have hhandle : handleBin (begun s (.binDiscard h w)) h.part w = some (b, x) := hnames.1
  show execBinDiscard h w s = _
  simp [execBinDiscard, hhandle, hforbidden]

theorem exec_binFree_waits (hallowed : freeable x = true) (hidle : x.wait = none) :
    exec (.binFree h w) s = .next (modBin (begun s (.binFree h w)) b x.index (fun y => { y with wait := some (.free h) })) := by
  have hhandle : handleBin (begun s (.binFree h w)) h.part w = some (b, x) := hnames.1
  show execBinFree h w s = _
  simp [execBinFree, hhandle, hallowed, hidle]

theorem exec_binFree_refused (hforbidden : freeable x = false) :
    exec (.binFree h w) s = .next (complete (begun s (.binFree h w)) h codeBinState []) := by
  have hhandle : handleBin (begun s (.binFree h w)) h.part w = some (b, x) := hnames.1
  show execBinFree h w s = _
  simp [execBinFree, hhandle, hforbidden]

theorem exec_binFree_busy (hallowed : freeable x = true) (hbusy : x.wait ≠ none) :
    exec (.binFree h w) s = .next (complete (begun s (.binFree h w)) h codeBinBusy []) := by
  have hhandle : handleBin (begun s (.binFree h w)) h.part w = some (b, x) := hnames.1
  have hwaits : x.wait.isSome = true := Option.isSome_iff_ne_none.2 hbusy
  show execBinFree h w s = _
  simp [execBinFree, hhandle, hallowed, hwaits]

theorem binDiscard_waits (hallowed : discardable x = true) (hidle : x.wait = none) : Runs (.binDiscard h w) s (fun t => t.qm.held = s.qm.held ∧
    findBin t b x.index = some { x with wait := some (.discard h) } ∧ ∀ v ∈ t.wins.tab, v.2.place = true ∨ v.2.bin ≠ binHandle s b x) := by
  refine ⟨_, exec_binDiscard_waits hnames hallowed hidle, ?_, ?_, ?_⟩
  · rw [revokeBinWins_qm, modBin_qm, begun_held]
  · rw [findBin, revokeBinWins_bays]
    exact findBin_modBin_same _ b x.index _ x hnames.2
  · have htab := revokeBinWins_tab (modBin (begun s (.binDiscard h w)) b x.index (fun y => { y with wait := some (.discard h) })) b x 5
    rwa [binHandle, binGenOf_modBin] at htab

theorem binFree_waits (hallowed : freeable x = true) (hidle : x.wait = none) : Runs (.binFree h w) s (fun t => t.qm.held = s.qm.held ∧
    findBin t b x.index = some { x with wait := some (.free h) }) := by
  refine ⟨_, exec_binFree_waits hnames hallowed hidle, ?_, findBin_modBin_same _ b x.index _ x hnames.2⟩
  rw [modBin_qm, begun_held]

end Named

/-! ## No tile of the bin is in flight (R141, R142) -/

/-- An index that is FREE holds no bin, and its generation has gone up. -/
theorem freeDone_free (u : State) (c : BayId) (i : Nat) (g : CmdHdr) :
    findBin (freeDone u c i g) c i = none ∧ binGenOf (freeDone u c i g) c i = nextGen (binGenOf u c i) := by
  have hmem : (freeDone u c i g).bays[c].mem = (freeBin u c i).bays[c].mem :=
    ((memKept_complete _ _ _ _).trans (memKept_settleRounds _)).mem c
  rw [findBin, binGenOf, hmem, freeBin, modMem_mem, if_pos rfl]
  exact ⟨lookup_eraseKey_same i _, congrArg (·.getD 1) (lookup_insertKey_same i _ _)⟩

section Drained
variable {s : State} {b : BayId} {x : Bin} {h : CmdHdr} (hbin : findBin s b x.index = some x)
  (hidle : binBusyTiles s b x.index (binGenOf s b x.index) = false)
include hbin hidle

theorem exec_binInFlightDrained_discard (hwait : x.wait = some (.discard h)) : exec (.binInFlightDrained b x.index) s =
    .next (complete (modBin s b x.index (fun y => { y with state := .discarded, wait := none })) h 0 []) := by
  show execBinInFlightDrained b x.index s = _
  simp [execBinInFlightDrained, hbin, hidle, hwait]

theorem exec_binInFlightDrained_free (hwait : x.wait = some (.free h)) (hfirst : x.freeing = false) :
    exec (.binInFlightDrained b x.index) s = .next (startFree s b x h) := by
  show execBinInFlightDrained b x.index s = _
  simp [execBinInFlightDrained, hbin, hidle, hwait, hfirst]

theorem drained_discard (hwait : x.wait = some (.discard h)) : Runs (.binInFlightDrained b x.index) s (fun t => completes s t h 0 [] ∧
    findBin t b x.index = some { x with state := .discarded, wait := none }) := by
  refine ⟨_, exec_binInFlightDrained_discard hbin hidle hwait, ?_, ?_⟩
  · have hdone := completes_complete (modBin s b x.index (fun y => { y with state := .discarded, wait := none })) h 0 []
    rwa [completes, modBin_qm] at hdone
  · rw [findBin_complete]
    exact findBin_modBin_same s b x.index _ x hbin

theorem drained_free_stack (hwait : x.wait = some (.free h)) (hfirst : x.freeing = false) (hsram : x.sram = false) (hmirror : x.mirror = false) :
    Runs (.binInFlightDrained b x.index) s (fun t => findBin t b x.index = some { x with freeing := true } ∧ t.qm.held = s.qm.held ∧
      (t.bays[b]).mem.scrub = s.bays[b].mem.scrub ++ [{ base := x.region, len := x.regionSize, why := .binFree b x.index h }]) := by
  have hstart : startFree s b x h = askScrub (modBin s b x.index (fun y => { y with freeing := true })) b x.region x.regionSize
      (.binFree b x.index h) := by
    simp only [startFree, hsram, hmirror, Bool.false_eq_true, if_false]
    split <;> rfl
  refine ⟨_, exec_binInFlightDrained_free hbin hidle hwait hfirst, ?_⟩
  rw [hstart]
  refine ⟨?_, ?_, ?_⟩
  · rw [findBin_askScrub]
    exact findBin_modBin_same s b x.index _ x hbin
  · rw [askScrub, modMem_qm, modBin_qm]
  · rw [askScrub_scrub, modBin_scrub]

theorem drained_free_sram (hwait : x.wait = some (.free h)) (hfirst : x.freeing = false) (hsram : x.sram = true) :
    Runs (.binInFlightDrained b x.index) s (fun t => findBin t b x.index = none ∧ binGenOf t b x.index = nextGen (binGenOf s b x.index)) := by
  have hstart : startFree s b x h = freeDone (sramCleared (modBin s b x.index (fun y => { y with freeing := true })) b x.region x.regionSize) b
      x.index h := by
    simp only [startFree, hsram, if_true]
    rfl
  refine ⟨_, exec_binInFlightDrained_free hbin hidle hwait hfirst, ?_⟩
  obtain ⟨hgone, hgen⟩ := freeDone_free (sramCleared (modBin s b x.index (fun y => { y with freeing := true })) b x.region x.regionSize) b
    x.index h
  rw [hstart, hgen, binGenOf_sramCleared, binGenOf_modBin]
  exact ⟨hgone, rfl⟩

end Drained

theorem binCommands : BinCommands := by
  refine ⟨fun s h d b hbay => ⟨?stack, ?sram, ?refused, ?taken⟩, fun s h w b x hnames => ⟨?seals, ?discard, ?noDiscard, ?free, ?noFree, ?busy⟩,
    fun s b x h hbin hidle => ⟨drained_discard hbin hidle, drained_free_stack hbin hidle, drained_free_sram hbin hidle⟩⟩
  case stack => exact binAlloc_stack hbay
  case sram => exact binAlloc_sram hbay
  case refused =>
    intro hbad
    exact ⟨_, exec_binAlloc_refused hbay hbad, complete_bays _ _ _ _, completes_begun rfl h _ _⟩
  case taken =>
    intro howner htaken
    have hstatus := binAllocStatus_taken hbay howner htaken
    have hrun := exec_binAlloc_refused hbay (s := s) (h := h) (d := d) (by rw [hstatus]; decide)
    rw [hstatus] at hrun
    exact ⟨_, hrun, complete_bays _ _ _ _, completes_begun rfl h _ _⟩
  case seals =>
    intro buf hkind hopen hidle hwins hbusy
    exact ⟨_, exec_binSeal hnames buf hkind hopen hidle hwins hbusy, sealed_eq hnames.2⟩
  case discard => exact binDiscard_waits hnames
  case noDiscard =>
    intro hforbidden
    exact ⟨_, exec_binDiscard_refused hnames hforbidden, complete_bays _ _ _ _, completes_begun rfl h _ _⟩
  case free => exact binFree_waits hnames
  case noFree =>
    intro hforbidden
    exact ⟨_, exec_binFree_refused hnames hforbidden, complete_bays _ _ _ _, completes_begun rfl h _ _⟩
  case busy =>
    intro hallowed hbusy
    exact ⟨_, exec_binFree_busy hnames hallowed hbusy, complete_bays _ _ _ _, completes_begun rfl h _ _⟩

end Sys2Proof.Machine

/-! PROOFS. BIN_COMBINE (R139): what a combination writes and what it leaves, position by position; the bins it holds until it ends; then O39. -/

namespace Sys2Proof.Machine

open Sys2Proof.Said

/-! ## A bin's region (Table 05.5) -/

theorem dataLen_le_presenceOff (x : Bin) : dataLen x ≤ presenceOff x := by
  unfold presenceOff countsOff bitmapOff
  omega

theorem presenceBit_lt (x : Bin) {i : Nat} (hi : i < binContribs x) : presenceOff x + i / 8 < layoutLen x := by
  unfold layoutLen poisonOff presenceLen ceilDiv
  omega

theorem dataLen_le_poisonOff (x : Bin) : dataLen x ≤ poisonOff x := (dataLen_le_presenceOff x).trans (Nat.le_add_right _ _)

theorem poisonEntry_lt (x : Bin) {k : Nat} (hk : k < x.t) : poisonOff x + 2 * k + 2 ≤ layoutLen x := by
  unfold layoutLen poisonLen ceilDiv
  omega

/-! ## Writes inside a part of the stack -/

/-- `t` differs from `s` in bay `b` at most at the bytes of the stack that `P` names, which is still sound, and in what is counted; bins and
queues are as in `s`. -/
structure WritesOnly (b : BayId) (P : Nat → Prop) (s t : State) : Prop where
  sound : Sound t.bays[b].mem
  bytes : ∀ a, ¬ P a → memGet t.bays[b].mem.dram a = memGet s.bays[b].mem.dram a
  bins : t.bays[b].mem.bins = s.bays[b].mem.bins
  qm : t.qm = s.qm

section Writes
variable {b : BayId} {P : Nat → Prop} {s t : State}

theorem WritesOnly.refl (hsound : Sound s.bays[b].mem) : WritesOnly b P s s := ⟨hsound, fun _ _ => rfl, rfl, rfl⟩

theorem WritesOnly.trans {u : State} (h : WritesOnly b P s t) (h' : WritesOnly b P t u) : WritesOnly b P s u :=
  ⟨h'.sound, fun a ha => (h'.bytes a ha).trans (h.bytes a ha), h'.bins.trans h.bins, h'.qm.trans h.qm⟩

theorem WritesOnly.mono {Q : Nat → Prop} (h : WritesOnly b P s t) (hPQ : ∀ a, P a → Q a) : WritesOnly b Q s t :=
  ⟨h.sound, fun a ha => h.bytes a fun hp => ha (hPQ a hp), h.bins, h.qm⟩

theorem WritesOnly.foldl {α : Type} (f : State → α → State) (l : List α) (hsound : Sound s.bays[b].mem)
    (hf : ∀ u, Sound u.bays[b].mem → ∀ a ∈ l, WritesOnly b P u (f u a)) : WritesOnly b P s (l.foldl f s) :=
  List.foldlRecOn l f (.refl hsound) fun u hu a ha => hu.trans (hf u hu.sound a ha)

/-- A position of a bin that no write names. -/
theorem WritesOnly.posBytes (h : WritesOnly b P s t) (hsound : Sound s.bays[b].mem) (x : Bin) (k : Nat)
    (hout : ∀ a, x.region + k * 65536 ≤ a → a < x.region + (k + 1) * 65536 → ¬ P a) : posBytes t b x k = posBytes s b x k :=
  posBytes_congr hsound h.sound x k fun a hlo hhi => h.bytes a (hout a hlo hhi)

variable (hsound : Sound s.bays[b].mem)
include hsound

theorem writesOnly_putBytes (a : Nat) (bs : List Byte) (hin : ∀ i, a ≤ i → i < a + bs.length → P i) : WritesOnly b P s (putBytes s b a bs) := by
  refine ⟨sound_putBytes hsound a bs, fun i hi => ?_, by rw [putBytes_mem], rfl⟩
  rw [memGet_putBytes, if_neg fun h => hi (hin i h.1 h.2)]

/-- A cause set in the poison map of a plain bin. -/
theorem writesOnly_setLocPoison (x : Bin) {k : Nat} (cause : Nat)
    (hin : ∀ i, x.region + poisonOff x + 2 * k ≤ i → i < x.region + poisonOff x + 2 * k + 2 → P i) :
    WritesOnly b P s (setLocPoison s b (stackCopy b x) x k cause) := by
  unfold setLocPoison
  split
  · rw [locModify_stackCopy hsound]
    have hput := writesOnly_putBytes (P := P) hsound (x.region + (poisonOff x + 2 * k)) (leBytes 2 cause) fun i hlo hhi => by
      rw [leBytes_length] at hhi
      exact hin i (by omega) (by omega)
    obtain ⟨hsound', hbytes, hbins, hqm⟩ := hput
    constructor
    · rw [modMem_mem, if_pos rfl]
      exact hsound'
    · intro a ha
      rw [modMem_mem, if_pos rfl]
      exact hbytes a ha
    · rw [modMem_mem, if_pos rfl]
      exact hbins
    · exact hqm
  · exact .refl hsound

theorem writesOnly_locSetBit (x : Bin) (off i : Nat) (hin : P (x.region + off + i / 8)) :
    WritesOnly b P s (locSetBit s (stackCopy b x) off i) := by
  rw [locSetBit, locModify_stackCopy hsound]
  refine writesOnly_putBytes hsound _ _ fun j hlo hhi => ?_
  obtain rfl : j = x.region + off + i / 8 := by
    rw [List.length_singleton] at hhi
    omega
  exact hin

end Writes

/-! ## One source combined into the target (R139, R143) -/

/-- The work on one position: the source's elements are added, and its cause, if it has one, is copied. -/
def combinePosition (r : Ring) (b : BayId) (t x : Bin) (s : State) (k : Nat) : State :=
  let ops := readElems (posRead s b x k) 0 r.size (binCap t)
  let cause := posPoison s b x k
  (binLocs b t).foldl (fun s l =>
    let s1 := locModify s l (k * 65536) (applyDense r.size (ringAdd r) (locRead s l (k * 65536) 65536) ops)
    let s2 := if locUe s1 l (k * 65536) 65536 then setLocPoison s1 b l t k codeUncorrectableMemory else s1
    if cause = 0 then s2 else setLocPoison s2 b l t k cause) s

/-- The source's contributors are present in the target. -/
def combinePresence (b : BayId) (t : Bin) (l : List Nat) (s : State) : State :=
  l.foldl (fun s c => (binLocs b t).foldl (fun s l => locSetBit s l (presenceOff t) (c - t.clo)) s) s

theorem combineOne_eq (s : State) (b : BayId) (t x : Bin) : combineOne s b t x =
    combinePresence b t (presentIn ((List.range t.t).foldl (combinePosition (binRing s t) b t x) s) b x)
      ((List.range t.t).foldl (combinePosition (binRing s t) b t x) s) := rfl

/-- The bytes of a bin that its first `n` positions hold, and those behind its positions. -/
def Touched (x : Bin) (n a : Nat) : Prop := x.region ≤ a ∧ a < x.region + layoutLen x ∧ (a < x.region + n * 65536 ∨ x.region + dataLen x ≤ a)

theorem Touched.mono {x : Bin} {m n a : Nat} (h : Touched x m a) (hmn : m ≤ n) : Touched x n a := by
  obtain ⟨hlo, hhi, hpart⟩ := h
  exact ⟨hlo, hhi, hpart.imp_left fun hm => hm.trans_le (Nat.add_le_add_left (Nat.mul_le_mul_right _ hmn) _)⟩

/-- The source's contributors are among the target's, and both have as many positions. -/
structure Within (x y : Bin) : Prop where
  lo : x.clo ≤ y.clo
  hi : y.chi ≤ x.chi
  t : y.t = x.t

/-- The regions of the two bins are apart. -/
def Apart (x y : Bin) : Prop := x.region + layoutLen x ≤ y.region ∨ y.region + layoutLen y ≤ x.region

section Combine
variable {b : BayId} {x y : Bin} (hx : Plain x) (hy : Plain y)
include hx

theorem combinePresence_writes {s : State} (hsound : Sound s.bays[b].mem) (hwithin : Within x y) (v : State) :
    WritesOnly b (Touched x 0) s (combinePresence b x (presentIn v b y) s) := by
  refine .foldl _ _ hsound fun u hu c hc => ?_
  rw [binLocs_plain hx, List.foldl_cons, List.foldl_nil]
  obtain ⟨i, hi, rfl⟩ := List.mem_map.1 hc
  have hcontrib : i < binContribs y := List.mem_range.1 (List.mem_filter.1 hi).1
  obtain ⟨hlo, hhi, -⟩ := hwithin
  have hbit : i + y.clo - x.clo < binContribs x := by
    unfold binContribs at *
    omega
  have hlast := presenceBit_lt x hbit
  have hfirst := dataLen_le_presenceOff x
  exact writesOnly_locSetBit hu x _ _ ⟨by omega, by omega, .inr (by omega)⟩

include hy

/-- One position. -/
theorem combinePosition_writes {s : State} (hsound : Sound s.bays[b].mem) (u : State) {k : Nat} (hk : k < x.t) :
    WritesOnly b (fun a => x.region ≤ a ∧ a < x.region + layoutLen x ∧
      (x.region + k * 65536 ≤ a ∧ a < x.region + (k + 1) * 65536 ∨ x.region + dataLen x ≤ a)) s (combinePosition (binRing u x) b x y s k) ∧
    posBytes (combinePosition (binRing u x) b x y s k) b x k =
      combined u x (ringAdd (binRing u x)) (posBytes s b x k) (readElems (posBytes s b y k) 0 (binRing u x).size (binCap x)) := by
  have hpoison := dataLen_le_poisonOff x
  have hentry := poisonEntry_lt x hk
  have hdata : dataLen x = x.t * 65536 := rfl
  have hlen := combined_length u s b x (ringAdd (binRing u x)) k (readElems (posBytes s b y k) 0 (binRing u x).size (binCap x))
  have hput := writesOnly_putBytes (P := fun a => x.region ≤ a ∧ a < x.region + layoutLen x ∧
      (x.region + k * 65536 ≤ a ∧ a < x.region + (k + 1) * 65536 ∨ x.region + dataLen x ≤ a)) hsound (x.region + k * 65536)
    (combined u x (ringAdd (binRing u x)) (posBytes s b x k) (readElems (posBytes s b y k) 0 (binRing u x).size (binCap x)))
    fun i hlo hhi => by rw [hlen] at hhi; omega
  have hposition := posBytes_putBytes hsound x k hlen
  rw [combinePosition, binLocs_plain hx, List.foldl_cons, List.foldl_nil, posRead_plain hsound hy, locRead_stackCopy hsound,
    locModify_stackCopy hsound, ← combined]
  simp only [locUe_false _ (stackCopy b x) hput.sound, Bool.false_eq_true, if_false]
  split
  · exact ⟨hput, hposition⟩
  · have hcause := writesOnly_setLocPoison (P := fun a => x.region + dataLen x ≤ a ∧ a < x.region + layoutLen x) hput.sound x (k := k)
      (posPoison s b y k) fun i hlo hhi => by omega
    refine ⟨hput.trans (hcause.mono fun a ha => by omega), ?_⟩
    rw [hcause.posBytes hput.sound x k fun a _ hhi => by omega, hposition]

/-- The first `n` positions. -/
theorem combinePositions_writes {s : State} (hsound : Sound s.bays[b].mem) (hwithin : Within x y) (hapart : Apart x y) (n : Nat) (hn : n ≤ x.t) :
    WritesOnly b (Touched x n) s ((List.range n).foldl (combinePosition (binRing s x) b x y) s) ∧
    ∀ k < n, posBytes ((List.range n).foldl (combinePosition (binRing s x) b x y) s) b x k =
      combined s x (ringAdd (binRing s x)) (posBytes s b x k) (readElems (posBytes s b y k) 0 (binRing s x).size (binCap x)) := by
  have hdata : dataLen x = x.t * 65536 := rfl
  have hlayout : dataLen x ≤ layoutLen x := (dataLen_le_poisonOff x).trans (Nat.le_add_right _ _)
  have hsource : x.t * 65536 ≤ layoutLen y := by
    rw [← hwithin.t]
    exact (dataLen_le_poisonOff y).trans (Nat.le_add_right _ _)
  induction n with
  | zero => exact ⟨.refl hsound, fun k hk => absurd hk (Nat.not_lt_zero k)⟩
  | succ n ih =>
    obtain ⟨hbefore, hdone⟩ := ih (by omega)
    rw [List.range_succ, List.foldl_append, List.foldl_cons, List.foldl_nil]
    obtain ⟨hstep, hposition⟩ := combinePosition_writes hx hy hbefore.sound s (k := n) (by omega)
    have htarget := hbefore.posBytes hsound x n fun a hlo hhi => by unfold Touched; omega
    have hoperand := hbefore.posBytes hsound y n fun a hlo hhi => by unfold Touched; unfold Apart at hapart; omega
    have hnow : WritesOnly b (Touched x (n + 1)) _ _ := hstep.mono fun a ⟨hlo, hhi, hpart⟩ => ⟨hlo, hhi, hpart.imp_left And.right⟩
    refine ⟨(hbefore.mono fun a ha => ha.mono n.le_succ).trans hnow, fun k hk => ?_⟩
    · rcases Nat.lt_succ_iff_lt_or_eq.1 hk with hk | rfl
      · rw [hstep.posBytes hbefore.sound x k fun a hlo hhi => by omega, hdone k hk]
      · rw [hposition, htarget, hoperand]

/-- All of a source. -/
theorem combineOne_writes {s : State} (hsound : Sound s.bays[b].mem) (hwithin : Within x y) (hapart : Apart x y) :
    WritesOnly b (Touched x x.t) s (combineOne s b x y) ∧
    ∀ k < x.t, posBytes (combineOne s b x y) b x k =
      combined s x (ringAdd (binRing s x)) (posBytes s b x k) (readElems (posBytes s b y k) 0 (binRing s x).size (binCap x)) := by
  obtain ⟨hpositions, hdone⟩ := combinePositions_writes hx hy hsound hwithin hapart x.t le_rfl
  have hpresence := combinePresence_writes hx hpositions.sound hwithin ((List.range x.t).foldl (combinePosition (binRing s x) b x y) s)
  have hdata : dataLen x = x.t * 65536 := rfl
  rw [combineOne_eq]
  refine ⟨hpositions.trans (hpresence.mono fun a ha => ha.mono (Nat.zero_le _)), fun k hk => ?_⟩
  rw [hpresence.posBytes hpositions.sound x k fun a hlo hhi => by unfold Touched; omega, hdone k hk]

end Combine

/-! ## The conditions of a combination (R139, R444) -/

/-- What a BIN_COMBINE of one source that is not refused has: a sum bin, and a gatherer of the same bay whose contributors are among the bin's. -/
theorem combineStatus_ok {s : State} {h : CmdHdr} {target w : W32} {b : BayId} {x y : Bin} (hok : combineStatus s h target [w] = 0)
    (htarget : handleBin s h.part target = some (b, x)) (hsource : handleBin s h.part w = some (b, y)) :
    isGatherer x = false ∧ isGatherer y = true ∧ Within x y ∧ combineSources s h.part b [w] = some [y] := by
  have hcodes : codeBinState ≠ 0 ∧ codeBinBusy ≠ 0 ∧ codeBinMismatch ≠ 0 := by decide
  obtain ⟨hstate, hbusy, hmismatch⟩ := hcodes
  have hlen : ¬ ([w].length < 1 ∨ 64 < [w].length) := by simp
  simp only [combineStatus, if_neg hlen, htarget] at hok
  split at hok
  · exact absurd hok hstate
  · next hsum =>
    split at hok
    · exact absurd hok hstate
    · next src hsrc =>
      split at hok
      · exact absurd hok hbusy
      · split at hok
        · next hfits =>
          simp only [combineSources, hsource] at hsrc
          split at hsrc
          · next hsealed =>
            obtain ⟨-, hgatherer, hstate', hclean⟩ := hsealed
            obtain rfl : [y] = src := by simpa using hsrc
            simp only [combineFits, List.all_cons, List.all_nil, Bool.and_true, Bool.and_eq_true, beq_iff_eq, decide_eq_true_eq, and_assoc] at hfits
            obtain ⟨-, -, -, -, ht, -, hlo, hhi, -⟩ := hfits
            refine ⟨?_, hgatherer, ⟨hlo, hhi, ht⟩, ?_⟩
            · simpa using fun hg => hsum (.inl hg)
            · simp [combineSources, hsource, hgatherer, hstate', hclean]
          · cases hsrc
        · exact absurd hok hmismatch

/-! ## The bins that a combination holds (R139) -/

/-- The bins of some indices wait for the command's end. -/
def combineHeld (h : CmdHdr) (b : BayId) (l : List Nat) (s : State) : State :=
  l.foldl (fun s i => modBin s b i (fun y => { y with wait := some (.combine h) })) s

theorem exec_binCombine_one {s : State} {h : CmdHdr} {target w : W32} {b : BayId} {x y : Bin} (hok : combineStatus s h target [w] = 0)
    (htarget : handleBin s h.part target = some (b, x)) (hsources : combineSources s h.part b [w] = some [y]) :
    exec (.binCombine h target [w] clean) s =
      .next (combineHeld h b [x.index, y.index] (combineOne (begun s (.binCombine h target [w] noFaults)) b x y)) := by
  have hok' : combineStatus (begun s (.binCombine h target [w] noFaults)) h target [w] = 0 := hok
  have htarget' : handleBin (begun s (.binCombine h target [w] noFaults)) h.part target = some (b, x) := htarget
  have hsources' : combineSources (begun s (.binCombine h target [w] noFaults)) h.part b [w] = some [y] := hsources
  have hclean : ({ clean with ce := 0 } : LineFaults) = clean := rfl
  show execBinCombine h target [w] clean s = _
  simp [execBinCombine, hok', htarget', hsources', hclean, binFaults_clean_eq, combineHeld]

/-- A command's entry in the dispatched list plays no part in which sources a combination has. -/
theorem combineSources_begun (s : State) (i : Instr) (p : PartId) (b : BayId) (l : List W32) :
    combineSources (begun s i) p b l = combineSources s p b l := by
  induction l with
  | nil => rfl
  | cons w rest ih =>
    have hhandle : handleBin (begun s i) p w = handleBin s p w := rfl
    simp only [combineSources, ih, hhandle]

theorem combineStatus_begun (s : State) (i : Instr) (h : CmdHdr) (target : W32) (sources : List W32) :
    combineStatus (begun s i) h target sources = combineStatus s h target sources := by
  have hhandle : handleBin (begun s i) h.part target = handleBin s h.part target := rfl
  have hfits (b : BayId) (x : Bin) (l : List Bin) : combineFits (begun s i) b x l = combineFits s b x l := rfl
  simp only [combineStatus, combineSources_begun, hhandle, hfits]

theorem exec_binCombine_refused {s : State} {h : CmdHdr} {target : W32} {sources : List W32} (hbad : combineStatus s h target sources ≠ 0) :
    exec (.binCombine h target sources clean) s =
      .next (complete (begun s (.binCombine h target sources noFaults)) h (combineStatus s h target sources) []) := by
  have hstatus := combineStatus_begun s (.binCombine h target sources noFaults) h target sources
  show execBinCombine h target sources clean s = _
  simp only [execBinCombine, hstatus, if_pos hbad]

/-- Two bins of different indices that are held: no byte changes. -/
theorem combineHeld_pair {s : State} {b : BayId} {x y : Bin} (hx : findBin s b x.index = some x) (hy : findBin s b y.index = some y)
    (hne : x.index ≠ y.index) (h : CmdHdr) :
    let t := combineHeld h b [x.index, y.index] s
    t.qm = s.qm ∧ findBin t b x.index = some { x with wait := some (.combine h) } ∧
      findBin t b y.index = some { y with wait := some (.combine h) } ∧ ∀ z k, posBytes t b z k = posBytes s b z k := by
  simp only [combineHeld, List.foldl_cons, List.foldl_nil]
  refine ⟨by rw [modBin_qm, modBin_qm], ?_, ?_, fun z k => ?_⟩
  · rw [findBin_modBin_other _ _ hne]
    exact findBin_modBin_same s b x.index _ x hx
  · exact findBin_modBin_same _ b y.index _ y ((findBin_modBin_other s b hne.symm _).trans hy)
  · rw [posBytes, (stacksKept_modBin _ b y.index _ b).1, (stacksKept_modBin _ b x.index _ b).1, posBytes]

theorem findBin_combineOne {s t : State} {b : BayId} {P : Nat → Prop} (h : WritesOnly b P s t) (i : Nat) : findBin t b i = findBin s b i := by
  rw [findBin, h.bins, findBin]

theorem binCombine_one {s : State} {h : CmdHdr} {target w : W32} {b : BayId} {x y : Bin} (hok : combineStatus s h target [w] = 0)
    (htarget : Names s h target b x) (hsource : Names s h w b y) (hx : Plain x) (hy : Plain y) (hsound : Sound s.bays[b].mem) (hapart : Apart x y) :
    Runs (.binCombine h target [w] clean) s (fun t => t.qm.held = s.qm.held ∧ findBin t b x.index = some { x with wait := some (.combine h) } ∧
      findBin t b y.index = some { y with wait := some (.combine h) } ∧
      (∀ k < x.t, posBytes t b x k = combined s x (ringAdd (binRing s x)) (posBytes s b x k)
        (readElems (posBytes s b y k) 0 (binRing s x).size (binCap x))) ∧
      (∀ k < x.t, posBytes t b y k = posBytes s b y k)) := by
  obtain ⟨htarget, hfindx⟩ := htarget
  obtain ⟨hsource, hfindy⟩ := hsource
  obtain ⟨hsum, hgatherer, hwithin, hsources⟩ := combineStatus_ok hok htarget hsource
  have hne : x.index ≠ y.index := by
    intro heq
    obtain rfl : x = y := Option.some.inj (hfindx.symm.trans (heq ▸ hfindy))
    exact absurd (hsum.symm.trans hgatherer) Bool.false_ne_true
  have hsound' : Sound (begun s (.binCombine h target [w] noFaults)).bays[b].mem := hsound
  obtain ⟨hwrites, hdone⟩ := combineOne_writes hx hy hsound' hwithin hapart
  obtain ⟨hqm, hheldx, hheldy, hbytes⟩ := combineHeld_pair ((findBin_combineOne hwrites _).trans hfindx) ((findBin_combineOne hwrites _).trans hfindy) hne h
  refine ⟨_, exec_binCombine_one hok htarget hsources, ?_, hheldx, hheldy, fun k hk => ?_, fun k hk => ?_⟩
  · rw [hqm, hwrites.qm]
    rfl
  · rw [hbytes]
    exact hdone k hk
  · have hpositions : x.t * 65536 ≤ layoutLen y := by
      rw [← hwithin.t]
      exact (dataLen_le_poisonOff y).trans (Nat.le_add_right _ _)
    have hdata : dataLen x = x.t * 65536 := rfl
    rw [hbytes]
    exact hwrites.posBytes hsound' y k fun a hlo hhi => by unfold Touched; unfold Apart at hapart; omega

/-! ## BIN_COMBINE_COMPLETE (R139) -/

/-- A bin that a combination held: a gatherer that was SEALED is COMBINED, and its windows are FREE. -/
def combineRelease (s : State) (k : BayId × Nat) : State :=
  match findBin s k.1 k.2 with
  | none => s
  | some x =>
    let s1 := modBin s k.1 k.2 (fun y => { y with wait := none })
    if isGatherer x && x.state == .sealed then
      (winsOfBin s1 (binHandle s1 k.1 x)).foldl (fun s i => freeWin s i) (modBin s1 k.1 k.2 (fun y => { y with state := .combined }))
    else s1

/-- The bins that wait for a combination's end. -/
def heldBy (s : State) (h : CmdHdr) : List (BayId × Nat) :=
  allBays.flatMap (fun b => (s.bays[b].mem.bins.filter (fun p => p.2.wait == some (.combine h))).map (fun p => (b, p.1)))

theorem exec_binCombineComplete {s : State} {h : CmdHdr} (hheld : heldBy s h ≠ []) :
    exec (.binCombineComplete h) s = .next (complete ((heldBy s h).foldl combineRelease s) h 0 []) :=
  congrArg Host.Outcome.next (if_neg (by simpa [heldBy] using hheld))

theorem mem_heldBy {s : State} {h : CmdHdr} {b : BayId} {i : Nat} {x : Bin} (hx : findBin s b i = some x) (hwait : x.wait = some (.combine h)) :
    (b, i) ∈ heldBy s h := by
  have hbay : ∀ b : BayId, b ∈ allBays := by decide
  exact List.mem_flatMap.2 ⟨b, hbay b, List.mem_map.2 ⟨(i, x), List.mem_filter.2 ⟨mem_of_lookup hx, by simp [hwait]⟩, rfl⟩⟩

theorem freeWins_keeps (l : List Nat) (s : State) : (l.foldl (fun s i => freeWin s i) s).bays = s.bays ∧
    (l.foldl (fun s i => freeWin s i) s).qm = s.qm :=
  foldl_keeps _ (fun t : State => t.bays = s.bays ∧ t.qm = s.qm)
    (fun t i ht => ⟨(freeWin_bays t i).trans ht.1, (freeWin_qm t i).trans ht.2⟩) l s ⟨rfl, rfl⟩

theorem findBin_freeWins (l : List Nat) (s : State) (b : BayId) (i : Nat) : findBin (l.foldl (fun s i => freeWin s i) s) b i = findBin s b i := by
  rw [findBin, (freeWins_keeps l s).1, findBin]

theorem combineRelease_qm (s : State) (k : BayId × Nat) : (combineRelease s k).qm = s.qm := by
  unfold combineRelease
  split
  · rfl
  · dsimp only
    split
    · rw [(freeWins_keeps _ _).2, modBin_qm, modBin_qm]
    · exact modBin_qm _ _ _ _

/-- Another bay's bins stay. -/
theorem findBin_modBin_bay (s : State) {b c : BayId} (h : b ≠ c) (i j : Nat) (f : Bin → Bin) : findBin (modBin s c j f) b i = findBin s b i := by
  unfold modBin
  split
  · rw [findBin, putBin, modMem_mem, if_neg h, findBin]
  · rfl

theorem findBin_modBin_ne (s : State) {b : BayId} {i : Nat} {k : BayId × Nat} (h : (b, i) ≠ k) (f : Bin → Bin) :
    findBin (modBin s k.1 k.2 f) b i = findBin s b i := by
  obtain ⟨c, j⟩ := k
  by_cases hbay : b = c
  · subst hbay
    exact findBin_modBin_other s b (fun hi => h (by rw [hi])) f
  · exact findBin_modBin_bay s hbay i j f

theorem findBin_combineRelease_ne (s : State) {b : BayId} {i : Nat} {k : BayId × Nat} (h : (b, i) ≠ k) :
    findBin (combineRelease s k) b i = findBin s b i := by
  unfold combineRelease
  split
  · rfl
  · dsimp only
    split
    · rw [findBin_freeWins, findBin_modBin_ne _ h, findBin_modBin_ne _ h]
    · exact findBin_modBin_ne _ h _

section Released
variable {s : State} {b : BayId} {x : Bin}

theorem findBin_combineRelease_sealed (hx : findBin s b x.index = some x) (hgatherer : isGatherer x = true) (hsealed : x.state = .sealed) :
    findBin (combineRelease s (b, x.index)) b x.index = some { x with state := .combined, wait := none } := by
  have hwaited := findBin_modBin_same s b x.index (fun y => { y with wait := none }) x hx
  simp only [combineRelease, hx, hgatherer, hsealed, beq_self_eq_true, Bool.and_self, if_true]
  rw [findBin_freeWins]
  exact findBin_modBin_same _ b x.index (fun y => { y with state := .combined }) _ hwaited

/-- Once released it stays as it is, should its index be listed twice. -/
theorem findBin_combineRelease_done (hx : findBin s b x.index = some { x with state := .combined, wait := none }) :
    findBin (combineRelease s (b, x.index)) b x.index = some { x with state := .combined, wait := none } := by
  have hstate : ((BinState.combined == BinState.sealed) : Bool) = false := rfl
  simp only [combineRelease, hx, hstate, Bool.and_false, Bool.false_eq_true, if_false]
  exact findBin_modBin_same s b x.index (fun y => { y with wait := none }) _ hx

theorem findBin_releases (hgatherer : isGatherer x = true) (hsealed : x.state = .sealed) (l : List (BayId × Nat))
    (hx : findBin s b x.index = some x ∧ (b, x.index) ∈ l ∨ findBin s b x.index = some { x with state := .combined, wait := none }) :
    findBin (l.foldl combineRelease s) b x.index = some { x with state := .combined, wait := none } := by
  induction l generalizing s with
  | nil => exact hx.resolve_left fun h => absurd h.2 List.not_mem_nil
  | cons k l ih =>
    rw [List.foldl_cons]
    refine ih ?_
    by_cases hk : (b, x.index) = k
    · subst hk
      rcases hx with ⟨hx, -⟩ | hx
      · exact .inr (findBin_combineRelease_sealed hx hgatherer hsealed)
      · exact .inr (findBin_combineRelease_done hx)
    · rw [findBin_combineRelease_ne s hk]
      exact hx.imp_left fun ⟨hx, hmem⟩ => ⟨hx, (List.mem_cons.1 hmem).resolve_left hk⟩

end Released

theorem releases_qm (l : List (BayId × Nat)) (s : State) : (l.foldl combineRelease s).qm = s.qm :=
  foldl_keeps combineRelease (fun t : State => t.qm = s.qm) (fun t k ht => (combineRelease_qm t k).trans ht) l s rfl

theorem binCombining : BinCombining := by
  refine ⟨fun s h target w b x y hok htarget hsource hx hy hsound hapart => binCombine_one hok htarget hsource hx hy hsound hapart,
    fun s h target sources hbad => ?refused, fun s h b x hbin hwait hkind hsealed => ?ends⟩
  case refused => exact ⟨_, exec_binCombine_refused hbad, complete_bays _ _ _ _, completes_begun rfl h _ _⟩
  case ends =>
    have hmine := mem_heldBy hbin hwait
    have hgatherer : isGatherer x = true := by rw [isGatherer, hkind, beq_self_eq_true]
    refine ⟨_, exec_binCombineComplete (List.ne_nil_of_mem hmine), ?_, ?_⟩
    · have hdone := completes_complete ((heldBy s h).foldl combineRelease s) h 0 []
      rwa [completes, releases_qm] at hdone
    · rw [findBin_complete]
      exact findBin_releases hgatherer hsealed _ (.inl ⟨hbin, hmine⟩)

/-- Settles O39: the commands on one bin by their equations (`binCommands`), a combination by the bytes it writes (`combineOne_writes`) and by the
bins it holds until it ends (`combineHeld_pair`, `findBin_releases`). -/
theorem binCommandsChangeBinState : Obligations.BinCommandsChangeBinState := ⟨binCommands, binCombining⟩

end Sys2Proof.Machine

/-! PROOFS. The commands of a gleaning round (R158, R159, R162 to R167, R169): what freezing the presence bits leaves, GLEAN_OPEN by what it finds,
one sealed batch by how it opens, and the commands on an open round; then O41 from them. -/

namespace Sys2Proof.Machine

open Sys2Proof.Said

/-! ## What an update of a bay leaves of it -/

theorem modBay_keeps {α : Type} (g : Bay → α) {f : Bay → Bay} (hf : ∀ y, g (f y) = g y) (s : State) (b c : BayId) :
    g (modBay s b f).bays[c] = g s.bays[c] := by
  by_cases h : c = b
  · subst h
    rw [modBay_same, hf]
  · rw [modBay_other _ _ _ _ h]

theorem modRound_round {s : State} {b : BayId} {r : Round} (hround : s.bays[b].round = some r) (f : Round → Round) :
    (modRound s b f).bays[b].round = some (f r) := by
  rw [modRound, modBay_same]
  exact congrArg (Option.map f) hround

/-- Updates of the Mask stations in the bays of bins leave rounds, queues and the root of trust. -/
theorem foldl_modMask_keeps (f : BinRef → MaskSt → MaskSt) (l : List BinRef) (s : State) :
    let t := l.foldl (fun s x => modBay s x.bay (fun y => { y with mask := f x y.mask })) s
    (∀ b : BayId, t.bays[b].round = s.bays[b].round) ∧ t.qm = s.qm ∧ t.rot = s.rot := by
  induction l generalizing s with
  | nil => exact ⟨fun _ => rfl, rfl, rfl⟩
  | cons x l ih =>
    obtain ⟨hround, hqm, hrot⟩ := ih (modBay s x.bay (fun y => { y with mask := f x y.mask }))
    refine ⟨fun b => (hround b).trans ?_, hqm, hrot⟩
    exact modBay_keeps Bay.round (fun _ => by rfl) s x.bay b

theorem stopMasks_keeps (s : State) (r : Round) :
    (∀ b : BayId, (stopMasks s r).bays[b].round = s.bays[b].round) ∧ (stopMasks s r).qm = s.qm ∧ (stopMasks s r).rot = s.rot := by
  unfold stopMasks
  split
  · exact ⟨fun _ => rfl, rfl, rfl⟩
  · exact foldl_modMask_keeps (fun _ m => { batches := m.batches, stream := m.stream }) r.bins s

@[simp] theorem modRound_qm (s : State) (b : BayId) (f : Round → Round) : (modRound s b f).qm = s.qm := rfl
@[simp] theorem modRound_rot (s : State) (b : BayId) (f : Round → Round) : (modRound s b f).rot = s.rot := rfl

@[simp] theorem logG_bays (s : State) (b : BayId) (code : Nat) (job round : W32) (who off : Nat) :
    (logG s b code job round who off).bays = s.bays := rfl
@[simp] theorem logG_qm (s : State) (b : BayId) (code : Nat) (job round : W32) (who off : Nat) : (logG s b code job round who off).qm = s.qm := rfl
@[simp] theorem logG_rot (s : State) (b : BayId) (code : Nat) (job round : W32) (who off : Nat) : (logG s b code job round who off).rot = s.rot := rfl
theorem logG_entry (s : State) (b : BayId) (code : Nat) (job round : W32) (who off : Nat) : oneEntry s (logG s b code job round who off) code :=
  ⟨_, rfl, rfl⟩

/-! ## Presence is frozen (R165) -/

/-- Every bay is in `t` as in `s` but for the bins it lists, and so are the queues and the daybook unit's input. -/
structure SameButBins (s t : State) : Prop where
  bays : ∀ b : BayId, ∃ l, t.bays[b] = { s.bays[b] with mem := { s.bays[b].mem with bins := l } }
  qm : t.qm = s.qm
  dbkIn : t.dbkIn = s.dbkIn

theorem SameButBins.refl (s : State) : SameButBins s s := ⟨fun b => ⟨s.bays[b].mem.bins, rfl⟩, rfl, rfl⟩

theorem SameButBins.trans {s t u : State} (h : SameButBins s t) (h' : SameButBins t u) : SameButBins s u := by
  refine ⟨fun b => ?_, h'.qm.trans h.qm, h'.dbkIn.trans h.dbkIn⟩
  obtain ⟨l, hl⟩ := h.bays b
  obtain ⟨l', hl'⟩ := h'.bays b
  exact ⟨l', by rw [hl', hl]⟩

theorem sameButBins_modBin (s : State) (b : BayId) (i : Nat) (f : Bin → Bin) : SameButBins s (modBin s b i f) := by
  unfold modBin
  split
  · refine ⟨fun c => ?_, rfl, rfl⟩
    by_cases h : c = b
    · subst h
      exact ⟨_, modMem_same _ _ _⟩
    · exact ⟨s.bays[c].mem.bins, modMem_other _ _ _ _ h⟩
  · exact .refl s

theorem sramRead_bins (fuel : Nat) (y : Bay) (l : List (Nat × Bin)) (a n : Nat) :
    sramRead { y with mem := { y.mem with bins := l } } fuel a n = sramRead y fuel a n := by
  induction fuel generalizing a n with
  | zero => rfl
  | succ fuel ih => simp only [sramRead, ih]

section SameButBins
variable {s t : State} (h : SameButBins s t)
include h

theorem SameButBins.round (b : BayId) : t.bays[b].round = s.bays[b].round := by
  obtain ⟨l, hl⟩ := h.bays b
  rw [hl]

theorem SameButBins.dramRead (b : BayId) (a n : Nat) : dramRead t.bays[b].mem a n = dramRead s.bays[b].mem a n := by
  obtain ⟨l, hl⟩ := h.bays b
  rw [hl]
  rfl

theorem SameButBins.presentIn (b : BayId) (x : Bin) : presentIn t b x = presentIn s b x := by
  have hread : ∀ c off n, locRead t c off n = locRead s c off n := fun c off n => by
    obtain ⟨l, hl⟩ := h.bays c.bay
    unfold locRead
    rw [hl, sramRead_bins]
    rfl
  simp only [Machine.presentIn, hread]

end SameButBins

/-- The bins of a round take no more presence bits. -/
def frozen (s : State) (l : List (BayId × Bin)) : State := l.foldl (fun s q => modBin s q.1 q.2.index (fun x => { x with frozen := true })) s

theorem sameButBins_frozen (s : State) (l : List (BayId × Bin)) : SameButBins s (frozen s l) :=
  foldl_keeps _ (SameButBins s) (fun t q ht => ht.trans (sameButBins_modBin t q.1 q.2.index _)) l s (.refl s)

theorem readFaults_clean_eq (s : State) (b : BayId) (spans : List (Nat × Nat)) : readFaults s b spans clean = s := by
  rw [readFaults_clean]
  exact modMem_eq_self s b _ (by rw [word32_zero_right])

theorem presenceFaults_clean (s : State) (l : List (BayId × Bin)) : presenceFaults s l clean = s :=
  foldl_keeps _ (fun t => t = s) (fun t q ht => ht ▸ binFaults_clean_eq t q.1 q.2 _) l s rfl

/-! ## GLEAN_OPEN (R164 to R167) -/

theorem addReveal_rest (s : State) (p : TenantId) (job round : W32) :
    (addReveal s p job round).bays = s.bays ∧ (addReveal s p job round).qm = s.qm := by
  unfold addReveal
  split <;> exact ⟨rfl, rfl⟩

theorem partTenant_tenantPart (p : TenantId) : partTenant (tenantPart p) = some p := by simp [partTenant, tenantPart, finOpt]

theorem jobOfPart_tenant (s : State) (p : TenantId) : jobOfPart s (tenantPart p) = (getPart s p).job := by
  simp only [jobOfPart, partTenant_tenantPart, Option.bind_some, getPart]

/-- The command passes the checks made before presence is frozen, for the bins `l` of the job `j` of tenant `p`. -/
structure Opens (s : State) (h : CmdHdr) (job round : W32) (b : BayId) (hs : List W32) (p : TenantId) (j : Job) (l : List (BayId × Bin)) : Prop where
  ok : gleanOpenStatus s h job round b.1 hs = 0
  tenant : h.part = tenantPart p
  job : (getPart s p).job = some j
  named : namedBins s h.part hs = some l

/-- A bay that leads no round may open one. -/
theorem Opens.idle {s : State} {h : CmdHdr} {job round : W32} {b : BayId} {hs : List W32} {p : TenantId} {j : Job} {l : List (BayId × Bin)}
    (hopens : Opens s h job round b hs p j l) : s.bays[b].round = none := by
  have hjob : jobOfPart s h.part = some j := by rw [hopens.tenant, jobOfPart_tenant, hopens.job]
  have hok := hopens.ok
  unfold gleanOpenStatus at hok
  simp only [issuer_tenant hopens.tenant, finOpt_val, hjob] at hok
  split at hok
  · simp at hok
  · split at hok
    · simp at hok
    · next hchecks =>
      simp only [not_or] at hchecks
      obtain ⟨-, -, -, -, hidle⟩ := hchecks
      simpa using hidle

theorem exec_gleanOpen {s : State} {h : CmdHdr} {job round : W32} {b : BayId} {hs : List W32} {p : TenantId} {j : Job} {l : List (BayId × Bin)}
    (hopens : Opens s h job round b hs p j l) (gr gl wr wl : Nat) (digest : List Byte) :
    exec (.gleanOpen h job round b.1 ⟨gr, clean⟩ gl wr wl digest hs) s = .next
      (gleanOpenRun (begun s (.gleanOpen h job round b.1 ⟨gr, noFaults⟩ gl wr wl digest hs)) h job round b j p l gr gl wr wl digest clean) := by
  obtain ⟨hok, htenant, hjob, hnamed⟩ := hopens
  have hjob' : jobOfPart s h.part = some j := by rw [htenant, jobOfPart_tenant, hjob]
  show execGleanOpen h job round b.1 ⟨gr, clean⟩ gl wr wl digest hs s = _
  unfold execGleanOpen
  generalize hs0 : begun s (.gleanOpen h job round b.1 ⟨gr, noFaults⟩ gl wr wl digest hs) = s0
  have hok' : gleanOpenStatus s0 h job round b.1 hs = 0 := hs0 ▸ hok
  have hjob'' : jobOfPart s0 h.part = some j := hs0 ▸ hjob'
  have hnamed' : namedBins s0 h.part hs = some l := hs0 ▸ hnamed
  simp only [presenceFaults_clean, hok', hjob'', hnamed', issuer_tenant htenant, finOpt_val, Option.getD_some, ne_eq, not_true_eq_false, if_false]

/-- The round that GLEAN_OPEN opens. -/
def openedRound (s : State) (part : PartId) (job round : W32) (j : Job) (l : List (BayId × Bin)) (q : BayId × Bin) (digest : List Byte)
    (g : List GraphRec) : Round where
  part := part
  job := job
  round := round
  state := .collecting
  bins := l.map (fun q => { bay := q.1, index := q.2.index, gen := binGenOf s q.1 q.2.index })
  clo := q.2.clo
  chi := q.2.chi
  presence := presentIn s q.1 q.2
  floor := j.mask.f
  graph := g
  graphDigest := digest

/-- The round is entered in its bay, its region and digest in the job's record, and its reveal bitmap begins. -/
def roundEntered (s : State) (b : BayId) (p : TenantId) (wr wl : Nat) (r : Round) : State :=
  addReveal (modPart (modBay s b (fun y => { y with round := some r })) p (fun x => { x with job := x.job.map (fun k => { k with
    working := some (b, wr, wl)
    graphDigest := (r.round, r.graphDigest) :: k.graphDigest.filter (fun e => e.1 != r.round) }) })) p r.job r.round

theorem roundEntered_keeps (s : State) (b : BayId) (p : TenantId) (wr wl : Nat) (r : Round) :
    (roundEntered s b p wr wl r).bays[b].round = some r ∧ (roundEntered s b p wr wl r).qm = s.qm := by
  refine ⟨?_, (addReveal_rest _ p r.job r.round).2⟩
  rw [roundEntered, (addReveal_rest _ p r.job r.round).1, modPart_bays, modBay_same]

section GleanOpen
variable {s : State} {h : CmdHdr} {job round : W32} {b : BayId} {p : TenantId} {j : Job} {q : BayId × Bin} {l : List (BayId × Bin)}
  {gr gl wr wl : Nat} {digest : List Byte} (hgraph : gleanRegionOk s b gr gl = true) (hwork : workOk s j b wr wl = true)
include hgraph hwork

theorem gleanOpenRun_belowFloor (hfew : (presentIn s q.1 q.2).length < j.mask.f) :
    gleanOpenRun s h job round b j p (q :: l) gr gl wr wl digest clean =
      complete (logG (frozen s (q :: l)) b codeBelowFloor job round 0 0) h codeBelowFloor (leBytes 4 (presentIn s q.1 q.2).length) := by
  have hpres := (sameButBins_frozen s (q :: l)).presentIn q.1 q.2
  rw [frozen] at hpres
  simp only [gleanOpenRun, hgraph, hwork, List.head?_cons, hpres, Bool.not_true, Bool.or_self, Bool.false_eq_true, if_false, if_pos hfew, frozen]

variable (henough : j.mask.f ≤ (presentIn s q.1 q.2).length)
include henough

theorem gleanOpenRun_malformed (hparse : parseGraph j.mask q.2.clo q.2.chi (binContribs q.2) q.2.clo (dramRead s.bays[b].mem gr gl) = none) :
    gleanOpenRun s h job round b j p (q :: l) gr gl wr wl digest clean = complete (frozen s (q :: l)) h codeGraphMalformed [] := by
  have hsame := sameButBins_frozen s (q :: l)
  have hpres := hsame.presentIn q.1 q.2
  have hbytes := hsame.dramRead b gr gl
  rw [frozen] at hpres hbytes
  simp only [gleanOpenRun, hgraph, hwork, List.head?_cons, hpres, hbytes, Bool.not_true, Bool.or_self, Bool.false_eq_true, if_false,
    if_neg (not_lt.2 henough), readFaults_clean_eq, hparse, frozen]

theorem gleanOpenRun_parsed {g : List GraphRec}
    (hparse : parseGraph j.mask q.2.clo q.2.chi (binContribs q.2) q.2.clo (dramRead s.bays[b].mem gr gl) = some g) :
    gleanOpenRun s h job round b j p (q :: l) gr gl wr wl digest clean =
      if shake256 (dramRead s.bays[b].mem gr gl) 64 = digest then
        complete (roundEntered (frozen s (q :: l)) b p wr wl (openedRound s h.part job round j (q :: l) q digest g)) h 0
          (leBytes 4 (presentIn s q.1 q.2).length)
      else complete (frozen s (q :: l)) h codeGraphDigest [] := by
  have hsame := sameButBins_frozen s (q :: l)
  have hpres := hsame.presentIn q.1 q.2
  have hbytes := hsame.dramRead b gr gl
  rw [frozen] at hpres hbytes
  simp only [gleanOpenRun, hgraph, hwork, List.head?_cons, hpres, hbytes, Bool.not_true, Bool.or_self, Bool.false_eq_true, if_false,
    if_neg (not_lt.2 henough), readFaults_clean_eq, hparse, ne_eq, ite_not]
  rfl

end GleanOpen

/-- GLEAN_OPEN of bins in which fewer contributors are present than the floor. -/
theorem gleanOpen_belowFloor {s : State} {h : CmdHdr} {job round : W32} {b : BayId} {hs : List W32} {p : TenantId} {j : Job} {q : BayId × Bin}
    {l : List (BayId × Bin)} (hopens : Opens s h job round b hs p j (q :: l)) {gr gl wr wl : Nat} (digest : List Byte)
    (hgraph : gleanRegionOk s b gr gl = true) (hwork : workOk s j b wr wl = true) (hfew : (presentIn s q.1 q.2).length < j.mask.f) :
    Runs (.gleanOpen h job round b.1 ⟨gr, clean⟩ gl wr wl digest hs) s (fun t => (t.bays[b]).round = none ∧ oneEntry s t 0x6003 ∧
      completes s t h 0x6003 (leBytes 4 (presentIn s q.1 q.2).length)) := by
  have hrun := exec_gleanOpen hopens gr gl wr wl digest
  have hsame := sameButBins_frozen (begun s (.gleanOpen h job round b.1 ⟨gr, noFaults⟩ gl wr wl digest hs)) (q :: l)
  rw [gleanOpenRun_belowFloor (s := begun s _) hgraph hwork hfew] at hrun
  refine ⟨_, hrun, ?_, ?_, completes_begun ((logG_qm _ _ _ _ _ _ _).trans hsame.qm) h _ _⟩
  · rw [complete_bays]
    exact (hsame.round b).trans hopens.idle
  · rw [oneEntry_complete]
    exact ⟨_, congrArg (· ++ [_]) hsame.dbkIn, rfl⟩

/-- GLEAN_OPEN of bins in which enough are present: the graph's records and its digest decide. -/
theorem gleanOpen_atFloor {s : State} {h : CmdHdr} {job round : W32} {b : BayId} {hs : List W32} {p : TenantId} {j : Job} {q : BayId × Bin}
    {l : List (BayId × Bin)} (hopens : Opens s h job round b hs p j (q :: l)) {gr gl wr wl : Nat} (digest : List Byte)
    (hgraph : gleanRegionOk s b gr gl = true) (hwork : workOk s j b wr wl = true) (henough : j.mask.f ≤ (presentIn s q.1 q.2).length) :
    Runs (.gleanOpen h job round b.1 ⟨gr, clean⟩ gl wr wl digest hs) s (fun t =>
      match parseGraph j.mask q.2.clo q.2.chi (binContribs q.2) q.2.clo (dramRead s.bays[b].mem gr gl) with
      | none => (t.bays[b]).round = none ∧ completes s t h 0x6005 []
      | some g => if shake256 (dramRead s.bays[b].mem gr gl) 64 = digest then
          (∃ r, (t.bays[b]).round = some r ∧ r.state = .collecting ∧ r.job = job ∧ r.round = round ∧ r.presence = presentIn s q.1 q.2 ∧
            r.graph = g ∧ r.floor = j.mask.f) ∧ completes s t h 0 (leBytes 4 (presentIn s q.1 q.2).length)
        else (t.bays[b]).round = none ∧ completes s t h 0x6004 []) := by
  have hrun := exec_gleanOpen hopens gr gl wr wl digest
  have hsame := sameButBins_frozen (begun s (.gleanOpen h job round b.1 ⟨gr, noFaults⟩ gl wr wl digest hs)) (q :: l)
  have hidle : (frozen (begun s (.gleanOpen h job round b.1 ⟨gr, noFaults⟩ gl wr wl digest hs)) (q :: l)).bays[b].round = none :=
    (hsame.round b).trans hopens.idle
  cases hparse : parseGraph j.mask q.2.clo q.2.chi (binContribs q.2) q.2.clo (dramRead s.bays[b].mem gr gl) with
  | none =>
    rw [gleanOpenRun_malformed (s := begun s _) hgraph hwork henough hparse] at hrun
    exact ⟨_, hrun, by rw [complete_bays, hidle], completes_begun hsame.qm h _ _⟩
  | some g =>
    rw [gleanOpenRun_parsed (s := begun s _) hgraph hwork henough hparse] at hrun
    by_cases hdigest : shake256 (dramRead s.bays[b].mem gr gl) 64 = digest
    · have hentered := roundEntered_keeps (frozen (begun s (.gleanOpen h job round b.1 ⟨gr, noFaults⟩ gl wr wl digest hs)) (q :: l)) b p wr wl
        (openedRound s h.part job round j (q :: l) q digest g)
      obtain ⟨hround, hkept⟩ := hentered
      rw [begun_bays, if_pos hdigest] at hrun
      refine ⟨_, hrun, ?_⟩
      simp only [if_pos hdigest, complete_bays]
      exact ⟨⟨_, hround, rfl, rfl, rfl, rfl, rfl, rfl⟩, completes_begun (hkept.trans hsame.qm) h _ _⟩
    · rw [begun_bays, if_neg hdigest] at hrun
      refine ⟨_, hrun, ?_⟩
      simp only [if_neg hdigest, complete_bays]
      exact ⟨hidle, completes_begun hsame.qm h _ _⟩

/-! ## The commands on an open round (R158, R159, R162, R169) -/

theorem myRound_round {s : State} {h : CmdHdr} {job round : W32} {b : BayId} {r : Round} (hmine : myRound s h job round b.1 = some (b, r)) :
    s.bays[b].round = some r := by
  unfold myRound at hmine
  simp only [finOpt_val] at hmine
  split at hmine
  · next hround =>
    split at hmine
    · obtain ⟨-, rfl⟩ := Prod.mk.inj (Option.some.inj hmine)
      exact hround
    · cases hmine
  · cases hmine

theorem dramRead_length (m : BayMem) (a n : Nat) : (dramRead m a n).length = n := by
  have hraw := memRead_length m.dram a n
  unfold dramRead
  dsimp only
  split
  · exact hraw
  · rw [List.length_mapIdx, hraw]

/-- The first batch of a region: filed, or named in an event (R158, R159). -/
def oneBatch (s : State) (b : BayId) (r : Round) (bytes : List Byte) (n : Nat) : State :=
  match openBatch s r bytes n with
  | none => logG s b codeBatchAuth r.job r.round (u32 bytes 4) 0
  | some recs =>
    if !batchHdrOk r bytes n then logG s b codeBatchMalformed r.job r.round (u32 bytes 4) 0
    else if r.accepted.contains (u32 bytes 4) then logG s b codeBatchDup r.job r.round (u32 bytes 4) 0
    else fileBatch s b r (u32 bytes 4) 0 recs

theorem fileAll_nil (s : State) (b : BayId) (fuel off : Nat) : fileAll s b fuel off [] = s := by
  cases fuel <;> rfl

/-- A region that holds one batch. -/
theorem fileAll_oneBatch {s : State} {b : BayId} {r : Round} (hround : s.bays[b].round = some r) {bytes : List Byte} (hlo : 1 ≤ u16 bytes 2)
    (hhi : u16 bytes 2 ≤ 2048) (hlen : bytes.length = 1664 + 64 * u16 bytes 2) :
    fileAll s b bytes.length 0 bytes = oneBatch s b r bytes (u16 bytes 2) := by
  have hwhole : ¬ (u16 bytes 2 < 1 ∨ 2048 < u16 bytes 2 ∨ bytes.length < 1664 + 64 * u16 bytes 2) := by omega
  have hdrop : bytes.drop (1664 + 64 * u16 bytes 2) = [] := List.drop_of_length_le hlen.le
  obtain ⟨c, cs, rfl⟩ := List.exists_cons_of_length_pos (l := bytes) (by omega)
  rw [List.length_cons]
  simp only [fileAll, hround, if_neg hwhole, hdrop, fileAll_nil]
  rfl

theorem fileBatch_qm (s : State) (b : BayId) (r : Round) (holder off : Nat) (recs : List (List Byte)) :
    (fileBatch s b r holder off recs).qm = s.qm := by
  unfold fileBatch
  dsimp only
  split <;> rfl

theorem oneBatch_qm (s : State) (b : BayId) (r : Round) (bytes : List Byte) (n : Nat) : (oneBatch s b r bytes n).qm = s.qm := by
  unfold oneBatch
  split
  · rfl
  · split
    · rfl
    · split
      · rfl
      · exact fileBatch_qm _ _ _ _ _ _

/-- The round after an accepted batch: its holder is noted, and the records that are kept are filed. -/
def batchFiled (r : Round) (holder : Nat) (recs : List (List Byte)) : Round :=
  let good := (recs.filterMap (parseShare holder)).filter (keepShare r)
  { r with
    accepted := holder :: r.accepted
    rejected := r.rejected + word32 (recs.length - good.length)
    shares := good.reverse ++ r.shares.filter (fun x => !good.any (fun y => y.owner == x.owner && y.holder == x.holder)) }

theorem fileBatch_round {s : State} {b : BayId} {r : Round} (hround : s.bays[b].round = some r) (holder off : Nat) (recs : List (List Byte)) :
    (fileBatch s b r holder off recs).bays[b].round = some (batchFiled r holder recs) := by
  unfold fileBatch
  dsimp only
  split <;> exact modRound_round hround _

/-- What becomes of a batch: one that does not open, is not of the round or is its holder's second is named in an event; another is filed. -/
theorem oneBatch_filed {s : State} {b : BayId} {r : Round} (hround : s.bays[b].round = some r) (bytes : List Byte) (n : Nat) :
    let t := oneBatch s b r bytes n
    match openBatch s r bytes n with
    | none => t.bays[b].round = some r ∧ oneEntry s t 0x6010
    | some recs =>
      if batchHdrOk r bytes n = false then t.bays[b].round = some r ∧ oneEntry s t 0x6011
      else if r.accepted.contains (u32 bytes 4) then t.bays[b].round = some r ∧ oneEntry s t 0x6012
      else ∃ r1, t.bays[b].round = some r1 ∧ r1.accepted = u32 bytes 4 :: r.accepted ∧
        ∀ x ∈ (recs.filterMap (parseShare (u32 bytes 4))).filter (keepShare r), x ∈ r1.shares := by
  intro t
  have hlogged : ∀ code, t = logG s b code r.job r.round (u32 bytes 4) 0 → t.bays[b].round = some r ∧ oneEntry s t code := by
    rintro code ht
    rw [ht]
    exact ⟨hround, logG_entry _ _ _ _ _ _ _⟩
  cases hopen : openBatch s r bytes n with
  | none => exact hlogged codeBatchAuth (by simp only [t, oneBatch, hopen])
  | some recs =>
    dsimp only
    split
    · next hhdr => exact hlogged codeBatchMalformed (by simp [t, oneBatch, hopen, hhdr])
    · next hhdr =>
      rw [Bool.not_eq_false] at hhdr
      split
      · next hdup => exact hlogged codeBatchDup (by simp only [t, oneBatch, hopen, hhdr, hdup, Bool.not_true, Bool.false_eq_true, if_false, if_true])
      · next hnew =>
        have ht : t = fileBatch s b r (u32 bytes 4) 0 recs := by
          simp only [t, oneBatch, hopen, hhdr, hnew, Bool.not_true, Bool.false_eq_true, if_false]
        rw [ht]
        exact ⟨_, fileBatch_round hround _ _ _, rfl, fun x hx => List.mem_append_left _ (List.mem_reverse.2 hx)⟩

section Mine
variable {s : State} {h : CmdHdr} {job round : W32} {b : BayId} {r : Round} (hmine : myRound s h job round b.1 = some (b, r))
include hmine

theorem exec_gleanShares_noKey (region len : Nat) (hstate : r.state = .collecting) (hkey : jobSecret s r.part 3 r.job = none) :
    exec (.gleanShares h job round b.1 ⟨region, clean⟩ len) s =
      .next (complete (begun s (.gleanShares h job round b.1 ⟨region, noFaults⟩ len)) h codeSlotAbsent []) := by
  have hmine' : myRound (begun s (.gleanShares h job round b.1 ⟨region, noFaults⟩ len)) h job round b.1 = some (b, r) := hmine
  have hkey' : jobSecret (begun s (.gleanShares h job round b.1 ⟨region, noFaults⟩ len)) r.part 3 r.job = none := hkey
  show execGleanShares h job round b.1 ⟨region, clean⟩ len s = _
  simp [execGleanShares, hmine', hstate, hkey']

theorem exec_gleanShares_oneBatch {region len : Nat} {sec : List Byte} (hstate : r.state = .collecting)
    (hkey : jobSecret s r.part 3 r.job = some sec) (hregion : gleanRegionOk s b region len = true)
    (hlo : 1 ≤ u16 (dramRead s.bays[b].mem region len) 2) (hhi : u16 (dramRead s.bays[b].mem region len) 2 ≤ 2048)
    (hlen : len = 1664 + 64 * u16 (dramRead s.bays[b].mem region len) 2) :
    exec (.gleanShares h job round b.1 ⟨region, clean⟩ len) s =
      .next (complete (oneBatch (begun s (.gleanShares h job round b.1 ⟨region, noFaults⟩ len)) b r (dramRead s.bays[b].mem region len)
        (u16 (dramRead s.bays[b].mem region len) 2)) h 0 []) := by
  have hmine' : myRound (begun s (.gleanShares h job round b.1 ⟨region, noFaults⟩ len)) h job round b.1 = some (b, r) := hmine
  have hkey' : jobSecret (begun s (.gleanShares h job round b.1 ⟨region, noFaults⟩ len)) r.part 3 r.job = some sec := hkey
  have hregion' : gleanRegionOk (begun s (.gleanShares h job round b.1 ⟨region, noFaults⟩ len)) b region len = true := hregion
  have hsize := dramRead_length s.bays[b].mem region len
  have hfile := fileAll_oneBatch (myRound_round hmine') hlo hhi (hsize.trans hlen)
  rw [hsize] at hfile
  show execGleanShares h job round b.1 ⟨region, clean⟩ len s = _
  simp only [execGleanShares, hmine', hstate, hkey', hregion', readFaults_clean_eq, ne_eq, not_true_eq_false, if_false, Option.isNone_some,
    Bool.not_true, Bool.false_eq_true]
  exact congrArg (fun u => Host.Outcome.next (complete u h 0 [])) hfile

theorem exec_gleanExclude_collecting {count : Nat} (bytes : List Byte) (hstate : r.state = .collecting) (hlo : 1 ≤ count) (hhi : count ≤ 4096) :
    exec (.gleanExclude h job round b.1 count (.ok bytes)) s =
      .next (complete (modRound (begun s (.gleanExclude h job round b.1 count (.ok bytes))) b
        (fun q => { q with excluded := q.excluded ++ indices bytes 0 count })) h 0 []) := by
  have hmine' : myRound (begun s (.gleanExclude h job round b.1 count (.ok bytes))) h job round b.1 = some (b, r) := hmine
  have hcount : ¬ (count < 1 ∨ 4096 < count) := by omega
  show execGleanExclude h job round b.1 count (.ok bytes) s = _
  simp only [execGleanExclude, if_neg hcount, hmine', hstate, ne_eq, not_true_eq_false, if_false]

theorem exec_gleanFinish_collecting (buf : W64) (hstate : r.state = .collecting) : exec (.gleanFinish h job round b.1 buf) s =
    .next (modRound (begun s (.gleanFinish h job round b.1 buf)) b (fun q => { q with state := .reconstructing, finish := some (h, buf) })) := by
  have hmine' : myRound (begun s (.gleanFinish h job round b.1 buf)) h job round b.1 = some (b, r) := hmine
  show execGleanFinish h job round b.1 buf s = _
  simp [execGleanFinish, hmine', hstate]

theorem exec_gleanFinish_refused (buf : W64) (hstate : r.state ≠ .collecting) : exec (.gleanFinish h job round b.1 buf) s =
    .next (complete (begun s (.gleanFinish h job round b.1 buf)) h codeGleanState []) := by
  have hmine' : myRound (begun s (.gleanFinish h job round b.1 buf)) h job round b.1 = some (b, r) := hmine
  show execGleanFinish h job round b.1 buf s = _
  simp [execGleanFinish, hmine', hstate]

theorem exec_gleanAbort_refused (hstate : r.state = .gleaned) : exec (.gleanAbort h job round b.1) s =
    .next (complete (begun s (.gleanAbort h job round b.1)) h codeGleanState []) := by
  have hmine' : myRound (begun s (.gleanAbort h job round b.1)) h job round b.1 = some (b, r) := hmine
  show execGleanAbort h job round b.1 s = _
  simp [execGleanAbort, hmine', hstate]

theorem exec_gleanAbort_ends (hstate : r.state ≠ .gleaned) (hfinish : r.finish = none) : exec (.gleanAbort h job round b.1) s =
    .next (complete (stopMasks (modBay (begun s (.gleanAbort h job round b.1)) b (fun y => { y with round := none })) r) h 0 []) := by
  have hmine' : myRound (begun s (.gleanAbort h job round b.1)) h job round b.1 = some (b, r) := hmine
  have hidle : idleRound (begun s (.gleanAbort h job round b.1)) b =
      stopMasks (modBay (begun s (.gleanAbort h job round b.1)) b (fun y => { y with round := none })) r := by
    simp only [idleRound, myRound_round hmine', hfinish]
  show execGleanAbort h job round b.1 s = _
  simp [execGleanAbort, hmine', hstate, hidle]


/-- GLEAN_SHARES of one batch that is whole. -/
theorem gleanShares_oneBatch {region len : Nat} {sec : List Byte} (hstate : r.state = .collecting)
    (hkey : jobSecret s r.part 3 r.job = some sec) (hregion : gleanRegionOk s b region len = true)
    (hlo : 1 ≤ u16 (dramRead s.bays[b].mem region len) 2) (hhi : u16 (dramRead s.bays[b].mem region len) 2 ≤ 2048)
    (hlen : len = 1664 + 64 * u16 (dramRead s.bays[b].mem region len) 2) :
    let bytes := dramRead s.bays[b].mem region len
    Runs (.gleanShares h job round b.1 ⟨region, clean⟩ len) s (fun t => completes s t h 0 [] ∧
      match openBatch s r bytes (u16 bytes 2) with
      | none => (t.bays[b]).round = some r ∧ oneEntry s t 0x6010
      | some recs =>
        if batchHdrOk r bytes (u16 bytes 2) = false then (t.bays[b]).round = some r ∧ oneEntry s t 0x6011
        else if r.accepted.contains (u32 bytes 4) then (t.bays[b]).round = some r ∧ oneEntry s t 0x6012
        else ∃ r1, (t.bays[b]).round = some r1 ∧ r1.accepted = u32 bytes 4 :: r.accepted ∧
          ∀ x ∈ (recs.filterMap (parseShare (u32 bytes 4))).filter (keepShare r), x ∈ r1.shares) := by
  intro bytes
  refine ⟨_, exec_gleanShares_oneBatch hmine hstate hkey hregion hlo hhi hlen, completes_begun (oneBatch_qm _ _ _ _ _) h 0 [], ?_⟩
  simp only [complete_bays, oneEntry_complete]
  exact oneBatch_filed (s := begun s (.gleanShares h job round b.1 ⟨region, noFaults⟩ len)) (myRound_round hmine) bytes (u16 bytes 2)

end Mine

/-- Settles O41: `gleanOpen_belowFloor` and `gleanOpen_atFloor` for GLEAN_OPEN, `gleanShares_oneBatch` for a sealed batch, and the equations
`exec_glean…` for the rest. -/
theorem gleaningCommandsChangeTheRound : Obligations.GleaningCommandsChangeTheRound := by
  refine ⟨?opens, fun s h job round b r hmine => ⟨?noKey, ?batch, ?excludes, ?finishes, ?aborts, ?noAbort, ?noFinish⟩⟩
  case opens =>
    intro s h p j job round b gr gl wr wl digest hs q l hok htenant hjob hnamed
    have hopens : Opens s h job round b hs p j (q :: l) := ⟨hok, htenant, hjob, hnamed⟩
    exact ⟨fun hfew hgraph hwork => gleanOpen_belowFloor hopens digest hgraph hwork hfew,
      fun henough hgraph hwork => gleanOpen_atFloor hopens digest hgraph hwork henough⟩
  case noKey =>
    intro region len hstate hkey
    exact ⟨_, exec_gleanShares_noKey hmine region len hstate hkey, completes_begun rfl h _ _, complete_bays _ _ _ _⟩
  case batch =>
    intro region len sec hstate hkey hregion bytes n hlo hhi hlen
    exact gleanShares_oneBatch hmine hstate hkey hregion hlo hhi hlen
  case excludes =>
    intro count bytes hstate hlo hhi
    refine ⟨_, exec_gleanExclude_collecting hmine bytes hstate hlo hhi, completes_begun (modRound_qm _ _ _) h _ _, ?_⟩
    rw [complete_bays]
    exact modRound_round (myRound_round hmine) _
  case finishes =>
    intro buf hstate
    exact ⟨_, exec_gleanFinish_collecting hmine buf hstate, rfl, modRound_round (myRound_round hmine) _⟩
  case aborts =>
    intro hstate hfinish
    obtain ⟨hround, hqm, hrot⟩ := stopMasks_keeps (modBay (begun s (.gleanAbort h job round b.1)) b (fun y => { y with round := none })) r
    refine ⟨_, exec_gleanAbort_ends hmine hstate hfinish, completes_begun hqm h _ _, ?_, ?_⟩
    · rw [complete_bays, hround, modBay_same]
    · rw [complete_rot, hrot, modBay_rot, begun_rot]
  case noAbort =>
    intro hstate
    exact ⟨_, exec_gleanAbort_refused hmine hstate, completes_begun rfl h _ _, complete_bays _ _ _ _⟩
  case noFinish =>
    intro buf hstate
    exact ⟨_, exec_gleanFinish_refused hmine buf hstate, completes_begun rfl h _ _, complete_bays _ _ _ _⟩

end Sys2Proof.Machine

/-! PROOFS. Reconstruction, the mask streams and their end (R160 to R163, R169 to R171): the reveal bitmaps, one owner's reconstruction and that of a
whole graph, what passing seed tiles leaves, and the commands of O42 from them. -/

namespace Sys2Proof.Machine

open Sys2Proof.Said

/-! ## The reveal bitmaps (R163) -/

theorem revealOf_congr {s t : State} (h : t.rot = s.rot) (p : TenantId) (job round : W32) (u : Nat) : revealOf t p job round u = revealOf s p job round u := by
  simp only [revealOf, revealsOf, h]

/-- A bitmap after the secret of kind `k` of contributor `u` is revealed in it, if it is that round's. -/
def revealMarked (p : TenantId) (job round : W32) (u k : Nat) (r : Reveal) : Reveal :=
  if r.part = p ∧ r.job = job ∧ r.round = round then { r with bits := insertKey u k r.bits } else r

theorem revealMarked_key (p : TenantId) (job round : W32) (u k : Nat) (r : Reveal) : (revealMarked p job round u k r).part = r.part ∧
    (revealMarked p job round u k r).job = r.job ∧ (revealMarked p job round u k r).round = r.round := by
  unfold revealMarked
  split <;> exact ⟨rfl, rfl, rfl⟩

/-- The bitmap of a round is where it was. -/
theorem find_setReveal (s : State) (p q : TenantId) (job round job' round' : W32) (u k : Nat) :
    (revealsOf (setReveal s p job round u k) q job').find? (fun r => r.round == round') =
      ((revealsOf s q job').find? (fun r => r.round == round')).map (revealMarked p job round u k) := by
  have hall : (setReveal s p job round u k).rot.reveals = s.rot.reveals.map (revealMarked p job round u k) := rfl
  have hpart (r : Reveal) := (revealMarked_key p job round u k r).1
  have hjob (r : Reveal) := (revealMarked_key p job round u k r).2.1
  have hround (r : Reveal) := (revealMarked_key p job round u k r).2.2
  simp only [revealsOf, hall, List.filter_map, List.find?_map, Function.comp_def, hpart, hjob, hround]

/-- The bitmap that is found is the round's. -/
theorem found_reveal {s : State} {p : TenantId} {job round : W32} {r : Reveal} (h : (revealsOf s p job).find? (fun r => r.round == round) = some r) :
    r.part = p ∧ r.job = job ∧ r.round = round := by
  have hmem := List.mem_of_find?_eq_some h
  have hround := List.find?_some h
  simp only [revealsOf, List.mem_filter, Bool.and_eq_true, beq_iff_eq] at hmem hround
  exact ⟨hmem.2.1, hmem.2.2, hround⟩

theorem revealOf_setReveal_same {s : State} {p : TenantId} {job round : W32} (hkept : (revealsOf s p job).any (fun v => v.round == round) = true)
    (u k : Nat) : revealOf (setReveal s p job round u k) p job round u = k := by
  obtain ⟨r, hfound⟩ := Option.isSome_iff_exists.1 (List.find?_isSome.2 (List.any_eq_true.1 hkept))
  have hmarked : revealMarked p job round u k r = { r with bits := insertKey u k r.bits } := if_pos (found_reveal hfound)
  simp only [revealOf, find_setReveal, hfound, Option.map_some, hmarked, lookup_insertKey_same, Option.getD_some]

/-- Another entry is as it was. -/
theorem revealOf_setReveal_other (s : State) {p q : TenantId} {job round job' round' : W32} {u v : Nat} (k : Nat)
    (hne : ¬ (q = p ∧ job' = job ∧ round' = round ∧ v = u)) :
    revealOf (setReveal s p job round u k) q job' round' v = revealOf s q job' round' v := by
  simp only [revealOf, find_setReveal]
  cases hfound : (revealsOf s q job').find? (fun r => r.round == round') with
  | none => rfl
  | some r =>
    obtain ⟨rfl, rfl, rfl⟩ := found_reveal hfound
    show (lookup v (revealMarked p job round u k r).bits).getD 0 = (lookup v r.bits).getD 0
    unfold revealMarked
    split
    · next hkey =>
      obtain ⟨hp, hjob, hround⟩ := hkey
      rw [lookup_insertKey_other _ _ _ _ fun hv => hne ⟨hp, hjob, hround, hv⟩]
    · rfl

/-- An entry that is not 0b00 has its bitmap. -/
theorem revealed_kept {s : State} {p : TenantId} {job round : W32} {u : Nat} (h : revealOf s p job round u ≠ 0) :
    (revealsOf s p job).any (fun v => v.round == round) = true := by
  unfold revealOf at h
  split at h
  · next r hfound => exact List.any_eq_true.2 ⟨r, List.mem_of_find?_eq_some hfound, (List.find?_some hfound :)⟩
  · exact absurd rfl h

/-! ## What passing a token leaves of the rounds -/

/-- Every round, every Mask station's batch and the root of trust are in `t` as in `s`. -/
structure RoundsKept (s t : State) : Prop where
  round : ∀ b : BayId, t.bays[b].round = s.bays[b].round
  mask : ∀ b : BayId, t.bays[b].mask = s.bays[b].mask
  rot : t.rot = s.rot

theorem RoundsKept.refl (s : State) : RoundsKept s s := ⟨fun _ => rfl, fun _ => rfl, rfl⟩

theorem RoundsKept.trans {s t u : State} (h : RoundsKept s t) (h' : RoundsKept t u) : RoundsKept s u :=
  ⟨fun b => (h'.round b).trans (h.round b), fun b => (h'.mask b).trans (h.mask b), h'.rot.trans h.rot⟩

/-- What a bay has beside its stations and cores, an update of a station leaves. -/
theorem modSt_keeps {α : Type} (g : Bay → α)
    (hg : ∀ y bin msk shr lat nse rls cores,
      g { y with bin := bin, msk := msk, shr := shr, lat := lat, nse := nse, rls := rls, cores := cores } = g y)
    (s : State) (r : StationRef) (f : Station → Station) (b : BayId) : g (modSt s r f).bays[b] = g s.bays[b] := by
  obtain ⟨c, k⟩ | c | _ | _ := r
  case bay => cases k <;> exact modBay_keeps g (fun y => by exact hg y _ _ _ _ _ _ _) s c b
  case core => exact modBay_keeps g (fun y => by exact hg y _ _ _ _ _ _ _) s c.bay b
  case trn | red => rfl

theorem roundsKept_modSt (s : State) (r : StationRef) (f : Station → Station) : RoundsKept s (modSt s r f) :=
  ⟨modSt_round s r f, modSt_keeps Bay.mask (fun _ _ _ _ _ _ _ _ => rfl) s r f, modSt_rot s r f⟩

theorem roundsKept_modIn (s : State) (r : StationRef) (p : PortId) (f : InPort → InPort) : RoundsKept s (modIn s r p f) :=
  roundsKept_modSt s r _

theorem roundsKept_modOut (s : State) (r : StationRef) (n : PortId) (f : OutPort → OutPort) : RoundsKept s (modOut s r n f) :=
  roundsKept_modSt s r _

theorem roundsKept_modMem (s : State) (b : BayId) (f : BayMem → BayMem) : RoundsKept s (modMem s b f) :=
  ⟨modBay_keeps Bay.round (fun _ => by rfl) s b, modBay_keeps Bay.mask (fun _ => by rfl) s b, rfl⟩

theorem roundsKept_logOutCause (s : State) (r : StationRef) (n : PortId) (t : Tile) (cause d3 : Nat) :
    RoundsKept s (logOutCause s r n t cause d3) := by
  unfold logOutCause
  dsimp only
  split
  · exact .refl s
  · have hlogged : RoundsKept s (logStream s r cause (8 + n.1) (getOut s r n).stream (getOut s r n).nextOrd t.hdr.job.toNat d3) :=
      ⟨fun _ => rfl, fun _ => rfl, rfl⟩
    exact hlogged.trans (roundsKept_modOut _ r n _)

theorem roundsKept_reserveOut {s u : State} {r : StationRef} {n k : PortId} {t : Tile} {o : Option MsgRef} {tok : Token}
    (h : reserveOut s r n t o = some (k, tok, u)) : RoundsKept s u := by
  have hspend : ∀ c p, RoundsKept s (spendSlot s c p).2 := fun c p => by
    have hdrawn : RoundsKept s { s with free := s.free + 1 } := ⟨fun _ => rfl, fun _ => rfl, rfl⟩
    exact hdrawn.trans (roundsKept_modIn _ c p _)
  unfold reserveOut spendCredit at h
  split at h
  · cases h
  · next slot s1 hslot =>
    obtain ⟨-, -, rfl⟩ := Option.some.inj h
    split at hslot
    · split at hslot
      · cases hslot
      · next c p _ _ =>
        have hs1 : (spendSlot s c p).2 = s1 := congrArg Prod.snd (Option.some.inj hslot)
        exact RoundsKept.trans (hs1 ▸ hspend c p) (roundsKept_modOut s1 r n _)
    · cases hslot

theorem roundsKept_passTok (s : State) (r : StationRef) (n : PortId) (k : Token) : RoundsKept s (passTok s r n k) := by
  have hcount := roundsKept_modOut s r n (countPassed k)
  unfold passTok
  dsimp only
  split
  · next c p _ =>
    have hfill : RoundsKept (modOut s r n (countPassed k)) (fillSlot (modOut s r n (countPassed k)) r c p k) := by
      obtain h | ⟨b, -, h⟩ := fillSlot_cases (modOut s r n (countPassed k)) r c p k <;> rw [h]
      · exact .refl _
      · exact roundsKept_modMem _ b _
    obtain ⟨hround, hmask, hrot⟩ := hcount.trans hfill
    exact ⟨hround, hmask, hrot⟩
  · exact hcount

/-! ## Seed tiles go out (R170) -/

/-- A Share station stops passing seed tiles, or one passes, which leaves the round's queue, and it goes on. -/
theorem sharePump_succ {b : BayId} {s : State} {r : Round} (hround : s.bays[b].round = some r) (fuel : Nat) :
    sharePump b (fuel + 1) s = s ∨ ∃ u sent, RoundsKept s u ∧
      sharePump b (fuel + 1) s = sharePump b fuel (modRound u b (fun q => { q with sendQ := q.sendQ.erase sent })) := by
  cases hsend : r.sendQ.find? (fun p => outCredits s (.bay b .shr) p.1 != 0) with
  | none => exact .inl (by simp only [sharePump, hround, hsend])
  | some sent =>
    obtain ⟨n, t⟩ := sent
    simp only [sharePump, hround, hsend]
    split
    · exact .inl rfl
    · split
      · exact .inl rfl
      · next k tok u hreserved =>
        have hlogged : RoundsKept s (if stopping (getSt s (.bay b .shr)) then
            logOutCause s (.bay b .shr) n t (stopCause (getSt s (.bay b .shr))) 0 else s) := by
          split
          · exact roundsKept_logOutCause _ _ _ _ _ _
          · exact .refl s
        exact .inr ⟨_, (n, t), (hlogged.trans (roundsKept_reserveOut hreserved)).trans (roundsKept_passTok u _ k tok), rfl⟩

/-- The seed tiles that go out leave the round's queue, and nothing else of it changes. -/
theorem sharePump_keeps (b : BayId) (fuel : Nat) {s : State} {r : Round} (hround : s.bays[b].round = some r) :
    (∃ l, (sharePump b fuel s).bays[b].round = some { r with sendQ := l }) ∧ (sharePump b fuel s).rot = s.rot := by
  induction fuel generalizing s r with
  | zero => exact ⟨⟨r.sendQ, hround⟩, rfl⟩
  | succ fuel ih =>
    obtain hstop | ⟨u, sent, hkept, hgoes⟩ := sharePump_succ hround fuel
    · rw [hstop]
      exact ⟨⟨r.sendQ, hround⟩, rfl⟩
    · obtain ⟨hqueue, hrot⟩ := ih (modRound_round ((hkept.round b).trans hround) (fun q => { q with sendQ := q.sendQ.erase sent }))
      rw [hgoes]
      exact ⟨hqueue, hrot.trans hkept.rot⟩

theorem shareSend_keeps {s : State} {b : BayId} {r : Round} (hround : s.bays[b].round = some r) :
    (∃ l, (shareSend s b).bays[b].round = some { r with sendQ := l }) ∧ (shareSend s b).rot = s.rot := by
  have hpump : shareSend s b = sharePump b r.sendQ.length s := by simp only [shareSend, hround]
  rw [hpump]
  exact sharePump_keeps b _ hround

/-- A round that starts masking has its seeds counted; which seed tiles are gone already is the queue's matter. -/
theorem startMasking_keeps {s : State} {b : BayId} {r : Round} (hround : s.bays[b].round = some r) :
    (∃ l, (startMasking s b r).bays[b].round =
      some { r with state := .masking, seeds := word32 (r.graph.flatMap (seedsOf r)).length, sendQ := l }) ∧ (startMasking s b r).rot = s.rot := by
  obtain ⟨hkept, -, hrot⟩ := foldl_modMask_keeps
    (fun x m => { bin := some x, job := r.job, round := r.round, batches := m.batches, stream := m.stream }) r.bins s
  have hstarted := modRound_round ((hkept b).trans hround) (fun q => { q with
    state := .masking
    seeds := word32 (r.graph.flatMap (seedsOf r)).length
    sendQ := (maskPorts s b r).flatMap (fun n => (seedTiles r (r.graph.flatMap (seedsOf r))).map (fun t => (n, t))) })
  obtain ⟨hsent, hrot'⟩ := shareSend_keeps hstarted
  exact ⟨hsent, hrot'.trans hrot⟩

/-! ## One owner (R161, R163) -/

/-- The secret that an owner's first `t` shares give, if its commitment is the graph's (R160, R161). -/
def recovered (r : Round) (t k : Nat) (g : GraphRec) : Option (List Byte) :=
  match joinChunks (recoverChunks ((ownerShares r g).take t)) with
  | none => none
  | some sec => if commitment k r.job r.round g.u sec = (if k = 2 then g.commitSelf else g.commitPair) then some sec else none

/-- The owner of record `g` needs its secret of kind `k`, which tenant `p` has not yet, and enough of its shares are kept. -/
structure Due (r : Round) (t : Nat) (g : GraphRec) (p : TenantId) (k : Nat) : Prop where
  part : r.part = tenantPart p
  needed : neededKind r g = some k
  unknown : lookup g.u r.secrets = none
  shares : t ≤ (ownerShares r g).length

/-- The secret of kind `k` is revealed, and found or not (R161). -/
def revealed (s : State) (b : BayId) (r : Round) (t : Nat) (g : GraphRec) (p : TenantId) (k : Nat) : State :=
  let s1 := setReveal s p r.job r.round g.u k
  match recovered r t k g with
  | none => logG s1 b codeCommitFail r.job r.round g.u 0
  | some sec => modRound s1 b (fun q => { q with secrets := insertKey g.u sec q.secrets })

theorem tenantPart_of_partTenant {q : PartId} {p : TenantId} (h : partTenant q = some p) : q = tenantPart p := by
  unfold partTenant finOpt at h
  split at h
  · exact Option.some.inj h ▸ rfl
  · cases h

section Owner
variable {s : State} {b : BayId} {r : Round} (hround : s.bays[b].round = some r) {t : Nat} {g : GraphRec}
include hround

/-- An owner that needs no secret, has it, or lacks shares is passed over. -/
theorem reconstructOne_passes (h : (neededKind r g).isSome → lookup g.u r.secrets = none → (ownerShares r g).length < t) :
    reconstructOne s b t g = s := by
  unfold reconstructOne
  simp only [hround]
  split
  · next k p hneeded _ =>
    refine if_pos ?_
    cases hsecret : lookup g.u r.secrets with
    | some sec => rfl
    | none =>
      have hfew := h (by rw [hneeded]; rfl) hsecret
      have htaken : ((ownerShares r g).take t).length < t := by rw [List.length_take]; omega
      simp only [htaken, decide_true, Bool.or_true]
  · rfl

section Due
variable {p : TenantId} {k : Nat} (hdue : Due r t g p k)
include hdue

/-- One whose other secret was revealed is refused (R163). -/
theorem reconstructOne_conflict (hother : revealOf s p r.job r.round g.u ≠ 0 ∧ revealOf s p r.job r.round g.u ≠ k) :
    reconstructOne s b t g = logG s b codeRevealConflict r.job r.round g.u 0 := by
  obtain ⟨hpart, hneeded, hunknown, hshares⟩ := hdue
  have henough : ¬ ((ownerShares r g).take t).length < t := by rw [List.length_take]; omega
  simp only [reconstructOne, hround, hneeded, hpart, partTenant_tenantPart, hunknown, henough, if_pos hother, Option.isSome_none, decide_false,
    Bool.or_self, Bool.false_eq_true, if_false]

theorem reconstructOne_reveals (hown : revealOf s p r.job r.round g.u = 0 ∨ revealOf s p r.job r.round g.u = k) :
    reconstructOne s b t g = revealed s b r t g p k := by
  obtain ⟨hpart, hneeded, hunknown, hshares⟩ := hdue
  have henough : ¬ ((ownerShares r g).take t).length < t := by rw [List.length_take]; omega
  have hfree : ¬ (revealOf s p r.job r.round g.u ≠ 0 ∧ revealOf s p r.job r.round g.u ≠ k) := by omega
  simp only [reconstructOne, hround, hneeded, hpart, partTenant_tenantPart, hunknown, henough, if_neg hfree, Option.isSome_none, decide_false,
    Bool.or_self, Bool.false_eq_true, if_false, revealed, recovered]
  cases joinChunks (recoverChunks ((ownerShares r g).take t)) with
  | none => rfl
  | some sec =>
    by_cases hcommitted : commitment k r.job r.round g.u sec = if k = 2 then g.commitSelf else g.commitPair
    · simp only [if_pos hcommitted]
    · simp only [if_neg hcommitted]

end Due

/-- The three outcomes. -/
theorem reconstructOne_cases : reconstructOne s b t g = s ∨ reconstructOne s b t g = logG s b codeRevealConflict r.job r.round g.u 0 ∨
    ∃ p k, Due r t g p k ∧ (revealOf s p r.job r.round g.u = 0 ∨ revealOf s p r.job r.round g.u = k) ∧
      reconstructOne s b t g = revealed s b r t g p k := by
  by_cases hpasses : (neededKind r g).isSome → lookup g.u r.secrets = none → (ownerShares r g).length < t
  · exact .inl (reconstructOne_passes hround hpasses)
  · simp only [Classical.not_imp, Nat.not_lt] at hpasses
    obtain ⟨hneeded, hunknown, hshares⟩ := hpasses
    obtain ⟨k, hneeded⟩ := Option.isSome_iff_exists.1 hneeded
    cases htenant : partTenant r.part with
    | none => exact .inl (by simp only [reconstructOne, hround, hneeded, htenant])
    | some p =>
      have hdue : Due r t g p k := ⟨tenantPart_of_partTenant htenant, hneeded, hunknown, hshares⟩
      by_cases hother : revealOf s p r.job r.round g.u ≠ 0 ∧ revealOf s p r.job r.round g.u ≠ k
      · exact .inr (.inl (reconstructOne_conflict hround hdue hother))
      · have hown : revealOf s p r.job r.round g.u = 0 ∨ revealOf s p r.job r.round g.u = k := by omega
        exact .inr (.inr ⟨p, k, hdue, hown, reconstructOne_reveals hround hdue hown⟩)

end Owner

/-! ## What an owner's reconstruction leaves -/

theorem revealed_rot (s : State) (b : BayId) (r : Round) (t : Nat) (g : GraphRec) (p : TenantId) (k : Nat) :
    (revealed s b r t g p k).rot = (setReveal s p r.job r.round g.u k).rot := by
  unfold revealed
  dsimp only
  split <;> rfl

/-- The secrets known after that: the one that is found is noted under its owner. -/
def secretsAfter (r : Round) (t k : Nat) (g : GraphRec) : List (Nat × List Byte) :=
  match recovered r t k g with
  | none => r.secrets
  | some sec => insertKey g.u sec r.secrets

theorem lookup_secretsAfter_other (r : Round) (t k : Nat) {g : GraphRec} {u : Nat} (hu : u ≠ g.u) :
    lookup u (secretsAfter r t k g) = lookup u r.secrets := by
  unfold secretsAfter
  split
  · rfl
  · exact lookup_insertKey_other _ _ _ _ hu

theorem lookup_secretsAfter_owner {r : Round} {g : GraphRec} (hunknown : lookup g.u r.secrets = none) (t k : Nat) :
    lookup g.u (secretsAfter r t k g) = recovered r t k g := by
  unfold secretsAfter
  cases recovered r t k g with
  | none => exact hunknown
  | some sec => exact lookup_insertKey_same _ _ _

theorem revealed_round {s : State} {b : BayId} {r : Round} (hround : s.bays[b].round = some r) (t : Nat) (g : GraphRec) (p : TenantId) (k : Nat) :
    (revealed s b r t g p k).bays[b].round = some { r with secrets := secretsAfter r t k g } := by
  unfold revealed secretsAfter
  cases recovered r t k g with
  | none => exact hround
  | some sec => exact modRound_round (s := setReveal s p r.job r.round g.u k) hround _

/-- The round stays but for its owner's secret. -/
theorem reconstructOne_round {s : State} {b : BayId} {r : Round} (hround : s.bays[b].round = some r) (t : Nat) (g : GraphRec) :
    ∃ l, (reconstructOne s b t g).bays[b].round = some { r with secrets := l } ∧ ∀ u, u ≠ g.u → lookup u l = lookup u r.secrets := by
  obtain h | h | ⟨p, k, -, -, h⟩ := reconstructOne_cases hround (t := t) (g := g)
  case inl | inr.inl => exact ⟨r.secrets, by rw [h]; exact hround, fun _ _ => rfl⟩
  case inr.inr => exact ⟨secretsAfter r t k g, by rw [h, revealed_round hround], fun u hu => lookup_secretsAfter_other r t k hu⟩

/-- Its owner's secret stays unknown in a conflict, which leaves the entry too; otherwise it is what the shares give. -/
theorem reconstructOne_owner {s : State} {b : BayId} {r : Round} (hround : s.bays[b].round = some r) {t : Nat} {g : GraphRec} {p : TenantId} {k : Nat}
    (hdue : Due r t g p k) :
    ∃ m, (reconstructOne s b t g).bays[b].round = some { r with secrets := m } ∧
      (revealOf s p r.job r.round g.u ≠ 0 → revealOf s p r.job r.round g.u ≠ k → lookup g.u m = none ∧
        revealOf (reconstructOne s b t g) p r.job r.round g.u = revealOf s p r.job r.round g.u) ∧
      (revealOf s p r.job r.round g.u = 0 ∨ revealOf s p r.job r.round g.u = k → lookup g.u m = recovered r t k g) := by
  by_cases hown : revealOf s p r.job r.round g.u = 0 ∨ revealOf s p r.job r.round g.u = k
  · rw [reconstructOne_reveals hround hdue hown]
    refine ⟨_, revealed_round hround t g p k, fun hset hother => absurd hown (by omega), fun _ => ?_⟩
    exact lookup_secretsAfter_owner hdue.unknown t k
  · rw [reconstructOne_conflict hround hdue (by omega)]
    exact ⟨r.secrets, hround, fun _ _ => ⟨hdue.unknown, revealOf_congr (logG_rot _ _ _ _ _ _ _) _ _ _ _⟩, fun h => absurd h hown⟩

/-- Another owner's entry of a reveal bitmap stays, whoever's the round is. -/
theorem reconstructOne_reveal_other {s : State} {b : BayId} {r : Round} (hround : s.bays[b].round = some r) (t : Nat) (g : GraphRec) (p : TenantId)
    (job round : W32) {u : Nat} (hu : u ≠ g.u) : revealOf (reconstructOne s b t g) p job round u = revealOf s p job round u := by
  obtain h | h | ⟨q, k, -, -, h⟩ := reconstructOne_cases hround (t := t) (g := g)
  case inl => rw [h]
  case inr.inl =>
    rw [h]
    exact revealOf_congr (logG_rot _ _ _ _ _ _ _) _ _ _ _
  case inr.inr =>
    rw [h, revealOf_congr (revealed_rot s b r t g q k)]
    exact revealOf_setReveal_other s k fun hsame => hu hsame.2.2.2

/-- An entry that is not 0b00 never changes (R163). -/
theorem reconstructOne_reveal_stays {s : State} {b : BayId} {r : Round} (hround : s.bays[b].round = some r) (t : Nat) (g : GraphRec) (p : TenantId)
    (job round : W32) (u : Nat) (hset : revealOf s p job round u ≠ 0) :
    revealOf (reconstructOne s b t g) p job round u = revealOf s p job round u := by
  obtain h | h | ⟨q, k, -, hown, h⟩ := reconstructOne_cases hround (t := t) (g := g)
  case inl => rw [h]
  case inr.inl =>
    rw [h]
    exact revealOf_congr (logG_rot _ _ _ _ _ _ _) _ _ _ _
  case inr.inr =>
    rw [h, revealOf_congr (revealed_rot s b r t g q k)]
    by_cases hsame : p = q ∧ job = r.job ∧ round = r.round ∧ u = g.u
    · obtain ⟨rfl, rfl, rfl, rfl⟩ := hsame
      rw [revealOf_setReveal_same (revealed_kept hset), hown.resolve_left hset]
    · exact revealOf_setReveal_other s k hsame

/-! ## All owners of a graph (R160) -/

/-- The records are reconstructed one by one. -/
def reconstructed (s : State) (b : BayId) (t : Nat) (l : List GraphRec) : State := l.foldl (fun s g => reconstructOne s b t g) s

theorem reconstructed_passes {s : State} {b : BayId} {r : Round} (hround : s.bays[b].round = some r) {t : Nat} {l : List GraphRec}
    (h : ∀ g ∈ l, (neededKind r g).isSome → lookup g.u r.secrets = none → (ownerShares r g).length < t) : reconstructed s b t l = s := by
  induction l with
  | nil => rfl
  | cons g l ih =>
    have hg := reconstructOne_passes hround (h g List.mem_cons_self)
    rw [reconstructed, List.foldl_cons, hg]
    exact ih fun g' hg' => h g' (List.mem_cons_of_mem _ hg')

/-- The round stays but for the secrets of the records' owners. -/
theorem reconstructed_round {s : State} {b : BayId} {r : Round} (hround : s.bays[b].round = some r) (t : Nat) (l : List GraphRec) :
    ∃ m, (reconstructed s b t l).bays[b].round = some { r with secrets := m } ∧
      ∀ u, (∀ g ∈ l, u ≠ g.u) → lookup u m = lookup u r.secrets := by
  induction l generalizing s r with
  | nil => exact ⟨r.secrets, hround, fun _ _ => rfl⟩
  | cons g l ih =>
    obtain ⟨m, hm, hother⟩ := reconstructOne_round hround t g
    obtain ⟨m', hm', hother'⟩ := ih hm
    refine ⟨m', hm', fun u hu => ?_⟩
    rw [hother' u fun g' hg' => hu g' (List.mem_cons_of_mem _ hg')]
    exact hother u (hu g List.mem_cons_self)

theorem reconstructed_reveal_other {s : State} {b : BayId} {r : Round} (hround : s.bays[b].round = some r) (t : Nat) {l : List GraphRec} (p : TenantId)
    (job round : W32) {u : Nat} (hu : ∀ g ∈ l, u ≠ g.u) : revealOf (reconstructed s b t l) p job round u = revealOf s p job round u := by
  induction l generalizing s r with
  | nil => rfl
  | cons g l ih =>
    obtain ⟨m, hm, -⟩ := reconstructOne_round hround t g
    have hl := ih hm fun g' hg' => hu g' (List.mem_cons_of_mem _ hg')
    exact hl.trans (reconstructOne_reveal_other hround t g p job round (hu g List.mem_cons_self))

theorem reconstructed_reveal_stays {s : State} {b : BayId} {r : Round} (hround : s.bays[b].round = some r) (t : Nat) (l : List GraphRec) (p : TenantId)
    (job round : W32) (u : Nat) (hset : revealOf s p job round u ≠ 0) :
    revealOf (reconstructed s b t l) p job round u = revealOf s p job round u := by
  induction l generalizing s r with
  | nil => rfl
  | cons g l ih =>
    obtain ⟨m, hm, -⟩ := reconstructOne_round hround t g
    have hg := reconstructOne_reveal_stays hround t g p job round u hset
    exact (ih hm (by rw [hg]; exact hset)).trans hg

/-- The secret of an owner with one record, and its entry, are what that record alone gives. -/
theorem reconstructed_owner {s : State} {b : BayId} {r : Round} (hround : s.bays[b].round = some r) {t : Nat} {l : List GraphRec} {g : GraphRec}
    {p : TenantId} {k : Nat} (hdue : Due r t g p k) (honly : l.filter (fun x => x.u == g.u) = [g]) :
    ∃ m, (reconstructed s b t l).bays[b].round = some { r with secrets := m } ∧
      (revealOf s p r.job r.round g.u ≠ 0 → revealOf s p r.job r.round g.u ≠ k → lookup g.u m = none ∧
        revealOf (reconstructed s b t l) p r.job r.round g.u = revealOf s p r.job r.round g.u) ∧
      (revealOf s p r.job r.round g.u = 0 ∨ revealOf s p r.job r.round g.u = k → lookup g.u m = recovered r t k g) := by
  obtain ⟨before, after, rfl, hbefore, -, hafter⟩ := List.filter_eq_cons_iff.1 honly
  have hbefore' : ∀ x ∈ before, g.u ≠ x.u := fun x hx he => hbefore x hx (by simp [he])
  have hafter' : ∀ x ∈ after, g.u ≠ x.u := fun x hx he => List.filter_eq_nil_iff.1 hafter x hx (by simp [he])
  have hsplit : reconstructed s b t (before ++ g :: after) = reconstructed (reconstructOne (reconstructed s b t before) b t g) b t after := by
    simp only [reconstructed, List.foldl_append, List.foldl_cons]
  obtain ⟨m, hm, hkept⟩ := reconstructed_round hround t before
  have hdue' : Due { r with secrets := m } t g p k := ⟨hdue.part, hdue.needed, (hkept g.u hbefore').trans hdue.unknown, hdue.shares⟩
  obtain ⟨m', hm', howner⟩ := reconstructOne_owner hm hdue'
  obtain ⟨m'', hm'', hkept''⟩ := reconstructed_round hm' t after
  refine ⟨m'', by rw [hsplit]; exact hm'', ?_⟩
  rw [hsplit, hkept'' g.u hafter', reconstructed_reveal_other hm' t p r.job r.round hafter',
    ← reconstructed_reveal_other hround t p r.job r.round hbefore']
  exact howner

/-! ## RECONSTRUCTION_COMPLETE (Table 06.10) -/

/-- The number of shares that a round needs of each owner. -/
def threshold (s : State) (r : Round) : Nat :=
  match jobOfPart s r.part with
  | some j => j.mask.t
  | none => 0

theorem threshold_job {s : State} {r : Round} {j : Job} (hjob : jobOfPart s r.part = some j) : threshold s r = j.mask.t := by
  simp only [threshold, hjob]

/-- The round collects again. -/
def collecting (s : State) (b : BayId) : State := modRound s b (fun x => { x with state := .collecting, finish := none })

/-- A reconstruction ends: masking starts, or the round collects again, and a waiting GLEAN_FINISH is told who is missing. -/
def concluded (s : State) (b : BayId) (q : Round) : State :=
  if (stillNeeded q).isEmpty then startMasking s b q
  else match q.finish with
    | none => collecting s b
    | some (h, buf) => complete (emitOut (collecting s b) (.hostWrite h.part buf (contribBitmap q.clo q.chi (stillNeeded q)))) h codeGleanShort
        (leBytes 4 (stillNeeded q).length)

theorem exec_reconstructionComplete {s : State} {b : BayId} {r q : Round} (hround : s.bays[b].round = some r) (hstate : r.state = .reconstructing)
    (hafter : (reconstructed s b (threshold s r) r.graph).bays[b].round = some q) :
    exec (.reconstructionComplete b) s = .next (concluded (reconstructed s b (threshold s r) r.graph) b q) := by
  show execReconstructionComplete b s = _
  unfold reconstructed at *
  cases hjob : jobOfPart s r.part with
  | none =>
    have hnone : threshold s r = 0 := by simp only [threshold, hjob]
    rw [hnone] at hafter ⊢
    simp only [execReconstructionComplete, hround, hstate, hjob, ne_eq, not_true_eq_false, if_false, hafter]
    rfl
  | some j =>
    rw [threshold_job hjob] at hafter ⊢
    simp only [execReconstructionComplete, hround, hstate, hjob, ne_eq, not_true_eq_false, if_false, hafter]
    rfl

theorem concluded_untold {s : State} {b : BayId} {q : Round} (hneed : stillNeeded q ≠ []) (hfinish : q.finish = none) :
    concluded s b q = collecting s b := by
  simp only [concluded, List.isEmpty_iff, hneed, if_false, hfinish]

theorem concluded_told {s : State} {b : BayId} {q : Round} (hneed : stillNeeded q ≠ []) {h : CmdHdr} {buf : W64} (hfinish : q.finish = some (h, buf)) :
    concluded s b q = complete (emitOut (collecting s b) (.hostWrite h.part buf (contribBitmap q.clo q.chi (stillNeeded q)))) h codeGleanShort
      (leBytes 4 (stillNeeded q).length) := by
  simp only [concluded, List.isEmpty_iff, hneed, if_false, hfinish]

section Concluded
variable {s : State} {b : BayId} {q : Round} (hround : s.bays[b].round = some q)
include hround

theorem concluded_collects (hneed : stillNeeded q ≠ []) :
    (concluded s b q).bays[b].round = some { q with state := .collecting, finish := none } ∧ (concluded s b q).dbkIn = s.dbkIn ∧
      (concluded s b q).rot = s.rot := by
  have hcollects : (collecting s b).bays[b].round = some { q with state := .collecting, finish := none } := modRound_round hround _
  cases hfinish : q.finish with
  | none =>
    rw [concluded_untold hneed hfinish]
    exact ⟨hcollects, rfl, rfl⟩
  | some f =>
    rw [concluded_told hneed hfinish, complete_bays, complete_dbkIn, complete_rot]
    exact ⟨hcollects, rfl, rfl⟩

theorem concluded_masks (hnone : stillNeeded q = []) : (∃ l, (concluded s b q).bays[b].round =
    some { q with state := .masking, seeds := word32 (q.graph.flatMap (seedsOf q)).length, sendQ := l }) ∧ (concluded s b q).rot = s.rot := by
  rw [concluded, hnone]
  exact startMasking_keeps hround

/-- Whichever way it ends, the secrets and the reveal bitmaps stay. -/
theorem concluded_keeps : (∃ q', (concluded s b q).bays[b].round = some q' ∧ q'.secrets = q.secrets) ∧ (concluded s b q).rot = s.rot := by
  by_cases hnone : stillNeeded q = []
  · obtain ⟨⟨l, hl⟩, hrot⟩ := concluded_masks hround hnone
    exact ⟨⟨_, hl, rfl⟩, hrot⟩
  · obtain ⟨hcollects, -, hrot⟩ := concluded_collects hround hnone
    exact ⟨⟨_, hcollects, rfl⟩, hrot⟩

end Concluded

/-- Whoever is still needed has no secret yet and needs one. -/
theorem stillNeeded_nil {r : Round} (h : stillNeeded r = []) {g : GraphRec} (hg : g ∈ r.graph) (hneeded : (neededKind r g).isSome) :
    lookup g.u r.secrets ≠ none := by
  rw [stillNeeded, List.map_eq_nil_iff, List.filter_eq_nil_iff] at h
  intro hunknown
  exact h g hg (by simp [hneeded, hunknown])

theorem stillNeeded_single {r : Round} {g : GraphRec} {t : Nat} {p : TenantId} {k : Nat} (hgraph : r.graph = [g]) (hdue : Due r t g p k) :
    stillNeeded r ≠ [] := by
  intro hnil
  exact stillNeeded_nil hnil (hgraph ▸ List.mem_singleton_self g) (by rw [hdue.needed]; rfl) hdue.unknown

section Reconstruction
variable {s : State} {b : BayId} {r : Round} (hround : s.bays[b].round = some r) (hstate : r.state = .reconstructing)
include hround hstate

/-- With every secret known the masks are made from the seeds (R170). -/
theorem reconstructionComplete_masks (hnone : stillNeeded r = []) : Runs (.reconstructionComplete b) s (fun t =>
    ∃ q, (t.bays[b]).round = some q ∧ q.state = .masking ∧ q.seeds = word32 (r.graph.flatMap (seedsOf r)).length ∧ q.finish = r.finish) := by
  have hpasses : reconstructed s b (threshold s r) r.graph = s :=
    reconstructed_passes hround fun g hg hneeded hunknown => absurd hunknown (stillNeeded_nil hnone hg hneeded)
  have hrun := exec_reconstructionComplete hround hstate (by rw [hpasses]; exact hround)
  rw [hpasses] at hrun
  obtain ⟨⟨l, hl⟩, -⟩ := concluded_masks hround hnone
  exact ⟨_, hrun, _, hl, rfl, rfl, rfl⟩

variable {j : Job} (hjob : jobOfPart s r.part = some j)
include hjob

/-- Where every owner that is still needed lacks shares, the round collects again, and GLEAN_FINISH completes with GLEAN_SHORT (R169). -/
theorem reconstructionComplete_short {h : CmdHdr} {buf : W64} (hfinish : r.finish = some (h, buf)) (hneed : stillNeeded r ≠ [])
    (hshort : ∀ g ∈ r.graph, (neededKind r g).isSome → (lookup g.u r.secrets).isNone → (ownerShares r g).length < j.mask.t) :
    Runs (.reconstructionComplete b) s (fun t => (t.bays[b]).round = some { r with state := .collecting, finish := none } ∧
      t.out = s.out ++ [.hostWrite h.part buf (contribBitmap r.clo r.chi (stillNeeded r))] ∧
      completes s t h 0x6008 (leBytes 4 (stillNeeded r).length)) := by
  have hpasses : reconstructed s b (threshold s r) r.graph = s := by
    rw [threshold_job hjob]
    exact reconstructed_passes hround fun g hg hneeded hunknown => hshort g hg hneeded (by rw [hunknown]; rfl)
  have hrun := exec_reconstructionComplete hround hstate (by rw [hpasses]; exact hround)
  rw [hpasses] at hrun
  refine ⟨_, hrun, (concluded_collects hround hneed).1, ?_⟩
  rw [concluded_told hneed hfinish]
  exact ⟨complete_out _ _ _ _, completes_complete (emitOut (collecting s b) _) h _ _⟩

section OneRecord
variable {g : GraphRec} {p : TenantId} {k : Nat} (hgraph : r.graph = [g]) (hdue : Due r j.mask.t g p k)
include hgraph hdue

/-- The one owner's other secret was revealed: it is not reconstructed (R163). -/
theorem reconstructionComplete_conflict (hset : revealOf s p r.job r.round g.u ≠ 0) (hother : revealOf s p r.job r.round g.u ≠ k) :
    Runs (.reconstructionComplete b) s (fun t => firstEntry s t 0x6015 ∧ t.rot.reveals = s.rot.reveals ∧
      ∃ q, (t.bays[b]).round = some q ∧ q.state = .collecting ∧ q.secrets = r.secrets) := by
  have hconflict : reconstructed s b (threshold s r) r.graph = logG s b codeRevealConflict r.job r.round g.u 0 := by
    rw [threshold_job hjob, hgraph]
    exact reconstructOne_conflict hround hdue ⟨hset, hother⟩
  have hlogged : (logG s b codeRevealConflict r.job r.round g.u 0).bays[b].round = some r := hround
  have hrun := exec_reconstructionComplete hround hstate (by rw [hconflict]; exact hlogged)
  obtain ⟨hcollects, hlog, hrot⟩ := concluded_collects hlogged (stillNeeded_single hgraph hdue)
  rw [hconflict] at hrun
  refine ⟨_, hrun, ?_, congrArg Rot.reveals (hrot.trans (logG_rot _ _ _ _ _ _ _)), _, hcollects, rfl, rfl⟩
  obtain ⟨e, hentry, hcode⟩ := logG_entry s b codeRevealConflict r.job r.round g.u 0
  exact ⟨e, [], hlog.trans hentry, hcode⟩

/-- Its entry is free or of the same kind: it is marked before the shares are combined (R163). -/
theorem reconstructionComplete_marks (hown : revealOf s p r.job r.round g.u = 0 ∨ revealOf s p r.job r.round g.u = k)
    (hkept : (revealsOf s p r.job).any (fun v => v.round == r.round) = true) :
    Runs (.reconstructionComplete b) s (fun t => revealOf t p r.job r.round g.u = k) := by
  have hreveals : reconstructed s b (threshold s r) r.graph = revealed s b r j.mask.t g p k := by
    rw [threshold_job hjob, hgraph]
    exact reconstructOne_reveals hround hdue hown
  have hafter := revealed_round hround j.mask.t g p k
  have hrun := exec_reconstructionComplete hround hstate (by rw [hreveals]; exact hafter)
  rw [hreveals] at hrun
  refine ⟨_, hrun, ?_⟩
  show revealOf _ p r.job r.round g.u = k
  rw [revealOf_congr ((concluded_keeps hafter).2.trans (revealed_rot s b r j.mask.t g p k))]
  exact revealOf_setReveal_same hkept g.u k

end OneRecord

/-- One owner of many: a conflict leaves its secret unknown and its entry as it was; otherwise its secret is what its shares give. -/
theorem reconstructionComplete_owner {g : GraphRec} {p : TenantId} {k : Nat} (honly : r.graph.filter (fun x => x.u == g.u) = [g])
    (hdue : Due r j.mask.t g p k) :
    ∃ (t : State) (q : Round), exec (.reconstructionComplete b) s = .next t ∧ (t.bays[b]).round = some q ∧
      (revealOf s p r.job r.round g.u ≠ 0 → revealOf s p r.job r.round g.u ≠ k → lookup g.u q.secrets = none ∧
        revealOf t p r.job r.round g.u = revealOf s p r.job r.round g.u) ∧
      (revealOf s p r.job r.round g.u = 0 ∨ revealOf s p r.job r.round g.u = k → lookup g.u q.secrets = recovered r j.mask.t k g) := by
  obtain ⟨m, hafter, hconflict, hreveals⟩ := reconstructed_owner hround hdue honly
  rw [← threshold_job hjob] at hafter hconflict
  obtain ⟨⟨q, hq, hsecrets⟩, hrot⟩ := concluded_keeps hafter
  have hsecrets' : q.secrets = m := hsecrets
  refine ⟨_, q, exec_reconstructionComplete hround hstate hafter, hq, fun hset hother => ?_, fun hown => ?_⟩
  · rw [hsecrets', revealOf_congr hrot]
    exact hconflict hset hother
  · rw [hsecrets']
    exact hreveals hown

end Reconstruction

/-- An entry that is not 0b00 never changes (R163). -/
theorem reconstructionComplete_reveal_stays {s t : State} {b : BayId} (hrun : exec (.reconstructionComplete b) s = .next t) {p : TenantId}
    {job round : W32} {u : Nat} (hset : revealOf s p job round u ≠ 0) : revealOf t p job round u = revealOf s p job round u := by
  have hunfold : exec (.reconstructionComplete b) s = execReconstructionComplete b s := rfl
  cases hround : s.bays[b].round with
  | none =>
    have hidle : exec (.reconstructionComplete b) s = .next s := by simp only [hunfold, execReconstructionComplete, hround]
    obtain rfl := Host.Outcome.next.inj (hidle.symm.trans hrun)
    rfl
  | some r =>
    by_cases hstate : r.state = .reconstructing
    · obtain ⟨m, hafter, -⟩ := reconstructed_round hround (threshold s r) r.graph
      obtain rfl := Host.Outcome.next.inj ((exec_reconstructionComplete hround hstate hafter).symm.trans hrun)
      rw [revealOf_congr (concluded_keeps hafter).2]
      exact reconstructed_reveal_stays hround _ _ p job round u hset
    · have hidle : exec (.reconstructionComplete b) s = .next s := by
        simp only [hunfold, execReconstructionComplete, hround, ne_eq, hstate, not_false_eq_true, if_true]
      obtain rfl := Host.Outcome.next.inj (hidle.symm.trans hrun)
      rfl

/-! ## MASK_POSITION_EMIT (R171) -/

/-- The residual of a batch at its next position, under the header of the bin. -/
def residualTile (s : State) (m : MaskSt) (x : Bin) : Tile where
  hdr := maskHdr m x
  payload := writeElems (binRing s x).size
    (residual m.job m.round x.ring (binRing s x) m.batch (maskHdr m x).sliceOffset (maskHdr m x).count)

/-- Its token, with the connection's stream and ordinal. -/
def residualToken (s : State) (b : BayId) (n : PortId) (x : Bin) (slot : Nat) : Token :=
  let t := residualTile s s.bays[b].mask x
  { tile := { t with hdr := { t.hdr with stream := (getOut s (.bay b .msk) n).stream, ordinal := (getOut s (.bay b .msk) n).nextOrd } }, slot := slot }

/-- A batch in expansion of a Mask station that works: it is not poisoned, it is for bin `x`, and its output `n` feeds `c`. -/
structure Expands (s : State) (b : BayId) (n : PortId) (c : StationRef × PortId) (x : Bin) : Prop where
  fire : mayFire s (.bay b .msk) = true
  works : stopping (getSt s (.bay b .msk)) = false
  running : s.bays[b].mask.running = true
  clean : s.bays[b].mask.pois = 0
  bin : s.bays[b].mask.bin.bind (fun k => findBin s b k.index) = some x
  out : maskOut s b = some n
  feeds : Feeds s (.bay b .msk) n c

/-- While a batch is in expansion none is gathered, and none starts. -/
theorem maskStart_maskGather_running {s : State} {b : BayId} (hrunning : s.bays[b].mask.running = true) (stop : Option Nat) (fuel : Nat) :
    maskStart (maskGather b stop fuel s) b = s := by
  have hgather : maskGather b stop fuel s = s := by
    cases fuel with
    | zero => rfl
    | succ fuel => simp only [maskGather, hrunning, Bool.true_or, if_true]
  rw [hgather]
  refine modBay_eq_self s b _ ?_
  simp only [hrunning, Bool.not_true, Bool.false_and, Bool.false_eq_true, if_false]

theorem exec_maskPositionEmit {s u : State} {b : BayId} {n k : PortId} {c : StationRef × PortId} {x : Bin} {tok : Token} (hexpands : Expands s b n c x)
    (hreserved : reserveOut s (.bay b .msk) n (residualTile s s.bays[b].mask x) none = some (k, tok, u)) :
    ∃ bytes : MaskSt → Nat, exec (.maskPositionEmit b) s = .next (modMask (passTok u (.bay b .msk) k tok) b (fun m => maskNext m x (bytes m))) := by
  obtain ⟨hfire, hworks, hrunning, hclean, hbin, hout, hcons, hcredit⟩ := hexpands
  have hcredits : (outCredits s (.bay b .msk) n == 0) = false := by
    simp only [outCredits, hcons]
    simpa using hcredit
  refine ⟨fun m => m.batch.length * 4096 * (maskBlocks x.ring (maskHdr s.bays[b].mask x).sliceOffset (maskHdr s.bays[b].mask x).count).length, ?_⟩
  unfold residualTile at hreserved
  show execMaskPositionEmit b s = _
  simp only [execMaskPositionEmit, hworks, hfire, maskStart_maskGather_running hrunning, hbin, hout, hrunning, hcredits, hclean, hreserved,
    Bool.false_eq_true, if_false, Option.isSome_none, Bool.or_true, Bool.not_true, Bool.or_self, ne_eq, not_true_eq_false]

/-- A Mask station passes the residual of its batch at the next position, and goes on to the position after. -/
theorem maskPositionEmit_passes {s : State} {b : BayId} {n : PortId} {c : StationRef × PortId} {x : Bin} (hexpands : Expands s b n c x) :
    ∃ t : State, exec (.maskPositionEmit b) s = .next t ∧ ∃ bytes, (t.bays[b]).mask = maskNext s.bays[b].mask x bytes ∧
      Passed s t (.bay b .msk) n c (maskHdr s.bays[b].mask x) (residualTile s s.bays[b].mask x).payload := by
  obtain ⟨slot, u, hreserved, hcons, hflight, -⟩ := reserveOut_some hexpands.feeds (residualTile s s.bays[b].mask x) none
  obtain ⟨bytes, hrun⟩ := exec_maskPositionEmit hexpands hreserved
  have hmask := (roundsKept_reserveOut hreserved).mask b
  refine ⟨_, hrun, bytes s.bays[b].mask, ?_, ⟨residualToken s b n x slot, ?_, rfl, rfl⟩⟩
  · rw [modMask, modBay_same]
    exact congrArg (fun m => maskNext m x (bytes m)) (((roundsKept_passTok u _ n _).mask b).trans hmask)
  · rw [modMask, modBay_tokFlight, passTok_some _ _ _ _ c hcons, hflight]
    rfl

/-! ## MASKING_COMPLETE (Table 06.10) -/

/-- The round is GLEANED, and a waiting GLEAN_FINISH completes. -/
def gleaned (s : State) (b : BayId) (r : Round) : State :=
  let s1 := modRound s b (fun q => { q with state := .gleaned, finish := none })
  match r.finish with
  | some (h, _) => complete s1 h 0 (leBytes 4 0)
  | none => s1

theorem gleaned_finish (s : State) (b : BayId) {r : Round} {h : CmdHdr} {buf : W64} (hfinish : r.finish = some (h, buf)) :
    completes s (gleaned s b r) h 0 (leBytes 4 0) := by
  simp only [gleaned, hfinish]
  exact completes_complete (modRound s b (fun q => { q with state := .gleaned, finish := none })) h 0 (leBytes 4 0)

theorem gleaned_round {s : State} {b : BayId} {r : Round} (hround : s.bays[b].round = some r) :
    (gleaned s b r).bays[b].round = some { r with state := .gleaned, finish := none } := by
  have hdone := modRound_round hround (fun q => { q with state := .gleaned, finish := none })
  unfold gleaned
  dsimp only
  split
  · rw [complete_bays]
    exact hdone
  · exact hdone

theorem exec_maskingComplete {s : State} {b : BayId} {r : Round} (hround : s.bays[b].round = some r) (hstate : r.state = .masking)
    (hsent : r.sendQ = []) (hmasked : r.bins.all (bayMasked s r) = true) : exec (.maskingComplete b) s = .next (gleaned s b r) := by
  show execMaskingComplete b s = _
  simp only [execMaskingComplete, hround, hstate, hsent, hmasked, ne_eq, not_true_eq_false, Bool.not_true, Bool.false_eq_true, or_self, if_false]
  rfl

/-- Settles O42: a graph is reconstructed record by record (`reconstructed_owner`), no entry of a reveal bitmap ever changes
(`reconstructed_reveal_stays`), a Mask station passes its residual (`maskPositionEmit_passes`), and a round whose masks are subtracted is GLEANED. -/
theorem revealedSecretsUnmaskTheSum : Obligations.RevealedSecretsUnmaskTheSum := by
  refine ⟨fun s b r j hround hstate hjob => ⟨?short, ?masks, ?single⟩, ?owner, ?stays, ?emits,
    fun s b r hround hstate hsent hmasked => ⟨gleaned s b r, exec_maskingComplete hround hstate hsent hmasked, gleaned_round hround,
      fun _ _ => gleaned_finish s b⟩⟩
  case short =>
    intro h buf hfinish hneed hshort
    exact reconstructionComplete_short hround hstate hjob hfinish hneed hshort
  case masks => exact reconstructionComplete_masks hround hstate
  case single =>
    intro g p k hgraph hpart hneeded hunknown hshares
    have hdue : Due r j.mask.t g p k := ⟨hpart, hneeded, hunknown, hshares⟩
    exact ⟨reconstructionComplete_conflict hround hstate hjob hgraph hdue, reconstructionComplete_marks hround hstate hjob hgraph hdue⟩
  case owner =>
    intro s b r j g p k hround hstate hjob honly hpart hneeded hunknown hshares
    exact reconstructionComplete_owner hround hstate hjob honly ⟨hpart, hneeded, hunknown, hshares⟩
  case stays =>
    intro s t b p job round u hrun hset
    exact reconstructionComplete_reveal_stays hrun hset
  case emits =>
    intro s b n c x k hfire hworks hrunning hclean hbin hfound hout hfeeds
    have hexpands : Expands s b n c x := ⟨hfire, hworks, hrunning, hclean, by rw [hbin]; exact hfound, hout, hfeeds⟩
    obtain ⟨t, hrun, bytes, hmask, hpassed⟩ := maskPositionEmit_passes hexpands
    exact ⟨t, hrun, maskHdr s.bays[b].mask x, bytes, hmask, rfl, rfl, rfl, congrArg (s.bays[b].mask.last && ·) (beq_eq_decide _ _), hpassed⟩

end Sys2Proof.Machine

/-! PROOFS. Parameter sets and keys of the Lattice stations (R175 to R178, R196 to R198): what an update of one station or of several leaves, the
bays of a mask, each command by what it finds; then O43 and O44 from them. -/

namespace Sys2Proof.Machine

open Sys2Proof.Said

/-! ## What an update of a Lattice station leaves -/

theorem modLat_lattice (s : State) (b c : BayId) (f : LatSt → LatSt) :
    (modLat s b f).bays[c].lattice = if c = b then f s.bays[c].lattice else s.bays[c].lattice := by
  by_cases h : c = b
  · subst h
    rw [if_pos rfl, modLat, modBay_same]
  · rw [if_neg h, modLat, modBay_other _ _ _ _ h]

@[simp] theorem modLat_same (s : State) (b : BayId) (f : LatSt → LatSt) : (modLat s b f).bays[b].lattice = f s.bays[b].lattice :=
  (modLat_lattice s b b f).trans (if_pos rfl)
@[simp] theorem modLat_qm (s : State) (b : BayId) (f : LatSt → LatSt) : (modLat s b f).qm = s.qm := rfl
@[simp] theorem modLat_dbkIn (s : State) (b : BayId) (f : LatSt → LatSt) : (modLat s b f).dbkIn = s.dbkIn := rfl
@[simp] theorem modLat_tokFlight (s : State) (b : BayId) (f : LatSt → LatSt) : (modLat s b f).tokFlight = s.tokFlight := rfl

/-- The Lattice stations of several bays are updated alike. -/
def modLats (s : State) (l : List BayId) (f : LatSt → LatSt) : State := l.foldl (fun s b => modLat s b f) s

theorem modLats_qm (s : State) (l : List BayId) (f : LatSt → LatSt) : (modLats s l f).qm = s.qm :=
  foldl_keeps (fun t b => modLat t b f) (fun t => t.qm = s.qm) (fun _ _ h => h) l s rfl

theorem modLats_lattice {l : List BayId} (hnodup : l.Nodup) (s : State) (c : BayId) (f : LatSt → LatSt) :
    (modLats s l f).bays[c].lattice = if c ∈ l then f s.bays[c].lattice else s.bays[c].lattice := by
  induction l generalizing s with
  | nil => rfl
  | cons b l ih =>
    obtain ⟨hfresh, hnodup⟩ := List.nodup_cons.1 hnodup
    have hstep : (modLats s (b :: l) f).bays[c].lattice = _ := ih hnodup (modLat s b f)
    rw [hstep, modLat_lattice]
    by_cases h : c = b
    · subst h
      simp [hfresh]
    · simp [h]

/-! ## The bays of a mask (R175) -/

theorem mem_allBays : ∀ b : BayId, b ∈ allBays := by decide

/-- The bays that a mask names. -/
def maskedBays (mask : W16) : List BayId := allBays.filter (fun b => bitOf mask.toNat b.1)

theorem mem_maskedBays (mask : W16) (b : BayId) : b ∈ maskedBays mask ↔ bitOf mask.toNat b.1 = true := by
  simp [maskedBays, mem_allBays]

theorem maskedBays_nodup (mask : W16) : (maskedBays mask).Nodup := List.Nodup.filter _ (by decide)

theorem exists_bit_of_ne_zero {mask : W16} (h : mask ≠ 0) : ∃ b : BayId, bitOf mask.toNat b.1 = true := by
  by_contra hnone
  refine h (BitVec.eq_of_getLsbD_eq fun i hi => ?_)
  have hbit : ¬ bitOf mask.toNat i = true := fun hbit => hnone ⟨⟨i, hi⟩, hbit⟩
  show mask.getLsbD i = (0#16).getLsbD i
  rw [BitVec.getLsbD_zero, BitVec.getLsbD, Nat.testBit_eq_decide_div_mod_eq]
  simpa [bitOf] using hbit

theorem maskBays_eq_some {s : State} {p : PartId} {mask : W16} {l : List BayId} (h : maskBays s p mask = some l) : l = maskedBays mask := by
  unfold maskBays at h
  dsimp only at h
  split at h
  · cases h
  · exact (Option.some.inj h).symm

/-- A mask that names a bay, and bays of the issuer only. -/
theorem maskBays_owned {s : State} {p : PartId} {mask : W16} {b : BayId} (hbit : bitOf mask.toNat b.1 = true)
    (howned : ∀ c : BayId, bitOf mask.toNat c.1 = true → s.bays[c].owner = p) : maskBays s p mask = some (maskedBays mask) := by
  have hsome : maskedBays mask ≠ [] := List.ne_nil_of_mem ((mem_maskedBays mask b).2 hbit)
  have hheld : (maskedBays mask).all (holdsBay s p) = true :=
    List.all_eq_true.2 fun c hc => beq_iff_eq.2 (howned c ((mem_maskedBays mask c).1 hc))
  have hheldBy : ¬ (maskedBays mask = [] ∨ (!(maskedBays mask).all (holdsBay s p)) = true) := by simp [hsome, hheld]
  exact if_neg hheldBy

/-! ## LAT_PARAM_LOAD (R175, R176) -/

section ParamLoad
variable {s : State} {h : CmdHdr} {mask : W16} {len : Nat} {bytes : List Byte}

theorem exec_latParamLoad_refused (hbad : paramStatus s h mask len bytes ≠ 0) : exec (.latParamLoad h mask len (.ok bytes)) s =
    .next (complete (begun s (.latParamLoad h mask len (.ok bytes))) h (paramStatus s h mask len bytes) []) := by
  have hbad' : paramStatus (begun s (.latParamLoad h mask len (.ok bytes))) h mask len bytes ≠ 0 := hbad
  show execLatParamLoad h mask len (.ok bytes) s = _
  simp only [execLatParamLoad, if_pos hbad']
  rfl

/-- A set that is accepted is for bays that the issuer holds. -/
theorem maskBays_of_paramStatus (hok : paramStatus s h mask len bytes = 0) : maskBays s h.part mask = some (maskedBays mask) := by
  unfold paramStatus at hok
  split at hok
  · cases hok
  · next l hbays => rw [hbays, maskBays_eq_some hbays]

/-- The set is in every bay of its mask, where its constants are computed next (R177). -/
theorem exec_latParamLoad_accepted (hok : paramStatus s h mask len bytes = 0) : exec (.latParamLoad h mask len (.ok bytes)) s =
    .next (modLats (begun s (.latParamLoad h mask len (.ok bytes))) (maskedBays mask)
      (fun l => { l with psets := l.psets ++ [{ parseParam h bytes with digest := shake256 bytes 64 }] })) := by
  have hok' : paramStatus (begun s (.latParamLoad h mask len (.ok bytes))) h mask len bytes = 0 := hok
  show execLatParamLoad h mask len (.ok bytes) s = _
  simp only [execLatParamLoad, hok', maskBays_of_paramStatus hok', ne_eq, not_true_eq_false, if_false, Option.getD_some, modLats]

end ParamLoad

theorem latParamLoad_loads (s : State) (h : CmdHdr) (mask : W16) (len : Nat) (bytes : List Byte) :
    Runs (.latParamLoad h mask len (.ok bytes)) s (fun t =>
      if paramStatus s h mask len bytes = 0 then t.qm.held = s.qm.held ∧ ∀ b : BayId, (t.bays[b]).lattice.psets = s.bays[b].lattice.psets ++
        (if bitOf mask.toNat b.1 then [{ parseParam h bytes with digest := shake256 bytes 64 }] else [])
      else t.bays = s.bays ∧ completes s t h (paramStatus s h mask len bytes) []) := by
  by_cases hok : paramStatus s h mask len bytes = 0
  · refine ⟨_, exec_latParamLoad_accepted hok, ?_⟩
    simp only [if_pos hok]
    refine ⟨by rw [modLats_qm]; rfl, fun b => ?_⟩
    rw [modLats_lattice (maskedBays_nodup mask)]
    by_cases hb : bitOf mask.toNat b.1 = true <;> simp [mem_maskedBays, hb]
  · refine ⟨_, exec_latParamLoad_refused hok, ?_⟩
    simp only [if_neg hok]
    exact ⟨complete_bays _ _ _ _, completes_begun rfl h _ _⟩

/-! ## PARAM_CONSTANTS_COMPLETE (R177) -/

/-- The constants of set `p` are there in a bay. -/
def constantsReady (s : State) (b : BayId) (p : ParamSet) : State :=
  modLat s b (fun l => { l with psets := l.psets.map (fun q => if q.id = p.id then { q with ready := true } else q) })

/-- Does a bay still compute constants for the command that loaded set `p`? -/
def constantsDue (s : State) (p : ParamSet) : Bool := allBays.any (fun c => s.bays[c].lattice.psets.any (fun q => q.h == p.h && !q.ready))

theorem constantsDue_iff (s : State) (p : ParamSet) :
    constantsDue s p = true ↔ ∃ c : BayId, ∃ q ∈ s.bays[c].lattice.psets, q.h = p.h ∧ q.ready = false := by
  simp [constantsDue, mem_allBays]

theorem paramConstantsComplete_ready {s : State} {b : BayId} {p : ParamSet} (hfirst : s.bays[b].lattice.psets.find? (fun p => !p.ready) = some p) :
    Runs (.paramConstantsComplete b) s (fun t =>
      (t.bays[b]).lattice.psets = s.bays[b].lattice.psets.map (fun q => if q.id = p.id then { q with ready := true } else q) ∧
      ((∀ c : BayId, ∀ q ∈ (t.bays[c]).lattice.psets, q.h = p.h → q.ready = true) → completes s t p.h 0 []) ∧
      ((∃ c : BayId, ∃ q ∈ (t.bays[c]).lattice.psets, q.h = p.h ∧ q.ready = false) → t.qm = s.qm)) := by
  have hrun : exec (.paramConstantsComplete b) s = .next (if constantsDue (constantsReady s b p) p then constantsReady s b p
      else complete (constantsReady s b p) p.h 0 []) := by
    show execParamConstantsComplete b s = _
    simp only [execParamConstantsComplete, hfirst]
    rfl
  have hdue := constantsDue_iff (constantsReady s b p) p
  have hpsets : (constantsReady s b p).bays[b].lattice.psets = _ := congrArg LatSt.psets (modLat_same s b _)
  refine ⟨_, hrun, ?_⟩
  split
  · next h =>
    obtain ⟨c, q, hq, hcmd, hwaits⟩ := hdue.1 h
    exact ⟨hpsets, fun hall => absurd (hall c q hq hcmd) (by simp [hwaits]), fun _ => rfl⟩
  · next h =>
    simp only [complete_bays]
    exact ⟨hpsets, fun _ => completes_complete (constantsReady s b p) p.h 0 [], fun hsome => absurd (hdue.2 hsome) h⟩

/-! ## LAT_PARAM_UNLOAD (R178) -/

/-- A pipeline of a bay's running image names the set, and the bay's station does not show DRAINED. -/
def setInUse (s : State) (id : Nat) (b : BayId) : Bool := (imagePipes s b).any (fun p => p.paramSet == id) && !stDrained s (.bay b .lat)

theorem setInUse_iff (s : State) (id : Nat) (b : BayId) :
    setInUse s id b = true ↔ (∃ d ∈ imagePipes s b, d.paramSet = id) ∧ stDrained s (.bay b .lat) = false := by
  simp [setInUse]

/-- Every bay of the mask loses the set. -/
def setTaken (s : State) (mask : W16) (id : Nat) : State :=
  modLats s (maskedBays mask) (fun x => { x with psets := x.psets.filter (fun p => p.id != id) })

theorem exec_latParamUnload {s : State} {h : CmdHdr} {mask : W16} (hbays : maskBays s h.part mask = some (maskedBays mask)) (id : Nat) :
    exec (.latParamUnload h mask id) s = .next (if (maskedBays mask).any (setInUse s id)
      then complete (begun s (.latParamUnload h mask id)) h codeParamInUse []
      else complete (setTaken (begun s (.latParamUnload h mask id)) mask id) h 0 []) := by
  have hbays' : maskBays (begun s (.latParamUnload h mask id)) h.part mask = some (maskedBays mask) := hbays
  show execLatParamUnload h mask id s = _
  simp only [execLatParamUnload, hbays']
  rfl

theorem latParamUnload_unloads {s : State} {h : CmdHdr} {mask : W16} {id : Nat}
    (howned : ∀ b : BayId, bitOf mask.toNat b.1 = true → s.bays[b].owner = h.part) (hmask : mask ≠ 0)
    (hfree : ∀ b : BayId, bitOf mask.toNat b.1 = true → (∀ d ∈ imagePipes s b, d.paramSet ≠ id) ∨ stDrained s (.bay b .lat) = true) :
    Runs (.latParamUnload h mask id) s (fun t => completes s t h 0 [] ∧ ∀ b : BayId, (t.bays[b]).lattice.psets =
      if bitOf mask.toNat b.1 then s.bays[b].lattice.psets.filter (fun p => p.id != id) else s.bays[b].lattice.psets) := by
  obtain ⟨b, hbit⟩ := exists_bit_of_ne_zero hmask
  have hrun := exec_latParamUnload (maskBays_owned hbit howned) id
  have hunused : ¬ (maskedBays mask).any (setInUse s id) = true := by
    rw [List.any_eq_true]
    rintro ⟨c, hc, huse⟩
    obtain ⟨⟨d, hd, hname⟩, hbusy⟩ := (setInUse_iff s id c).1 huse
    rcases hfree c ((mem_maskedBays mask c).1 hc) with hother | hdrained
    · exact hother d hd hname
    · rw [hbusy] at hdrained
      cases hdrained
  rw [if_neg hunused] at hrun
  refine ⟨_, hrun, completes_begun (modLats_qm _ _ _) h _ _, fun c => ?_⟩
  rw [complete_bays, setTaken, modLats_lattice (maskedBays_nodup mask), begun_bays]
  by_cases hc : bitOf mask.toNat c.1 = true <;> simp [mem_maskedBays, hc]

/-- Settles O43: the bay that uses the set makes the command end with PARAM_IN_USE (`exec_latParamUnload`). -/
theorem parameterSetInUseIsKept : Obligations.ParameterSetInUseIsKept := by
  intro s h mask id b d howned hbit hnamed hid hbusy
  have hrun := exec_latParamUnload (maskBays_owned hbit howned) id
  have hused : (maskedBays mask).any (setInUse s id) = true :=
    List.any_eq_true.2 ⟨b, (mem_maskedBays mask b).2 hbit, (setInUse_iff s id b).2 ⟨⟨d, hnamed, hid⟩, hbusy⟩⟩
  rw [if_pos hused] at hrun
  exact ⟨_, hrun, complete_bays _ _ _ _, completes_begun rfl h _ _⟩

/-! ## Keys (R196 to R198) -/

theorem finOpt_port (k : PortId) : finOpt 8 k.1 = some k := by simp [finOpt]

/-- Key index `k` of a bay holds `x` from now on. -/
def setKey (s : State) (b : BayId) (k : PortId) (x : Option LatKey) : State := modLat s b (fun l => { l with keys := vmod l.keys k (fun _ => x) })

theorem setKey_same (s : State) (b : BayId) (k : PortId) (x : Option LatKey) : (setKey s b k x).bays[b].lattice.keys[k] = x := by
  rw [setKey, modLat_same, vmod_same]

theorem setKey_other (s : State) (b : BayId) (x : Option LatKey) {j k : PortId} (h : j ≠ k) :
    (setKey s b k x).bays[b].lattice.keys[j] = s.bays[b].lattice.keys[j] := by
  rw [setKey, modLat_same, vmod_other _ _ _ _ h]

theorem latKeyBind_binds (s : State) (h : CmdHdr) (b : BayId) (k : PortId) (kind level id : Nat) (src dst : W32) (region len : Nat)
    (digest : List Byte) : Runs (.latKeyBind h b.1 k.1 kind level id src dst region len digest) s (fun t =>
      let st := keyBindStatus s h b.1 k.1 kind level id src dst region len digest
      if st = 0 then t.qm.held = s.qm.held ∧ (∀ j : PortId, j ≠ k → (t.bays[b]).lattice.keys[j] = s.bays[b].lattice.keys[j]) ∧
        (t.bays[b]).lattice.keys[k] = some {
          checking := true, kind := kind, level := level, paramSet := id, src := src, dst := dst, region := region, len := len,
          digest := digest, h := h }
      else t.bays = s.bays ∧ completes s t h st []) := by
  have hrun : exec (.latKeyBind h b.1 k.1 kind level id src dst region len digest) s = .next (
      let s0 := begun s (.latKeyBind h b.1 k.1 kind level id src dst region len digest)
      let st := keyBindStatus s h b.1 k.1 kind level id src dst region len digest
      if st ≠ 0 then complete s0 h st [] else setKey s0 b k (some {
        checking := true, kind := kind, level := level, paramSet := id, src := src, dst := dst, region := region, len := len,
        digest := digest, h := h })) := by
    show execLatKeyBind h b.1 k.1 kind level id src dst region len digest s = _
    simp only [execLatKeyBind, finOpt_val, finOpt_port]
    rfl
  refine ⟨_, hrun, ?_⟩
  by_cases hok : keyBindStatus s h b.1 k.1 kind level id src dst region len digest = 0
  · simp only [hok, ne_eq, not_true_eq_false, if_false, if_true]
    exact ⟨rfl, fun j hj => setKey_other _ b _ hj, setKey_same _ b k _⟩
  · simp only [hok, ne_eq, not_false_eq_true, if_false, if_true]
    exact ⟨complete_bays _ _ _ _, completes_begun rfl h _ _⟩

/-- A key whose digest is right is VALID; one whose digest is wrong leaves its index, and the event and the status say so (R197). -/
def keyChecked (s : State) (b : BayId) (i : PortId) (k : LatKey) : State :=
  if shake256 (dramRead s.bays[b].mem k.region k.len) 64 = k.digest then complete (setKey s b i (some { k with checking := false })) k.h 0 []
  else complete (logN (setKey s b i none) s.bays[b].owner (.st b .lat) codeKeyDigest i.1 0) k.h codeKeyDigest []

theorem exec_keyCheckComplete {s : State} {b : BayId} {i : PortId} {k : LatKey} (hkey : s.bays[b].lattice.keys[i] = some k)
    (hchecking : k.checking = true) : exec (.keyCheckComplete b ⟨i, clean⟩) s = .next (keyChecked s b i k) := by
  show execKeyCheckComplete b ⟨i, clean⟩ s = _
  simp only [execKeyCheckComplete, hkey, hchecking, readFaults_clean_eq, Bool.not_true, Bool.false_eq_true, if_false]
  rfl

theorem keyCheckComplete_checks {s : State} {b : BayId} {i : PortId} {k : LatKey} (hkey : s.bays[b].lattice.keys[i] = some k)
    (hchecking : k.checking = true) : Runs (.keyCheckComplete b ⟨i, clean⟩) s (fun t =>
      (∀ j : PortId, j ≠ i → (t.bays[b]).lattice.keys[j] = s.bays[b].lattice.keys[j]) ∧
      if shake256 (dramRead s.bays[b].mem k.region k.len) 64 = k.digest then
        (t.bays[b]).lattice.keys[i] = some { k with checking := false } ∧ completes s t k.h 0 [] ∧ t.dbkIn = s.dbkIn
      else (t.bays[b]).lattice.keys[i] = none ∧ completes s t k.h 0x7007 [] ∧ oneEntry s t 0x7007) := by
  refine ⟨_, exec_keyCheckComplete hkey hchecking, ?_⟩
  unfold keyChecked
  split
  · simp only [complete_bays, complete_dbkIn]
    exact ⟨fun j hj => setKey_other s b _ hj, setKey_same s b i _, completes_complete (setKey s b i _) k.h 0 [], rfl⟩
  · simp only [complete_bays, oneEntry_complete]
    exact ⟨fun j hj => setKey_other s b _ hj, setKey_same s b i _, completes_complete (logN (setKey s b i none) _ _ _ _ _) k.h _ [], _, rfl, rfl⟩

section KeyUnbind
variable {s : State} {b : BayId} {i : PortId} (h : CmdHdr)

theorem latKeyUnbind_empty (hnone : s.bays[b].lattice.keys[i] = none) :
    Runs (.latKeyUnbind h b.1 i.1) s (fun t => t.bays = s.bays ∧ completes s t h 0x7008 []) := by
  have hrun : exec (.latKeyUnbind h b.1 i.1) s = .next (complete (begun s (.latKeyUnbind h b.1 i.1)) h codeKeyState []) := by
    show execLatKeyUnbind h b.1 i.1 s = _
    simp only [execLatKeyUnbind, finOpt_val, finOpt_port, begun_bays, hnone]
  exact ⟨_, hrun, complete_bays _ _ _ _, completes_begun rfl h _ _⟩

variable {k : LatKey} (hkey : s.bays[b].lattice.keys[i] = some k)
include hkey

theorem latKeyUnbind_checking (hchecking : k.checking = true) :
    Runs (.latKeyUnbind h b.1 i.1) s (fun t => t.bays = s.bays ∧ completes s t h 0x7008 []) := by
  have hrun : exec (.latKeyUnbind h b.1 i.1) s = .next (complete (begun s (.latKeyUnbind h b.1 i.1)) h codeKeyState []) := by
    show execLatKeyUnbind h b.1 i.1 s = _
    simp only [execLatKeyUnbind, finOpt_val, finOpt_port, begun_bays, hkey, hchecking, true_or, or_true, if_true]
  exact ⟨_, hrun, complete_bays _ _ _ _, completes_begun rfl h _ _⟩

theorem latKeyUnbind_drained (hvalid : k.checking = false) (howned : s.bays[b].owner = h.part) (hdrained : stDrained s (.bay b .lat) = true) :
    Runs (.latKeyUnbind h b.1 i.1) s (fun t => completes s t h 0 [] ∧
      (t.bays[b]).lattice.keys[i] = none ∧ ∀ j : PortId, j ≠ i → (t.bays[b]).lattice.keys[j] = s.bays[b].lattice.keys[j]) := by
  have hheld : holdsBay (begun s (.latKeyUnbind h b.1 i.1)) h.part b = true := beq_iff_eq.2 howned
  have hdrained' : stDrained (begun s (.latKeyUnbind h b.1 i.1)) (.bay b .lat) = true := hdrained
  have hrun : exec (.latKeyUnbind h b.1 i.1) s = .next (complete (setKey (begun s (.latKeyUnbind h b.1 i.1)) b i none) h 0 []) := by
    show execLatKeyUnbind h b.1 i.1 s = _
    simp only [execLatKeyUnbind, finOpt_val, finOpt_port, begun_bays, hkey, hvalid, hheld, hdrained', Bool.not_true, Bool.false_eq_true, and_false,
      or_self, if_false]
    rfl
  refine ⟨_, hrun, completes_begun (modLat_qm _ b _) h _ _, ?_⟩
  rw [complete_bays]
  exact ⟨setKey_same _ b i _, fun j hj => setKey_other _ b _ hj⟩

end KeyUnbind

/-- Settles O44: LAT_PARAM_LOAD and LAT_PARAM_UNLOAD update the bays of their mask alike (`modLats_lattice`), and each key command updates one
index (`setKey_same`, `setKey_other`). -/
theorem latticeSetsAndKeysAreLoaded : Obligations.LatticeSetsAndKeysAreLoaded := by
  refine ⟨⟨latParamLoad_loads, ?failed, fun s b p hfirst => paramConstantsComplete_ready hfirst, fun s h mask id howned hmask hfree =>
    latParamUnload_unloads howned hmask hfree⟩, latKeyBind_binds, fun s b i k hkey hchecking => keyCheckComplete_checks hkey hchecking,
    fun s h b i => ⟨?unbinds, latKeyUnbind_empty h, fun k hkey hchecking => latKeyUnbind_checking h hkey hchecking⟩⟩
  case failed => exact fun s h mask len => ⟨_, rfl, complete_bays _ _ _ _, completes_begun rfl h _ _⟩
  case unbinds => exact fun k hkey hvalid howned hdrained => latKeyUnbind_drained h hkey hvalid howned hdrained

end Sys2Proof.Machine

/-! PROOFS. Gathering at a Lattice station (R185, R186, R191 to R193): what the station's checks read, and a tile without a cause taken into a
pipeline's samples or into the group that is being gathered. -/

namespace Sys2Proof.Machine

open Sys2Proof.Said

/-! ## What an update of a station leaves -/

theorem modSt_lattice (s : State) (r : StationRef) (f : Station → Station) (b : BayId) : (modSt s r f).bays[b].lattice = s.bays[b].lattice :=
  modSt_keeps Bay.lattice (fun _ _ _ _ _ _ _ _ => rfl) s r f b

theorem modSt_owner (s : State) (r : StationRef) (f : Station → Station) (b : BayId) : (modSt s r f).bays[b].owner = s.bays[b].owner :=
  modSt_keeps Bay.owner (fun _ _ _ _ _ _ _ _ => rfl) s r f b

theorem getIn_modLat (s : State) (b : BayId) (f : LatSt → LatSt) (p : PortId) : getIn (modLat s b f) (.bay b .lat) p = getIn s (.bay b .lat) p := by
  simp only [getIn, getSt, modLat, modBay_same]

/-! ## Pipelines by their index -/

theorem findPipe_congr {s t : State} {b : BayId} (h : t.bays[b].lattice.pipes = s.bays[b].lattice.pipes) (i : Nat) :
    findPipe t b i = findPipe s b i := by
  rw [findPipe, h, findPipe]

theorem findPipe_putPipe {s : State} {b : BayId} {i : Nat} {d : Pipe} (h : findPipe s b i = some d) (q : Pipe) :
    findPipe (putPipe s b i q) b i = some q := by
  obtain ⟨hlt, -⟩ := List.getElem?_eq_some_iff.1 h
  rw [findPipe, putPipe, modLat_same]
  exact List.getElem?_set_self hlt

/-- A pipeline is put back, and the station's counters move on. -/
theorem findPipe_modLat_putPipe {s : State} {b : BayId} {i : Nat} {d : Pipe} (h : findPipe s b i = some d) (q : Pipe) {f : LatSt → LatSt}
    (hf : ∀ l, (f l).pipes = l.pipes) : findPipe (modLat (putPipe s b i q) b f) b i = some q := by
  refine (findPipe_congr ?_ i).trans (findPipe_putPipe h q)
  rw [modLat_same, hf]

/-- The pipeline of a port is found by its index. -/
theorem findPipe_of_port {s : State} {b : BayId} {p i : Nat} {d : Pipe} (h : pipeOfPort s b p = some (i, d)) : findPipe s b i = some d := by
  obtain ⟨⟨e, j⟩, hfound, heq⟩ := Option.map_eq_some_iff.1 h
  obtain ⟨rfl, rfl⟩ := Prod.mk.inj heq
  exact List.mem_zipIdx_iff_getElem?.1 (List.mem_of_find?_eq_some hfound)

/-! ## What the checks of a tile read -/

/-- What the checks of a Lattice station read is in `t` as in `s`: its sets, keys and pipelines, the bay's owner, jobs and images. -/
structure SameLattice (s t : State) (b : BayId) : Prop where
  lattice : t.bays[b].lattice = s.bays[b].lattice
  owner : t.bays[b].owner = s.bays[b].owner
  rot : t.rot = s.rot
  sch : t.sch = s.sch

theorem sameLattice_modSt (s : State) (r : StationRef) (f : Station → Station) (b : BayId) : SameLattice s (modSt s r f) b :=
  ⟨modSt_lattice s r f b, modSt_owner s r f b, modSt_rot s r f, modSt_sch s r f⟩

theorem sameLattice_noteTurn (s : State) (r : StationRef) (p : PortId) (l : List PortId) (b : BayId) : SameLattice s (noteTurn s r p l) b := by
  unfold noteTurn
  exact sameLattice_modSt s r _ b

section SameLattice
variable {s t : State} {b : BayId} (h : SameLattice s t b)
include h

theorem SameLattice.psetOf (id : Nat) : psetOf t b id = psetOf s b id := by rw [Machine.psetOf, h.lattice, Machine.psetOf]

theorem SameLattice.latKey : latKey t b = latKey s b := by
  funext i
  rw [Machine.latKey, Machine.latKey, h.lattice]

theorem SameLattice.pipeOfPort (p : Nat) : pipeOfPort t b p = pipeOfPort s b p := by rw [Machine.pipeOfPort, h.lattice, Machine.pipeOfPort]

theorem SameLattice.areaSmall (i : Nat) (d : PipeDesc) : areaSmall t b i d = areaSmall s b i d := by
  have himage : runningImage t s.bays[b].owner = runningImage s s.bays[b].owner := by simp only [runningImage, h.sch]
  simp only [Machine.areaSmall, h.psetOf, pipeRegions, imagePipes, h.owner, himage]

theorem SameLattice.streamFails (d : PipeDesc) (small : Bool) (hdr : TileHdr) (tag : Option W32) :
    streamFails t b d small hdr tag = streamFails s b d small hdr tag := by
  have hfits : keyFits t b d = keyFits s b d := by
    funext o
    simp only [keyFits, h.latKey]
  have htag : expectedTag t b d = expectedTag s b d := by simp only [expectedTag, h.latKey]
  simp only [Machine.streamFails, h.psetOf, htag, hfits]

theorem SameLattice.modsOf (job : W32) : modsOf t t.bays[b].owner job = modsOf s s.bays[b].owner job := by
  rw [modsOf_congr h.rot, h.owner]

theorem SameLattice.latCauses (i : Nat) (d : Pipe) (x : LatIn) (onB : Bool) (tl : Tile) :
    latCauses t b i d x onB tl = latCauses s b i d x onB tl := by
  have hread : readsPayload t (.bay b .lat) tl = readsPayload s (.bay b .lat) tl := congrArg (fun m => !tl.hdr.poison && hdrOk m tl.hdr) (h.modsOf _)
  simp only [Machine.latCauses, hread, h.psetOf, h.modsOf, h.areaSmall, h.streamFails]

theorem SameLattice.portCauses {p : PortId} (hin : getIn t (.bay b .lat) p = getIn s (.bay b .lat) p) (tl : Tile) :
    portCauses t (.bay b .lat) p tl = portCauses s (.bay b .lat) p tl := by
  have hmods : Machine.modsOf t (stOwner t (.bay b .lat)) tl.hdr.job = Machine.modsOf s (stOwner s (.bay b .lat)) tl.hdr.job := h.modsOf _
  rw [Machine.portCauses, hin, hmods, Machine.portCauses]

end SameLattice

/-! ## A token that the station takes -/

/-- The front token of a port is of pipeline `i`, without a cause or poison. -/
structure Gathers (s : State) (b : BayId) (p : PortId) (tok : Token) (rest : List Token) (i : Nat) (d : Pipe) : Prop where
  held : (getIn s (.bay b .lat) p).held = tok :: rest
  pipe : pipeOfPort s b p.1 = some (i, d)
  portCauses : portCauses s (.bay b .lat) p tok.tile = []
  unpoisoned : tok.tile.hdr.poison = false

/-- The front token of a Lattice port is off it. -/
def latTaken (s : State) (b : BayId) (p : PortId) (t : Tile) (rest : List Token) : State := tokenTaken s p (.bay b .lat) t rest

theorem latTaken_lattice (s : State) (b c : BayId) (p : PortId) (t : Tile) (rest : List Token) :
    (latTaken s b p t rest).bays[c].lattice = s.bays[c].lattice := by
  rw [latTaken, tokenTaken, logCauses_noCause]
  exact (modSt_lattice _ _ _ c).trans (modSt_lattice s _ _ c)

/-- A slot goes back, and the station waits for what it waits for. -/
def latSlotBack (s : State) (b : BayId) (p : PortId) (k : Nat) : State := updWait (returnSlot s (.bay b .lat) p k) (.bay b .lat)

theorem latSlotBack_lattice (s : State) (b c : BayId) (p : PortId) (k : Nat) : (latSlotBack s b p k).bays[c].lattice = s.bays[c].lattice := by
  refine (modSt_lattice _ _ _ c).trans ?_
  unfold returnSlot
  split
  · exact modSt_lattice s _ _ c
  · rfl

/-- What is left when the front token is taken, its pipeline is `q`, the station's counters have moved on and the slot is back. -/
def gathered (s : State) (b : BayId) (p : PortId) (tok : Token) (rest : List Token) (i : Nat) (q : Pipe) (f : LatSt → LatSt) : State :=
  latSlotBack (modLat (putPipe (latTaken s b p tok.tile rest) b i q) b f) b p tok.slot

section Gathered
variable (s : State) (b : BayId) (p : PortId) (tok : Token) (rest : List Token) (i : Nat) (q : Pipe) (f : LatSt → LatSt)

theorem gathered_held : (getIn (gathered s b p tok rest i q f) (.bay b .lat) p).held = rest := by
  rw [gathered, latSlotBack, (sameButWaits_updWait _ _).getIn, (returnSlot_port _ _ p _).1, getIn_modLat, putPipe, getIn_modLat, latTaken,
    getIn_tokenTaken_held]

theorem gathered_dbkIn : (gathered s b p tok rest i q f).dbkIn = s.dbkIn := by
  rw [gathered, latSlotBack, updWait, modSt_dbkIn, returnSlot_dbkIn, modLat_dbkIn, putPipe, modLat_dbkIn, latTaken, tokenTaken_dbkIn]

theorem gathered_pipe {d : Pipe} (hpipe : pipeOfPort s b p.1 = some (i, d)) (hf : ∀ l, (f l).pipes = l.pipes) :
    findPipe (gathered s b p tok rest i q f) b i = some q := by
  have htaken : findPipe (latTaken s b p tok.tile rest) b i = some d :=
    (findPipe_congr (congrArg LatSt.pipes (latTaken_lattice s b b p tok.tile rest)) i).trans (findPipe_of_port hpipe)
  refine (findPipe_congr ?_ i).trans (findPipe_modLat_putPipe htaken q hf)
  rw [gathered, latSlotBack_lattice]

end Gathered

section Gathers
variable {s : State} {b : BayId} {p : PortId} {tok : Token} {rest : List Token} {i : Nat} {d : Pipe} (hg : Gathers s b p tok rest i d)
include hg

/-- The turn that serves the port leaves that. -/
theorem Gathers.noteTurn (l : List PortId) : Gathers (noteTurn s (.bay b .lat) p l) b p tok rest i d := by
  have hsame := sameLattice_noteTurn s (.bay b .lat) p l b
  exact ⟨(congrArg InPort.held (getIn_noteTurn s p _ l p)).trans hg.held, (hsame.pipeOfPort p.1).trans hg.pipe,
    (hsame.portCauses (getIn_noteTurn s p _ l p) tok.tile).trans hg.portCauses, hg.unpoisoned⟩

/-- No cause comes up where the station's own checks find none. -/
theorem Gathers.tileCauses_nil : tileCauses s (.bay b .lat) p tok.tile [] = ([], none) := by
  simp [tileCauses, hg.portCauses, hg.unpoisoned, pickCause]

theorem Gathers.takeTok : takeTok (logCauses s (.bay b .lat) p tok.tile []) (.bay b .lat) p = some (tok, latTaken s b p tok.tile rest) :=
  takeTok_noCause s p hg.held

/-- LATTICE_GATHER in the port's turn. -/
theorem Gathers.exec (hfire : mayFire s (.bay b .lat) = true) (hmay : mayGather s b d p.1 = true)
    (hturn : inTurn s (.bay b .lat) p (latReady s b) = true) : exec (.latticeGather b p) s =
      .next (updWait (latGather (Machine.noteTurn s (.bay b .lat) p (latReady s b)) b p none) (.bay b .lat)) := by
  show execLatticeGather b p s = _
  simp only [execLatticeGather, hg.pipe, hfire, hmay, hturn, hg.held, Bool.and_self, if_true, List.isEmpty_cons, Bool.false_eq_true, if_false]

end Gathers

/-! ## Samples (R185, R193) -/

/-- The pipeline with the samples of a tile behind those it has; none of them carries a cause. -/
def sampled (d : Pipe) (t : Tile) : Pipe := { d with samples := d.samples ++ (readElems t.payload 0 8 t.hdr.count).map (fun v => (v, 0)) }

theorem modLat_id (s : State) (b : BayId) : modLat s b id = s := modBay_eq_self s b _ rfl

/-- A tile on in_s without a cause. -/
theorem latGather_samples {s : State} {b : BayId} {p : PortId} {tok : Token} {rest : List Token} {i : Nat} {d : Pipe}
    (hg : Gathers s b p tok rest i d) (hport : p.1 = d.d.inS) (hring : tok.tile.hdr.ring = 2) (htype : tok.tile.hdr.etype = 1)
    (hshape : payloadShapeOk 8 tok.tile = true) :
    updWait (latGather s b p none) (.bay b .lat) = gathered s b p tok rest i (sampled d tok.tile) id := by
  have hpipe : pipeOfPort s b d.d.inS = some (i, d) := hport ▸ hg.pipe
  simp [latGather, gathered, latSlotBack, sampled, modLat_id, hg.held, hpipe, hport, hring, htype, hshape, hg.tileCauses_nil, hg.takeTok]

/-! ## A ciphertext's tile (R186, R191, R192) -/

theorem addLimb_bound (g : LatGroup) (limb : Nat) (h : TileHdr) (es : List Nat) : (addLimb g limb h es).bound = g.bound := by
  unfold addLimb
  split
  · rfl
  · split <;> rfl

/-- The group that is being gathered, with a tile's elements and what its header says. -/
def groupWith (x : LatIn) (level : Nat) (t : Tile) (size : Nat) (made : List Nat) (outTag : W32) : LatGroup :=
  let g := addLimb x.cur (x.k % level) t.hdr (readElems t.payload 0 size t.hdr.count)
  { g with
    copied := if g.copied ≠ 0 then g.copied else 0
    made := g.made ++ x.fail ++ made
    bound := max x.cur.bound t.hdr.noiseBound
    noised := g.noised || t.hdr.noised
    last := t.hdr.last
    job := t.hdr.job
    tag := if x.k = 0 then t.hdr.keyTag else x.tag
    outTag := if x.k = 0 then outTag else x.outTag }

/-- The input, with one tile of its stream more and `g` for the group that is being gathered. -/
def inputWith (x : LatIn) (t : Tile) (own : List Nat) (outTag : W32) (g : LatGroup) : LatIn :=
  { k := x.k + 1, fail := x.fail ++ own, tag := if x.k = 0 then t.hdr.keyTag else x.tag, outTag := if x.k = 0 then outTag else x.outTag,
    base := if x.k = 0 then t.hdr.sliceOffset else x.base, cur := g }

/-- A tile that is not poisoned completes its group if it is the last, or its limb is the last of the last position. -/
theorem gatherTile_eq (x : LatIn) (level gp : Nat) {t : Tile} (made own : List Nat) (size : Nat) (tag : W32) (hpoison : t.hdr.poison = false) :
    gatherTile x level gp t made own size tag =
      if t.hdr.last = true ∨ x.k % level + 1 = level ∧ (groupWith x level t size made tag).poss.length = gp then
        ({ inputWith x t own tag {} with k := if t.hdr.last then 0 else x.k + 1, fail := if t.hdr.last then [] else x.fail ++ own },
          some (groupWith x level t size made tag))
      else (inputWith x t own tag (groupWith x level t size made tag), none) := by
  simp only [gatherTile, hpoison, Bool.false_eq_true, if_false, addLimb_bound, Bool.or_eq_true, Bool.and_eq_true, beq_iff_eq]
  rfl

theorem gatherTile_gathers (x : LatIn) (level gp : Nat) {t : Tile} (made own : List Nat) (size : Nat) (tag : W32) (hpoison : t.hdr.poison = false) :
    let r := gatherTile x level gp t made own size tag
    ∃ g : LatGroup, g.poss = (addLimb x.cur (x.k % level) t.hdr (readElems t.payload 0 size t.hdr.count)).poss ∧
      g.bound = max x.cur.bound t.hdr.noiseBound ∧ g.last = t.hdr.last ∧ r.1.k = (if t.hdr.last then 0 else x.k + 1) ∧
      if t.hdr.last = true ∨ x.k % level + 1 = level ∧ g.poss.length = gp then r.2 = some g ∧ r.1.cur = {} else r.2 = none ∧ r.1.cur = g := by
  intro r
  have hr : r = _ := gatherTile_eq x level gp made own size tag hpoison
  refine ⟨groupWith x level t size made tag, rfl, rfl, rfl, ?_⟩
  split at hr
  · next hdone =>
    rw [hr, if_pos hdone]
    exact ⟨rfl, rfl, rfl⟩
  · next hmore =>
    have hlast : t.hdr.last = false := by simpa using fun h => hmore (.inl h)
    rw [hr, if_neg hmore, hlast]
    exact ⟨rfl, rfl, rfl⟩

/-- The pipeline after a tile on in_a, with what the tile makes of the input. -/
def tookOnA (d : Pipe) (t : Tile) (r : LatIn × Option LatGroup) : Pipe :=
  { d with a := r.1, readyA := d.readyA ++ r.2.toList, tags := if d.a.k = 0 ∧ d.d.inB ≠ 0xFF then d.tags ++ [t.hdr.keyTag] else d.tags }

/-- A tile on in_a without a cause: the pipeline takes it in, and of the station no more than a counter changes. -/
theorem latGather_onA {s : State} {b : BayId} {p : PortId} {tok : Token} {rest : List Token} {i : Nat} {d : Pipe} {r : Ring}
    (hg : Gathers s b p tok rest i d) (hB : p.1 ≠ d.d.inB) (hS : p.1 ≠ d.d.inS) (hcauses : latCauses s b i d d.a false tok.tile = [])
    (hring : ringOf (modsOf s s.bays[b].owner tok.tile.hdr.job) tok.tile.hdr.ring = some r) :
    ∃ f : LatSt → LatSt, (∀ l, (f l).pipes = l.pipes) ∧ updWait (latGather s b p none) (.bay b .lat) = gathered s b p tok rest i
      (tookOnA d tok.tile (gatherTile d.a d.d.levelIn (groupShape (psetOf s b d.d.paramSet)).1 tok.tile [] [] r.size
        (outputTag s b d.d tok.tile.hdr.keyTag))) f := by
  refine ⟨fun l => { l with mismatch := if (if d.a.k = 0 then (streamFails s b d.d (areaSmall s b i d.d) tok.tile.hdr none).length else 0) = 0
    then l.mismatch else l.mismatch + 1 }, fun _ => rfl, ?_⟩
  have hring' : ringOf (modsOf s s.bays[b.1].owner tok.tile.hdr.job) tok.tile.hdr.ring = some r := hring
  simp [latGather, gathered, latSlotBack, tookOnA, hg.held, hg.pipe, hB, hS, hcauses, hring', hg.tileCauses_nil, hg.takeTok, tagWanted]

theorem latticeGather_samples {s : State} {b : BayId} {p : PortId} {tok : Token} {rest : List Token} {i : Nat} {d : Pipe}
    (hg : Gathers s b p tok rest i d) (hfire : mayFire s (.bay b .lat) = true) (hmay : mayGather s b d p.1 = true)
    (hturn : inTurn s (.bay b .lat) p (latReady s b) = true) (hport : p.1 = d.d.inS) (hring : tok.tile.hdr.ring = 2)
    (htype : tok.tile.hdr.etype = 1) (hshape : payloadShapeOk 8 tok.tile = true) :
    Runs (.latticeGather b p) s (fun t => (getIn t (.bay b .lat) p).held = rest ∧ t.dbkIn = s.dbkIn ∧
      findPipe t b i = some (sampled d tok.tile)) := by
  have hg' := hg.noteTurn (latReady s b)
  have hrun := hg.exec hfire hmay hturn
  rw [latGather_samples hg' hport hring htype hshape] at hrun
  exact ⟨_, hrun, gathered_held _ _ _ _ _ _ _ _, (gathered_dbkIn _ _ _ _ _ _ _ _).trans (modSt_dbkIn s _ _),
    gathered_pipe _ _ _ _ _ _ _ _ hg'.pipe fun _ => rfl⟩

theorem latticeGather_onA {s : State} {b : BayId} {p : PortId} {tok : Token} {rest : List Token} {i : Nat} {d : Pipe} {r : Ring}
    (hg : Gathers s b p tok rest i d) (hfire : mayFire s (.bay b .lat) = true) (hmay : mayGather s b d p.1 = true)
    (hturn : inTurn s (.bay b .lat) p (latReady s b) = true) (hB : p.1 ≠ d.d.inB) (hS : p.1 ≠ d.d.inS)
    (hcauses : latCauses s b i d d.a false tok.tile = []) (hring : ringOf (modsOf s s.bays[b].owner tok.tile.hdr.job) tok.tile.hdr.ring = some r) :
    ∃ tag, Runs (.latticeGather b p) s (fun t => (getIn t (.bay b .lat) p).held = rest ∧ t.dbkIn = s.dbkIn ∧
      findPipe t b i = some (tookOnA d tok.tile
        (gatherTile d.a d.d.levelIn (groupShape (psetOf s b d.d.paramSet)).1 tok.tile [] [] r.size tag))) := by
  have hsame := sameLattice_noteTurn s (.bay b .lat) p (latReady s b) b
  have hg' := hg.noteTurn (latReady s b)
  obtain ⟨f, hf, hgather⟩ := latGather_onA hg' hB hS ((hsame.latCauses i d d.a false tok.tile).trans hcauses)
    ((congrArg (fun m => ringOf m _) (hsame.modsOf _)).trans hring)
  have hrun := hg.exec hfire hmay hturn
  rw [hgather, hsame.psetOf] at hrun
  exact ⟨_, _, hrun, gathered_held _ _ _ _ _ _ _ _, (gathered_dbkIn _ _ _ _ _ _ _ _).trans (modSt_dbkIn s _ _),
    gathered_pipe _ _ _ _ _ _ _ _ hg'.pipe hf⟩

end Sys2Proof.Machine

/-! PROOFS. Computing and emission at a Lattice station (R185, R186, R194, R195, R199): one operation run to its end, LADD of one ciphertext at
level 1, NOISE_ADD with its samples, a tile of the finished group passed; then O45. -/

namespace Sys2Proof.Machine

open Sys2Proof.Said

/-! ## One operation on a ciphertext (R186, R199) -/

/-- A ciphertext after an operation that uses no key, with its samples. -/
def ranOp (x : ParamSet) (o : Nat × Nat × Nat) (r : LatRun) (xs : List (Nat × Nat)) : LatRun :=
  let level := if o.1 = 2 then o.2.2 else r.level
  { r with
    ct := opCt x o r [] (xs.map (·.1))
    ops := []
    level := level
    bound := opBound x o r.level r.bound
    spent := r.spent || decide (((x.limbs[level - 1]?).map (·.limit)).getD 0 ≤ opBound x o r.level r.bound) }

/-- The work on a group whose last ciphertext has run its last operation: the causes that its samples bring are the group's. -/
def workDone (d : PipeDesc) (w : LatWork) (r : LatRun) (xs : List (Nat × Nat)) : LatWork :=
  { w with
    now := none
    done := w.done ++ [r]
    copied := w.copied ++ (((xs.map (·.2)).find? (fun c => c != 0 && c < madeMark)).map (fun c => (d.inS, c))).toList
    made := w.made ++ ((xs.map (·.2)).filter (fun c => madeMark ≤ c)).dedup.map (· - madeMark) }

theorem latRun_oneOp (s : State) (b : BayId) (x : ParamSet) (d : PipeDesc) {w : LatWork} {r : LatRun} {o : Nat × Nat × Nat} (hnow : w.now = some r)
    (hops : r.ops = [o]) (hkeyless : ¬ (o.1 = 4 ∨ o.1 = 5)) {sm : List (Nat × Nat)} (hsamples : opNeeds x o ≤ sm.length) (m : Nat) :
    latRun s b x d 2 w sm m =
      (workDone d w (ranOp x o r (sm.take (opNeeds x o))) (sm.take (opNeeds x o)), sm.drop (opNeeds x o), m + opMuls x o r.level) := by
  simp only [latRun, hnow, hops, if_neg (Nat.not_lt.2 hsamples), if_neg hkeyless, Bool.false_eq_true, if_false, List.append_nil]
  rfl

/-! ## A group that is finished -/

/-- The pipeline whose group `w` is finished: its output tiles wait for their emission. -/
def groupFinished (d : Pipe) (w : LatWork) (sm : List (Nat × Nat)) (x : ParamSet) : Pipe :=
  { d with
    cur := none
    samples := sm
    outQ := groupOut d w (some x)
    outIdx := if w.last then 0 else d.outIdx + (groupOut d w (some x)).length
    outCts := max 1 w.done.length }

theorem latStep_finished {s : State} {b : BayId} {i : Nat} {d : Pipe} {w w1 : LatWork} {x : ParamSet} {sm : List (Nat × Nat)} {m : Nat}
    (hpset : psetOf s b d.d.paramSet = some x) (hrun : latRun s b x d.d (d.d.ops.length + 1) w d.samples 0 = (w1, sm, m)) (hnow : w1.now = none)
    (htodo : w1.todo = []) :
    latStep s b i d w = modLat (putPipe s b i (groupFinished d w1 sm x)) b (fun l => latCount l w1 m) := by
  simp only [latStep, hpset, hrun, hnow, htodo, Option.isNone_none, List.isEmpty_nil, Bool.and_self, if_true]
  rfl

/-- Nothing is emitted by it, and the pipeline is found so. -/
theorem groupFinished_kept {s : State} {b : BayId} {i : Nat} {d : Pipe} (hpipe : findPipe s b i = some d) (q : Pipe) (w : LatWork) (m : Nat) :
    (modLat (putPipe s b i q) b (fun l => latCount l w m)).bays[b].lattice.cts = s.bays[b].lattice.cts ∧
      findPipe (modLat (putPipe s b i q) b (fun l => latCount l w m)) b i = some q := by
  refine ⟨?_, findPipe_modLat_putPipe hpipe q fun _ => rfl⟩
  rw [modLat_same, putPipe, modLat_same]
  rfl

/-! ## The tiles of a finished group (R180, R194) -/

/-- The level of a pipeline's outputs. -/
def outLevel (d : PipeDesc) : Nat := (opLevels d.levelIn d.ops).foldl (fun _ o => if o.1.1 = 2 then o.1.2.2 else o.2) d.levelIn

theorem groupOut_length (d : Pipe) (w : LatWork) (ps : Option ParamSet) : (groupOut d w ps).length = w.g.poss.length * outLevel d.d := by
  simp [groupOut, outLevel, List.length_flatMap]

theorem groupOut_noised {d : Pipe} (w : LatWork) (ps : Option ParamSet) (hnoise : d.d.ops.any (fun o => o.1 == 3) = true) :
    ∀ e ∈ groupOut d w ps, e.1.hdr.noised = true := by
  intro e he
  obtain ⟨q, -, he⟩ := List.mem_flatMap.1 he
  obtain ⟨k, -, rfl⟩ := List.mem_map.1 he
  dsimp only
  split <;> simp [poisonTile, hnoise]

/-! ## LADD of one ciphertext at level 1 (R179, R195) -/

/-- A ciphertext of one limb: the `n` coefficients of each component. -/
def ctOf (n : Nat) (es : List Nat) : Ct := { c0 := [es.take n], c1 := [es.drop n] }

theorem getD_chunks_of_full {n : Nat} (hn : 0 < n) (l : List Nat) (i : Nat) (z : List Nat) (hfull : n * (i + 1) ≤ l.length) :
    (chunks n l).getD i z = (l.drop (n * i)).take n := by
  have hget := getD_chunks n hn l i
  have hlen : ((chunks n l).getD i []).length = n := by
    rw [hget, List.length_take, List.length_drop]
    rw [Nat.mul_succ] at hfull
    omega
  cases hsome : (chunks n l)[i]? with
  | none =>
    rw [List.getD_eq_getElem?_getD, hsome] at hlen
    simp at hlen
    omega
  | some c => rw [← hget, List.getD_eq_getElem?_getD, List.getD_eq_getElem?_getD, hsome, Option.getD_some, Option.getD_some]

theorem groupCts_one {g : LatGroup} {pos : LatPos} {es : List Nat} {n : Nat} (hn : 0 < n) (hpos : g.poss = [pos]) (hlimbs : pos.limbs = [es])
    (hcount : es.length = pos.count) (hlen : es.length = 2 * n) : groupCts g 1 n 1 = [ctOf n es] := by
  have hflat : (g.poss.flatMap fun p => p.limbs.getD 0 [] ++ List.replicate (p.count - (p.limbs.getD 0 []).length) 0) = es := by
    simp [hpos, hlimbs, hcount]
  have hc0 : (chunks n es).getD 0 (List.replicate n 0) = es.take n := by
    rw [getD_chunks_of_full hn es 0 _ (by omega), Nat.mul_zero, List.drop_zero]
  have hc1 : (chunks n es).getD 1 (List.replicate n 0) = es.drop n := by
    rw [getD_chunks_of_full hn es 1 _ (by omega), Nat.mul_one, List.take_of_length_le (by rw [List.length_drop]; omega)]
  simp only [groupCts, List.range_one, List.map_cons, List.map_nil, Nat.mul_zero, Nat.zero_add, hflat, hc0, hc1, ctOf]

/-- Sums of elements modulo a limb's prime. -/
def addMod (q : Nat) (u v : List Nat) : List Nat := u.zipWith (fun a b => (a + b) % q) v

theorem polyAdd_eq_addMod (q : Nat) (u v : List Nat) : polyAdd q u v = addMod q u v := by
  simp [polyAdd, addMod, List.zip, List.map_zipWith]

theorem laddCt_one {x : ParamSet} {l : Limb} (hlimb : x.limbs.head? = some l) (n : Nat) (u v : List Nat) :
    laddCt x 1 (ctOf n u) (ctOf n v) = ctOf n (addMod l.m u v) := by
  rw [List.head?_eq_getElem?] at hlimb
  simp [laddCt, ctOf, hlimb, polyAdd_eq_addMod, addMod, List.take_zipWith, List.drop_zipWith]

/-- One position of a group holds one ciphertext at level 1, and both inputs have one that is clean; their sum is within its limb's limit. -/
structure LaddReady (d : Pipe) (x : ParamSet) (l : Limb) (ga gb : LatGroup) (pa pb : LatPos) (ea eb : List Nat) : Prop where
  readyA : d.readyA = [ga]
  readyB : d.readyB = [gb]
  two : d.d.inB ≠ 0xFF
  ops : d.d.ops = [(1, 0, 0)]
  level : d.d.levelIn = 1
  limb : x.limbs.head? = some l
  fits : denseCap (setSize x) ≤ 2 ^ (x.logn + 1)
  posA : ga.poss = [pa]
  posB : gb.poss = [pb]
  limbsA : pa.limbs = [ea]
  limbsB : pb.limbs = [eb]
  count : pa.count = 2 ^ (x.logn + 1)
  countB : pb.count = pa.count
  lenA : ea.length = pa.count
  lenB : eb.length = pa.count
  notCopiedA : ga.copied = 0
  notCopiedB : gb.copied = 0
  notMadeA : ga.made = []
  notMadeB : gb.made = []
  bound : max ga.bound gb.bound + 256 < l.limit
  limit : l.limit < 2 ^ 16

/-- The work on the pair of ciphertexts as it begins. -/
def laddWork (x : ParamSet) (ga gb : LatGroup) (ea eb : List Nat) : LatWork where
  g := ga
  copied := []
  made := []
  bound := max ga.bound gb.bound + 256
  last := ga.last && gb.last
  noised := ga.noised || gb.noised
  todo := [(ctOf (2 ^ x.logn) ea, some (ctOf (2 ^ x.logn) eb))]

/-- The pipeline as it begins the work. -/
def laddPipe (d : Pipe) (x : ParamSet) (ga gb : LatGroup) (ea eb : List Nat) : Pipe :=
  { d with readyA := [], readyB := [], cur := some (laddWork x ga gb ea eb) }

/-- The ciphertext in hand, with that of the other input. -/
def laddRun (x : ParamSet) (ga gb : LatGroup) (ea eb : List Nat) : LatRun where
  ct := ctOf (2 ^ x.logn) ea
  other := some (ctOf (2 ^ x.logn) eb)
  ops := [(1, 0, 0)]
  level := 1
  bound := max ga.bound gb.bound + 256
  spent := false

/-- The work with the pair in hand. -/
def laddBegun (x : ParamSet) (ga gb : LatGroup) (ea eb : List Nat) : LatWork :=
  { laddWork x ga gb ea eb with todo := [], now := some (laddRun x ga gb ea eb) }

/-- The sum. -/
def laddSum (x : ParamSet) (l : Limb) (ga gb : LatGroup) (ea eb : List Nat) : LatRun where
  ct := ctOf (2 ^ x.logn) (addMod l.m ea eb)
  other := some (ctOf (2 ^ x.logn) eb)
  ops := []
  level := 1
  bound := max ga.bound gb.bound + 256
  spent := false

/-- The header of the sum. -/
def laddHdr (d : Pipe) (x : ParamSet) (ga gb : LatGroup) (pa : LatPos) : TileHdr where
  ring := 0x40
  etype := if setSize x = 4 then 0 else 1
  job := ga.job
  tileIndex := d.outIdx
  sliceOffset := pa.off
  count := pa.count
  last := ga.last && gb.last
  noiseBound := max ga.bound gb.bound + 256
  paramSet := d.d.paramSet
  keyTag := ga.outTag
  noised := ga.noised || gb.noised

/-- The work on the group when its sum is there. -/
def laddDone (x : ParamSet) (l : Limb) (ga gb : LatGroup) (ea eb : List Nat) : LatWork :=
  { laddWork x ga gb ea eb with todo := [], done := [laddSum x l ga gb ea eb] }

section Ladd
variable {d : Pipe} {x : ParamSet} {l : Limb} {ga gb : LatGroup} {pa pb : LatPos} {ea eb : List Nat} (hl : LaddReady d x l ga gb pa pb ea eb)
include hl

theorem LaddReady.length : ea.length = 2 * 2 ^ x.logn ∧ eb.length = 2 * 2 ^ x.logn := by
  have hdouble : pa.count = 2 * 2 ^ x.logn := by rw [hl.count, Nat.pow_succ, Nat.mul_comm]
  exact ⟨hl.lenA.trans hdouble, hl.lenB.trans hdouble⟩

theorem LaddReady.latBegin {s : State} {b : BayId} (hpset : psetOf s b d.d.paramSet = some x) :
    latBegin s b d = some (laddPipe d x ga gb ea eb) := by
  obtain ⟨hlenA, hlenB⟩ := hl.length
  have hn : 0 < 2 ^ x.logn := Nat.two_pow_pos _
  have hshape : (groupShape (some x)).2 = 1 := by simp only [groupShape, if_pos hl.fits]
  have hctsA : groupCts ga d.d.levelIn (2 ^ x.logn) 1 = [ctOf (2 ^ x.logn) ea] := by
    rw [hl.level, groupCts_one hn hl.posA hl.limbsA hl.lenA hlenA]
  have hctsB : groupCts gb d.d.levelIn (2 ^ x.logn) 1 = [ctOf (2 ^ x.logn) eb] := by
    rw [hl.level, groupCts_one hn hl.posB hl.limbsB (hl.lenB.trans hl.countB.symm) hlenB]
  have hbound : satFFFF (max ga.bound gb.bound + 256) = max ga.bound gb.bound + 256 := by
    have hsum := hl.bound
    have hlimit := hl.limit
    exact Nat.min_eq_right (by omega)
  simp only [Machine.latBegin, hl.readyA, hl.readyB, if_neg hl.two, hpset, hshape, if_true, hctsA, hctsB, hbound, hl.notCopiedA, hl.notCopiedB,
    hl.notMadeA, hl.notMadeB, List.append_nil]
  rfl

/-- No key, no sample and no exhausted bound: the operation is the sum. -/
theorem LaddReady.ranOp : ranOp x (1, 0, 0) (laddRun x ga gb ea eb) [] = laddSum x l ga gb ea eb := by
  have hlimb : x.limbs[0]? = some l := List.head?_eq_getElem?.symm.trans hl.limb
  have hsum := laddCt_one hl.limb (2 ^ x.logn) ea eb
  simpa [Machine.ranOp, laddRun, laddSum, opCt, opBound, hlimb, hsum] using hl.bound

theorem LaddReady.groupOut : groupOut d (laddDone x l ga gb ea eb) (some x) =
    [({ hdr := laddHdr d x ga gb pa, payload := writeElems (setSize x) (addMod l.m ea eb) }, 0)] := by
  have hlen : (addMod l.m ea eb).length = pa.count := by rw [addMod, List.length_zipWith, hl.lenA, hl.lenB, Nat.min_self]
  simp [Machine.groupOut, laddDone, laddWork, laddSum, laddHdr, hl.ops, hl.level, hl.posA, opLevels, workCause, copiedCause, pickCause, ctOf,
    List.take_of_length_le hlen.le]

theorem LaddReady.latNext : latNext (laddPipe d x ga gb ea eb) (laddWork x ga gb ea eb) = laddBegun x ga gb ea eb := by
  simp [Machine.latNext, laddPipe, laddBegun, laddWork, laddRun, hl.ops, hl.level]

theorem LaddReady.latRun (s : State) (b : BayId) : latRun s b x d.d (d.d.ops.length + 1) (laddBegun x ga gb ea eb) d.samples 0 =
    (laddDone x l ga gb ea eb, d.samples, 0) := by
  have hone := latRun_oneOp s b x d.d (w := laddBegun x ga gb ea eb) (r := laddRun x ga gb ea eb) (o := (1, 0, 0)) rfl rfl (by decide)
    (sm := d.samples) (Nat.zero_le _) 0
  have hsum : Machine.ranOp x (1, 0, 0) (laddRun x ga gb ea eb) (d.samples.take (opNeeds x (1, 0, 0))) = laddSum x l ga gb ea eb := hl.ranOp
  rw [hl.ops, List.length_singleton, hone, hsum]
  rfl

/-- The computation of the pair, from the gathered groups to the tile that waits for its emission. -/
theorem LaddReady.exec {s : State} {b : BayId} {i : Fin 4} (hpipe : findPipe s b i.1 = some d) (hfire : mayFire s (.bay b .lat) = true)
    (hcur : d.cur = none) (hout : d.outQ = []) (hpset : psetOf s b d.d.paramSet = some x) : exec (.latticeCompute b i) s =
      .next (modLat (putPipe s b i.1 (groupFinished (laddPipe d x ga gb ea eb) (laddDone x l ga gb ea eb) d.samples x)) b
        (fun l' => latCount l' (laddDone x l ga gb ea eb) 0)) := by
  have hbegun : (laddPipe d x ga gb ea eb).cur = some (laddWork x ga gb ea eb) := rfl
  have hstep := latStep_finished (i := i.1) (d := laddPipe d x ga gb ea eb) hpset (hl.latRun s b) rfl rfl
  show execLatticeCompute b i s = _
  simp only [execLatticeCompute, hpipe, hfire, hcur, hout, hl.latBegin hpset, hbegun, hl.latNext, hstep, Bool.not_true, Bool.false_eq_true,
    if_false, ne_eq, not_true_eq_false]

/-- The sum of the two ciphertexts is the only tile of the output. -/
theorem LaddReady.computes {s : State} {b : BayId} {i : Fin 4} (hpipe : findPipe s b i.1 = some d) (hfire : mayFire s (.bay b .lat) = true)
    (hcur : d.cur = none) (hout : d.outQ = []) (hpset : psetOf s b d.d.paramSet = some x) : Runs (.latticeCompute b i) s (fun t =>
      (t.bays[b]).lattice.cts = s.bays[b].lattice.cts ∧ ∃ q : Pipe, findPipe t b i.1 = some q ∧ q.cur = none ∧ q.outCts = 1 ∧
        q.readyA = [] ∧ q.readyB = [] ∧ q.outQ = [({ hdr := laddHdr d x ga gb pa, payload := writeElems (setSize x) (addMod l.m ea eb) }, 0)]) := by
  obtain ⟨hcts, hfound⟩ := groupFinished_kept hpipe (groupFinished (laddPipe d x ga gb ea eb) (laddDone x l ga gb ea eb) d.samples x)
    (laddDone x l ga gb ea eb) 0
  exact ⟨_, hl.exec hpipe hfire hcur hout hpset, hcts, _, hfound, rfl, rfl, rfl, rfl, hl.groupOut⟩

end Ladd

/-! ## NOISE_ADD with its samples (R185, R199) -/

/-- The wait of NOISE_ADD, the last operation of a group's last ciphertext, ends with its N samples, which it uses up. -/
theorem latticeSamplesReady_noise {s : State} {b : BayId} {i : Fin 4} {d : Pipe} {w : LatWork} {r : LatRun} {x : ParamSet} {a c : Nat}
    (hpipe : findPipe s b i.1 = some d) (hfire : mayFire s (.bay b .lat) = true) (hcur : d.cur = some w) (hnow : w.now = some r)
    (hops : r.ops = [(3, a, c)]) (hall : d.d.ops = r.ops) (htodo : w.todo = []) (hpset : psetOf s b d.d.paramSet = some x)
    (hsamples : 2 ^ x.logn ≤ d.samples.length) : Runs (.latticeSamplesReady b i) s (fun t => (t.bays[b]).lattice.cts = s.bays[b].lattice.cts ∧
      ∃ q : Pipe, findPipe t b i.1 = some q ∧ q.cur = none ∧ q.samples = d.samples.drop (2 ^ x.logn) ∧
        q.outQ.length = w.g.poss.length * d.d.levelIn ∧ ∀ e ∈ q.outQ, e.1.hdr.noised = true) := by
  have hops' : d.d.ops = [(3, a, c)] := hall.trans hops
  have hfuel : d.d.ops.length + 1 = 2 := by rw [hops']; rfl
  have hrun := latRun_oneOp s b x d.d hnow hops (by simp) (sm := d.samples) hsamples 0
  rw [← hfuel] at hrun
  have hstep := latStep_finished (i := i.1) hpset hrun rfl htodo
  have hexec : exec (.latticeSamplesReady b i) s = .next (latStep s b i.1 d w) := by
    show execLatticeSamplesReady b i s = _
    simp only [execLatticeSamplesReady, hpipe, hcur, hnow, hfire, Option.isNone_some, Bool.not_true, Bool.or_self, Bool.false_eq_true, if_false]
  rw [hstep] at hexec
  have hkept := groupFinished_kept hpipe
  refine ⟨_, hexec, (hkept _ _ _).1, _, (hkept _ _ _).2, rfl, rfl, ?_, ?_⟩
  · refine (groupOut_length _ _ _).trans ?_
    simp [workDone, outLevel, hops', opLevels]
  · exact groupOut_noised _ _ (by rw [hops']; rfl)

/-! ## A tile of the output passes (R186, R194) -/

/-- A tile that gets its slot leaves every Lattice station and the daybook unit's input. -/
theorem reserveOut_lattice {s u : State} {r : StationRef} {n k : PortId} {t : Tile} {o : Option MsgRef} {tok : Token}
    (h : reserveOut s r n t o = some (k, tok, u)) : (∀ b : BayId, u.bays[b].lattice = s.bays[b].lattice) ∧ u.dbkIn = s.dbkIn := by
  unfold reserveOut spendCredit at h
  split at h
  · cases h
  · next slot s1 hslot =>
    obtain ⟨-, -, rfl⟩ := Option.some.inj h
    split at hslot
    · next c p _ =>
      split at hslot
      · cases hslot
      · obtain rfl : (spendSlot s c p).2 = s1 := congrArg Prod.snd (Option.some.inj hslot)
        exact ⟨fun b => (modSt_lattice _ _ _ b).trans (modSt_lattice _ c _ b), (modSt_dbkIn _ _ _).trans (modSt_dbkIn _ c _)⟩
    · cases hslot

/-- So does a token that passes. -/
theorem passTok_lattice (s : State) (r : StationRef) (n : PortId) (k : Token) (b : BayId) :
    (passTok s r n k).bays[b].lattice = s.bays[b].lattice := by
  have hcount : (modOut s r n (countPassed k)).bays[b].lattice = s.bays[b].lattice := modSt_lattice s r _ b
  unfold passTok
  dsimp only
  split
  · next c p _ =>
    show (fillSlot (modOut s r n (countPassed k)) r c p k).bays[b].lattice = _
    obtain h | ⟨a, -, h⟩ := fillSlot_cases (modOut s r n (countPassed k)) r c p k <;> rw [h]
    · exact hcount
    · exact (modBay_keeps Bay.lattice (fun _ => by rfl) _ a b).trans hcount
  · exact hcount

/-- The pipeline behind its first output tile; the station counts the ciphertexts of a group with its last tile. -/
def emitted (d : Pipe) (rest : List (Tile × Nat)) : Pipe := { d with outQ := rest, outCts := if rest = [] then 0 else d.outCts }
def ctsEmitted (d : Pipe) (rest : List (Tile × Nat)) : LatSt → LatSt :=
  fun l => { l with cts := l.cts + (if rest = [] then word32 d.outCts else 0) }

/-- A tile's token, with the connection's stream and ordinal. -/
def latToken (s : State) (b : BayId) (n : PortId) (tl : Tile) (slot : Nat) : Token where
  tile := { tl with hdr := { tl.hdr with stream := (getOut s (.bay b .lat) n).stream, ordinal := (getOut s (.bay b .lat) n).nextOrd } }
  slot := slot

theorem latEmit_passes {s u : State} {b : BayId} {i : Nat} {d : Pipe} {tl : Tile} {rest : List (Tile × Nat)} {n k : PortId} {tok : Token}
    (hqueue : d.outQ = (tl, 0) :: rest) (hout : d.d.out = 8 + n.1) (hreserved : reserveOut s (.bay b .lat) n tl none = some (k, tok, u)) :
    latEmit s b i d none = modLat (putPipe (passTok u (.bay b .lat) k tok) b i (emitted d rest)) b (ctsEmitted d rest) := by
  have hport : finOpt 8 (d.d.out - 8) = some n := by rw [hout, Nat.add_sub_cancel_left, finOpt_port]
  unfold emitted ctsEmitted
  cases rest with
  | nil => simp [latEmit, hqueue, hport, hreserved]
  | cons e rest => simp [latEmit, hqueue, hport, hreserved]

theorem latticeEmit_passes {s : State} {b : BayId} {i : Fin 4} {d : Pipe} {tl : Tile} {rest : List (Tile × Nat)} {n : PortId}
    {c : StationRef × PortId} (hpipe : findPipe s b i.1 = some d) (hfire : mayFire s (.bay b .lat) = true)
    (hworks : stopping (getSt s (.bay b .lat)) = false) (hqueue : d.outQ = (tl, 0) :: rest) (hout : d.d.out = 8 + n.1)
    (hfeeds : Feeds s (.bay b .lat) n c) : Runs (.latticeEmit b i) s (fun t => Passed s t (.bay b .lat) n c tl.hdr tl.payload ∧
      t.dbkIn = s.dbkIn ∧ findPipe t b i.1 = some (emitted d rest) ∧
      (t.bays[b]).lattice.cts = s.bays[b].lattice.cts + (if rest = [] then word32 d.outCts else 0)) := by
  obtain ⟨slot, u, hreserved, hcons, hflight, -⟩ := reserveOut_some hfeeds tl none
  obtain ⟨hlat, hlog⟩ := reserveOut_lattice hreserved
  have hexec : exec (.latticeEmit b i) s = .next (latEmit s b i.1 d none) := by
    show execLatticeEmit b i s = _
    simp only [execLatticeEmit, hpipe, hworks, hfire, Bool.false_eq_true, if_false, if_true]
  rw [latEmit_passes hqueue hout hreserved] at hexec
  have hpassed := (passTok_lattice u (.bay b .lat) n (latToken s b n tl slot) b).trans (hlat b)
  have hpipe' := (findPipe_congr (congrArg LatSt.pipes hpassed) i.1).trans hpipe
  refine ⟨_, hexec, ⟨latToken s b n tl slot, ?_, rfl, rfl⟩, ?_, findPipe_modLat_putPipe hpipe' _ fun _ => rfl, ?_⟩
  · rw [modLat_tokFlight, putPipe, modLat_tokFlight, passTok_some _ _ _ _ c hcons, hflight]
    rfl
  · rw [modLat_dbkIn, putPipe, modLat_dbkIn, passTok_dbkIn, hlog]
  · rw [modLat_same, putPipe, modLat_same]
    exact congrArg (fun l => l.cts + _) hpassed

/-- Settles O45: a tile without a cause is gathered (`latticeGather_samples`, `latticeGather_onA`), a pair is added (`LaddReady.computes`), NOISE_ADD
ends with its samples (`latticeSamplesReady_noise`), and a tile of the output passes (`latticeEmit_passes`). -/
theorem latticePipelinesGatherComputeEmit : Obligations.LatticePipelinesGatherComputeEmit := by
  refine ⟨?gathers, ?adds, ?noise, ?emits⟩
  case gathers =>
    intro s b p tok rest i d hholds hpipe hmay hturn hcauses hpoison
    obtain ⟨hfire, -, hheld⟩ := hholds
    have hg : Gathers s b p tok rest i d := ⟨hheld, hpipe, hcauses, hpoison⟩
    refine ⟨fun hport hring htype hshape => latticeGather_samples hg hfire hmay hturn hport hring htype hshape, ?_⟩
    intro r _ hB hS hown _ hring limb
    obtain ⟨tag, t, hrun, hleft, hlog, hfound⟩ := latticeGather_onA hg hfire hmay hturn hB hS hown hring
    obtain ⟨g, hposs, hbound, hlast, hk, hdone⟩ :=
      gatherTile_gathers d.a d.d.levelIn (groupShape (psetOf s b d.d.paramSet)).1 [] [] r.size tag hpoison
    refine ⟨t, hrun, hleft, hlog, _, g, hfound, hposs, hbound, hlast, rfl, rfl, hk, ?_⟩
    split at hdone
    · next hfull =>
      obtain ⟨hgroup, hcur⟩ := hdone
      rw [if_pos hfull]
      exact ⟨by rw [tookOnA, hgroup]; rfl, hcur⟩
    · next hmore =>
      obtain ⟨hgroup, hcur⟩ := hdone
      rw [if_neg hmore]
      exact ⟨by rw [tookOnA, hgroup]; exact List.append_nil _, hcur⟩
  case adds =>
    intro s b i d ga gb pa pb ea eb x l hpipe hfire hcur hout hA hB htwo hops hlevel hpset hlimb hfits hposA hposB hlimbsA hlimbsB hcount hcountB
      hlenA hlenB hcopiedA hcopiedB hmadeA hmadeB hbound hlimit
    have hl : LaddReady d x l ga gb pa pb ea eb := ⟨hA, hB, htwo, hops, hlevel, hlimb, hfits, hposA, hposB, hlimbsA, hlimbsB, hcount, hcountB,
      hlenA, hlenB, hcopiedA, hcopiedB, hmadeA, hmadeB, hbound, hlimit⟩
    exact hl.computes hpipe hfire hcur hout hpset
  case noise =>
    intro s b i d w r x a c hpipe hfire hcur hnow hops hall htodo _ hpset hsamples
    exact latticeSamplesReady_noise hpipe hfire hcur hnow hops hall htodo hpset hsamples
  case emits =>
    intro s b i d tl rest n c hpipe hfire hworks hqueue hout hfeeds
    exact latticeEmit_passes hpipe hfire hworks hqueue hout hfeeds

end Sys2Proof.Machine

/-! PROOFS. The entropy source's start-up test while the root of trust still starts (R205, R206, R338): a failure writes two entries; O19 fails by it. -/

namespace Sys2Proof.Machine

open Sys2Proof.Said

/-- The root-of-trust start has neither ended nor failed, so that a failed start-up test fails it (R338). -/
def RotStarting (s : State) : Prop := s.pow.inReset = false ∧ s.rot.ready = false ∧ s.rot.identityErr = false ∧ s.rot.firmwareErr = false

/-- A start-up test that fails writes HEALTH_FAIL and, while the root of trust starts, IDENTITY_FAIL after it. -/
theorem startupTestComplete_failsStart {s : State} {raw : List Bool} (hon : s.rng.srcEn = true) (hstartup : s.rng.startup = true)
    (hlength : raw.length = 1024) (hbad : aptBad raw = true) (hstarting : RotStarting s) :
    Runs (.startupTestComplete raw) s (fun t => t.dbkIn.length = s.dbkIn.length + 2) := by
  obtain ⟨hup, hready, hidentity, hfirmware⟩ := hstarting
  have hwindow : (healthWindow (modRng s (fun g => { g with startup := false })) raw).1 = false := by simp [healthWindow, hbad]
  have hrun : exec (.startupTestComplete raw) s =
      .next (startStepFail (healthWindow (modRng s (fun g => { g with startup := false })) raw).2) := by
    show execStartupTestComplete raw s = _
    simp [execStartupTestComplete, hon, hstartup, hlength, hwindow]
  refine ⟨_, hrun, ?_⟩
  simp [startStepFail, healthWindow, hbad, healthFail, logN, logEv, modRng, hup, hready, hidentity, hfirmware]

/-- 1,024 samples that are all alike. -/
def stuckSamples : List Bool := List.replicate 1024 true

/-- All 1,024 samples of the window are as its first. -/
theorem aptBad_stuckSamples : aptBad stuckSamples = true := by
  have hfirst : stuckSamples.headD false = true := rfl
  have hall : stuckSamples.filter (fun x => x == true) = stuckSamples :=
    List.filter_eq_self.2 fun _ hx => beq_iff_eq.2 (List.eq_of_mem_replicate hx)
  rw [aptBad, hfirst, hall, stuckSamples, List.length_replicate]
  decide

/-- The device is out of reset, and the start-up test and the root-of-trust start run. -/
def startingUp : State := { State.reset with pow := { State.reset.pow with inReset := false } }

/-- Refutes O19: in a device just out of reset a stuck source fails the start-up test, and so step 1 of the root-of-trust start (R338); IDENTITY_FAIL
follows HEALTH_FAIL. The clause on the start-up test asks for exactly one new entry, and does not ask that the root of trust have started. -/
theorem not_entropySourceTestsAndDelivers : ¬ Obligations.EntropySourceTestsAndDelivers := by
  rintro ⟨-, hstartupTest, -⟩
  obtain ⟨t, hrun, -, -, hfails⟩ := hstartupTest startingUp stuckSamples rfl rfl List.length_replicate
  obtain ⟨-, -, -, -, e, hone, -, -⟩ := hfails (by rw [aptBad_stuckSamples, Bool.or_true])
  obtain ⟨t', hrun', htwo⟩ := startupTestComplete_failsStart (s := startingUp) rfl rfl List.length_replicate aptBad_stuckSamples
    ⟨rfl, rfl, rfl, rfl⟩
  obtain rfl : t = t' := Host.Outcome.next.inj (hrun.symm.trans hrun')
  simp [hone] at htwo

end Sys2Proof.Machine

/-! PROOFS. A request to a DRBG (R208, R209): it leaves all but the entropy source and the daybook unit's input, and a DRBG that serves
answers it at once. -/

namespace Sys2Proof.Machine

open Sys2Proof.Said

/-! ## What a request leaves -/

/-- `t` is `s` but for the entropy source and the entries that wait for a daybook. -/
def OnlyRng (s t : State) : Prop := ∃ (r : Rng) (d : List (PartId × Entry)), t = { s with rng := r, dbkIn := d }

theorem OnlyRng.refl (s : State) : OnlyRng s s := ⟨s.rng, s.dbkIn, rfl⟩

theorem OnlyRng.trans {s t u : State} (h : OnlyRng s t) (h' : OnlyRng t u) : OnlyRng s u := by
  obtain ⟨r, d, rfl⟩ := h
  obtain ⟨r', d', rfl⟩ := h'
  exact ⟨r', d', rfl⟩

theorem OnlyRng.bays {s t : State} (h : OnlyRng s t) : t.bays = s.bays := by
  obtain ⟨r, d, rfl⟩ := h
  rfl

theorem OnlyRng.rot {s t : State} (h : OnlyRng s t) : t.rot = s.rot := by
  obtain ⟨r, d, rfl⟩ := h
  rfl

theorem OnlyRng.qm {s t : State} (h : OnlyRng s t) : t.qm = s.qm := by
  obtain ⟨r, d, rfl⟩ := h
  rfl

theorem onlyRng_modDrbg (s : State) (p : PartId) (f : Drbg → Drbg) : OnlyRng s (modDrbg s p f) := ⟨_, s.dbkIn, rfl⟩

theorem onlyRng_drbgReseedWith (s : State) (p : PartId) : OnlyRng s (drbgReseedWith s p) := by
  unfold drbgReseedWith
  split
  · exact ⟨_, s.dbkIn, rfl⟩
  · exact .refl s

theorem onlyRng_drbgGenerate (s : State) (p : PartId) (n : Nat) : OnlyRng s (drbgGenerate s p n).2 := by
  unfold drbgGenerate
  dsimp only
  split
  · exact .refl s
  · split
    · exact onlyRng_modDrbg s p _
    · split
      · exact ⟨_, _, rfl⟩
      · split
        · exact .refl s
        · exact (onlyRng_drbgReseedWith s p).trans (onlyRng_modDrbg _ p _)

theorem onlyRng_drbgFill (p : PartId) (sizes : List Nat) (got : List (List Byte)) (s : State) : OnlyRng s (drbgFill p sizes got s).2 := by
  induction sizes generalizing got s with
  | nil => exact .refl s
  | cons n sizes ih =>
    have hstep := onlyRng_drbgGenerate s p n
    unfold drbgFill
    split
    · next b t hgen =>
      rw [hgen] at hstep
      exact hstep.trans (ih _ t)
    · next t hgen =>
      rw [hgen] at hstep
      exact hstep

theorem onlyRng_drbgServe (s : State) (p : PartId) : OnlyRng s (drbgServe s p).2 := by
  unfold drbgServe
  split
  · exact .refl s
  · next q rest _ =>
    have hfill := onlyRng_drbgFill p q.sizes q.got s
    dsimp only
    split <;> exact hfill.trans (onlyRng_modDrbg _ p _)

theorem onlyRng_drbgAsk (s : State) (p : PartId) (sizes : List Nat) (who : DrbgWait) : OnlyRng s (drbgAsk s p sizes who).2 := by
  have hserve : ∀ f, OnlyRng s (drbgServe (modDrbg s p f) p).2 := fun f => (onlyRng_modDrbg s p f).trans (onlyRng_drbgServe _ p)
  unfold drbgAsk
  dsimp only
  split
  · exact onlyRng_modDrbg s p _
  · split <;> next hgot => exact (congrArg (fun r => OnlyRng s r.2) hgot).mp (hserve _)

/-! ## A request that is served -/

theorem getDrbg_modDrbg (s : State) (p : PartId) (f : Drbg → Drbg) : getDrbg (modDrbg s p f) p = f (getDrbg s p) := vmod_same _ _ _

theorem drbgGenerate_served {s : State} {p : PartId} (hseeded : (getDrbg s p).seeded = true) (hruns : (getDrbg s p).stalled = false)
    (hleft : (getDrbg s p).reqs < drbgLimit) (n : Nat) : ∃ b t, drbgGenerate s p n = (some b, t) := by
  simp [drbgGenerate, hseeded, hruns, hleft]

/-- A DRBG on which nothing waits and that may still generate answers a consumer at once. -/
theorem drbgAsk_served {s : State} {p : PartId} (hserves : Serves s p 1) (n : Nat) (who : DrbgWait) :
    ∃ b t, drbgAsk s p [n] who = (some b, t) ∧ OnlyRng s t := by
  obtain ⟨hseeded, hruns, hidle, hleft⟩ := hserves
  have hwaits := getDrbg_modDrbg s p (fun d => { d with waiting := d.waiting ++ [{ sizes := [n], who := who }] })
  obtain ⟨b, t, hgen⟩ := drbgGenerate_served (s := modDrbg s p (fun d => { d with waiting := d.waiting ++ [{ sizes := [n], who := who }] })) (p := p)
    (by rw [hwaits]; exact hseeded) (by rw [hwaits]; exact hruns) (by rw [hwaits]; exact hleft) n
  have honly := onlyRng_drbgAsk s p [n] who
  have hask : drbgAsk s p [n] who = (some b, modDrbg t p (fun d => { d with waiting := [] })) := by
    simp [drbgAsk, drbgServe, drbgFill, hwaits, hidle, hgen]
  rw [hask] at honly
  exact ⟨b, _, hask, honly⟩

end Sys2Proof.Machine

/-! PROOFS. Noise records and seeds (R211, R213 to R217, R234): what an update of one Noise station or of several leaves, the attempts of a round, a
seed opened over its claims, each command by what it finds; then O46 from them. -/

namespace Sys2Proof.Machine

open Sys2Proof.Said

/-! ## What an update of a Noise station leaves -/

theorem modNoise_noise (s : State) (b c : BayId) (f : NoiseSt → NoiseSt) :
    (modNoise s b f).bays[c].noise = if c = b then f s.bays[c].noise else s.bays[c].noise := by
  by_cases h : c = b
  · subst h
    rw [if_pos rfl, modNoise, modBay_same]
  · rw [if_neg h, modNoise, modBay_other _ _ _ _ h]

/-- The Noise station of the bay of each member of a list is updated by that member, in order. -/
def modNoises {α : Type} (s : State) (l : List α) (bay : α → Option BayId) (f : α → NoiseSt → NoiseSt) : State :=
  l.foldl (fun s a => match bay a with
    | some b => modNoise s b (f a)
    | none => s) s

/-- No two members of a list name the same bay. -/
def BaysDistinct {α : Type} (l : List α) (bay : α → Option BayId) : Prop := l.Pairwise (fun a a' => ∀ b, bay a = some b → bay a' ≠ some b)

section Several
variable {α : Type} (bay : α → Option BayId) (f : α → NoiseSt → NoiseSt)

theorem modNoises_frame (l : List α) (s : State) : { modNoises s l bay f with bays := s.bays } = s := by
  refine foldl_keeps _ (fun t : State => { t with bays := s.bays } = s) (fun t a ht => ?_) l s rfl
  split <;> exact ht

theorem modNoises_qm (l : List α) (s : State) : (modNoises s l bay f).qm = s.qm := (congrArg State.qm (modNoises_frame bay f l s) :)
theorem modNoises_rot (l : List α) (s : State) : (modNoises s l bay f).rot = s.rot := (congrArg State.rot (modNoises_frame bay f l s) :)

theorem modNoises_cons (a : α) (l : List α) (s : State) : modNoises s (a :: l) bay f = modNoises (modNoises s [a] bay f) l bay f := rfl

/-- A bay that one member names. -/
theorem modNoises_single {a : α} {b c : BayId} (hb : bay a = some b) (s : State) :
    (modNoises s [a] bay f).bays[c].noise = if c = b then f a s.bays[c].noise else s.bays[c].noise := by
  simp only [modNoises, List.foldl_cons, List.foldl_nil, hb]
  exact modNoise_noise s b c (f a)

theorem modNoises_single_other {a : α} {c : BayId} (hc : bay a ≠ some c) (s : State) : (modNoises s [a] bay f).bays[c].noise = s.bays[c].noise := by
  cases hb : bay a with
  | none => simp only [modNoises, List.foldl_cons, List.foldl_nil, hb]
  | some b => rw [modNoises_single bay f hb, if_neg fun h => hc (by rw [hb, h])]

theorem modNoises_other {l : List α} {c : BayId} (hc : ∀ a ∈ l, bay a ≠ some c) (s : State) :
    (modNoises s l bay f).bays[c].noise = s.bays[c].noise := by
  induction l generalizing s with
  | nil => rfl
  | cons a l ih =>
    rw [modNoises_cons, ih fun a' ha' => hc a' (List.mem_cons_of_mem a ha')]
    exact modNoises_single_other bay f (hc a List.mem_cons_self) s

theorem modNoises_mem {l : List α} (hdistinct : BaysDistinct l bay) {a : α} (ha : a ∈ l) {b : BayId} (hb : bay a = some b) (s : State) :
    (modNoises s l bay f).bays[b].noise = f a s.bays[b].noise := by
  induction l generalizing s with
  | nil => cases ha
  | cons x l ih =>
    obtain ⟨hfirst, hrest⟩ := List.pairwise_cons.1 hdistinct
    rw [modNoises_cons]
    obtain rfl | hmem := List.mem_cons.1 ha
    · rw [modNoises_other bay f fun a' ha' => hfirst a' ha' b hb, modNoises_single bay f hb, if_pos rfl]
    · rw [ih hrest hmem, modNoises_single_other bay f fun hx => hfirst a hmem b hx hb]

end Several

theorem baysDistinct_of_nodup {l : List BayId} (h : l.Nodup) : BaysDistinct l some :=
  h.imp fun hne _ hb hb' => hne (Option.some.inj (hb.trans hb'.symm))

/-! ## NSE_PARAM_LOAD (R211, R213) -/

/-- A record that is accepted is for bays that the issuer holds. -/
theorem maskBays_of_noiseRecStatus {s : State} {h : CmdHdr} {mask : W16} {len : Nat} {bytes : List Byte}
    (hok : noiseRecStatus s h mask len bytes = 0) : maskBays s h.part mask = some (maskedBays mask) := by
  unfold noiseRecStatus at hok
  split at hok
  · next l _ hbays _ => rw [hbays, maskBays_eq_some hbays]
  · cases hok

theorem exec_nseParamLoad (s : State) (h : CmdHdr) (mask : W16) (len : Nat) (bytes : List Byte) : exec (.nseParamLoad h mask len (.ok bytes)) s =
    .next (if noiseRecStatus s h mask len bytes = 0
      then complete (modNoises (begun s (.nseParamLoad h mask len (.ok bytes))) (maskedBays mask) some
        (fun _ n => { n with recs := [parseNoiseRec bytes] })) h 0 []
      else complete (begun s (.nseParamLoad h mask len (.ok bytes))) h (noiseRecStatus s h mask len bytes) []) := by
  show execNseParamLoad h mask len (.ok bytes) s = _
  have hstatus : noiseRecStatus (begun s (.nseParamLoad h mask len (.ok bytes))) h mask len bytes = noiseRecStatus s h mask len bytes := rfl
  by_cases hok : noiseRecStatus s h mask len bytes = 0
  · have hbays : maskBays (begun s (.nseParamLoad h mask len (.ok bytes))) h.part mask = some (maskedBays mask) := maskBays_of_noiseRecStatus hok
    simp only [execNseParamLoad, hstatus, hok, hbays, ne_eq, not_true_eq_false, if_false, if_true, Option.getD_some]
    rfl
  · simp only [execNseParamLoad, hstatus, ne_eq, hok, not_false_eq_true, if_true, if_false]

theorem nseParamLoad_loads (s : State) (h : CmdHdr) (mask : W16) (len : Nat) (bytes : List Byte) :
    Runs (.nseParamLoad h mask len (.ok bytes)) s (fun t => completes s t h (noiseRecStatus s h mask len bytes) [] ∧
      ∀ b : BayId, (t.bays[b]).noise.recs =
        if noiseRecStatus s h mask len bytes = 0 ∧ bitOf mask.toNat b.1 = true then [parseNoiseRec bytes] else s.bays[b].noise.recs) := by
  refine ⟨_, exec_nseParamLoad s h mask len bytes, ?_⟩
  by_cases hok : noiseRecStatus s h mask len bytes = 0
  · rw [if_pos hok, hok]
    refine ⟨completes_begun (modNoises_qm _ _ _ _) h _ _, fun b => ?_⟩
    rw [complete_bays]
    by_cases hb : bitOf mask.toNat b.1 = true
    · rw [modNoises_mem some _ (baysDistinct_of_nodup (maskedBays_nodup mask)) ((mem_maskedBays mask b).2 hb) rfl, if_pos ⟨rfl, hb⟩]
    · rw [modNoises_other some, if_neg fun hboth => hb hboth.2]
      · rfl
      · rintro a ha hab
        exact hb ((mem_maskedBays mask b).1 (Option.some.inj hab ▸ ha))
  · rw [if_neg hok]
    refine ⟨completes_begun rfl h _ _, fun b => ?_⟩
    rw [complete_bays, if_neg fun hboth => hok hboth.1]
    rfl

/-! ## The attempts of a round (R214) -/

/-- The attempt noted for a round is its last. -/
theorem lastAttempt_useAttempt (s : State) (p : TenantId) (job round : W32) (n : Nat) : lastAttempt (useAttempt s p job round n) p job round = n := by
  have hfound : (attemptsOf (useAttempt s p job round n) p job).find? (fun a => a.round == round) =
      some { part := p, job := job, round := round, attempt := n } := by
    have hnew : ([{ part := p, job := job, round := round, attempt := n }] : List Attempt).filter (fun a => a.part == p && a.job == job) =
      [{ part := p, job := job, round := round, attempt := n }] := by simp
    unfold attemptsOf useAttempt
    dsimp only
    rw [List.filter_append, hnew, List.find?_append, List.find?_eq_none.2, Option.none_or, List.find?_cons_of_pos (by simp)]
    intro a ha
    simp only [List.mem_filter] at ha
    obtain ⟨⟨-, hkept⟩, hmine⟩ := ha
    intro hround
    simp [hmine, hround] at hkept
  rw [lastAttempt, hfound]

/-! ## A seed is opened (R214, R215) -/

theorem mem_places {n : Nat} (i : Fin n) : i ∈ places n :=
  List.mem_filterMap.2 ⟨i.1, List.mem_range.2 i.2, by simp [finOpt]⟩

/-- Where there is room for one more key slot, a slot is free. -/
theorem freeSlot_of_seedRoom {s : State} {p : TenantId} {job : W32} {cs : List Claim} (h : seedRoom s p job cs = true) :
    ∃ i, freeSlot s = some i ∧ s.rot.slots[i] = none := by
  have hroom : slotRoom s p 1 = true := (Bool.and_eq_true _ _ ▸ h).2
  obtain ⟨-, hcount⟩ : _ ∧ 1 ≤ (s.rot.slots.toList.filter (·.isNone)).length := by simpa [slotRoom] using hroom
  obtain ⟨o, ho⟩ := List.exists_mem_of_length_pos hcount
  obtain ⟨hmem, hnone⟩ := List.mem_filter.1 ho
  obtain ⟨j, hj, rfl⟩ := List.mem_iff_getElem.1 hmem
  have hj' : j < 64 := by simpa using hj
  cases hfree : freeSlot s with
  | some i => 
    have hnone := List.find?_some hfree
    exact ⟨i, rfl, Option.isNone_iff_eq_none.1 hnone⟩
  | none => exact absurd hnone (by simpa using List.find?_eq_none.1 hfree ⟨j, hj'⟩ (mem_places _))

/-- The key slot of a seed of `secret` for an attempt at a round, with its claims. -/
def noiseSlot (s : State) (p : TenantId) (job round : W32) (attempt : Nat) (secret : List Byte) (cs : List Claim) : KeySlot where
  kind := 4
  secret := secret
  part := p
  gen := (getPart s p).gen
  job := job
  round := round
  attempt := attempt
  claims := claimRanges cs

def setSlot (s : State) (i : Fin 64) (k : Option KeySlot) : State := { s with rot := { s.rot with slots := vmod s.rot.slots i (fun _ => k) } }

/-- What a bay has open under one claim: its range, with the high-water mark at its lower end. -/
def claimOpened (i : Fin 64) (job round : W32) (attempt : Nat) (c : Claim) (n : NoiseSt) : NoiseSt :=
  { n with seeds := n.seeds ++ [{ slot := i.1, job := job, round := round, attempt := attempt, lo := c.lo, hi := c.hi, mark := c.lo }] }

/-- The seed is in slot `i`, its attempt noted, and open in each bay of its claims. -/
def seedOpened (s : State) (i : Fin 64) (p : TenantId) (job round : W32) (attempt : Nat) (secret : List Byte) (cs : List Claim) : State :=
  modNoises (useAttempt (setSlot s i (some (noiseSlot s p job round attempt secret cs))) p job round attempt) cs (fun c => finOpt 16 c.bay)
    (claimOpened i job round attempt)

/-- The claims of a seed name each bay once, so each finds its bay as it was. -/
theorem baysDistinct_of_claimsProper {s : State} {q : PartId} {cs : List Claim} (hproper : claimsProper s q cs = true) :
    BaysDistinct cs (fun c => finOpt 16 c.bay) := by
  have hnodup : (cs.map (·.bay)).Nodup := by
    simp only [claimsProper, Bool.and_eq_true, decide_eq_true_eq] at hproper
    obtain ⟨⟨⟨hnodup, -⟩, -⟩, -⟩ := hproper
    exact hnodup
  refine (List.pairwise_map.1 hnodup).imp fun hne b hb hb' => hne ?_
  have hval : ∀ {x : Nat}, finOpt 16 x = some b → x = b.1 := by
    intro x hx
    unfold finOpt at hx
    split at hx
    · exact congrArg Fin.val (Option.some.inj hx)
    · cases hx
  rw [hval hb, hval hb']

section Opened
variable {s : State} {h : CmdHdr} {p : TenantId} {job round : W32} {attempt : Nat} {secret : List Byte} {cs : List Claim} {i : Fin 64}

theorem seedOpened_rot : (seedOpened s i p job round attempt secret cs).rot =
    (useAttempt (setSlot s i (some (noiseSlot s p job round attempt secret cs))) p job round attempt).rot := modNoises_rot _ _ _ _

theorem seedOpened_qm : (seedOpened s i p job round attempt secret cs).qm = s.qm := modNoises_qm _ _ _ _

theorem seedOpened_slots : (seedOpened s i p job round attempt secret cs).rot.slots =
    vmod s.rot.slots i (fun _ => some (noiseSlot s p job round attempt secret cs)) := congrArg Rot.slots seedOpened_rot

theorem lastAttempt_congr {t : State} (hrot : t.rot = s.rot) : lastAttempt t p job round = lastAttempt s p job round := by
  unfold lastAttempt attemptsOf
  rw [hrot]

theorem seedOpened_noise {q : PartId} (hproper : claimsProper s q cs = true) :
    opened s (seedOpened s i p job round attempt secret cs) i job round attempt cs := by
  intro c hc b hb
  have hbay : finOpt 16 c.bay = some b := by rw [hb, finOpt_val]
  rw [seedOpened, modNoises_mem _ _ (baysDistinct_of_claimsProper hproper) hc hbay]
  rfl

theorem openSeeds_free (hfree : freeSlot s = some i) : openSeeds s h p job round attempt secret cs =
    complete (seedOpened s i p job round attempt secret cs) h 0 (leBytes 1 i.1 ++ [0] ++ leBytes 2 attempt) := by
  simp only [openSeeds, hfree]
  rfl

end Opened

/-- In `t` a command has opened slot `i` with seed `k` over its claims, noted its attempt, and completed with the slot and the attempt. -/
structure OpensSeed (s t : State) (h : CmdHdr) (p : TenantId) (cs : List Claim) (i : Fin 64) (k : KeySlot) : Prop where
  last : lastAttempt t p k.job k.round = k.attempt
  free : s.rot.slots[i] = none
  seed : SeedIn t h i k
  others : ∀ j : Fin 64, j ≠ i → t.rot.slots[j] = s.rot.slots[j]
  noise : opened s t i k.job k.round k.attempt cs
  done : completes s t h 0 (leBytes 1 i.1 ++ [0] ++ leBytes 2 k.attempt)

/-- With proper claims and room for the seed, it is opened: `u` is the state in which the command goes on. -/
theorem openSeeds_opens {s u : State} {c : Instr} {h : CmdHdr} {p : TenantId} {job : W32} {cs : List Claim} (hbays : u.bays = s.bays)
    (hrot : u.rot = s.rot) (hqm : u.qm = (begun s c).qm) (hpart : h.part = tenantPart p) (hproper : claimsProper s h.part cs = true)
    (hroom : seedRoom s p job cs = true) (round : W32) (attempt : Nat) (secret : List Byte) :
    ∃ i, OpensSeed s (openSeeds u h p job round attempt secret cs) h p cs i (noiseSlot u p job round attempt secret cs) := by
  obtain ⟨i, hfree, hnone⟩ := freeSlot_of_seedRoom hroom
  have hfree' : freeSlot u = some i := by rw [← hfree, freeSlot, freeSlot, hrot]
  have hproper' : claimsProper u h.part cs = true := by
    unfold claimsProper holdsBay at hproper ⊢
    rwa [hbays]
  rw [openSeeds_free hfree']
  refine ⟨i, ?_, hnone, ⟨?_, rfl, hpart.symm⟩, fun j hj => ?_, fun c hc b hb => ?_, completes_begun (seedOpened_qm.trans hqm) h _ _⟩
  · exact (lastAttempt_congr ((complete_rot _ _ _ _).trans seedOpened_rot)).trans (lastAttempt_useAttempt _ p job round attempt)
  · rw [complete_rot, seedOpened_slots, vmod_same]
  · rw [complete_rot, seedOpened_slots, vmod_other _ _ _ _ hj, hrot]
  · rw [complete_bays, seedOpened_noise hproper' c hc b hb, hbays]
    rfl

/-! ## NOISE_DRAW (R214, R215) -/

section Draw
variable {s : State} {h : CmdHdr} {p : TenantId} {job round : W32} {cs : List Claim}

/-- The status reads nothing of the entropy source. -/
theorem drawStatus_onlyRng {t : State} (honly : OnlyRng s t) : drawStatus t h job round cs = drawStatus s h job round cs := by
  obtain ⟨r, d, rfl⟩ := honly
  rfl

/-- A draw that is accepted has proper claims, and room for its seed. -/
theorem room_of_drawStatus (hpart : h.part = tenantPart p) (hok : drawStatus s h job round cs = 0) :
    claimsProper s h.part cs = true ∧ seedRoom s p job cs = true := by
  simp only [drawStatus, issuer_tenant hpart] at hok
  split at hok
  · next hbad => exact absurd hok hbad
  · split at hok
    · cases hok
    · next hproper =>
      split at hok
      · cases hok
      · split at hok
        · next hroom => exact ⟨by simpa using hproper, hroom⟩
        · cases hok

theorem drawDone_accepted (hpart : h.part = tenantPart p) (hok : drawStatus s h job round cs = 0) (secret : List Byte) :
    drawDone s h job round cs secret = openSeeds s h p job round (lastAttempt s p job round + 1) secret cs := by
  simp only [drawDone, issuer_tenant hpart, hok, ne_eq, not_true_eq_false, if_false]

theorem exec_noiseDraw_refused (hbad : drawStatus s h job round cs ≠ 0) : exec (.noiseDraw h job round cs) s =
    .next (complete (begun s (.noiseDraw h job round cs)) h (drawStatus s h job round cs) []) := by
  have hstatus : drawStatus (begun s (.noiseDraw h job round cs)) h job round cs = drawStatus s h job round cs := rfl
  show execNoiseDraw h job round cs s = _
  simp only [execNoiseDraw, hstatus, if_pos hbad]

/-- A DRBG that serves gives the secret at once, and the seed is opened. -/
theorem exec_noiseDraw_served (hpart : h.part = tenantPart p) (hok : drawStatus s h job round cs = 0) (hserves : Serves s h.part 1) :
    ∃ secret u, OnlyRng (begun s (.noiseDraw h job round cs)) u ∧ exec (.noiseDraw h job round cs) s =
      .next (openSeeds u h p job round (lastAttempt u p job round + 1) secret cs) := by
  obtain ⟨secret, u, hask, honly⟩ := drbgAsk_served (s := begun s (.noiseDraw h job round cs)) hserves 32 (.draw h job round cs)
  have hstatus : drawStatus (begun s (.noiseDraw h job round cs)) h job round cs = 0 := hok
  refine ⟨secret, u, honly, ?_⟩
  show execNoiseDraw h job round cs s = _
  rw [← drawDone_accepted hpart ((drawStatus_onlyRng honly).trans hstatus)]
  simp only [execNoiseDraw, hstatus, hask, ne_eq, not_true_eq_false, if_false]

theorem noiseDraw_opens (hpart : h.part = tenantPart p) (hok : drawStatus s h job round cs = 0) (hserves : Serves s h.part 1) :
    Runs (.noiseDraw h job round cs) s (fun t =>
      let a := lastAttempt s p job round + 1
      lastAttempt t p job round = a ∧ ∃ (i : Fin 64) (k : KeySlot), s.rot.slots[i] = none ∧ SeedIn t h i k ∧ k.job = job ∧ k.round = round ∧
        k.attempt = a ∧ k.claims = claimRanges cs ∧ k.exports = [] ∧ (∀ j : Fin 64, j ≠ i → t.rot.slots[j] = s.rot.slots[j]) ∧
        opened s t i job round a cs ∧ completes s t h 0 (leBytes 1 i.1 ++ [0] ++ leBytes 2 a)) := by
  obtain ⟨secret, u, honly, hrun⟩ := exec_noiseDraw_served hpart hok hserves
  obtain ⟨hproper, hroom⟩ := room_of_drawStatus hpart hok
  have hlast : lastAttempt u p job round = lastAttempt s p job round := lastAttempt_congr honly.rot
  rw [hlast] at hrun
  obtain ⟨i, hopens⟩ := openSeeds_opens (s := s) honly.bays honly.rot honly.qm hpart hproper hroom round (lastAttempt s p job round + 1) secret
  exact ⟨_, hrun, hopens.last, i, _, hopens.free, hopens.seed, rfl, rfl, rfl, rfl, rfl, hopens.others, hopens.noise, hopens.done⟩

end Draw

/-! ## NOISE_EXPORT (R216) -/

theorem seedSlot_of_seedIn {s : State} {h : CmdHdr} {i : Fin 64} {k : KeySlot} (hseed : SeedIn s h i k) : seedSlot s h i.1 = some (i, k) := by
  obtain ⟨hslot, hkind, hpart⟩ := hseed
  have hplace : finOpt 64 i.1 = some i := by simp [finOpt]
  simp only [seedSlot, hplace, hslot, hkind, hpart, and_self, if_true]

/-- Some range of a list shares an element with the range from `lo` to `hi`. -/
theorem any_overlaps_iff (l : List (Nat × Nat)) (lo hi : Nat) :
    l.any (fun q => !(hi ≤ q.1 || q.2 ≤ lo)) = true ↔ ∃ q ∈ l, q.1 < hi ∧ lo < q.2 := by
  simp

section Export
variable {s : State} {h : CmdHdr} {i : Fin 64} {k : KeySlot} {lo hi : Nat} (buffer : W64) (target : List Byte) {kj : List Byte}

/-- The range is noted with the seed, and its blob is written. -/
def exported (s : State) (h : CmdHdr) (i : Fin 64) (k : KeySlot) (lo hi : Nat) (buffer : W64) (target kj : List Byte) : State :=
  emitOut (setSlot s i (some { k with exports := k.exports ++ [(lo, hi)] })) (.hostWrite h.part buffer (noiseBlob kj k target lo hi))

/-- A range that nothing claims is exported; any other is NOISE_RANGE. -/
theorem exec_noiseExport (hseed : SeedIn s h i k) (hlo : lo < hi) (hhi : hi < 2 ^ 48) (hkey : jobSecret s h.part 2 k.job = some kj) :
    exec (.noiseExport h i.1 lo hi buffer target) s =
      .next (if (k.claims ++ k.exports).any (fun q => !(hi ≤ q.1 || q.2 ≤ lo))
        then complete (begun s (.noiseExport h i.1 lo hi buffer target)) h codeNoiseRange []
        else complete (exported (begun s (.noiseExport h i.1 lo hi buffer target)) h i k lo hi buffer target kj) h 0 []) := by
  have hslot : seedSlot (begun s (.noiseExport h i.1 lo hi buffer target)) h i.1 = some (i, k) := seedSlot_of_seedIn hseed
  have hkey' : jobSecret (begun s (.noiseExport h i.1 lo hi buffer target)) h.part 2 k.job = some kj := hkey
  have hrange : rangeOk (lo, hi) = true := by rw [rangeOk, decide_eq_true hlo, decide_eq_true hhi, Bool.and_true]
  have hdisjoint : rangesDisjoint [(lo, hi)] = true := rfl
  show execNoiseExport h i.1 lo hi buffer target s = _
  simp only [execNoiseExport, hslot, hkey', hrange, hdisjoint, Bool.not_true, Bool.false_or]
  rfl

theorem noiseExport_exports (hseed : SeedIn s h i k) (hlo : lo < hi) (hhi : hi < 2 ^ 48) (hkey : jobSecret s h.part 2 k.job = some kj)
    (hfresh : ∀ q ∈ k.claims ++ k.exports, hi ≤ q.1 ∨ q.2 ≤ lo) : Runs (.noiseExport h i.1 lo hi buffer target) s (fun t =>
      completes s t h 0 [] ∧ t.out = s.out ++ [.hostWrite h.part buffer (noiseBlob kj k target lo hi)] ∧
      t.rot.slots[i] = some { k with exports := k.exports ++ [(lo, hi)] }) := by
  have hrun := exec_noiseExport buffer target hseed hlo hhi hkey
  rw [if_neg] at hrun
  · refine ⟨_, hrun, completes_begun (u := exported _ h i k lo hi buffer target kj) rfl h _ _, complete_out _ _ _ _, ?_⟩
    rw [complete_rot]
    exact vmod_same _ _ _
  · rw [any_overlaps_iff]
    rintro ⟨q, hq, hlow, hhigh⟩
    rcases hfresh q hq with hbelow | habove
    · exact absurd hlow (by omega)
    · exact absurd hhigh (by omega)

theorem noiseExport_claimed (hseed : SeedIn s h i k) (hlo : lo < hi) (hhi : hi < 2 ^ 48) (hkey : jobSecret s h.part 2 k.job = some kj)
    (hclaimed : ∃ q ∈ k.claims ++ k.exports, q.1 < hi ∧ lo < q.2) : Runs (.noiseExport h i.1 lo hi buffer target) s (fun t =>
      t.rot = s.rot ∧ t.out = s.out ∧ completes s t h 0x8003 []) := by
  have hrun := exec_noiseExport buffer target hseed hlo hhi hkey
  rw [if_pos ((any_overlaps_iff _ lo hi).2 hclaimed)] at hrun
  exact ⟨_, hrun, complete_rot _ _ _ _, complete_out _ _ _ _, completes_begun rfl h _ _⟩

end Export

/-! ## NOISE_IMPORT (R217) -/

/-- What NOISE_IMPORT does with the plaintext of its blob: the attempt must be a new one, the claims proper and inside the blob's range, and there
must be room for the seed. -/
def importSeed (s : State) (h : CmdHdr) (p : TenantId) (job : W32) (cs : List Claim) (pt : List Byte) : State :=
  if u32 pt 104 ≤ lastAttempt s p job (w32 pt 100) || noiseStale s p job (w32 pt 100) then complete s h codeNoiseStale []
  else if !(claimsProper s h.part cs && (claimRanges cs).all (fun r => u64 pt 108 ≤ r.1 && r.2 ≤ u64 pt 116)) then complete s h codeNoiseRange []
  else if !seedRoom s p job cs then complete s h codeNoiseState []
  else openSeeds s h p job (w32 pt 100) (u32 pt 104) (bslice pt 0 32) cs

theorem importSeed_eq (s : State) (h : CmdHdr) (p : TenantId) (job : W32) (cs : List Claim) (pt : List Byte) : importSeed s h p job cs pt =
    if u32 pt 104 ≤ lastAttempt s p job (w32 pt 100) ∨ noiseStale s p job (w32 pt 100) = true then complete s h codeNoiseStale []
    else if claimsProper s h.part cs = true ∧ ∀ c ∈ cs, u64 pt 108 ≤ c.lo ∧ c.hi ≤ u64 pt 116 then
      if seedRoom s p job cs = false then complete s h codeNoiseState []
      else openSeeds s h p job (w32 pt 100) (u32 pt 104) (bslice pt 0 32) cs
    else complete s h codeNoiseRange [] := by
  have hproper : (claimsProper s h.part cs && (claimRanges cs).all (fun r => u64 pt 108 ≤ r.1 && r.2 ≤ u64 pt 116)) = true ↔
      claimsProper s h.part cs = true ∧ ∀ c ∈ cs, u64 pt 108 ≤ c.lo ∧ c.hi ≤ u64 pt 116 := by simp [claimRanges]
  unfold importSeed
  simp only [Bool.or_eq_true, decide_eq_true_eq, Bool.not_eq_true']
  split
  · rfl
  · by_cases hok : claimsProper s h.part cs = true ∧ ∀ c ∈ cs, u64 pt 108 ≤ c.lo ∧ c.hi ≤ u64 pt 116
    · rw [if_pos hok, hproper.2 hok, if_neg (by decide)]
    · rw [if_neg hok, if_pos (Bool.not_eq_true _ ▸ fun htrue => hok (hproper.1 htrue))]

section Import
variable {s : State} {h : CmdHdr} {p : TenantId} {j : Job} {kj : List Byte} {blob : List Byte} {cs : List Claim} (hpart : h.part = tenantPart p)
  (hjob : (getPart s p).job = some j) (hstatus : claimStatus s h j.job cs = 0) (hkey : jobSecret s h.part 2 j.job = some kj)
include hpart hjob hstatus hkey

/-- A blob that is not for this device, or not of this job, is NOISE_BLOB. -/
theorem exec_noiseImport_foreign (hblob : (if w32 blob 8 = j.job then openBlob kj blob else none) = none) : exec (.noiseImport h blob cs) s =
    .next (complete (logN (begun s (.noiseImport h blob cs)) h.part .rtp codeNoiseBlob 0 0) h codeNoiseBlob []) := by
  have hjob' : jobOfPart (begun s (.noiseImport h blob cs)) h.part = some j := by rw [hpart, jobOfPart_tenant]; exact hjob
  have hstatus' : claimStatus (begun s (.noiseImport h blob cs)) h j.job cs = 0 := hstatus
  have hkey' : jobSecret (begun s (.noiseImport h blob cs)) h.part 2 j.job = some kj := hkey
  show execNoiseImport h blob cs s = _
  simp only [execNoiseImport, hjob', hstatus', issuer_tenant hpart, hkey', hblob, ne_eq, not_true_eq_false, if_false]

theorem exec_noiseImport_opened {pt : List Byte} (hblob : (if w32 blob 8 = j.job then openBlob kj blob else none) = some pt) :
    exec (.noiseImport h blob cs) s = .next (importSeed (begun s (.noiseImport h blob cs)) h p j.job cs pt) := by
  have hjob' : jobOfPart (begun s (.noiseImport h blob cs)) h.part = some j := by rw [hpart, jobOfPart_tenant]; exact hjob
  have hstatus' : claimStatus (begun s (.noiseImport h blob cs)) h j.job cs = 0 := hstatus
  have hkey' : jobSecret (begun s (.noiseImport h blob cs)) h.part 2 j.job = some kj := hkey
  show execNoiseImport h blob cs s = _
  simp only [execNoiseImport, hjob', hstatus', issuer_tenant hpart, hkey', hblob, ne_eq, not_true_eq_false, if_false]
  rfl

/-- The command on a blob of this device and job, by what its plaintext holds. -/
theorem noiseImport_opens {pt : List Byte} (hblob : (if w32 blob 8 = j.job then openBlob kj blob else none) = some pt) :
    Runs (.noiseImport h blob cs) s (fun t =>
      if u32 pt 104 ≤ lastAttempt s p j.job (w32 pt 100) ∨ noiseStale s p j.job (w32 pt 100) = true then
        t.rot = s.rot ∧ completes s t h 0x8004 []
      else if claimsProper s h.part cs = true ∧ ∀ c ∈ cs, u64 pt 108 ≤ c.lo ∧ c.hi ≤ u64 pt 116 then
        if seedRoom s p j.job cs = false then t.rot = s.rot ∧ completes s t h 0x8006 [] else
        ∃ (i : Fin 64) (k : KeySlot), s.rot.slots[i] = none ∧ SeedIn t h i k ∧ k.secret = bslice pt 0 32 ∧
          opened s t i j.job (w32 pt 100) (u32 pt 104) cs ∧ completes s t h 0 (leBytes 1 i.1 ++ [0] ++ leBytes 2 (u32 pt 104))
      else t.rot = s.rot ∧ completes s t h 0x8003 []) := by
  have hattempts : ∀ round, lastAttempt (begun s (.noiseImport h blob cs)) p j.job round = lastAttempt s p j.job round := fun _ => rfl
  have holder : ∀ round, noiseStale (begun s (.noiseImport h blob cs)) p j.job round = noiseStale s p j.job round := fun _ => rfl
  have hclaims : claimsProper (begun s (.noiseImport h blob cs)) h.part cs = claimsProper s h.part cs := rfl
  have hslots : seedRoom (begun s (.noiseImport h blob cs)) p j.job cs = seedRoom s p j.job cs := rfl
  refine ⟨_, exec_noiseImport_opened hpart hjob hstatus hkey hblob, ?_⟩
  simp only [importSeed_eq, hattempts, holder, hclaims, hslots]
  by_cases hstale : u32 pt 104 ≤ lastAttempt s p j.job (w32 pt 100) ∨ noiseStale s p j.job (w32 pt 100) = true
  · simp only [if_pos hstale]
    exact ⟨complete_rot _ _ _ _, completes_begun rfl h _ _⟩
  simp only [if_neg hstale]
  by_cases hproper : claimsProper s h.part cs = true ∧ ∀ c ∈ cs, u64 pt 108 ≤ c.lo ∧ c.hi ≤ u64 pt 116
  · simp only [if_pos hproper]
    by_cases hroom : seedRoom s p j.job cs = false
    · simp only [if_pos hroom]
      exact ⟨complete_rot _ _ _ _, completes_begun rfl h _ _⟩
    · simp only [if_neg hroom]
      obtain ⟨i, hopens⟩ := openSeeds_opens (s := s) (u := begun s (.noiseImport h blob cs)) rfl rfl rfl hpart hproper.1
        ((Bool.not_eq_false _).mp hroom) (w32 pt 100) (u32 pt 104) (bslice pt 0 32)
      exact ⟨i, _, hopens.free, hopens.seed, rfl, hopens.noise, hopens.done⟩
  · simp only [if_neg hproper]
    exact ⟨complete_rot _ _ _ _, completes_begun rfl h _ _⟩

end Import

/-! ## NOISE_CLOSE (R234) -/

theorem baysDistinct_allBays : BaysDistinct allBays some := baysDistinct_of_nodup (by decide)

section SeedClosed
variable (s : State) (i : Fin 64)

/-- A slot is emptied, and its seed is no longer open in any bay. -/
theorem closeSeed_eq : closeSeed s i =
    modNoises (setSlot s i none) allBays some (fun _ n => { n with seeds := n.seeds.filter (fun o => o.slot != i.1) }) := rfl

theorem closeSeed_qm : (closeSeed s i).qm = s.qm := by rw [closeSeed_eq, modNoises_qm, setSlot]

theorem closeSeed_slot : (closeSeed s i).rot.slots[i] = none := by rw [closeSeed_eq, modNoises_rot, setSlot, vmod_same]

theorem closeSeed_seeds (b : BayId) : (closeSeed s i).bays[b].noise.seeds = s.bays[b].noise.seeds.filter (fun o => o.slot != i.1) := by
  rw [closeSeed_eq, modNoises_mem some _ baysDistinct_allBays (mem_allBays b) rfl, setSlot]

end SeedClosed

section Close
variable {s : State} {h : CmdHdr} {i : Fin 64} {k : KeySlot} (hseed : SeedIn s h i k)
include hseed

theorem exec_noiseClose : exec (.noiseClose h i.1) s = .next (if seedUsed s h.part i.1
    then complete (begun s (.noiseClose h i.1)) h codeNoiseState []
    else complete (closeSeed (begun s (.noiseClose h i.1)) i) h 0 []) := by
  have hslot : seedSlot (begun s (.noiseClose h i.1)) h i.1 = some (i, k) := seedSlot_of_seedIn hseed
  have hused : seedUsed (begun s (.noiseClose h i.1)) h.part i.1 = seedUsed s h.part i.1 := rfl
  show execNoiseClose h i.1 s = _
  simp only [execNoiseClose, hslot, hused]

theorem noiseClose_closes (hfree : seedUsed s h.part i.1 = false) : Runs (.noiseClose h i.1) s (fun t => completes s t h 0 [] ∧
    t.rot.slots[i] = none ∧ ∀ b : BayId, (t.bays[b]).noise.seeds = s.bays[b].noise.seeds.filter (fun o => o.slot != i.1)) := by
  have hrun := exec_noiseClose hseed
  rw [hfree, if_neg Bool.false_ne_true] at hrun
  refine ⟨_, hrun, completes_begun (closeSeed_qm _ i) h _ _, ?_, fun b => ?_⟩
  · rw [complete_rot, closeSeed_slot]
  · rw [complete_bays, closeSeed_seeds, begun_bays]

theorem noiseClose_used (hused : seedUsed s h.part i.1 = true) : Runs (.noiseClose h i.1) s (fun t =>
    t.rot = s.rot ∧ t.bays = s.bays ∧ completes s t h 0x8006 []) := by
  have hrun := exec_noiseClose hseed
  rw [hused, if_pos rfl] at hrun
  exact ⟨_, hrun, complete_rot _ _ _ _, complete_bays _ _ _ _, completes_begun rfl h _ _⟩

end Close

/-- Settles O46: a draw and an import open their seed in every bay that they claim (`openSeeds_opens`), a wrapped seed is refused exactly where its range
meets one of the seed's (`exec_noiseExport`), and NSE_PARAM_LOAD and NOISE_CLOSE update each bay once (`modNoises_mem`). -/
theorem noiseSeedsAreOpenedForFreshRanges : Obligations.NoiseSeedsAreOpenedForFreshRanges := by
  refine ⟨nseParamLoad_loads, fun s h p job round cs hpart => ⟨noiseDraw_opens hpart, fun hbad => ?refused⟩,
    fun s h i k lo hi buffer target kj hseed hlo hhi hkey => ⟨noiseExport_exports buffer target hseed hlo hhi hkey,
      noiseExport_claimed buffer target hseed hlo hhi hkey⟩, ?imports, fun s h i k hseed => ⟨noiseClose_closes hseed, noiseClose_used hseed⟩⟩
  case refused =>
    exact ⟨_, exec_noiseDraw_refused hbad, complete_rot _ _ _ _, complete_bays _ _ _ _, completes_begun rfl h _ _⟩
  case imports =>
    intro s h p j kj blob cs hpart hjob hstatus hkey
    cases hblob : (if w32 blob 8 = j.job then openBlob kj blob else none) with
    | none =>
      refine ⟨_, exec_noiseImport_foreign hpart hjob hstatus hkey hblob, complete_rot _ _ _ _, ?_,
        completes_begun (u := logN _ _ _ _ _ _) rfl h _ _⟩
      rw [oneEntry_complete]
      exact ⟨_, rfl, rfl⟩
    | some pt => exact noiseImport_opens hpart hjob hstatus hkey hblob

end Sys2Proof.Machine

/-! PROOFS. The Noise station (R220 to R223): what the updates of stations leave beside them, a token taken and a slot reserved; the head of an ADD stream
and the next tile of a SAMPLE stream, with and without a claim to their span; then O47 from them. -/

namespace Sys2Proof.Machine

open Sys2Proof.Said

/-! ## What an update of stations leaves -/

/-- `t` has the Noise and Release stations' own data, the owners of the bays, the partitions, jobs and key slots, and the queues of `s`. -/
structure SameButStations (s t : State) : Prop where
  noise : ∀ b : BayId, t.bays[b].noise = s.bays[b].noise
  release : ∀ b : BayId, t.bays[b].release = s.bays[b].release
  owner : ∀ b : BayId, t.bays[b].owner = s.bays[b].owner
  rot : t.rot = s.rot
  qm : t.qm = s.qm

theorem SameButStations.refl (s : State) : SameButStations s s := ⟨fun _ => rfl, fun _ => rfl, fun _ => rfl, rfl, rfl⟩

theorem SameButStations.trans {s t u : State} (h : SameButStations s t) (h' : SameButStations t u) : SameButStations s u where
  noise b := (h'.noise b).trans (h.noise b)
  release b := (h'.release b).trans (h.release b)
  owner b := (h'.owner b).trans (h.owner b)
  rot := h'.rot.trans h.rot
  qm := h'.qm.trans h.qm

theorem sameButStations_modSt (s : State) (r : StationRef) (f : Station → Station) : SameButStations s (modSt s r f) where
  noise := modSt_keeps Bay.noise (fun _ _ _ _ _ _ _ _ => rfl) s r f
  release := modSt_keeps Bay.release (fun _ _ _ _ _ _ _ _ => rfl) s r f
  owner := modSt_owner s r f
  rot := modSt_rot s r f
  qm := modSt_qm s r f

theorem sameButStations_modIn (s : State) (r : StationRef) (p : PortId) (f : InPort → InPort) : SameButStations s (modIn s r p f) :=
  sameButStations_modSt s r _

theorem sameButStations_modOut (s : State) (r : StationRef) (n : PortId) (f : OutPort → OutPort) : SameButStations s (modOut s r n f) :=
  sameButStations_modSt s r _

theorem sameButStations_noteTurn (s : State) (r : StationRef) (p : PortId) (l : List PortId) : SameButStations s (noteTurn s r p l) := by
  unfold noteTurn
  exact sameButStations_modSt s r _

theorem sameButStations_logEv (s : State) (p : PartId) (g : Page) (c d0 d1 d2 d3 : Nat) : SameButStations s (logEv s p g c d0 d1 d2 d3) :=
  ⟨fun _ => rfl, fun _ => rfl, fun _ => rfl, rfl, rfl⟩

theorem sameButStations_logOutCause (s : State) (r : StationRef) (n : PortId) (t : Tile) (cause d3 : Nat) :
    SameButStations s (logOutCause s r n t cause d3) := by
  unfold logOutCause
  dsimp only
  split
  · exact .refl s
  · exact (sameButStations_logEv s _ _ _ _ _ _ _).trans (sameButStations_modSt _ r _)

section Same
variable {s t : State} (h : SameButStations s t) (b : BayId)
include h

theorem SameButStations.modsOf (job : W32) : modsOf t t.bays[b].owner job = modsOf s s.bays[b].owner job := by
  rw [modsOf_congr h.rot, h.owner]

theorem SameButStations.readsPayload (k : StKind) (tl : Tile) : readsPayload t (.bay b k) tl = readsPayload s (.bay b k) tl :=
  congrArg (fun m => !tl.hdr.poison && hdrOk m tl.hdr) (h.modsOf b tl.hdr.job)

theorem SameButStations.portCauses (k : StKind) {p : PortId} (hin : getIn t (.bay b k) p = getIn s (.bay b k) p) (tl : Tile) :
    portCauses t (.bay b k) p tl = portCauses s (.bay b k) p tl := by
  have hmods : Machine.modsOf t (stOwner t (.bay b k)) tl.hdr.job = Machine.modsOf s (stOwner s (.bay b k)) tl.hdr.job := h.modsOf b _
  rw [Machine.portCauses, hin, hmods, Machine.portCauses]

theorem SameButStations.addSpan (hdr : TileHdr) : addSpan t b hdr = addSpan s b hdr := by
  rw [Machine.addSpan, h.modsOf, Machine.addSpan]

theorem SameButStations.addNoise (k : KeySlot) (tl : Tile) : addNoise t b k tl = addNoise s b k tl := by
  simp only [Machine.addNoise, samplesOf, h.noise b]

end Same

/-! ## What an update of a bay beside its stations leaves -/

/-- An update of a bay leaves its stations and cores. -/
structure KeepsStations (f : Bay → Bay) : Prop where
  bin : ∀ y, (f y).bin = y.bin
  msk : ∀ y, (f y).msk = y.msk
  shr : ∀ y, (f y).shr = y.shr
  lat : ∀ y, (f y).lat = y.lat
  nse : ∀ y, (f y).nse = y.nse
  rls : ∀ y, (f y).rls = y.rls
  cores : ∀ y, (f y).cores = y.cores

theorem KeepsStations.getSt {f : Bay → Bay} (hf : KeepsStations f) (s : State) (b : BayId) (q : StationRef) : getSt (modBay s b f) q = getSt s q := by
  obtain ⟨d, k⟩ | c | _ | _ := q
  case bay =>
    cases k
    case bin => exact modBay_keeps Bay.bin hf.bin s b d
    case msk => exact modBay_keeps Bay.msk hf.msk s b d
    case shr => exact modBay_keeps Bay.shr hf.shr s b d
    case lat => exact modBay_keeps Bay.lat hf.lat s b d
    case nse => exact modBay_keeps Bay.nse hf.nse s b d
    case rls => exact modBay_keeps Bay.rls hf.rls s b d
  case core => exact congrArg Core.ctl (getCore_modBay s b f c hf.cores)
  case trn | red => rfl

theorem getSt_modNoise (s : State) (b : BayId) (f : NoiseSt → NoiseSt) (q : StationRef) : getSt (modNoise s b f) q = getSt s q :=
  KeepsStations.getSt (f := fun y => { y with noise := f y.noise })
    ⟨fun _ => rfl, fun _ => rfl, fun _ => rfl, fun _ => rfl, fun _ => rfl, fun _ => rfl, fun _ => rfl⟩ s b q

theorem getIn_modNoise (s : State) (b : BayId) (f : NoiseSt → NoiseSt) (r : StationRef) (p : PortId) : getIn (modNoise s b f) r p = getIn s r p :=
  congrArg (fun x : Station => x.ins[p]) (getSt_modNoise s b f r)

/-! ## Credits (R65) -/

/-- The stations of `t` are connected as those of `s`, and their pools have the credits of `s`. -/
structure SameCredits (s t : State) : Prop where
  cons : ∀ r n, (getOut t r n).cons = (getOut s r n).cons
  avail : ∀ r p, (getIn t r p).avail = (getIn s r p).avail

theorem SameCredits.of_getSt {s t : State} (h : ∀ r, getSt t r = getSt s r) : SameCredits s t :=
  ⟨fun r n => congrArg (fun x : Station => x.outs[n].cons) (h r), fun r p => congrArg (fun x : Station => x.ins[p].avail) (h r)⟩

theorem SameCredits.trans {s t u : State} (h : SameCredits s t) (h' : SameCredits t u) : SameCredits s u :=
  ⟨fun r n => (h'.cons r n).trans (h.cons r n), fun r p => (h'.avail r p).trans (h.avail r p)⟩

theorem SameCredits.feeds {s t : State} (h : SameCredits s t) {r : StationRef} {n : PortId} {c : StationRef × PortId} (hfeeds : Feeds s r n c) :
    Feeds t r n c := by
  obtain ⟨hcons, hcredit⟩ := hfeeds
  exact ⟨(h.cons r n).trans hcons, by rw [h.avail]; exact hcredit⟩

theorem sameCredits_modIn (s : State) (r : StationRef) (p : PortId) {f : InPort → InPort} (hf : ∀ x, (f x).avail = x.avail) :
    SameCredits s (modIn s r p f) where
  cons q n := congrArg OutPort.cons (stOuts_modIn s q r p f n)
  avail q p' := getSt_modSt_keeps s r q _ (fun x => x.ins[p'].avail) fun x => by
    rw [vmod_get]
    split
    · next h => rw [hf, h]
    · rfl

theorem sameCredits_modOut (s : State) (r : StationRef) (n : PortId) {f : OutPort → OutPort} (hf : ∀ x, (f x).cons = x.cons) :
    SameCredits s (modOut s r n f) where
  cons q m := getSt_modSt_keeps s r q _ (fun x => x.outs[m].cons) fun x => by
    rw [vmod_get]
    split
    · next h => rw [hf, h]
    · rfl
  avail q p := congrArg (fun v : Vector InPort 8 => v[p].avail) (getSt_modSt_keeps s r q _ Station.ins fun _ => rfl)

theorem sameCredits_noteTurn (s : State) (r : StationRef) (p : PortId) (l : List PortId) : SameCredits s (noteTurn s r p l) where
  cons q n := congrArg (fun v : Vector OutPort 8 => v[n].cons) (getSt_modSt_keeps s r q _ Station.outs fun _ => rfl)
  avail q p' := congrArg (fun v : Vector InPort 8 => v[p'].avail) (getSt_modSt_keeps s r q _ Station.ins fun _ => rfl)

/-- An entry on an output stream is noted at its port. -/
theorem sameCredits_logOutCause (s : State) (r : StationRef) (n : PortId) (t : Tile) (cause d3 : Nat) : SameCredits s (logOutCause s r n t cause d3) := by
  unfold logOutCause
  dsimp only
  split
  · exact .of_getSt fun _ => rfl
  · exact SameCredits.trans (.of_getSt fun _ => by rfl) (sameCredits_modOut _ r n fun _ => by rfl)

theorem getIn_logOutCause (s : State) (r q : StationRef) (n p : PortId) (t : Tile) (cause d3 : Nat) :
    getIn (logOutCause s r n t cause d3) q p = getIn s q p := by
  unfold logOutCause
  dsimp only
  split
  · rfl
  · exact congrArg (fun v : Vector InPort 8 => v[p]) (getSt_modSt_keeps _ r q _ Station.ins fun _ => rfl)

theorem logOutCause_dbkIn (s : State) (r : StationRef) (n : PortId) (t : Tile) (cause d3 : Nat) :
    ∃ l, (logOutCause s r n t cause d3).dbkIn = s.dbkIn ++ l := by
  unfold logOutCause
  dsimp only
  split
  · exact ⟨[], (List.append_nil _).symm⟩
  · exact ⟨_, modOut_dbkIn _ _ _ _⟩

theorem sameButStations_spendSlot (s : State) (c : StationRef) (p : PortId) : SameButStations s (spendSlot s c p).2 := by
  have hfree : SameButStations s { s with free := s.free + 1 } := ⟨fun _ => rfl, fun _ => rfl, fun _ => rfl, rfl, rfl⟩
  exact hfree.trans (sameButStations_modIn _ c p _)

theorem sameButStations_stampOut (s : State) (r : StationRef) (n : PortId) (t : Tile) : SameButStations s (stampOut s r n t).2 :=
  sameButStations_modOut s r n _

/-- A tile that gets its slot takes a credit and steps its connection's ordinal; what the ports hold, and all but the stations, it leaves. -/
theorem reserveOut_keeps {s u : State} {r : StationRef} {n k : PortId} {t : Tile} {o : Option MsgRef} {tok : Token}
    (h : reserveOut s r n t o = some (k, tok, u)) :
    SameButStations s u ∧ u.dbkIn = s.dbkIn ∧ ∀ q p, (getIn u q p).held = (getIn s q p).held := by
  unfold reserveOut spendCredit at h
  split at h
  · cases h
  · next slot s1 hslot =>
    obtain ⟨-, -, rfl⟩ := Option.some.inj h
    split at hslot
    · next c p _ =>
      split at hslot
      · cases hslot
      · obtain rfl : (spendSlot s c p).2 = s1 := congrArg Prod.snd (Option.some.inj hslot)
        refine ⟨?_, (modSt_dbkIn _ _ _).trans (modSt_dbkIn _ c _), fun q p' => ?_⟩
        · exact (sameButStations_spendSlot s c p).trans (sameButStations_stampOut _ r n t)
        · have hstamped : (getIn (stampOut (spendSlot s c p).2 r n t).2 q p').held = (getIn (spendSlot s c p).2 q p').held :=
            congrArg (fun v : Vector InPort 8 => v[p'].held) (getSt_modSt_keeps _ r q _ Station.ins fun _ => rfl)
          refine hstamped.trans (getSt_modSt_keeps _ c q _ (fun x => x.ins[p'].held) fun x => ?_)
          rw [vmod_get]
          split
          · next h => rw [h]
          · rfl
    · cases hslot

/-! ## A firing of the Noise station with one output -/

/-- The station fires with one tile for its output, and its stream is `z` from now on. -/
def noiseFired (s : State) (b : BayId) (z : NoiseStream) (ins : List (PortId × Token)) (n : PortId) (out : Token) : State :=
  startFiring (putNoise s b z) (.bay b .nse) ins [(n, out)]

section Fired
variable (s : State) (b : BayId) (z : NoiseStream) (ins : List (PortId × Token)) (n : PortId) (out : Token)

theorem noiseFired_firing : (getSt (noiseFired s b z ins n out) (.bay b .nse)).firing = some { ins := ins, outs := [(n, out)] } :=
  startFiring_firing _ _ _ _

theorem noiseFired_in (p : PortId) : getIn (noiseFired s b z ins n out) (.bay b .nse) p = getIn s (.bay b .nse) p := by
  rw [noiseFired, startFiring_in, putNoise, getIn_modNoise]

theorem noiseFired_dbkIn : (noiseFired s b z ins n out).dbkIn = s.dbkIn := startFiring_dbkIn _ _ _ _

theorem noiseFired_seeds : (noiseFired s b z ins n out).bays[b].noise.seeds = s.bays[b].noise.seeds := by
  have hfired := (sameButStations_modSt (putNoise s b z) (.bay b .nse) (fun x => { x with
    firing := some { ins := ins, outs := [(n, out)] }, stall := false, st := if x.st == .draining then .draining else .busy })).noise b
  have hput : (putNoise s b z).bays[b].noise.seeds = s.bays[b].noise.seeds := by rw [putNoise, modNoise_noise, if_pos rfl]
  exact (congrArg NoiseSt.seeds hfired).trans hput

end Fired

theorem raiseMark_seeds (s : State) (b : BayId) (o : OpenSeed) (mark n : Nat) : (raiseMark s b o mark n).bays[b].noise.seeds =
    s.bays[b].noise.seeds.map (fun q => if q = o then { q with mark := mark } else q) := by
  rw [raiseMark, modNoise_noise, if_pos rfl]

/-- A tile with the stream and the ordinal of its connection (R59). -/
def stampedTile (s : State) (r : StationRef) (n : PortId) (t : Tile) : Tile :=
  { t with hdr := { t.hdr with stream := (getOut s r n).stream, ordinal := (getOut s r n).nextOrd } }

/-- An output port with a credit reserves a slot for a tile. -/
theorem reserveOut_stamps {s : State} {r : StationRef} {n : PortId} {c : StationRef × PortId} (hfeeds : Feeds s r n c) (t : Tile) :
    ∃ slot u, reserveOut s r n t none = some (n, { tile := stampedTile s r n t, slot := slot, origin := none }, u) ∧ SameButStations s u ∧
      u.dbkIn = s.dbkIn ∧ ∀ q p, (getIn u q p).held = (getIn s q p).held := by
  obtain ⟨slot, u, hreserved, -⟩ := reserveOut_some hfeeds t none
  exact ⟨slot, u, hreserved, reserveOut_keeps hreserved⟩

/-! ## The head of an ADD stream (R221, R223) -/

/-- The Noise station could serve port `p` of ADD stream `x`: its head creates no cause, its seed is open, and its output has a credit. -/
structure AddHead (s : State) (b : BayId) (p n : PortId) (tok : Token) (rest : List Token) (x : NoiseStream) (o : OpenSeed)
    (c : StationRef × PortId) : Prop where
  held : (getIn s (.bay b .nse) p).held = tok :: rest
  out : x.out = 8 + n.1
  feeds : Feeds s (.bay b .nse) n c
  sound : portCauses s (.bay b .nse) p tok.tile = []
  clean : tok.tile.hdr.poison = false
  fits : addCauses (readsPayload s (.bay b .nse) tok.tile) tok.tile = []
  goesOn : x.aborted = false

/-- A tile with a sample added to each of its elements (R221). -/
abbrev noisedTile (s : State) (b : BayId) (k : KeySlot) (t : Tile) : Tile := { hdr := { t.hdr with noised := true }, payload := addNoise s b k t }

/-- The marker that leaves for a tile whose span is not its stream's own (R223). -/
abbrev reuseMarker (t : Tile) : Tile := markerOf { t.hdr with noised := true } codeAborted

/-- An ADD stream after a tile: LAST ends it, and a tile whose span is not its own aborts it until then. -/
def streamNext (x : NoiseStream) (last bad : Bool) : NoiseStream :=
  if last then { x with next := 0, aborted := false, waitSeed := false } else { x with next := x.next + 1, aborted := bad, waitSeed := false }

/-- The front token is off port `p`. -/
def headTaken (s : State) (r : StationRef) (p : PortId) (tok : Token) (rest : List Token) : State :=
  modIn s r p (fun x => { x with
    held := rest, nextOrd := if tok.tile.hdr.last then 0 else x.nextOrd + 1,
    seqBad := if tok.tile.hdr.last then false else x.seqBad || (!x.unord && tok.tile.hdr.ordinal != x.nextOrd) })

section Taken
variable (s : State) (r : StationRef) (p : PortId) (tok : Token) (rest : List Token)

theorem sameButStations_headTaken : SameButStations s (headTaken s r p tok rest) := sameButStations_modIn s r p _

theorem sameCredits_headTaken : SameCredits s (headTaken s r p tok rest) := sameCredits_modIn s r p fun _ => rfl

end Taken

theorem sameCredits_raiseMark (s : State) (b : BayId) (o : OpenSeed) (mark n : Nat) : SameCredits s (raiseMark s b o mark n) :=
  .of_getSt fun r => getSt_modNoise s b _ r

theorem getOut_raiseMark (s : State) (b : BayId) (o : OpenSeed) (mark m : Nat) (r : StationRef) (n : PortId) :
    getOut (raiseMark s b o mark m) r n = getOut s r n := congrArg (fun x : Station => x.outs[n]) (getSt_modNoise s b _ r)

theorem logMade_none (s : State) (r : StationRef) (p n : PortId) (t : Tile) : logMade s r p (some n) t [] = s := rfl

theorem logMade_one (s : State) (r : StationRef) (p n : PortId) (t : Tile) (cause : Nat) :
    logMade s r p (some n) t [cause] = logOutCause s r n t cause 0 := rfl

theorem logReuse_sound (s : State) (b : BayId) (x : NoiseStream) : logReuse s b x false = s := rfl

section LogReuse
variable (s : State) (b : BayId) (x : NoiseStream) (bad : Bool)

theorem logReuse_cases : logReuse s b x bad = s ∨ logReuse s b x bad = logN s s.bays[b].owner (.st b .nse) codeNoiseReuse b.1 0 := by
  unfold logReuse
  split
  · exact .inr rfl
  · exact .inl rfl

theorem sameButStations_logReuse : SameButStations s (logReuse s b x bad) := by
  obtain h | h := logReuse_cases s b x bad <;> rw [h]
  · exact .refl s
  · exact sameButStations_logEv s _ _ _ _ _ _ _

theorem getSt_logReuse (r : StationRef) : getSt (logReuse s b x bad) r = getSt s r := by
  obtain h | h := logReuse_cases s b x bad <;> rw [h]
  rfl

end LogReuse

/-- The entries for a tile whose span is not its stream's own: its cause on the output's stream, then NOISE_REUSE, once for the stream. -/
abbrev reuseLogged (s : State) (b : BayId) (n : PortId) (x : NoiseStream) (t : Tile) : State :=
  logReuse (logOutCause s (.bay b .nse) n t codeAborted 0) b x true

section Reused
variable (s : State) (b : BayId) (n : PortId) (x : NoiseStream) (t : Tile)

theorem sameButStations_reuseLogged : SameButStations s (reuseLogged s b n x t) :=
  (sameButStations_logOutCause s (.bay b .nse) n t codeAborted 0).trans (sameButStations_logReuse _ b x true)

theorem sameCredits_reuseLogged : SameCredits s (reuseLogged s b n x t) :=
  (sameCredits_logOutCause s _ n t codeAborted 0).trans (.of_getSt (getSt_logReuse _ b x true))

theorem getIn_reuseLogged (r : StationRef) (p : PortId) : getIn (reuseLogged s b n x t) r p = getIn s r p :=
  (congrArg (fun y : Station => y.ins[p]) (getSt_logReuse _ b x true r)).trans (getIn_logOutCause s _ r n p t codeAborted 0)

theorem reuseLogged_entries (hgoesOn : x.aborted = false) :
    ∃ l e, (reuseLogged s b n x t).dbkIn = s.dbkIn ++ l ++ [e] ∧ e.2.code = codeNoiseReuse := by
  obtain ⟨l, hl⟩ := logOutCause_dbkIn s (.bay b .nse) n t codeAborted 0
  have hreuse : reuseLogged s b n x t = logN (logOutCause s (.bay b .nse) n t codeAborted 0)
      (logOutCause s (.bay b .nse) n t codeAborted 0).bays[b].owner (.st b .nse) codeNoiseReuse b.1 0 := if_pos ⟨rfl, by rw [hgoesOn]; rfl⟩
  obtain ⟨e, he, hcode, -⟩ := logEv_dbkIn (logOutCause s (.bay b .nse) n t codeAborted 0)
    (logOutCause s (.bay b .nse) n t codeAborted 0).bays[b].owner (.st b .nse) codeNoiseReuse b.1 0 0 0
  rw [hl] at he
  exact ⟨l, _, (congrArg State.dbkIn hreuse).trans he, hcode⟩

end Reused

theorem getOut_noteTurn (s : State) (r : StationRef) (p : PortId) (l : List PortId) (n : PortId) : getOut (noteTurn s r p l) r n = getOut s r n := by
  simp [getOut, noteTurn]

theorem noteTurn_dbkIn (s : State) (r : StationRef) (p : PortId) (l : List PortId) : (noteTurn s r p l).dbkIn = s.dbkIn := modSt_dbkIn s r _

section Add
variable {s : State} {b : BayId} {p n : PortId} {tok : Token} {rest : List Token} {x : NoiseStream} {o : OpenSeed} {c : StationRef × PortId}

theorem AddHead.noteTurn (h : AddHead s b p n tok rest x o c) (l : List PortId) : AddHead (noteTurn s (.bay b .nse) p l) b p n tok rest x o c := by
  have hsame := sameButStations_noteTurn s (.bay b .nse) p l
  have hin := getIn_noteTurn s p (.bay b .nse) l p
  refine ⟨?_, h.out, (sameCredits_noteTurn s _ p l).feeds h.feeds, ?_, h.clean, ?_, h.goesOn⟩
  · rw [hin, h.held]
  · rw [hsame.portCauses b .nse hin, h.sound]
  · rw [hsame.readsPayload, h.fits]

variable (h : AddHead s b p n tok rest x o c)
include h

theorem AddHead.port : finOpt 8 (x.out - 8) = some n := by rw [h.out, Nat.add_sub_cancel_left, finOpt_port]

/-- Inside the seed's range and above its mark, the tile leaves with a sample added to each element, and the mark rises past it. -/
theorem AddHead.adds (k : KeySlot) (hclaimed : spanClaimed o tok.tile.hdr.sliceOffset (addSpan s b tok.tile.hdr) = true) :
    ∃ u out, noiseAddOne s b p x (some (o, k)) none = some (noiseFired u b (streamNext x tok.tile.hdr.last false) [(p, tok)] n out) ∧
      out.tile = stampedTile s (.bay b .nse) n (noisedTile s b k tok.tile) ∧
      (getIn u (.bay b .nse) p).held = rest ∧ u.dbkIn = s.dbkIn ∧ u.bays[b].noise.seeds = s.bays[b].noise.seeds.map
        (fun q => if q = o then { q with mark := tok.tile.hdr.sliceOffset + addSpan s b tok.tile.hdr } else q) := by
  have hcauses : tileCauses s (.bay b .nse) p tok.tile (addCauses (readsPayload s (.bay b .nse) tok.tile) tok.tile ++ []) = ([], none) := by
    rw [tileCauses, h.sound, h.fits, h.clean]
    rfl
  have htaken : takeTok s (.bay b .nse) p = some (tok, headTaken s (.bay b .nse) p tok rest) := takeTok_some s _ p tok rest h.held
  have hsame := sameButStations_headTaken s (.bay b .nse) p tok rest
  have hfeeds := ((sameCredits_headTaken s (.bay b .nse) p tok rest).trans (sameCredits_raiseMark _ b o
    (tok.tile.hdr.sliceOffset + addSpan s b tok.tile.hdr) tok.tile.hdr.count)).feeds h.feeds
  obtain ⟨slot, u, hreserved, hkept, hlog, hheld⟩ := reserveOut_stamps hfeeds (noisedTile s b k tok.tile)
  have hport : getOut (raiseMark (headTaken s (.bay b .nse) p tok rest) b o (tok.tile.hdr.sliceOffset + addSpan s b tok.tile.hdr)
      tok.tile.hdr.count) (.bay b .nse) n = getOut s (.bay b .nse) n :=
    (getOut_raiseMark _ b o _ _ _ n).trans (getOut_modIn _ _ _ _ _)
  rw [stampedTile, hport] at hreserved
  refine ⟨u, { tile := stampedTile s (.bay b .nse) n (noisedTile s b k tok.tile), slot := slot, origin := none }, ?_, rfl, ?_, ?_, ?_⟩
  · simp only [noiseAddOne, h.held, h.port, h.goesOn, hclaimed, List.head?_cons, Bool.not_true, Bool.or_self, Bool.false_eq_true, if_false,
      Option.toList_none, hcauses, logMade_none, logReuse_sound, htaken, hsame.addNoise]
    rw [hreserved]
    rfl
  · rw [hheld, raiseMark, getIn_modNoise, headTaken, getIn_modIn, if_pos rfl]
  · exact hlog.trans (modIn_dbkIn _ _ _ _)
  · rw [hkept.noise, raiseMark_seeds, hsame.noise]

/-- Anywhere else the tile leaves as a marker, and NOISE_REUSE is written; no sample is drawn. -/
theorem AddHead.aborts (k : KeySlot) (hreused : spanClaimed o tok.tile.hdr.sliceOffset (addSpan s b tok.tile.hdr) = false) :
    ∃ u out, noiseAddOne s b p x (some (o, k)) none = some (noiseFired u b (streamNext x tok.tile.hdr.last true) [(p, tok)] n out) ∧
      out.tile.hdr.poison = true ∧ out.tile.hdr.poisonCause = codeAborted ∧ u.bays[b].noise.seeds = s.bays[b].noise.seeds ∧
      ∃ l e, u.dbkIn = s.dbkIn ++ l ++ [e] ∧ e.2.code = codeNoiseReuse := by
  have hcauses : tileCauses s (.bay b .nse) p tok.tile (addCauses (readsPayload s (.bay b .nse) tok.tile) tok.tile ++ [codeAborted]) =
      ([codeAborted], some codeAborted) := by
    rw [tileCauses, h.sound, h.fits, h.clean]
    rfl
  have hentry := reuseLogged_entries s b n x tok.tile h.goesOn
  have hlogged := sameButStations_reuseLogged s b n x tok.tile
  have hheld : (getIn (reuseLogged s b n x tok.tile) (.bay b .nse) p).held = tok :: rest := by rw [getIn_reuseLogged, h.held]
  have htaken : takeTok (reuseLogged s b n x tok.tile) (.bay b .nse) p = some (tok, headTaken (reuseLogged s b n x tok.tile) (.bay b .nse) p tok rest) :=
    takeTok_some _ _ p tok rest hheld
  have hfeeds := ((sameCredits_reuseLogged s b n x tok.tile).trans (sameCredits_headTaken _ (.bay b .nse) p tok rest)).feeds h.feeds
  obtain ⟨slot, u, hreserved, hkept, hlog, -⟩ := reserveOut_stamps hfeeds (reuseMarker tok.tile)
  refine ⟨u, {
    tile := stampedTile (headTaken (reuseLogged s b n x tok.tile) (.bay b .nse) p tok rest) (.bay b .nse) n (reuseMarker tok.tile)
    slot := slot
    origin := none }, ?_, rfl, rfl, ?_, ?_⟩
  · simp only [noiseAddOne, h.held, h.port, h.goesOn, hreused, List.head?_cons, Bool.not_false, Bool.or_true, if_true,
      Option.toList_some, hcauses, logMade_one, htaken, Option.isSome_some]
    rw [hreserved]
    rfl
  · rw [hkept.noise, (sameButStations_headTaken _ _ p tok rest).noise, hlogged.noise]
  · rw [hlog, headTaken, modIn_dbkIn]
    exact hentry

end Add

/-! ## NOISE_ADD_TILE (R220, R221, R223) -/

section AddTile
variable {s : State} {b : BayId} {p : PortId} {tok : Token} {rest : List Token} {x : NoiseStream} (hholds : Holds s (.bay b .nse) p tok rest)
  (hfound : findNoise s b (fun x => x.mode == 1 && x.inPort == p.1) = some x)
include hholds hfound

theorem exec_noiseAddTile_waits (hseed : streamSeed s b x = none) : exec (.noiseAddTile b p) s = .next (putNoise s b { x with waitSeed := true }) := by
  obtain ⟨hfire, -, hheld⟩ := hholds
  show execNoiseAddTile b p s = _
  simp [execNoiseAddTile, hfound, hfire, hheld, hseed]

theorem exec_noiseAddTile_serves {o : OpenSeed} {k : KeySlot} (hseed : streamSeed s b x = some (o, k))
    (hturn : inTurn s (.bay b .nse) p (noiseReady s b) = true) {t : State}
    (hone : noiseAddOne (noteTurn s (.bay b .nse) p (noiseReady s b)) b p x (some (o, k)) none = some t) : exec (.noiseAddTile b p) s = .next t := by
  obtain ⟨hfire, -, hheld⟩ := hholds
  show execNoiseAddTile b p s = _
  simp [execNoiseAddTile, hfound, hfire, hheld, hseed, hturn, hone]

end AddTile

section AddRuns
variable {s : State} {b : BayId} {p n : PortId} {tok : Token} {rest : List Token} {x : NoiseStream} {o : OpenSeed} {k : KeySlot}
  {c : StationRef × PortId} (hholds : Holds s (.bay b .nse) p tok rest)
  (hfound : findNoise s b (fun x => x.mode == 1 && x.inPort == p.1) = some x) (hseed : streamSeed s b x = some (o, k))
  (hturn : inTurn s (.bay b .nse) p (noiseReady s b) = true) (hhead : AddHead s b p n tok rest x o c)
include hholds hfound hseed hturn hhead

theorem noiseAddTile_adds (hclaimed : spanClaimed o tok.tile.hdr.sliceOffset (addSpan s b tok.tile.hdr) = true) :
    Runs (.noiseAddTile b p) s (fun t => ∃ out : Token,
      (getSt t (.bay b .nse)).firing = some { ins := [(p, tok)], outs := [(n, out)] } ∧ (getIn t (.bay b .nse) p).held = rest ∧
      out.tile.hdr = { tok.tile.hdr with
        noised := true, stream := (getOut s (.bay b .nse) n).stream, ordinal := (getOut s (.bay b .nse) n).nextOrd } ∧
      out.tile.payload = addNoise s b k tok.tile ∧ t.dbkIn = s.dbkIn ∧ (t.bays[b]).noise.seeds = s.bays[b].noise.seeds.map
        (fun q => if q = o then { q with mark := tok.tile.hdr.sliceOffset + addSpan s b tok.tile.hdr } else q)) := by
  have hsame := sameButStations_noteTurn s (.bay b .nse) p (noiseReady s b)
  obtain ⟨u, out, hone, hout, hheld, hlog, hseeds⟩ := (hhead.noteTurn (noiseReady s b)).adds k (by rw [hsame.addSpan]; exact hclaimed)
  rw [hsame.addSpan, hsame.noise] at hseeds
  rw [stampedTile, noisedTile, hsame.addNoise, getOut_noteTurn] at hout
  refine ⟨_, exec_noiseAddTile_serves hholds hfound hseed hturn hone, out, noiseFired_firing _ _ _ _ _ _, ?_, ?_, ?_, ?_, ?_⟩
  · rw [noiseFired_in, hheld]
  · rw [hout]
  · rw [hout]
  · rw [noiseFired_dbkIn, hlog, noteTurn_dbkIn]
  · rw [noiseFired_seeds, hseeds]

theorem noiseAddTile_aborts (hreused : spanClaimed o tok.tile.hdr.sliceOffset (addSpan s b tok.tile.hdr) = false) :
    Runs (.noiseAddTile b p) s (fun t => ∃ out : Token,
      (getSt t (.bay b .nse)).firing = some { ins := [(p, tok)], outs := [(n, out)] } ∧ out.tile.hdr.poison = true ∧
      out.tile.hdr.poisonCause = 0x3008 ∧ (t.bays[b]).noise.seeds = s.bays[b].noise.seeds ∧
      ∃ l e, t.dbkIn = s.dbkIn ++ l ++ [e] ∧ e.2.code = 0x8007) := by
  have hsame := sameButStations_noteTurn s (.bay b .nse) p (noiseReady s b)
  obtain ⟨u, out, hone, hpoison, hcause, hseeds, hlog⟩ := (hhead.noteTurn (noiseReady s b)).aborts k (by rw [hsame.addSpan]; exact hreused)
  rw [noteTurn_dbkIn] at hlog
  refine ⟨_, exec_noiseAddTile_serves hholds hfound hseed hturn hone, out, noiseFired_firing _ _ _ _ _ _, hpoison, hcause, ?_, ?_⟩
  · rw [noiseFired_seeds, hseeds, hsame.noise]
  · rw [noiseFired_dbkIn]
    exact hlog

end AddRuns

/-! ## NOISE_SAMPLE_TILE (R222, R223) -/

/-- The Noise station works, and a SAMPLE stream has tiles left and a credit for the next. -/
structure SampleDue (s : State) (b : BayId) (n : PortId) (x : NoiseStream) (c : StationRef × PortId) : Prop where
  fire : mayFire s (.bay b .nse) = true
  works : stopping (getSt s (.bay b .nse)) = false
  found : findNoise s b (fun x => x.mode == 2 && x.out == 8 + n.1) = some x
  goesOn : x.ended = false
  more : 8192 * x.next < x.length
  feeds : Feeds s (.bay b .nse) n c

/-- The stream after its next tile. -/
def sampleStep (x : NoiseStream) (bad : Bool) : NoiseStream :=
  { x with next := x.next + 1, ended := (sampleHdr x).last, waitSeed := false, aborted := bad }

/-- The number of a SAMPLE stream's next sample (R222). -/
abbrev sampleAt (x : NoiseStream) : Nat := x.base + 8192 * x.next

/-- The entries for a sample tile whose numbers are not its stream's own: NOISE_REUSE, then its cause on the output's stream. -/
abbrev reusedSample (s : State) (b : BayId) (n : PortId) (x : NoiseStream) : State :=
  logOutCause (logReuse s b x true) (.bay b .nse) n { hdr := sampleHdr x } codeAborted 0

theorem sameButStations_reusedSample (s : State) (b : BayId) (n : PortId) (x : NoiseStream) : SameButStations s (reusedSample s b n x) :=
  (sameButStations_logReuse s b x true).trans (sameButStations_logOutCause _ _ _ _ _ _)

theorem sameCredits_reusedSample (s : State) (b : BayId) (n : PortId) (x : NoiseStream) : SameCredits s (reusedSample s b n x) :=
  SameCredits.trans (.of_getSt (getSt_logReuse s b x true)) (sameCredits_logOutCause _ _ _ _ _ _)

section Sample
variable {s : State} {b : BayId} {n : PortId} {x : NoiseStream} {c : StationRef × PortId} (h : SampleDue s b n x c)
include h

theorem SampleDue.count_ne : (sampleHdr x).count ≠ 0 := by
  have hmore := h.more
  show min 8192 (x.length - 8192 * x.next) ≠ 0
  omega

theorem SampleDue.credits_ne : outCredits s (.bay b .nse) n ≠ 0 := by
  obtain ⟨hcons, hcredit⟩ := h.feeds
  simpa only [outCredits, hcons] using hcredit

theorem SampleDue.waits (hseed : streamSeed s b x = none) : exec (.noiseSampleTile b n) s = .next (putNoise s b { x with waitSeed := true }) := by
  show execNoiseSampleTile b n s = _
  simp [execNoiseSampleTile, h.found, h.goesOn, h.count_ne, h.credits_ne, h.works, h.fire, hseed]

variable {o : OpenSeed} {k : KeySlot} (hseed : streamSeed s b x = some (o, k))
include hseed

theorem SampleDue.exec_samples (hgoesOn : x.aborted = false) (hclaimed : spanClaimed o (sampleAt x) (sampleHdr x).count = true) {j : PortId}
    {out : Token} {u : State} (hreserved : reserveOut (raiseMark s b o (sampleAt x + (sampleHdr x).count) (sampleHdr x).count) (.bay b .nse) n
      { hdr := sampleHdr x, payload := samplePayload s b k x } none = some (j, out, u)) :
    exec (.noiseSampleTile b n) s = .next (noiseFired u b (sampleStep x false) [] n out) := by
  show execNoiseSampleTile b n s = _
  simp [execNoiseSampleTile, h.found, h.goesOn, h.count_ne, h.credits_ne, h.works, h.fire, hseed, hgoesOn, hclaimed, hreserved]
  rfl

theorem SampleDue.exec_aborts (hreused : spanClaimed o (sampleAt x) (sampleHdr x).count = false) {j : PortId} {out : Token} {u : State}
    (hreserved : reserveOut (reusedSample s b n x) (.bay b .nse) n (markerOf (sampleHdr x) codeAborted) none = some (j, out, u)) :
    exec (.noiseSampleTile b n) s = .next (noiseFired u b (sampleStep x true) [] n out) := by
  show execNoiseSampleTile b n s = _
  simp [execNoiseSampleTile, h.found, h.goesOn, h.count_ne, h.credits_ne, h.works, h.fire, hseed, hreused, hreserved]
  rfl

/-- Inside the seed's range and above its mark, the tile holds the samples of its numbers, and the mark rises past them. -/
theorem SampleDue.samples (hgoesOn : x.aborted = false) (hclaimed : spanClaimed o (sampleAt x) (sampleHdr x).count = true) :
    Runs (.noiseSampleTile b n) s (fun t => ∃ out : Token, (getSt t (.bay b .nse)).firing = some { ins := [], outs := [(n, out)] } ∧
      out.tile = stampedTile s (.bay b .nse) n { hdr := sampleHdr x, payload := samplePayload s b k x } ∧ t.dbkIn = s.dbkIn ∧
      (t.bays[b]).noise.seeds = s.bays[b].noise.seeds.map
        (fun q => if q = o then { q with mark := sampleAt x + (sampleHdr x).count } else q)) := by
  have hfeeds := (sameCredits_raiseMark s b o (sampleAt x + (sampleHdr x).count) (sampleHdr x).count).feeds h.feeds
  obtain ⟨slot, u, hreserved, hkept, hlog, -⟩ := reserveOut_stamps hfeeds { hdr := sampleHdr x, payload := samplePayload s b k x }
  refine ⟨_, h.exec_samples hseed hgoesOn hclaimed hreserved, _, noiseFired_firing _ _ _ _ _ _, ?_, ?_, ?_⟩
  · rw [stampedTile, getOut_raiseMark]
    rfl
  · rw [noiseFired_dbkIn, hlog]
    rfl
  · rw [noiseFired_seeds, hkept.noise, raiseMark_seeds]

/-- Anywhere else the tile is a marker, and no sample is drawn. -/
theorem SampleDue.aborts (hreused : spanClaimed o (sampleAt x) (sampleHdr x).count = false) :
    Runs (.noiseSampleTile b n) s (fun t => ∃ out : Token, (getSt t (.bay b .nse)).firing = some { ins := [], outs := [(n, out)] } ∧
      out.tile.hdr.marker = true ∧ out.tile.hdr.poisonCause = 0x3008 ∧ (t.bays[b]).noise.seeds = s.bays[b].noise.seeds) := by
  have hsame := sameButStations_reusedSample s b n x
  have hfeeds := (sameCredits_reusedSample s b n x).feeds h.feeds
  obtain ⟨slot, u, hreserved, hkept, -, -⟩ := reserveOut_stamps hfeeds (markerOf (sampleHdr x) codeAborted)
  refine ⟨_, h.exec_aborts hseed hreused hreserved, _, noiseFired_firing _ _ _ _ _ _, rfl, rfl, ?_⟩
  rw [noiseFired_seeds, hkept.noise, hsame.noise]

end Sample

theorem spanClaimed_iff (o : OpenSeed) (a n : Nat) : spanClaimed o a n = true ↔ o.lo ≤ a ∧ a + n ≤ o.hi ∧ o.mark ≤ a := by
  simp [spanClaimed, and_assoc]

theorem spanClaimed_eq_false_iff (o : OpenSeed) (a n : Nat) : spanClaimed o a n = false ↔ a < o.lo ∨ o.hi < a + n ∨ a < o.mark := by
  rw [← Bool.not_eq_true, spanClaimed_iff]
  omega

/-- Settles O47: a tile is served by whether its span is its stream's own to draw (`AddHead.adds`, `AddHead.aborts`, `SampleDue.samples`,
`SampleDue.aborts`), and the mark rises only when it is. -/
theorem noiseIsAddedOnceAndNeverReused : Obligations.NoiseIsAddedOnceAndNeverReused := by
  refine ⟨?adds, ?samples⟩
  case adds =>
    intro s b p n tok rest x c hholds hfound hout hfeeds
    obtain ⟨-, -, hheld⟩ := id hholds
    refine ⟨exec_noiseAddTile_waits hholds hfound, fun o k hseed hsound hclean hfits hgoesOn hturn => ?_⟩
    have hhead : AddHead s b p n tok rest x o c := ⟨hheld, hout, hfeeds, hsound, hclean, hfits, hgoesOn⟩
    exact ⟨fun hlo hhi hmark => noiseAddTile_adds hholds hfound hseed hturn hhead ((spanClaimed_iff _ _ _).2 ⟨hlo, hhi, hmark⟩),
      fun hreused => noiseAddTile_aborts hholds hfound hseed hturn hhead ((spanClaimed_eq_false_iff _ _ _).2 hreused)⟩
  case samples =>
    intro s b n x c hfire hworks hfound hgoesOn hmore hfeeds
    have hdue : SampleDue s b n x c := ⟨hfire, hworks, hfound, hgoesOn, hmore, hfeeds⟩
    refine ⟨hdue.waits, fun o k hseed habort hlo hhi hmark => ?_,
      fun o k hseed hreused => hdue.aborts hseed ((spanClaimed_eq_false_iff _ _ _).2 hreused)⟩
    obtain ⟨t, hrun, out, hfiring, hout, hlog, hseeds⟩ := hdue.samples hseed habort ((spanClaimed_iff _ _ _).2 ⟨hlo, hhi, hmark⟩)
    refine ⟨t, hrun, out, hfiring, ?_⟩
    rw [hout]
    exact ⟨rfl, rfl, rfl, rfl, rfl, rfl, rfl, rfl, hlog, hseeds⟩

end Sys2Proof.Machine

/-! PROOFS. A release from RLS_OPEN to its sink (R226, R229 to R233): what an update of a Release station leaves, a sink that fails, what RLS_OPEN finds,
the signed record, the emission, resend and abort; then O48 from them. -/

namespace Sys2Proof.Machine

open Sys2Proof.Said

/-! ## What an update of a Release station leaves -/

theorem modRls_release (s : State) (b : BayId) (f : RlsSt → RlsSt) : (modRls s b f).bays[b].release = f s.bays[b].release := by
  rw [modRls, modBay_same]

/-- The memory's bytes are no part of the station. -/
theorem modMem_release (s : State) (b c : BayId) (f : BayMem → BayMem) : (modMem s b f).bays[c].release = s.bays[c].release :=
  modBay_keeps (f := fun y => { y with mem := f y.mem }) Bay.release (fun _ => rfl) s b c

theorem regionWrite_release (s : State) (b c : BayId) (r : Release) (off : Nat) (bs : List Byte) :
    (regionWrite s b r off bs).bays[c].release = s.bays[c].release := modMem_release s b c _

theorem regionZero_frame (s : State) (b : BayId) (r : Release) : { regionZero s b r with bays := s.bays } = s := by
  unfold regionZero
  dsimp only
  split <;> rfl

theorem regionZero_qm (s : State) (b : BayId) (r : Release) : (regionZero s b r).qm = s.qm := (congrArg State.qm (regionZero_frame s b r) :)
theorem regionZero_dbkIn (s : State) (b : BayId) (r : Release) : (regionZero s b r).dbkIn = s.dbkIn :=
  (congrArg State.dbkIn (regionZero_frame s b r) :)

theorem releaseIdle_release (s : State) (b : BayId) (r : Release) : (releaseIdle s b r).bays[b].release = { s.bays[b].release with
    state := .idle, cur := none, closed := some (r.inStore, r.region, r.regionLen), last := if r.record = [] then none else some r } :=
  modRls_release s b _

/-! ## Emission and its end (R230) -/

/-- The data and the record of a release are written to the host. -/
def sentToHost (s : State) (r : Release) (d at2 : W64) : State :=
  emitOut (emitOut s (.hostWrite r.h.part d r.out)) (.hostWrite r.h.part at2 r.record)

theorem sentToHost_out (s : State) (r : Release) (d at2 : W64) :
    (sentToHost s r d at2).out = s.out ++ [.hostWrite r.h.part d r.out, .hostWrite r.h.part at2 r.record] := by
  rw [sentToHost, emitOut_out, emitOut_out, List.append_assoc]
  rfl

/-- A release to the host begins its emission while the host link is up. -/
theorem releaseGo_host {s : State} {r : Release} {d at2 : W64} (hsink : r.args.sink = .host d at2) (hup : s.link.up = true) (b : BayId) :
    releaseGo s b r = sentToHost s r d at2 := by
  simp [releaseGo, sinkGone, hsink, hup, releaseEmit, sentToHost]

/-- The station emits `r`. -/
def emissionBegun (s : State) (b : BayId) (r : Release) : State := modRls s b (fun x => { x with state := .emitting, cur := some r })

theorem emissionBegun_release (s : State) (b : BayId) (r : Release) :
    (emissionBegun s b r).bays[b].release = { s.bays[b].release with state := .emitting, cur := some r } := modRls_release s b _

section Emitting
variable {s : State} {b : BayId} {r : Release} (hcur : s.bays[b].release.cur = some r) (hstate : s.bays[b].release.state = .emitting)
include hcur hstate

/-- What a failed sink leaves: the station is idle, the release is not counted, and RLS_SINK is entered and completes it. -/
theorem sinkFail_ends : completes s (sinkFail s b) r.h 0x800C [] ∧ oneEntry s (sinkFail s b) 0x800C ∧
    (sinkFail s b).bays[b].release.state = .idle ∧ (sinkFail s b).bays[b].release.records = s.bays[b].release.records := by
  have hfails : sinkFail s b = complete (modRls (releaseIdle (logN (dropTx s b) s.bays[b].owner (.st b .rls) codeRlsSink b.1 0) b r) b
      (fun x => { x with lastCode := codeRlsSink })) r.h codeRlsSink [] := by simp only [sinkFail, hcur, hstate, ne_eq, not_true_eq_false, if_false]
  rw [hfails, complete_bays, modRls_release, releaseIdle_release]
  exact ⟨completes_complete (modRls _ b _) r.h _ [], (oneEntry_complete _ _ _ _ _ _).2 ⟨_, rfl, rfl⟩, rfl, rfl⟩

theorem exec_releaseEmitComplete (hdone : ∀ m ∈ s.trn.tx, m.bay ≠ some b) :
    exec (.releaseEmitComplete b) s = .next (if r.lost then sinkFail s b else
      complete (modRls (releaseIdle s b r) b (fun x => { x with records := x.records + 1 })) r.h 0 (resultDigest r)) := by
  have hnone : s.trn.tx.any (fun m => m.bay == some b) = false := by simpa using hdone
  show execReleaseEmitComplete b s = _
  simp only [execReleaseEmitComplete, hcur, hstate, hnone, ne_eq, not_true_eq_false, Bool.false_eq_true, or_self, if_false]

theorem releaseEmitComplete_counts (hdone : ∀ m ∈ s.trn.tx, m.bay ≠ some b) (hkept : r.lost = false) :
    Runs (.releaseEmitComplete b) s (fun t => completes s t r.h 0 (shake256 (7 :: r.out) 64) ∧
      (t.bays[b]).release.state = .idle ∧ (t.bays[b]).release.cur = none ∧ (t.bays[b]).release.records = s.bays[b].release.records + 1) := by
  have hrun := exec_releaseEmitComplete hcur hstate hdone
  rw [hkept, if_neg Bool.false_ne_true] at hrun
  refine ⟨_, hrun, completes_complete (modRls _ b _) r.h _ _, ?_⟩
  rw [complete_bays, modRls_release, releaseIdle_release]
  exact ⟨rfl, rfl, rfl⟩

theorem releaseEmitComplete_lost (hdone : ∀ m ∈ s.trn.tx, m.bay ≠ some b) (hlost : r.lost = true) :
    Runs (.releaseEmitComplete b) s (fun t => completes s t r.h 0x800C [] ∧ oneEntry s t 0x800C) := by
  obtain ⟨hdone', hentry, -, -⟩ := sinkFail_ends hcur hstate
  refine ⟨_, exec_releaseEmitComplete hcur hstate hdone, ?_⟩
  rw [if_pos hlost]
  exact ⟨hdone', hentry⟩

theorem releaseSinkFail_ends : Runs (.releaseSinkFail b) s (fun t => completes s t r.h 0x800C [] ∧ oneEntry s t 0x800C ∧
    (t.bays[b]).release.state = .idle ∧ (t.bays[b]).release.records = s.bays[b].release.records) :=
  ⟨sinkFail s b, rfl, sinkFail_ends hcur hstate⟩

end Emitting

/-! ## RLS_OPEN (R226) -/

theorem seedIn_of_seedSlot {s : State} {h : CmdHdr} {n : Nat} {i : Fin 64} {k : KeySlot} (hseed : seedSlot s h n = some (i, k)) :
    i.1 = n ∧ SeedIn s h i k := by
  unfold seedSlot at hseed
  split at hseed
  · cases hseed
  · next i' hi =>
    obtain rfl : i'.1 = n := by
      unfold finOpt at hi
      split at hi
      · exact (congrArg Fin.val (Option.some.inj hi)).symm
      · cases hi
    split at hseed
    · next k' hk =>
      split at hseed
      · next hmine =>
        obtain ⟨rfl, rfl⟩ := Prod.mk.inj (Option.some.inj hseed)
        exact ⟨rfl, hk, hmine⟩
      · cases hseed
    · cases hseed

/-- What an accepted RLS_OPEN finds: the issuer's job, its seed and the presence bin. -/
structure RlsOpenFinds (s : State) (h : CmdHdr) (b : BayId) (a : RlsArgs) (j : Job) (i : Fin 64) (k : KeySlot) (x : Bin) : Prop where
  job : jobOfPart s h.part = some j
  named : j.job = a.job
  seed : seedSlot s h a.seed = some (i, k)
  bin : presenceBin s h b a = some x

theorem job_of_releaseArgsOk {s : State} {h : CmdHdr} {b : BayId} {j : Job} {a : RlsArgs} (hargs : releaseArgsOk s h b j a = true) :
    j.job = a.job ∧ ∃ x, presenceBin s h b a = some x := by
  simp only [releaseArgsOk, Bool.and_eq_true, beq_iff_eq] at hargs
  obtain ⟨⟨⟨⟨⟨-, hjob⟩, -⟩, hbin⟩, -⟩, -⟩ := hargs
  refine ⟨hjob, ?_⟩
  split at hbin
  · next x hx => exact ⟨x, hx⟩
  · cases hbin

theorem seedSlot_of_releaseStateOk {s : State} {h : CmdHdr} {b : BayId} {a : RlsArgs} (hstate : releaseStateOk s h b a = true) :
    ∃ i k, seedSlot s h a.seed = some (i, k) := by
  simp only [releaseStateOk, Bool.and_eq_true] at hstate
  obtain ⟨⟨-, hseed⟩, -⟩ := hstate
  obtain ⟨⟨i, k⟩, hik⟩ := Option.isSome_iff_exists.1 hseed
  exact ⟨i, k, hik⟩

theorem rlsOpen_finds {s : State} {h : CmdHdr} {b : BayId} {a : RlsArgs} (hbay : a.bay = b.1) (hok : rlsOpenStatus s h a = 0) :
    ∃ j i k x, RlsOpenFinds s h b a j i k x := by
  unfold rlsOpenStatus at hok
  rw [hbay, finOpt_val] at hok
  split at hok
  · next b' j hb hjob =>
    obtain rfl := Option.some.inj hb
    split at hok
    · cases hok
    split at hok
    · cases hok
    split at hok
    · cases hok
    next hstate =>
    split at hok
    · cases hok
    next hargs =>
    simp only [Bool.not_eq_true', Bool.not_eq_false] at hstate hargs
    obtain ⟨i, k, hseed⟩ := seedSlot_of_releaseStateOk hstate
    obtain ⟨hnamed, x, hbin⟩ := job_of_releaseArgsOk hargs
    exact ⟨j, i, k, x, hjob, hnamed, hseed, hbin⟩
  · cases hok

section Open
variable {s : State} {h : CmdHdr} {b : BayId} {a : RlsArgs}

theorem exec_rlsOpen_refused (hbad : rlsOpenStatus s h a ≠ 0) :
    exec (.rlsOpen h a) s = .next (complete (begun s (.rlsOpen h a)) h (rlsOpenStatus s h a) []) := by
  have hstatus : rlsOpenStatus (begun s (.rlsOpen h a)) h a = rlsOpenStatus s h a := rfl
  show execRlsOpen h a s = _
  simp only [execRlsOpen, hstatus, ne_eq, hbad, not_false_eq_true, if_true]

theorem exec_rlsOpen_opens (hbay : a.bay = b.1) (hok : rlsOpenStatus s h a = 0) {j : Job} {i : Fin 64} {k : KeySlot} {x : Bin}
    (hfinds : RlsOpenFinds s h b a j i k x) : exec (.rlsOpen h a) s = .next (modRls (reopenRegion (begun s (.rlsOpen h a)) b) b
      (fun r => { r with state := .collecting, cur := some (newRelease (begun s (.rlsOpen h a)) h b j a x k) })) := by
  have hstatus : rlsOpenStatus (begun s (.rlsOpen h a)) h a = 0 := hok
  have hjob : jobOfPart (begun s (.rlsOpen h a)) h.part = some j := hfinds.job
  have hseed : seedSlot (begun s (.rlsOpen h a)) h a.seed = some (i, k) := hfinds.seed
  have hbin : presenceBin (begun s (.rlsOpen h a)) h b a = some x := hfinds.bin
  show execRlsOpen h a s = _
  simp only [execRlsOpen, hstatus, ne_eq, not_true_eq_false, if_false, hbay, finOpt_val, hjob, hseed, hbin]

theorem rlsOpen_opens (hbay : a.bay = b.1) (hok : rlsOpenStatus s h a = 0) : Runs (.rlsOpen h a) s (fun t => t.qm.held = s.qm.held ∧
    (t.bays[b]).release.state = .collecting ∧ ∃ (r : Release) (j : Job) (i : Fin 64) (k : KeySlot) (x : Bin), (t.bays[b]).release.cur = some r ∧
      jobOfPart s h.part = some j ∧ j.job = a.job ∧ i.1 = a.seed ∧ SeedIn s h i k ∧ presenceBin s h b a = some x ∧ r.h = h ∧ r.args = a ∧
      r.region = a.region ∧ r.attempt = k.attempt ∧ r.seed = k.secret ∧ r.clo = x.clo ∧ r.chi = x.chi ∧ r.out = [] ∧
      r.ends = List.replicate (max 1 a.level) a.lo) := by
  obtain ⟨j, i, k, x, hfinds⟩ := rlsOpen_finds hbay hok
  obtain ⟨hslot, hin⟩ := seedIn_of_seedSlot hfinds.seed
  refine ⟨_, exec_rlsOpen_opens hbay hok hfinds, rfl, ?_, newRelease (begun s (.rlsOpen h a)) h b j a x k, j, i, k, x, ?_, hfinds.job, hfinds.named,
    hslot, hin, hfinds.bin, rfl, rfl, rfl, rfl, rfl, rfl, rfl, rfl, rfl⟩
  · rw [modRls_release]
  · rw [modRls_release]

end Open

/-! ## RELEASE_SIGNED (R229, R233) -/

/-- The request at the front of the signing queue is answered. -/
def signTaken (s : State) : State := { s with rot := { s.rot with signQ := s.rot.signQ.drop 1 } }

/-- The chain of a release's job goes on with `rcd` (R233). -/
def chainedTo (r : Release) (rcd : List Byte) (x : Partition) : Partition :=
  { x with job := x.job.map (fun j => if j.job = r.args.job then { j with prevRecord := digest64 8 rcd } else j) }

/-- The record is signed: it joins its job's chain, stands in the region behind the data, and the release emits. -/
def recordSigned (s : State) (b : BayId) (p : TenantId) (r : Release) (rcd : List Byte) : State :=
  regionWrite (emissionBegun (modPart (signTaken s) p (chainedTo r rcd)) b { r with record := rcd }) b { r with record := rcd } r.out.length rcd

section Signed
variable (s : State) (b : BayId) (p : TenantId) (r : Release) (rcd : List Byte)

theorem recordSigned_release : (recordSigned s b p r rcd).bays[b].release =
    { s.bays[b].release with state := .emitting, cur := some { r with record := rcd } } := by
  rw [recordSigned, regionWrite_release, emissionBegun_release]
  rfl

theorem recordSigned_signQ : (recordSigned s b p r rcd).rot.signQ = s.rot.signQ.drop 1 := rfl

theorem recordSigned_job {j : Job} (hjob : (getPart s p).job = some j) (hnamed : j.job = r.args.job) :
    (getPart (recordSigned s b p r rcd) p).job = some { j with prevRecord := digest64 8 rcd } := by
  have hpart : getPart (recordSigned s b p r rcd) p = chainedTo r rcd (getPart s p) := getPart_modPart (signTaken s) p _
  rw [hpart, chainedTo, hjob, Option.map_some, if_pos hnamed]

end Signed

section SignedRuns
variable {s : State} {b : BayId} {p : TenantId} {r : Release} {rand : List Byte} {q : List (PartId × BayId)} {j : Job}
  (hcur : s.bays[b].release.cur = some r) (hstate : s.bays[b].release.state = .signing) (hrand : r.rand = some rand)
  (hfront : s.rot.signQ = (r.h.part, b) :: q) (hfree : rotBusy s = false) (hpart : r.h.part = tenantPart p) (hjob : (getPart s p).job = some j)
  (hnamed : j.job = r.args.job)
include hcur hstate hrand hfront hfree hpart hjob hnamed

theorem exec_releaseSigned : exec (.releaseSigned b) s = .next (releaseGo (recordSigned s b p r (signRecord r.record j.prevRecord rand)) b
      { r with record := signRecord r.record j.prevRecord rand }) := by
  have hfound : releaseJob s r = some j := by
    rw [releaseJob, hpart, jobOfPart_tenant, hjob]
    simp only [hnamed, if_true]
  have hhead : s.rot.signQ.head? = some (r.h.part, b) := by rw [hfront, List.head?_cons]
  show execReleaseSigned b s = _
  simp only [execReleaseSigned, hcur, hrand, hstate, hhead, hfree, hfound, issuer_tenant hpart, ne_eq, not_true_eq_false, Bool.false_eq_true, or_self,
    if_false]
  rw [← hrand]
  rfl

theorem releaseSigned_emits (hup : s.link.up = true) {d at2 : W64} (hsink : r.args.sink = .host d at2) :
    let rcd := signRecord r.record j.prevRecord rand
    Runs (.releaseSigned b) s (fun t => (t.bays[b]).release.state = .emitting ∧ (t.bays[b]).release.cur = some { r with record := rcd } ∧
      t.rot.signQ = q ∧ (getPart t p).job = some { j with prevRecord := shake256 (8 :: rcd) 64 } ∧
      t.out = s.out ++ [.hostWrite r.h.part d r.out, .hostWrite r.h.part at2 rcd]) := by
  intro rcd
  have hrun := exec_releaseSigned hcur hstate hrand hfront hfree hpart hjob hnamed
  rw [releaseGo_host (s := recordSigned s b p r rcd) (r := { r with record := rcd }) hsink hup b] at hrun
  have hemits := recordSigned_release s b p r rcd
  have hpopped : (recordSigned s b p r rcd).rot.signQ = q := by rw [recordSigned_signQ, hfront, List.drop_one, List.tail_cons]
  exact ⟨_, hrun, (congrArg RlsSt.state hemits :), (congrArg RlsSt.cur hemits :), hpopped, recordSigned_job s b p r rcd hjob hnamed,
    sentToHost_out _ _ d at2⟩

end SignedRuns

/-! ## RLS_RESEND and RLS_ABORT (R230, R231) -/

/-- A signed release that is sent again under another command. -/
def releaseAgain (h : CmdHdr) (r : Release) : Release := { r with h := h, resend := true, lost := false }

section Again
variable {s : State} {h : CmdHdr} {b : BayId} {r : Release} (hmine : s.bays[b].owner = h.part)
include hmine

theorem exec_rlsResend (hlast : s.bays[b].release.last = some r) (hidle : s.bays[b].release.state = .idle) :
    exec (.rlsResend h b.1 r.region) s = .next (releaseGo (emissionBegun (begun s (.rlsResend h b.1 r.region)) b (releaseAgain h r)) b
      (releaseAgain h r)) := by
  have hholds : holdsBay (begun s (.rlsResend h b.1 r.region)) h.part b = true := beq_iff_eq.2 hmine
  show execRlsResend h b.1 r.region s = _
  simp only [execRlsResend, finOpt_val, begun_bays, hlast, hidle, hholds, ne_eq, not_true_eq_false, Bool.not_true,
    Bool.false_eq_true, or_self, if_false]
  rfl

theorem rlsResend_emits (hlast : s.bays[b].release.last = some r) (hidle : s.bays[b].release.state = .idle) (hup : s.link.up = true) {d at2 : W64}
    (hsink : r.args.sink = .host d at2) : Runs (.rlsResend h b.1 r.region) s (fun t => t.qm.held = s.qm.held ∧
      (t.bays[b]).release.state = .emitting ∧ (t.bays[b]).release.cur = some { r with h := h, resend := true, lost := false } ∧
      t.out = s.out ++ [.hostWrite h.part d r.out, .hostWrite h.part at2 r.record]) := by
  have hrun := exec_rlsResend hmine hlast hidle
  rw [releaseGo_host (r := releaseAgain h r) (s := emissionBegun (begun s (.rlsResend h b.1 r.region)) b _) hsink hup b] at hrun
  have hemits := emissionBegun_release (begun s (.rlsResend h b.1 r.region)) b (releaseAgain h r)
  exact ⟨_, hrun, rfl, (congrArg RlsSt.state hemits :), (congrArg RlsSt.cur hemits :), sentToHost_out _ _ d at2⟩

theorem exec_rlsAbort_releasing (hcur : s.bays[b].release.cur = some r) :
    exec (.rlsAbort h b.1) s = .next (complete (releaseAbort (begun s (.rlsAbort h b.1)) b r) h 0 []) := by
  have hholds : holdsBay (begun s (.rlsAbort h b.1)) h.part b = true := beq_iff_eq.2 hmine
  show execRlsAbort h b.1 s = _
  simp only [execRlsAbort, finOpt_val, begun_bays, hcur, hholds, Bool.not_true, Bool.false_eq_true, if_false]

theorem rlsAbort_discards (hcur : s.bays[b].release.cur = some r) (hstate : s.bays[b].release.state = .collecting) :
    Runs (.rlsAbort h b.1) s (fun t => completes s t h 0 [] ∧ (t.bays[b]).release.state = .discarding ∧
      (t.bays[b]).release.cur = some { r with out := [], aborted := true }) := by
  have hdiscards : releaseAbort (begun s (.rlsAbort h b.1)) b r = modRls (regionZero (begun s (.rlsAbort h b.1)) b r) b
      (fun x => { x with state := .discarding, cur := some { r with out := [], aborted := true } }) := by
    simp only [releaseAbort, begun_bays, hstate]
  have hrun := exec_rlsAbort_releasing hmine hcur
  rw [hdiscards] at hrun
  refine ⟨_, hrun, completes_begun (u := modRls (regionZero (begun s (.rlsAbort h b.1)) b r) b _) (regionZero_qm _ _ _) h 0 [], ?_⟩
  rw [complete_bays, modRls_release]
  exact ⟨rfl, rfl⟩

omit hmine in
theorem rlsAbort_refused (hnone : s.bays[b].release.cur = none) :
    Runs (.rlsAbort h b.1) s (fun t => t.bays = s.bays ∧ completes s t h 0x8009 []) := by
  have hrun : exec (.rlsAbort h b.1) s = .next (complete (begun s (.rlsAbort h b.1)) h codeRlsState []) := by
    show execRlsAbort h b.1 s = _
    simp only [execRlsAbort, finOpt_val, begun_bays, hnone]
  exact ⟨_, hrun, complete_bays _ _ _ _, completes_begun rfl h _ _⟩

end Again

/-- Settles O48: each command and event of a release by what it finds; the record is signed in `recordSigned`, and a release to the host emits its
data and its record (`releaseGo_host`). -/
theorem releasesAreSignedAndEmitted : Obligations.ReleasesAreSignedAndEmitted := by
  refine ⟨?opens, ?signed, ?emitted, ?again⟩
  case opens =>
    intro s h b a hbay
    by_cases hok : rlsOpenStatus s h a = 0
    · simp only [hok, if_true]
      exact rlsOpen_opens hbay hok
    · simp only [hok, if_false]
      exact ⟨_, exec_rlsOpen_refused hok, complete_bays _ _ _ _, completes_begun rfl h _ _⟩
  case signed =>
    intro s b r rand q d at2 j p hcur hstate hrand hfront hfree hup hsink hpart hjob hnamed
    exact releaseSigned_emits hcur hstate hrand hfront hfree hpart hjob hnamed hup hsink
  case emitted =>
    intro s b r hcur hstate
    exact ⟨releaseEmitComplete_counts hcur hstate, releaseEmitComplete_lost hcur hstate, releaseSinkFail_ends hcur hstate⟩
  case again =>
    intro s h b r hmine
    exact ⟨fun d at2 hlast hidle hup hsink => rlsResend_emits hmine hlast hidle hup hsink, rlsAbort_discards hmine, rlsAbort_refused⟩

end Sys2Proof.Machine

/-! PROOFS. Admission to a release (R227, R228, Table 08.7): what a release asks of the state, a tile taken off the port, a tile that passes, one that
fails a check, and one of a stream that is discarded; then O49 from them. -/

namespace Sys2Proof.Machine

open Sys2Proof.Said

/-! ## What the checks read -/

section Reads
variable {s t : State} (h : SameButStations s t) (b : BayId) (r : Release)
include h

theorem SameButStations.releaseFmt : releaseFmt t r = releaseFmt s r := by
  simp only [Machine.releaseFmt, releaseJob, jobOfPart, h.rot]

theorem SameButStations.admitCheck (hdr : TileHdr) (poisoned : Bool) : admitCheck t b r hdr poisoned = admitCheck s b r hdr poisoned := by
  have hring : releaseRingOk t r hdr = releaseRingOk s r hdr := by rw [releaseRingOk, h.releaseFmt, releaseRingOk]
  have hseed : openSeed t b r.args.job = openSeed s b r.args.job := by rw [openSeed, h.noise, openSeed]
  rw [Machine.admitCheck, hring, hseed, Machine.admitCheck]

theorem SameButStations.tileSize (hdr : TileHdr) : tileSize t b hdr = tileSize s b hdr := by
  rw [Machine.tileSize, h.modsOf, Machine.tileSize]

theorem SameButStations.convertTile (tl : Tile) : convertTile t b r tl = convertTile s b r tl := by
  rw [Machine.convertTile, h.tileSize, h.releaseFmt, Machine.convertTile]

theorem SameButStations.releaseCauses (tl : Tile) : releaseCauses t b tl = releaseCauses s b tl := by
  rw [Machine.releaseCauses, h.readsPayload, h.tileSize, h.modsOf, Machine.releaseCauses]

end Reads

theorem sameButStations_tokenTaken (s : State) (p : PortId) (r : StationRef) (t : Tile) (rest : List Token) :
    SameButStations s (tokenTaken s p r t rest) := by
  rw [tokenTaken, logCauses_noCause]
  exact (sameButStations_modIn s r p _).trans (sameButStations_modIn _ r p _)

theorem sameButStations_startFiring (s : State) (r : StationRef) (a c : List (PortId × Token)) : SameButStations s (startFiring s r a c) :=
  sameButStations_modSt s r _

/-- A tile that creates no cause has the cause it came with, if it is poisoned. -/
theorem tileCauses_sound {s : State} {r : StationRef} {p : PortId} {t : Tile} (hsound : portCauses s r p t = []) :
    tileCauses s r p t [] = ([], if t.hdr.poison then some t.hdr.poisonCause else none) := by
  simp only [tileCauses, hsound, List.append_nil]
  cases t.hdr.poison <;> rfl

/-! ## What the updates of a release leave of the ports -/

theorem getIn_modRls (s : State) (b : BayId) (f : RlsSt → RlsSt) (r : StationRef) (p : PortId) : getIn (modRls s b f) r p = getIn s r p :=
  congrArg (fun x : Station => x.ins[p]) (KeepsStations.getSt (f := fun y => { y with release := f y.release })
    ⟨fun _ => rfl, fun _ => rfl, fun _ => rfl, fun _ => rfl, fun _ => rfl, fun _ => rfl, fun _ => rfl⟩ s b r)

theorem getIn_regionWrite (s : State) (b : BayId) (r : Release) (off : Nat) (bs : List Byte) (q : StationRef) (p : PortId) :
    getIn (regionWrite s b r off bs) q p = getIn s q p := getIn_modMem s b _ q p

/-! ## One tile (R227, R228) -/

/-- The release after an admitted tile. -/
def tileAdmitted (r : Release) (hdr : TileHdr) (bytes : List Byte) : Release :=
  { r with ends := releaseEnds r hdr, k := r.k + 1, etype := some hdr.etype, tiles := r.tiles + 1, out := r.out ++ bytes }

/-- An admitted tile is counted and its bytes stand in the region. -/
def admitted (s : State) (b : BayId) (r : Release) (hdr : TileHdr) (bytes : List Byte) : State :=
  regionWrite (modCur s b (fun _ => tileAdmitted r hdr bytes)) b r r.out.length bytes

theorem admitted_release {s : State} {b : BayId} {r : Release} (hcur : s.bays[b].release.cur = some r) (hdr : TileHdr) (bytes : List Byte) :
    (admitted s b r hdr bytes).bays[b].release = { s.bays[b].release with cur := some (tileAdmitted r hdr bytes) } := by
  rw [admitted, regionWrite_release, modCur, modRls_release, hcur]
  rfl

theorem getIn_admitted (s : State) (b : BayId) (r : Release) (hdr : TileHdr) (bytes : List Byte) (q : StationRef) (p : PortId) :
    getIn (admitted s b r hdr bytes) q p = getIn s q p := by
  rw [admitted, getIn_regionWrite, modCur, getIn_modRls]

section Tile
variable {s : State} {b : BayId} {r : Release} {tl : Tile} {poisoned : Bool}

theorem releaseTile_passes (hstate : s.bays[b].release.state = .collecting) (hpass : admitCheck s b r tl.hdr poisoned = 0) :
    releaseTile s b r tl poisoned = if tl.hdr.last then releaseSigning (admitted s b r tl.hdr (convertTile s b r tl)) b
      (tileAdmitted r tl.hdr (convertTile s b r tl)) else admitted s b r tl.hdr (convertTile s b r tl) := by
  simp only [releaseTile, hstate, hpass, reduceCtorEq, ne_eq, not_true_eq_false, if_false]
  rfl

theorem releaseTile_fails (hstate : s.bays[b].release.state = .collecting) (hfail : admitCheck s b r tl.hdr poisoned ≠ 0) :
    releaseTile s b r tl poisoned = releaseFail s b r (admitCheck s b r tl.hdr poisoned) tl.hdr.last := by
  simp only [releaseTile, hstate, hfail, reduceCtorEq, ne_eq, not_false_eq_true, if_false, if_true]

theorem releaseTile_discards (hstate : s.bays[b].release.state = .discarding) :
    releaseTile s b r tl poisoned = if tl.hdr.last then releaseRefused s b r else s := by
  simp only [releaseTile, hstate, if_true]

end Tile

/-! ## How a stream ends -/

/-- The presence bitmap is read again; nothing else of the release changes. -/
theorem withPresence_eq (s : State) (b : BayId) (r : Release) : ∃ pres, withPresence s b r = { r with pres := pres } := by
  unfold withPresence
  split
  · exact ⟨_, rfl⟩
  · exact ⟨r.pres, rfl⟩

/-- The station signs `r`: its record stands at its head, and the processor is asked for the signature (R229). -/
def signingAsked (s : State) (b : BayId) (r : Release) : State :=
  let s1 := modRls s b (fun x => { x with state := .signing, cur := some { r with record := recordHead s b r } })
  { s1 with rot := { s1.rot with signQ := s1.rot.signQ ++ [(r.h.part, b)] } }

theorem signingAsked_release (s : State) (b : BayId) (r : Release) : (signingAsked s b r).bays[b].release =
    { s.bays[b].release with state := .signing, cur := some { r with record := recordHead s b r } } :=
  modRls_release s b (fun x => { x with state := .signing, cur := some { r with record := recordHead s b r } })

/-- After LAST the station signs; the draws for the signature are with the release once the DRBG has served them. -/
theorem releaseSigning_signs (s : State) (b : BayId) (r : Release) : (releaseSigning s b r).bays[b].release.state = .signing ∧
    (releaseSigning s b r).rot.signQ = s.rot.signQ ++ [(r.h.part, b)] ∧
    ∃ q : Release, (releaseSigning s b r).bays[b].release.cur = some q ∧ q.out = r.out ∧ q.tiles = r.tiles := by
  obtain ⟨pres, hpres⟩ := withPresence_eq s b r
  have hasks : releaseSigning s b r = match drbgAsk (signingAsked s b { r with pres := pres }) r.h.part [64, 64] (.sign b) with
    | (some x, t) => modCur t b (fun r => { r with rand := some x })
    | (none, t) => t := by
    rw [releaseSigning, hpres]
    rfl
  have honly := onlyRng_drbgAsk (signingAsked s b { r with pres := pres }) r.h.part [64, 64] (.sign b)
  have hqueue : (signingAsked s b { r with pres := pres }).rot.signQ = s.rot.signQ ++ [(r.h.part, b)] := rfl
  have hrelease := signingAsked_release s b { r with pres := pres }
  rw [← honly.rot] at hqueue
  rw [← honly.bays] at hrelease
  rw [hasks]
  split
  · next x t hask =>
    rw [hask] at hqueue hrelease
    rw [modCur, modRls_release, hrelease]
    exact ⟨rfl, hqueue, _, rfl, rfl, rfl⟩
  · next t hask =>
    rw [hask] at hqueue hrelease
    rw [hrelease]
    exact ⟨rfl, hqueue, _, rfl, rfl, rfl⟩

/-- A check that fails before LAST is entered as RLS_REFUSED, and the rest of the stream is discarded (Table 08.7). -/
theorem releaseFail_discards (s : State) (b : BayId) (r : Release) (check : Nat) : oneEntry s (releaseFail s b r check false) 0x800B ∧
    (releaseFail s b r check false).bays[b].release.state = .discarding ∧
    (releaseFail s b r check false).bays[b].release.cur = some { r with failed := check, out := [] } := by
  have hfails : releaseFail s b r check false = modRls (regionZero (logN s s.bays[b].owner (.st b .rls) codeRlsRefused b.1 check) b r) b
      (fun x => { x with state := .discarding, cur := some { r with failed := check, out := [] } }) := rfl
  rw [hfails, modRls_release]
  exact ⟨⟨_, regionZero_dbkIn _ b r, rfl⟩, rfl, rfl⟩

/-- LAST of a discarded stream: the release ends as refused. -/
theorem releaseRefused_ends (s : State) (b : BayId) (r : Release) : completes s (releaseRefused s b r) r.h 0x800B [] ∧
    (releaseRefused s b r).bays[b].release.state = .idle ∧
    (releaseRefused s b r).bays[b].release.refused = s.bays[b].release.refused + 1 := by
  refine ⟨completes_complete (modRls (releaseIdle s b r) b _) r.h _ [], ?_⟩
  rw [releaseRefused, complete_bays, modRls_release, releaseIdle_release]
  exact ⟨rfl, rfl⟩

/-! ## RELEASE_ADMIT -/

/-- The port's turn is noted, and its front token is off it. -/
def admitTaken (s : State) (b : BayId) (p : PortId) (tok : Token) (rest : List Token) : State :=
  tokenTaken (noteTurn s (.bay b .rls) p (heldPorts s (.bay b .rls))) p (.bay b .rls) tok.tile rest

section Taken
variable (s : State) (b : BayId) (p : PortId) (tok : Token) (rest : List Token)

theorem sameButStations_admitTaken : SameButStations s (admitTaken s b p tok rest) :=
  (sameButStations_noteTurn s _ p _).trans (sameButStations_tokenTaken _ p _ tok.tile rest)

theorem admitTaken_release : (admitTaken s b p tok rest).bays[b].release = s.bays[b].release :=
  (sameButStations_admitTaken s b p tok rest).release b

theorem admitTaken_dbkIn : (admitTaken s b p tok rest).dbkIn = s.dbkIn := by
  rw [admitTaken, tokenTaken_dbkIn, noteTurn_dbkIn]

theorem admitTaken_held : (getIn (admitTaken s b p tok rest) (.bay b .rls) p).held = rest := getIn_tokenTaken_held _ p _ _ rest

end Taken

/-- The station takes the front token of port `p`, whose tile creates no cause, for the release `r`. -/
structure AdmitDue (s : State) (b : BayId) (p : PortId) (tok : Token) (rest : List Token) (r : Release) : Prop where
  holds : Holds s (.bay b .rls) p tok rest
  turn : inTurn s (.bay b .rls) p (heldPorts s (.bay b .rls)) = true
  cur : s.bays[b].release.cur = some r
  sound : portCauses s (.bay b .rls) p tok.tile = []
  fits : releaseCauses s b tok.tile = []

/-- The firing starts, once the release has its tile. -/
def admitFired (u : State) (b : BayId) (p : PortId) (tok : Token) : State := startFiring u (.bay b .rls) [(p, tok)] []

section Fired
variable (u : State) (b : BayId) (p : PortId) (tok : Token)

theorem sameButStations_admitFired : SameButStations u (admitFired u b p tok) := sameButStations_startFiring u _ _ _

theorem admitFired_release : (admitFired u b p tok).bays[b].release = u.bays[b].release := (sameButStations_admitFired u b p tok).release b

theorem admitFired_dbkIn : (admitFired u b p tok).dbkIn = u.dbkIn := startFiring_dbkIn _ _ _ _

theorem admitFired_firing : (getSt (admitFired u b p tok) (.bay b .rls)).firing = some { ins := [(p, tok)], outs := [] } := startFiring_firing _ _ _ _

theorem admitFired_in : getIn (admitFired u b p tok) (.bay b .rls) p = getIn u (.bay b .rls) p := startFiring_in _ _ _ _ _

end Fired

section Admit
variable {s : State} {b : BayId} {p : PortId} {tok : Token} {rest : List Token} {r : Release} (hdue : AdmitDue s b p tok rest r)
include hdue

theorem AdmitDue.mem_heldPorts : p ∈ heldPorts s (.bay b .rls) := by
  obtain ⟨-, -, hheld⟩ := hdue.holds
  exact List.mem_filter.2 ⟨mem_places p, by rw [hheld]; rfl⟩

theorem AdmitDue.take (htakes : releaseTakes s b = true) : releaseTake (noteTurn s (.bay b .rls) p (heldPorts s (.bay b .rls))) b p none =
    admitFired (releaseTile (admitTaken s b p tok rest) b r tok.tile tok.tile.hdr.poison) b p tok := by
  have hsame := sameButStations_noteTurn s (.bay b .rls) p (heldPorts s (.bay b .rls))
  obtain ⟨-, -, hheld⟩ := hdue.holds
  have hheld' : (getIn (noteTurn s (.bay b .rls) p (heldPorts s (.bay b .rls))) (.bay b .rls) p).held = tok :: rest := by
    rw [getIn_noteTurn, hheld]
  have htok := takeTok_noCause _ p hheld'
  have hsound := (hsame.portCauses b .rls (getIn_noteTurn s p (.bay b .rls) _ p) tok.tile).trans hdue.sound
  have hfits := (hsame.releaseCauses b tok.tile).trans hdue.fits
  have hcauses := tileCauses_sound hsound
  have hcur : (admitTaken s b p tok rest).bays[b].release.cur = some r := by rw [admitTaken_release, hdue.cur]
  have htakes' : releaseTakes (admitTaken s b p tok rest) b = true := by
    rw [releaseTakes, admitTaken_release]
    exact htakes
  have hpoison : (if tok.tile.hdr.poison then some tok.tile.hdr.poisonCause else none).isSome = tok.tile.hdr.poison := by
    cases tok.tile.hdr.poison <;> rfl
  rw [admitTaken] at hcur htakes'
  simp only [releaseTake, hheld', List.head?_cons, hfits, Option.toList_none, List.append_nil, hcauses, List.filter_nil, htok, hcur, htakes', hpoison,
    if_true, Option.isSome_none, Bool.false_eq_true, if_false]
  rfl

theorem AdmitDue.exec (htakes : releaseTakes s b = true) : exec (.releaseAdmit b p) s =
    .next (admitFired (releaseTile (admitTaken s b p tok rest) b r tok.tile tok.tile.hdr.poison) b p tok) := by
  obtain ⟨hfire, -, -⟩ := hdue.holds
  have hready : (heldPorts s (.bay b .rls)).contains p = true := List.contains_iff_mem.2 hdue.mem_heldPorts
  show execReleaseAdmit b p s = _
  simp only [execReleaseAdmit, hfire, htakes, hready, hdue.turn, Bool.and_self, if_true, hdue.take htakes]

section Collecting
variable (hstate : s.bays[b].release.state = .collecting)
include hstate

/-- What a tile that passes every check becomes. -/
theorem AdmitDue.exec_passes (hpass : admitCheck s b r tok.tile.hdr tok.tile.hdr.poison = 0) : Machine.exec (.releaseAdmit b p) s =
    .next (admitFired (if tok.tile.hdr.last
      then releaseSigning (admitted (admitTaken s b p tok rest) b r tok.tile.hdr (convertTile s b r tok.tile)) b
        (tileAdmitted r tok.tile.hdr (convertTile s b r tok.tile))
      else admitted (admitTaken s b p tok rest) b r tok.tile.hdr (convertTile s b r tok.tile)) b p tok) := by
  have hsame := sameButStations_admitTaken s b p tok rest
  have hpass' : admitCheck (admitTaken s b p tok rest) b r tok.tile.hdr tok.tile.hdr.poison = 0 := (hsame.admitCheck b r _ _).trans hpass
  have hstate' : (admitTaken s b p tok rest).bays[b].release.state = .collecting := by rw [admitTaken_release, hstate]
  rw [hdue.exec (by rw [releaseTakes, hstate]; rfl), releaseTile_passes hstate' hpass', hsame.convertTile]

theorem AdmitDue.admits (hpass : admitCheck s b r tok.tile.hdr tok.tile.hdr.poison = 0) (hmore : tok.tile.hdr.last = false) :
    Runs (.releaseAdmit b p) s (fun t => (getSt t (.bay b .rls)).firing = some { ins := [(p, tok)], outs := [] } ∧
      (getIn t (.bay b .rls) p).held = rest ∧ t.dbkIn = s.dbkIn ∧ (t.bays[b]).release.state = .collecting ∧
      (t.bays[b]).release.cur = some (tileAdmitted r tok.tile.hdr (convertTile s b r tok.tile))) := by
  have hrun := hdue.exec_passes hstate hpass
  rw [hmore, if_neg Bool.false_ne_true] at hrun
  have hcur : (admitTaken s b p tok rest).bays[b].release.cur = some r := by rw [admitTaken_release, hdue.cur]
  refine ⟨_, hrun, admitFired_firing _ b p tok, ?_, ?_, ?_⟩
  · rw [admitFired_in, getIn_admitted, admitTaken_held]
  · rw [admitFired_dbkIn]
    exact admitTaken_dbkIn s b p tok rest
  · rw [admitFired_release, admitted_release hcur, admitTaken_release]
    exact ⟨hstate, rfl⟩

theorem AdmitDue.signs (hpass : admitCheck s b r tok.tile.hdr tok.tile.hdr.poison = 0) (hlast : tok.tile.hdr.last = true) :
    Runs (.releaseAdmit b p) s (fun t => (t.bays[b]).release.state = .signing ∧ t.rot.signQ = s.rot.signQ ++ [(r.h.part, b)] ∧
      ∃ q : Release, (t.bays[b]).release.cur = some q ∧ q.out = r.out ++ convertTile s b r tok.tile ∧ q.tiles = r.tiles + 1) := by
  have hrun := hdue.exec_passes hstate hpass
  rw [hlast, if_pos rfl] at hrun
  obtain ⟨hsigning, hqueue, q, hcur, hout, htiles⟩ :=
    releaseSigning_signs (admitted (admitTaken s b p tok rest) b r tok.tile.hdr (convertTile s b r tok.tile)) b
      (tileAdmitted r tok.tile.hdr (convertTile s b r tok.tile))
  have hrot : (admitted (admitTaken s b p tok rest) b r tok.tile.hdr (convertTile s b r tok.tile)).rot = s.rot :=
    (sameButStations_admitTaken s b p tok rest).rot
  refine ⟨_, hrun, ?_, ?_, q, ?_, hout, htiles⟩
  · rw [admitFired_release, hsigning]
  · rw [(sameButStations_admitFired _ b p tok).rot, hqueue, hrot]
    rfl
  · rw [admitFired_release, hcur]

theorem AdmitDue.refuses (hfail : admitCheck s b r tok.tile.hdr tok.tile.hdr.poison ≠ 0) (hmore : tok.tile.hdr.last = false) :
    Runs (.releaseAdmit b p) s (fun t => oneEntry s t 0x800B ∧ (t.bays[b]).release.state = .discarding ∧
      (t.bays[b]).release.cur = some { r with failed := admitCheck s b r tok.tile.hdr tok.tile.hdr.poison, out := [] }) := by
  have hcheck := (sameButStations_admitTaken s b p tok rest).admitCheck b r tok.tile.hdr tok.tile.hdr.poison
  have hstate' : (admitTaken s b p tok rest).bays[b].release.state = .collecting := by rw [admitTaken_release, hstate]
  have hrun := hdue.exec (by rw [releaseTakes, hstate]; rfl)
  rw [releaseTile_fails hstate' (by rwa [hcheck]), hcheck, hmore] at hrun
  obtain ⟨⟨e, hlog, hcode⟩, hdiscarding, hcur⟩ :=
    releaseFail_discards (admitTaken s b p tok rest) b r (admitCheck s b r tok.tile.hdr tok.tile.hdr.poison)
  refine ⟨_, hrun, ⟨e, ?_, hcode⟩, ?_⟩
  · rw [admitFired_dbkIn, hlog, admitTaken_dbkIn]
  · rw [admitFired_release]
    exact ⟨hdiscarding, hcur⟩

end Collecting

section Discarding
variable (hstate : s.bays[b].release.state = .discarding)
include hstate

theorem AdmitDue.exec_discards : Machine.exec (.releaseAdmit b p) s =
    .next (admitFired (if tok.tile.hdr.last then releaseRefused (admitTaken s b p tok rest) b r else admitTaken s b p tok rest) b p tok) := by
  have hstate' : (admitTaken s b p tok rest).bays[b].release.state = .discarding := by rw [admitTaken_release, hstate]
  rw [hdue.exec (by rw [releaseTakes, hstate]; rfl), releaseTile_discards hstate']

theorem AdmitDue.discards (hmore : tok.tile.hdr.last = false) : Runs (.releaseAdmit b p) s (fun t => (t.bays[b]).release.cur = some r ∧
    (t.bays[b]).release.state = .discarding ∧ (getIn t (.bay b .rls) p).held = rest) := by
  have hrun := hdue.exec_discards hstate
  rw [hmore, if_neg Bool.false_ne_true] at hrun
  refine ⟨_, hrun, ?_, ?_, ?_⟩
  · rw [admitFired_release, admitTaken_release, hdue.cur]
  · rw [admitFired_release, admitTaken_release, hstate]
  · rw [admitFired_in, admitTaken_held]

theorem AdmitDue.ends (hlast : tok.tile.hdr.last = true) : Runs (.releaseAdmit b p) s (fun t => completes s t r.h 0x800B [] ∧
    (t.bays[b]).release.state = .idle ∧ (t.bays[b]).release.refused = s.bays[b].release.refused + 1) := by
  have hrun := hdue.exec_discards hstate
  rw [hlast, if_pos rfl] at hrun
  obtain ⟨hdone, hidle, hrefused⟩ := releaseRefused_ends (admitTaken s b p tok rest) b r
  refine ⟨_, hrun, ?_, ?_⟩
  · unfold completes at hdone ⊢
    rw [(sameButStations_admitFired _ b p tok).qm]
    rwa [(sameButStations_admitTaken s b p tok rest).qm] at hdone
  · rw [admitFired_release, hrefused, admitTaken_release]
    exact ⟨hidle, rfl⟩

end Discarding

end Admit

/-- Settles O49: a tile at the Release station by the release's state, by the check it fails if any, and by LAST. -/
theorem releaseAdmitsOnlyCheckedTiles : Obligations.ReleaseAdmitsOnlyCheckedTiles := by
  intro s b p tok rest r hholds hturn hcur hsound hfits
  have hdue : AdmitDue s b p tok rest r := ⟨hholds, hturn, hcur, hsound, hfits⟩
  exact ⟨hdue.admits, hdue.signs, hdue.refuses, hdue.discards, hdue.ends⟩

end Sys2Proof.Machine

/-! PROOFS. Kernel instruction words (R244, Tables 09.4 and 09.5): the fields of a word that is put together, a word put together from its fields,
and the tables of the opcodes both ways; O55 from them. -/

namespace Sys2Proof.Machine

open BitVec

/-! ## Single bits of a word -/

/-- A bit of a word is its field of one bit. -/
theorem ofBool_getLsbD (x : BitVec n) (i : Nat) : ofBool (x.getLsbD i) = x.extractLsb' i 1 := by
  ext j hj
  obtain rfl : j = 0 := by omega
  simp

theorem getLsbD_of_field (x : BitVec n) (i : Nat) (b : Bool) (h : x.extractLsb' i 1 = ofBool b) : x.getLsbD i = b := by
  rw [← ofBool_getLsbD] at h
  simpa using congrArg (fun y => y.getLsbD 0) h

/-! ## The fields of a word that is put together (Table 09.4) -/

theorem fields_encSr (op sd sa sb fn : BitVec 6) : kOp (encSr op sd sa sb fn) = op ∧ kA (encSr op sd sa sb fn) = sd ∧
    kB (encSr op sd sa sb fn) = sa ∧ kC (encSr op sd sa sb fn) = sb ∧ kFn6 (encSr op sd sa sb fn) = fn ∧
    (encSr op sd sa sb fn).extractLsb' 6 2 = 0 := by
  simp [kOp, kA, kB, kC, kFn6, encSr, extractLsb'_append_eq_of_le (w := 6), extractLsb'_append_eq_of_le (w := 2),
    extractLsb'_append_eq_of_add_le (w := 6), extractLsb'_append_eq_of_add_le (w := 2)]

theorem fields_encSi (op sd sa : BitVec 6) (imm : BitVec 14) : kOp (encSi op sd sa imm) = op ∧ kA (encSi op sd sa imm) = sd ∧
    kB (encSi op sd sa imm) = sa ∧ kImm14 (encSi op sd sa imm) = imm := by
  simp [kOp, kA, kB, kImm14, encSi, extractLsb'_append_eq_of_le (w := 6), extractLsb'_append_eq_of_le (w := 14),
    extractLsb'_append_eq_of_add_le (w := 6), extractLsb'_append_eq_of_add_le (w := 14)]

/-- A shift amount stands in the low six bits of the immediate, below zeros. -/
theorem fields_encSi_shift (op sd sa sh : BitVec 6) : kFn6 (encSi op sd sa ((0 : BitVec 8) ++ sh)) = sh ∧
    (encSi op sd sa ((0 : BitVec 8) ++ sh)).extractLsb' 6 8 = 0 := by
  simp [kFn6, encSi, extractLsb'_append_eq_of_le (w := 6), extractLsb'_append_eq_of_add_le (w := 14),
    extractLsb'_append_eq_of_add_le (w := 6)]

theorem fields_encSu (op sd : BitVec 6) (imm : BitVec 20) : kOp (encSu op sd imm) = op ∧ kA (encSu op sd imm) = sd ∧
    kImm20 (encSu op sd imm) = imm := by
  simp [kOp, kA, kImm20, encSu, extractLsb'_append_eq_of_le (w := 6), extractLsb'_append_eq_of_le (w := 20),
    extractLsb'_append_eq_of_add_le (w := 6), extractLsb'_append_eq_of_add_le (w := 20)]

theorem fields_encVr (op : BitVec 6) (f : VrFields) (fn : BitVec 4) : kOp (encVr op f fn) = op ∧ kVr (encVr op f fn) = f ∧
    kFn4 (encVr op f fn) = fn := by
  have hw : (encVr op f fn).getLsbD 4 = f.w := getLsbD_of_field _ _ _ (by
    simp [encVr, extractLsb'_append_eq_of_le (w := 4), extractLsb'_append_eq_of_add_le (w := 1)])
  simp only [kOp, kVr, kFn4, hw]
  simp [encVr, extractLsb'_append_eq_of_le (w := 1), extractLsb'_append_eq_of_le (w := 3), extractLsb'_append_eq_of_le (w := 4),
    extractLsb'_append_eq_of_le (w := 5), extractLsb'_append_eq_of_add_le (w := 3), extractLsb'_append_eq_of_add_le (w := 4),
    extractLsb'_append_eq_of_add_le (w := 5)]

theorem fields_encVs (op : BitVec 6) (f : VsFields) (fn : BitVec 6) : kOp (encVs op f fn) = op ∧ kVs (encVs op f fn) = f ∧
    kFn6 (encVs op f fn) = fn := by
  have hw : (encVs op f fn).getLsbD 6 = f.w := getLsbD_of_field _ _ _ (by
    simp [encVs, extractLsb'_append_eq_of_le (w := 6), extractLsb'_append_eq_of_add_le (w := 1)])
  simp only [kOp, kVs, kFn6, hw]
  simp [encVs, extractLsb'_append_eq_of_le (w := 1), extractLsb'_append_eq_of_le (w := 3), extractLsb'_append_eq_of_le (w := 5),
    extractLsb'_append_eq_of_le (w := 6), extractLsb'_append_eq_of_add_le (w := 3), extractLsb'_append_eq_of_add_le (w := 5),
    extractLsb'_append_eq_of_add_le (w := 6)]

theorem fields_encVm (op : BitVec 6) (v : BitVec 5) (sa : BitVec 6) (imm : BitVec 10) (pr : BitVec 3) :
    kOp (encVm op v sa imm pr) = op ∧ (encVm op v sa imm pr).extractLsb' 21 5 = v ∧ (encVm op v sa imm pr).extractLsb' 15 6 = sa ∧
    (encVm op v sa imm pr).extractLsb' 5 10 = imm ∧ (encVm op v sa imm pr).extractLsb' 2 3 = pr ∧
    (encVm op v sa imm pr).extractLsb' 0 2 = 0 := by
  simp [kOp, encVm, extractLsb'_append_eq_of_le (w := 2), extractLsb'_append_eq_of_le (w := 3), extractLsb'_append_eq_of_le (w := 10),
    extractLsb'_append_eq_of_le (w := 6), extractLsb'_append_eq_of_le (w := 5), extractLsb'_append_eq_of_add_le (w := 2),
    extractLsb'_append_eq_of_add_le (w := 3), extractLsb'_append_eq_of_add_le (w := 10), extractLsb'_append_eq_of_add_le (w := 6),
    extractLsb'_append_eq_of_add_le (w := 5)]

theorem fields_encPr (op : BitVec 6) (pd pa pb : BitVec 3) (fn : BitVec 4) : kOp (encPr op pd pa pb fn) = op ∧
    (encPr op pd pa pb fn).extractLsb' 23 3 = pd ∧ (encPr op pd pa pb fn).extractLsb' 20 3 = pa ∧
    (encPr op pd pa pb fn).extractLsb' 17 3 = pb ∧ (encPr op pd pa pb fn).extractLsb' 4 13 = 0 ∧ kFn4 (encPr op pd pa pb fn) = fn := by
  simp [kOp, kFn4, encPr, extractLsb'_append_eq_of_le (w := 4), extractLsb'_append_eq_of_le (w := 13), extractLsb'_append_eq_of_le (w := 3),
    extractLsb'_append_eq_of_add_le (w := 4), extractLsb'_append_eq_of_add_le (w := 13), extractLsb'_append_eq_of_add_le (w := 3)]

theorem fields_encMd (op : BitVec 6) (md : BitVec 3) (w : Bool) (sa : BitVec 6) (imm : BitVec 14) : kOp (encMd op md w sa imm) = op ∧
    (encMd op md w sa imm).extractLsb' 23 3 = md ∧ (encMd op md w sa imm).getLsbD 22 = w ∧ (encMd op md w sa imm).extractLsb' 20 2 = 0 ∧
    kB (encMd op md w sa imm) = sa ∧ kImm14 (encMd op md w sa imm) = imm := by
  refine ⟨?_, ?_, getLsbD_of_field _ _ _ ?_, ?_⟩
  all_goals
    simp [kOp, kB, kImm14, encMd, extractLsb'_append_eq_of_le (w := 14), extractLsb'_append_eq_of_le (w := 6), extractLsb'_append_eq_of_le (w := 2),
      extractLsb'_append_eq_of_le (w := 1), extractLsb'_append_eq_of_le (w := 3), extractLsb'_append_eq_of_add_le (w := 14),
      extractLsb'_append_eq_of_add_le (w := 6), extractLsb'_append_eq_of_add_le (w := 2), extractLsb'_append_eq_of_add_le (w := 1),
      extractLsb'_append_eq_of_add_le (w := 3)]

theorem fields_encT (op sd : BitVec 6) (port : BitVec 4) (imm : BitVec 16) : kOp (encT op sd port imm) = op ∧ kA (encT op sd port imm) = sd ∧
    (encT op sd port imm).extractLsb' 16 4 = port ∧ (encT op sd port imm).extractLsb' 0 16 = imm := by
  simp [kOp, kA, encT, extractLsb'_append_eq_of_le (w := 16), extractLsb'_append_eq_of_le (w := 4), extractLsb'_append_eq_of_le (w := 6),
    extractLsb'_append_eq_of_add_le (w := 16), extractLsb'_append_eq_of_add_le (w := 4), extractLsb'_append_eq_of_add_le (w := 6)]

theorem fields_encD (op sdst ssrc slen : BitVec 6) (ch : BitVec 2) (fn : BitVec 6) : kOp (encD op sdst ssrc slen ch fn) = op ∧
    kA (encD op sdst ssrc slen ch fn) = sdst ∧ kB (encD op sdst ssrc slen ch fn) = ssrc ∧ kC (encD op sdst ssrc slen ch fn) = slen ∧
    (encD op sdst ssrc slen ch fn).extractLsb' 6 2 = ch ∧ kFn6 (encD op sdst ssrc slen ch fn) = fn := by
  simp [kOp, kA, kB, kC, kFn6, encD, extractLsb'_append_eq_of_le (w := 6), extractLsb'_append_eq_of_le (w := 2),
    extractLsb'_append_eq_of_add_le (w := 6), extractLsb'_append_eq_of_add_le (w := 2)]

/-! ## A word is put together from its fields -/

theorem encSr_fields (w : W32) (h : w.extractLsb' 6 2 = 0) : encSr (kOp w) (kA w) (kB w) (kC w) (kFn6 w) = w := by
  rw [encSr, ← h]
  simp only [kOp, kA, kB, kC, kFn6]
  iterate 5 rw [extractLsb'_append_extractLsb'_eq_extractLsb' (by rfl)]
  exact extractLsb'_eq_self

theorem encSi_fields (w : W32) : encSi (kOp w) (kA w) (kB w) (kImm14 w) = w := by
  simp only [encSi, kOp, kA, kB, kImm14]
  iterate 3 rw [extractLsb'_append_extractLsb'_eq_extractLsb' (by rfl)]
  exact extractLsb'_eq_self

theorem encSi_shift_fields (w : W32) (h : w.extractLsb' 6 8 = 0) : encSi (kOp w) (kA w) (kB w) ((0 : BitVec 8) ++ kFn6 w) = w := by
  have himm : (0 : BitVec 8) ++ kFn6 w = kImm14 w := by
    rw [← h]
    exact extractLsb'_append_extractLsb'_eq_extractLsb' rfl
  rw [himm, encSi_fields]

theorem encSu_fields (w : W32) : encSu (kOp w) (kA w) (kImm20 w) = w := by
  simp only [encSu, kOp, kA, kImm20]
  iterate 2 rw [extractLsb'_append_extractLsb'_eq_extractLsb' (by rfl)]
  exact extractLsb'_eq_self

theorem encVr_fields (w : W32) : encVr (kOp w) (kVr w) (kFn4 w) = w := by
  simp only [encVr, kOp, kVr, kFn4, ofBool_getLsbD]
  iterate 7 rw [extractLsb'_append_extractLsb'_eq_extractLsb' (by rfl)]
  exact extractLsb'_eq_self

theorem encVs_fields (w : W32) : encVs (kOp w) (kVs w) (kFn6 w) = w := by
  simp only [encVs, kOp, kVs, kFn6, ofBool_getLsbD]
  iterate 6 rw [extractLsb'_append_extractLsb'_eq_extractLsb' (by rfl)]
  exact extractLsb'_eq_self

theorem encVm_fields (w : W32) (h : w.extractLsb' 0 2 = 0) :
    encVm (kOp w) (w.extractLsb' 21 5) (w.extractLsb' 15 6) (w.extractLsb' 5 10) (w.extractLsb' 2 3) = w := by
  rw [encVm, ← h, kOp]
  iterate 5 rw [extractLsb'_append_extractLsb'_eq_extractLsb' (by rfl)]
  exact extractLsb'_eq_self

theorem encPr_fields (w : W32) (h : w.extractLsb' 4 13 = 0) :
    encPr (kOp w) (w.extractLsb' 23 3) (w.extractLsb' 20 3) (w.extractLsb' 17 3) (kFn4 w) = w := by
  rw [encPr, ← h, kOp, kFn4]
  iterate 5 rw [extractLsb'_append_extractLsb'_eq_extractLsb' (by rfl)]
  exact extractLsb'_eq_self

theorem encMd_fields (w : W32) (h : w.extractLsb' 20 2 = 0) :
    encMd (kOp w) (w.extractLsb' 23 3) (w.getLsbD 22) (kB w) (kImm14 w) = w := by
  rw [encMd, ← h, kOp, kB, kImm14, ofBool_getLsbD]
  iterate 5 rw [extractLsb'_append_extractLsb'_eq_extractLsb' (by rfl)]
  exact extractLsb'_eq_self

theorem encT_fields (w : W32) : encT (kOp w) (kA w) (w.extractLsb' 16 4) (w.extractLsb' 0 16) = w := by
  rw [encT, kOp, kA]
  iterate 3 rw [extractLsb'_append_extractLsb'_eq_extractLsb' (by rfl)]
  exact extractLsb'_eq_self

theorem encD_fields (w : W32) : encD (kOp w) (kA w) (kB w) (kC w) (w.extractLsb' 6 2) (kFn6 w) = w := by
  rw [encD, kOp, kA, kB, kC, kFn6]
  iterate 5 rw [extractLsb'_append_extractLsb'_eq_extractLsb' (by rfl)]
  exact extractLsb'_eq_self

/-! ## Decoding a word gives an instruction that spells it -/

/-- Instruction `i` of core `c` obeys its format, and its word is `w`. -/
def Spells (c : CoreId) (i : Instr) (w : W32) : Prop := kernelCore i = some c ∧ kernelFieldsOk i = true ∧ encodeKernel i = some w

section Tables
variable {c : CoreId} {i : Instr} {n : Nat}

theorem spells_of_decSr {sd sa sb : BitVec 6} (h : decSr c sd sa sb n = some i) : Spells c i (encSr 0x01 sd sa sb (BitVec.ofNat 6 n)) := by
  unfold decSr at h
  split at h <;> cases h <;> exact ⟨rfl, rfl, rfl⟩

theorem spells_of_decVmod {f : VrFields} (h : decVmod c f n = some i) : Spells c i (encVr 0x20 f (BitVec.ofNat 4 n)) := by
  unfold decVmod at h
  split at h <;> cases h <;> exact ⟨rfl, rfl, rfl⟩

theorem spells_of_decVint {f : VrFields} (h : decVint c f n = some i) : Spells c i (encVr 0x21 f (BitVec.ofNat 4 n)) := by
  unfold decVint at h
  split at h <;> cases h <;> exact ⟨rfl, rfl, rfl⟩

/-- A comparison keeps vd[4:3] zero, and one of fp32 elements has w = 1. -/
theorem spells_of_decVcmp {f : VrFields} (hvd : f.vd.toNat < 8) (hfn : cmpFnOk f n = true) (h : decVcmp c f n = some i) :
    Spells c i (encVr 0x22 f (BitVec.ofNat 4 n)) := by
  unfold decVcmp at h
  split at h <;> cases h <;> refine ⟨rfl, ?_, rfl⟩ <;> simp_all [kernelFieldsOk, cmpFnOk]

theorem spells_of_decVs {f : VsFields} (h : decVs c f n = some i) : Spells c i (encVs 0x23 f (BitVec.ofNat 6 n)) := by
  unfold decVs at h
  split at h <;> cases h <;> exact ⟨rfl, rfl, rfl⟩

/-- A conversion keeps vb[4:2] zero. -/
theorem spells_of_decVcvt {f : VrFields} (hvb : f.vb.toNat < 4) (h : decVcvt c f n = some i) : Spells c i (encVr 0x28 f (BitVec.ofNat 4 n)) := by
  unfold decVcvt at h
  split at h <;> cases h <;> exact ⟨rfl, decide_eq_true hvb, rfl⟩

theorem spells_of_decVf {f : VrFields} (h : decVf c f n = some i) : Spells c i (encVr 0x2A f (BitVec.ofNat 4 n)) := by
  unfold decVf at h
  split at h <;> cases h <;> exact ⟨rfl, rfl, rfl⟩

theorem spells_of_decPr {pd pa pb : BitVec 3} (h : decPr c pd pa pb n = some i) : Spells c i (encPr 0x2C pd pa pb (BitVec.ofNat 4 n)) := by
  unfold decPr at h
  split at h <;> cases h <;> exact ⟨rfl, rfl, rfl⟩

theorem spells_of_decD {sdst ssrc slen : BitVec 6} {ch : BitVec 2} (h : decD c sdst ssrc slen ch n = some i) :
    Spells c i (encD 0x38 sdst ssrc slen ch (BitVec.ofNat 6 n)) := by
  unfold decD at h
  split at h <;> cases h <;> exact ⟨rfl, rfl, rfl⟩

theorem whenOk_some {b : Bool} {j : Instr} (h : whenOk b j = some i) : b = true ∧ j = i := by
  unfold whenOk at h
  split at h <;> cases h
  exact ⟨‹_›, rfl⟩

end Tables

/-- A part of a field of zeros is zero. -/
theorem extractLsb'_part_zero {x : BitVec n} {s l : Nat} (h : x.extractLsb' s l = 0) (t m : Nat) (hlo : s ≤ t) (hhi : t + m ≤ s + l) :
    x.extractLsb' t m = 0 := by
  ext j hj
  have hbit := congrArg (fun y => y.getLsbD (t - s + j)) h
  have hin : t - s + j < l := by omega
  have hplace : s + (t - s + j) = t + j := by omega
  simpa [hin, hplace] using hbit

theorem kOp_eq_ofNat {w : W32} {n : Nat} (h : (kOp w).toNat = n) : kOp w = BitVec.ofNat 6 n := by
  rw [← h, BitVec.ofNat_toNat, BitVec.setWidth_eq]

theorem Spells.word {c : CoreId} {i : Instr} {v w : W32} (h : Spells c i v) (hw : v = w) : Spells c i w := hw ▸ h

/-- A word that decodes is the word of its instruction, which stands on the core that decodes it. -/
theorem spells_of_decodeKernel (i : Instr) (c : CoreId) (w : W32) (h : decodeKernel c w = some i) : Spells c i w := by
  unfold decodeKernel at h
  split at h
  case h_1 hop =>
    split at h
    · next hz => exact (spells_of_decSr h).word (by simpa [kOp_eq_ofNat hop] using encSr_fields w hz)
    · cases h
  case h_2 hop | h_3 hop | h_4 hop | h_5 hop | h_10 hop | h_11 hop | h_12 hop | h_13 hop | h_14 hop | h_15 hop | h_16 hop | h_17 hop |
      h_18 hop | h_19 hop | h_21 hop =>
    cases h
    exact Spells.word ⟨rfl, rfl, rfl⟩ (by simpa [kOp_eq_ofNat hop] using encSi_fields w)
  case h_6 hop | h_7 hop | h_8 hop =>
    obtain ⟨hz, rfl⟩ := whenOk_some h
    exact Spells.word ⟨rfl, rfl, rfl⟩ (by simpa [kOp_eq_ofNat hop] using encSi_shift_fields w (by simpa using hz))
  case h_9 hop | h_20 hop =>
    cases h
    exact Spells.word ⟨rfl, rfl, rfl⟩ (by simpa [kOp_eq_ofNat hop] using encSu_fields w)
  case h_22 hop | h_23 hop =>
    obtain ⟨hz, rfl⟩ := whenOk_some h
    have hb : kB w = 0 := by simpa using hz
    exact Spells.word ⟨rfl, rfl, rfl⟩ (by simpa [kOp_eq_ofNat hop, hb] using encSi_fields w)
  case h_24 hop => exact (spells_of_decVmod h).word (by simpa [kOp_eq_ofNat hop] using encVr_fields w)
  case h_25 hop => exact (spells_of_decVint h).word (by simpa [kOp_eq_ofNat hop] using encVr_fields w)
  case h_26 hop =>
    split at h
    · next hok => exact (spells_of_decVcmp hok.1 hok.2 h).word (by simpa [kOp_eq_ofNat hop] using encVr_fields w)
    · cases h
  case h_27 hop => exact (spells_of_decVs h).word (by simpa [kOp_eq_ofNat hop] using encVs_fields w)
  case h_28 hop | h_29 hop =>
    obtain ⟨hz, rfl⟩ := whenOk_some h
    exact Spells.word ⟨rfl, rfl, rfl⟩ (by simpa [kOp_eq_ofNat hop] using encVm_fields w (by simpa using hz))
  case h_30 hop =>
    split at h
    · next hvb => exact (spells_of_decVcvt hvb h).word (by simpa [kOp_eq_ofNat hop] using encVr_fields w)
    · cases h
  case h_31 hop => exact (spells_of_decVf h).word (by simpa [kOp_eq_ofNat hop] using encVr_fields w)
  case h_32 hop =>
    split at h
    · next hz => exact (spells_of_decPr h).word (by simpa [kOp_eq_ofNat hop] using encPr_fields w hz)
    · cases h
  case h_33 hop =>
    obtain ⟨hz, rfl⟩ := whenOk_some h
    exact Spells.word ⟨rfl, rfl, rfl⟩ (by simpa [kOp_eq_ofNat hop] using encMd_fields w (by simpa using hz))
  case h_34 hop =>
    obtain ⟨hz, rfl⟩ := whenOk_some h
    have hreg : kA w = 0 := extractLsb'_part_zero (by simpa using hz) 20 6 (by decide) (by decide)
    have hport : w.extractLsb' 16 4 = 0 := extractLsb'_part_zero (by simpa using hz) 16 4 (by decide) (by decide)
    exact Spells.word ⟨rfl, rfl, rfl⟩ (by simpa [kOp_eq_ofNat hop, hreg, hport] using encT_fields w)
  case h_35 hop =>
    obtain ⟨hz, rfl⟩ := whenOk_some h
    have himm : w.extractLsb' 0 16 = 0 := by simpa using hz
    exact Spells.word ⟨rfl, rfl, rfl⟩ (by simpa [kOp_eq_ofNat hop, himm] using encT_fields w)
  case h_36 hop | h_37 hop | h_39 hop =>
    obtain ⟨hz, rfl⟩ := whenOk_some h
    have hreg : kA w = 0 := extractLsb'_part_zero (by simpa using hz) 20 6 (by decide) (by decide)
    have hport : w.extractLsb' 16 4 = 0 := extractLsb'_part_zero (by simpa using hz) 16 4 (by decide) (by decide)
    have himm : w.extractLsb' 0 16 = 0 := extractLsb'_part_zero (by simpa using hz) 0 16 (by decide) (by decide)
    exact Spells.word ⟨rfl, rfl, rfl⟩ (by simpa [kOp_eq_ofNat hop, hreg, hport, himm] using encT_fields w)
  case h_38 hop => exact (spells_of_decD h).word (by simpa [kOp_eq_ofNat hop] using encD_fields w)
  case h_40 => cases h

/-! ## Encoding and decoding again -/

theorem kernelCore_isSome (i : Instr) : (kernelCore i).isSome = (encodeKernel i).isSome := by cases i <;> rfl

theorem decodeKernel_encSr (c : CoreId) (sd sa sb fn : BitVec 6) : decodeKernel c (encSr 0x01 sd sa sb fn) = decSr c sd sa sb fn.toNat := by
  simp only [decodeKernel, fields_encSr]
  rfl

/-- Each opcode of format VR has a table of its own. -/
theorem decodeKernel_encVr (c : CoreId) (f : VrFields) (fn : BitVec 4) : decodeKernel c (encVr 0x20 f fn) = decVmod c f fn.toNat ∧
    decodeKernel c (encVr 0x21 f fn) = decVint c f fn.toNat ∧ decodeKernel c (encVr 0x2A f fn) = decVf c f fn.toNat := by
  simp only [decodeKernel, fields_encVr]
  exact ⟨rfl, rfl, rfl⟩

theorem decodeKernel_compare (c : CoreId) (f : VrFields) (fn : BitVec 4) (hvd : f.vd.toNat < 8) (hfn : cmpFnOk f fn.toNat = true) :
    decodeKernel c (encVr 0x22 f fn) = decVcmp c f fn.toNat := by
  simp only [decodeKernel, fields_encVr]
  exact if_pos ⟨hvd, hfn⟩

theorem decodeKernel_convert (c : CoreId) (f : VrFields) (fn : BitVec 4) (hvb : f.vb.toNat < 4) :
    decodeKernel c (encVr 0x28 f fn) = decVcvt c f fn.toNat := by
  simp only [decodeKernel, fields_encVr]
  exact if_pos hvb

theorem decodeKernel_encVs (c : CoreId) (f : VsFields) (fn : BitVec 6) : decodeKernel c (encVs 0x23 f fn) = decVs c f fn.toNat := by
  simp only [decodeKernel, fields_encVs]
  rfl

theorem decodeKernel_encPr (c : CoreId) (pd pa pb : BitVec 3) (fn : BitVec 4) :
    decodeKernel c (encPr 0x2C pd pa pb fn) = decPr c pd pa pb fn.toNat := by
  simp only [decodeKernel, fields_encPr]
  rfl

theorem decodeKernel_encD (c : CoreId) (sdst ssrc slen : BitVec 6) (ch : BitVec 2) (fn : BitVec 6) :
    decodeKernel c (encD 0x38 sdst ssrc slen ch fn) = decD c sdst ssrc slen ch fn.toNat := by
  simp only [decodeKernel, fields_encD]
  rfl

/-- Fields of zeros that take up several fields of format T. -/
theorem fields_encT_zero (op : BitVec 6) (imm : BitVec 16) : (encT op 0 0 imm).extractLsb' 16 10 = 0 ∧ (encT op 0 0 0).extractLsb' 0 26 = 0 := by
  have hhigh : ∀ w : W32, w.extractLsb' 16 10 = kA w ++ w.extractLsb' 16 4 := fun w => by
    rw [kA, extractLsb'_append_extractLsb'_eq_extractLsb' (by rfl)]
  have hall : ∀ w : W32, w.extractLsb' 0 26 = w.extractLsb' 16 10 ++ w.extractLsb' 0 16 := fun w => by
    rw [extractLsb'_append_extractLsb'_eq_extractLsb' (by rfl)]
  simp only [hall, hhigh, fields_encT]
  exact ⟨rfl, rfl⟩

theorem decodeKernel_encodeKernel (i : Instr) (c : CoreId) (w : W32) (hc : kernelCore i = some c) (hok : kernelFieldsOk i = true)
    (h : encodeKernel i = some w) : decodeKernel c w = some i := by
  unfold encodeKernel at h
  split at h
  case h_108 => cases h
  all_goals cases h; cases hc
  case h_1 | h_2 | h_3 | h_4 | h_5 | h_6 | h_7 | h_8 | h_9 | h_10 | h_11 | h_12 | h_13 | h_14 | h_15 => exact decodeKernel_encSr ..
  case h_16 | h_17 | h_18 | h_19 | h_20 | h_21 | h_22 | h_28 | h_29 | h_30 | h_31 | h_32 | h_33 | h_34 | h_35 | h_36 | h_37 =>
    simp only [decodeKernel, fields_encSi]
    rfl
  case h_23 | h_24 | h_25 =>
    simp only [decodeKernel, fields_encSi, fields_encSi_shift]
    rfl
  case h_26 | h_27 =>
    simp only [decodeKernel, fields_encSu]
    rfl
  case h_38 | h_39 | h_40 | h_41 | h_42 | h_43 | h_44 | h_45 | h_46 => exact (decodeKernel_encVr ..).1
  case h_47 | h_48 | h_49 | h_50 | h_51 | h_52 | h_53 | h_54 | h_55 | h_56 | h_57 => exact (decodeKernel_encVr ..).2.1
  case h_73 | h_74 | h_75 | h_76 | h_77 | h_78 | h_79 | h_80 | h_81 | h_82 => exact (decodeKernel_encVr ..).2.2
  case h_58 | h_59 | h_60 | h_61 | h_62 | h_63 => exact decodeKernel_compare _ _ _ (of_decide_eq_true hok) rfl
  case h_64 | h_65 | h_66 =>
    simp only [kernelFieldsOk, Bool.and_eq_true, decide_eq_true_eq] at hok
    exact decodeKernel_compare _ _ _ hok.1 hok.2
  case h_67 | h_68 | h_69 | h_70 | h_71 | h_72 => exact decodeKernel_convert _ _ _ (of_decide_eq_true hok)
  case h_83 | h_84 | h_85 | h_86 | h_87 | h_88 => exact decodeKernel_encVs ..
  case h_89 | h_90 =>
    simp only [decodeKernel, fields_encVm]
    rfl
  case h_91 | h_92 | h_93 | h_94 | h_95 | h_96 => exact decodeKernel_encPr ..
  case h_97 =>
    simp only [decodeKernel, fields_encMd]
    rfl
  case h_98 | h_99 | h_100 | h_101 | h_102 =>
    simp only [decodeKernel, fields_encT, fields_encT_zero]
    rfl
  case h_103 | h_104 | h_105 | h_106 | h_107 => exact decodeKernel_encD ..

/-- Settles O55: an instruction's word decodes by the table of its opcode (`decodeKernel_encodeKernel`), and a word that decodes is put together
from the fields that were read (`spells_of_decodeKernel`). -/
theorem kernelDecodeOfEncodeIsIdentity : Obligations.KernelDecodeOfEncodeIsIdentity :=
  ⟨decodeKernel_encodeKernel, kernelCore_isSome, spells_of_decodeKernel⟩

end Sys2Proof.Machine

/-! PROOFS. Branches, jumps, scalar and predicate instructions (R238, R245, R248): an instruction that goes to another pc, and the register that
each one writes; O1 and O2 from them. -/

namespace Sys2Proof.Machine

open Sys2Proof.Said

/-! ## How an instruction ends that goes elsewhere -/

/-- An instruction that changes its core by `f` and goes to a word of the local store in `n` issue cycles ends as the statements say. -/
theorem ended_retireTo (s : State) (c : CoreId) (n pc : Nat) (f : Core → Core) (h4 : pc % 4 = 0) (hl : pc < localSize)
    (hkeep : KeepsRun (getCore s c) (f (getCore s c))) : Ended s c n f pc (retireTo (modCore s c f) c n pc) := by
  obtain ⟨-, hcycles, hbusy, hfiring⟩ := hkeep
  refine ⟨n + Config.freeNat s.free, Nat.le_add_right .., ?_⟩
  rw [retireTo, if_neg (by omega), if_neg (by omega)]
  show modCore (modCore (modCore { s with free := s.free + 1 } c f) c _) c _ = _
  rw [modCore_modCore, modCore_modCore]
  apply modCore_congr
  rw [getCore_withFree]
  simp only [hcycles, hbusy, hfiring, modCore_free]

/-- One that leaves its core alone. -/
theorem ended_retireTo_id (s : State) (c : CoreId) (n pc : Nat) (h4 : pc % 4 = 0) (hl : pc < localSize) :
    Ended s c n id pc (retireTo s c n pc) := by
  have hsame : modCore s c id = s := modBay_eq_self s c.bay _ (by simp [vmod_eq_self])
  have hend := ended_retireTo s c n pc id h4 hl ⟨rfl, rfl, rfl, rfl⟩
  rwa [hsame] at hend

/-! ## Branches and jumps -/

/-- Each branch runs as `branchOp` of its condition. -/
theorem exec_branch {s : State} {i : Instr} {c : CoreId} {taken : Bool} {off : BitVec 14} (h : branchOf s i = some (c, taken, off)) :
    ∃ a b cond, exec i s = branchOp s i c a b off cond ∧ cond (coreS (getCore s c) a) (coreS (getCore s c) b) = taken := by
  unfold branchOf at h
  split at h <;> cases h
  · exact ⟨_, _, fun x y => x == y, rfl, Bool.eq_iff_iff.2 (by simp)⟩
  · exact ⟨_, _, fun x y => x != y, rfl, Bool.eq_iff_iff.2 (by simp)⟩
  · exact ⟨_, _, fun x y => decide (x.toNat < y.toNat), rfl, BitVec.ult_eq_decide.symm⟩
  · exact ⟨_, _, fun x y => decide (y.toNat ≤ x.toNat), rfl, BitVec.ule_eq_decide.symm⟩
  · exact ⟨_, _, fun x y => decide (x.toInt < y.toInt), rfl, BitVec.slt_eq_decide.symm⟩
  · exact ⟨_, _, fun x y => decide (y.toInt ≤ x.toInt), rfl, BitVec.sle_eq_decide.symm⟩

/-- A target that is not negative is where the branch goes. -/
theorem branchTo_eq (k : Core) (off : Int) (p : Nat) (h : (p : Int) = k.pc + 4 * off) : branchTo k off = p := by
  unfold branchTo
  rw [← h]
  simp

theorem branches : Branches := by
  intro s i c taken off hi ⟨hready, h4, hl⟩
  obtain ⟨a, b, cond, hrun, hcond⟩ := exec_branch hi
  rw [branchOp, issue_ready _ _ _ _ hready, hcond] at hrun
  refine ⟨fun hnot => ?goesOn, fun htaken p hp hpl => ?jumps⟩
  case goesOn =>
    rw [hnot] at hrun
    exact ⟨_, hrun, ended_retireTo_id s c 1 _ (by omega) hl⟩
  case jumps =>
    rw [htaken, if_pos rfl, branchTo_eq _ _ p hp] at hrun
    exact ⟨_, hrun, ended_retireTo_id s c 3 p (by omega) hpl⟩

theorem putS_keepsRun (k : Core) (r : BitVec 6) (x : W64) : KeepsRun k (putS k r x) := by
  unfold putS
  split <;> exact ⟨rfl, rfl, rfl, rfl⟩

theorem jumps : Jumps := by
  intro s c d a
  refine ⟨fun imm p ⟨hready, h4, hl⟩ hp hpl => ?jal, fun imm p ⟨hready, h4, hl⟩ hp hp4 hpl => ?jalr⟩
  case jal =>
    have hrun := (show exec (.jal c d imm) s = execJal c d imm s from rfl).trans (issue_ready s c _ _ hready)
    rw [branchTo_eq _ _ p hp] at hrun
    exact ⟨_, hrun, ended_retireTo s c 3 p _ (by omega) hpl (putS_keepsRun _ _ _)⟩
  case jalr =>
    have hrun := (show exec (.jalr c d a imm) s = execJalr c d a imm s from rfl).trans (issue_ready s c _ _ hready)
    rw [← hp] at hrun
    exact ⟨_, hrun, ended_retireTo s c 3 p _ hp4 hpl (putS_keepsRun _ _ _)⟩

/-- Settles O1: a branch that is taken and a jump go to their target (`ended_retireTo`), one that is not taken goes on. -/
theorem jumpsAndBranchesSetThePc : Obligations.JumpsAndBranchesSetThePc := ⟨branches, jumps⟩

/-! ## The registers of a core (Table 09.1) -/

theorem coreS_putS (k : Core) (d r : BitVec 6) (x : W64) : coreS (putS k d x) r = if r = d ∧ r ≠ 0 then x else coreS k r := by
  by_cases hr : r = 0
  · simp [coreS, hr]
  by_cases hrd : r = d
  · subst hrd
    rw [coreS, putS, if_neg hr, if_neg hr, if_pos ⟨rfl, hr⟩]
    exact vmod_same _ _ _
  · have hix : regIx r ≠ regIx d := fun h => hrd (BitVec.eq_of_toNat_eq (congrArg Fin.val h))
    simp only [coreS, putS, hr, hrd, if_false, false_and]
    split
    · rfl
    · exact vmod_other _ _ _ _ hix

theorem putS_coreS (k : Core) (r : BitVec 6) : putS k r (coreS k r) = k := by
  unfold putS coreS
  split
  · rfl
  · rw [vmod_eq_self _ _ _ rfl]

theorem coreP_putP (k : Core) (d r : BitVec 3) (x : W64) :
    coreP (putP k d x) r = if r = 0 then BitVec.allOnes 64 else if r = d then x else coreP k r := by
  by_cases hr : r = 0
  · simp [coreP, hr]
  by_cases hrd : r = d
  · subst hrd
    rw [coreP, putP, if_neg hr, if_neg hr, if_neg hr, if_pos rfl]
    exact vmod_same _ _ _
  · have hix : predIx r ≠ predIx d := fun h => hrd (BitVec.eq_of_toNat_eq (congrArg Fin.val h))
    simp only [coreP, putP, hr, hrd, if_false]
    split
    · rfl
    · exact vmod_other _ _ _ _ hix

theorem putP_keepsRun (k : Core) (r : BitVec 3) (x : W64) : KeepsRun k (putP k r x) := by
  unfold putP
  split <;> exact ⟨rfl, rfl, rfl, rfl⟩

/-- The registers of the core after an instruction are those of its change. -/
theorem ended_registers {s t : State} {c : CoreId} {n pc : Nat} {f : Core → Core} (h : Ended s c n f pc t) :
    (∀ r, coreS (getCore t c) r = coreS (f (getCore s c)) r) ∧ ∀ r, coreP (getCore t c) r = coreP (f (getCore s c)) r := by
  obtain ⟨m, -, rfl⟩ := h
  rw [getCore_modCore, getCore_withFree]
  exact ⟨fun _ => rfl, fun _ => rfl⟩

/-! ## The values of Table 09.5 -/

theorem mulhu_value (a b : W64) :
    word64 (a.toNat * b.toNat / 2 ^ 64) = ((a.zeroExtend 128 * b.zeroExtend 128).extractLsb' 64 64 : W64) := by
  have hprod : a.toNat * b.toNat < 2 ^ 64 * 2 ^ 64 := Nat.mul_lt_mul'' a.isLt b.isLt
  apply BitVec.eq_of_toNat_eq
  simp only [word64, BitVec.toNat_ofNat, BitVec.extractLsb'_toNat, BitVec.toNat_mul, BitVec.truncate_eq_setWidth, BitVec.toNat_setWidth,
    Nat.shiftRight_eq_div_pow]
  have ha := a.isLt
  have hb := b.isLt
  rw [Nat.mod_eq_of_lt (by omega : a.toNat < 2 ^ 128), Nat.mod_eq_of_lt (by omega : b.toNat < 2 ^ 128),
    Nat.mod_eq_of_lt (by omega : a.toNat * b.toNat < 2 ^ 128)]

theorem flag_value (p : Prop) [Decidable p] (x : Bool) (h : x = decide p) :
    (if p then 1 else 0 : W64) = BitVec.zeroExtend 64 (BitVec.ofBool x) := by
  subst h
  by_cases hp : p <;> simp [hp]

theorem min_value (a b : W64) : (if b.toNat < a.toNat then b else a) = if a.ule b then a else b := by
  rw [BitVec.ule_eq_decide]
  by_cases h : b.toNat < a.toNat
  · rw [if_pos h, if_neg (by simpa using h)]
  · rw [if_neg h, if_pos (by simpa using h)]

theorem max_value (a b : W64) : (if a.toNat < b.toNat then b else a) = if a.ule b then b else a := by
  rw [BitVec.ule_eq_decide]
  by_cases h : b.toNat < a.toNat
  · rw [if_neg (by omega), if_neg (by simpa using h)]
  · by_cases heq : a.toNat = b.toNat
    · simp [BitVec.eq_of_toNat_eq heq]
    · rw [if_pos (by omega), if_pos (by simpa using h)]

theorem csr_value (c : CoreId) (k : Core) (n : BitVec 14) (h : n.toNat < 4) :
    readCsr c k n.toNat = if n = 0 then word64 (c.bay.1 * 256 + c.core.1) else if n = 1 then k.fmt
      else if n = 2 then word64 k.cycles else k.firings := by
  have heq : ∀ m : BitVec 14, (n = m) = (n.toNat = m.toNat) := fun m => propext ⟨congrArg _, BitVec.eq_of_toNat_eq⟩
  have hfew : n.toNat = 0 ∨ n.toNat = 1 ∨ n.toNat = 2 ∨ n.toNat = 3 := by omega
  simp only [readCsr, heq]
  rcases hfew with h | h | h | h <;> simp [h]

/-! ## Scalar instructions -/

section Ready
variable {s : State} {i : Instr} {c : CoreId} (hready : kernelReady s c i = true)
include hready

theorem aluOp_ready {d a b : BitVec 6} {x : W64} (f : W64 → W64 → W64) (hx : f (coreS (getCore s c) a) (coreS (getCore s c) b) = x) :
    aluOp s i c d a b f = .next (retire (modCore s c (fun _ => putS (getCore s c) d x)) c 1) := by
  rw [aluOp, issue_ready _ _ _ _ hready, hx]

theorem immOp_ready {d a : BitVec 6} (f : W64 → W64) :
    immOp s i c d a f = .next (retire (modCore s c (fun _ => putS (getCore s c) d (f (coreS (getCore s c) a)))) c 1) :=
  issue_ready _ _ _ _ hready

end Ready

/-- CMOVNZ that does not move writes the register's own value. -/
theorem execCmovnz_ready {s : State} {c : CoreId} {d a b : BitVec 6} (hready : kernelReady s c (.cmovnz c d a b) = true) :
    execCmovnz c d a b s = .next (retire (modCore s c (fun _ => putS (getCore s c) d
      (if coreS (getCore s c) b = 0 then coreS (getCore s c) d else coreS (getCore s c) a))) c 1) := by
  rw [execCmovnz, issue_ready _ _ _ _ hready]
  split
  · rw [putS_coreS]
  · rfl

/-- Each scalar instruction writes its value of Table 09.5. -/
theorem exec_scalar {s : State} {i : Instr} {c : CoreId} {d : BitVec 6} {x : W64} (h : scalarOf s i = some (c, d, x))
    (hready : kernelReady s c i = true) : exec i s = .next (retire (modCore s c (fun _ => putS (getCore s c) d x)) c 1) := by
  unfold scalarOf at h
  split at h
  case h_24 =>
    split at h
    · next hn =>
      cases h
      rw [← csr_value c (getCore s c) _ hn]
      exact issue_ready s c _ (fun k => retire (modCore s c (fun _ => putS k _ (readCsr c k _))) c 1) hready
    · cases h
  all_goals cases h
  · exact aluOp_ready hready (fun x y => x + y) rfl
  · exact aluOp_ready hready (fun x y => x - y) rfl
  · exact aluOp_ready hready (fun x y => x &&& y) rfl
  · exact aluOp_ready hready (fun x y => x ||| y) rfl
  · exact aluOp_ready hready (fun x y => x ^^^ y) rfl
  · exact aluOp_ready hready (fun x y => x <<< (y.toNat % 64)) rfl
  · exact aluOp_ready hready (fun x y => x >>> (y.toNat % 64)) rfl
  · exact aluOp_ready hready (fun x y => x.sshiftRight (y.toNat % 64)) rfl
  · exact aluOp_ready hready (fun x y => x * y) rfl
  · exact aluOp_ready hready (fun x y => word64 (x.toNat * y.toNat / 2 ^ 64)) (mulhu_value _ _)
  · exact aluOp_ready hready (fun x y => if x.toNat < y.toNat then 1 else 0) (flag_value _ _ BitVec.ult_eq_decide)
  · exact aluOp_ready hready (fun x y => if x.toInt < y.toInt then 1 else 0) (flag_value _ _ BitVec.slt_eq_decide)
  · exact execCmovnz_ready hready
  · exact aluOp_ready hready (fun x y => if y.toNat < x.toNat then y else x) (min_value _ _)
  · exact aluOp_ready hready (fun x y => if x.toNat < y.toNat then y else x) (max_value _ _)
  · exact immOp_ready hready (fun x => x + BitVec.signExtend 64 _)
  · exact immOp_ready hready (fun x => x &&& BitVec.signExtend 64 _)
  · exact immOp_ready hready (fun x => x ||| BitVec.signExtend 64 _)
  · exact immOp_ready hready (fun x => x ^^^ BitVec.signExtend 64 _)
  · exact immOp_ready hready (fun x => x <<< BitVec.toNat _)
  · exact immOp_ready hready (fun x => x >>> BitVec.toNat _)
  · exact immOp_ready hready (fun x => x.sshiftRight _)
  · exact immOp_ready (a := 0) hready (fun _ => BitVec.signExtend 64 _ <<< 12)

theorem computed : Computed := by
  intro s i c d x hi ⟨hready, h4, hl⟩
  have hend := ended_retire s c 1 (fun _ => putS (getCore s c) d x) (fun k => putS k d x) h4 hl rfl (putS_keepsRun _ _ _)
  exact ⟨_, exec_scalar hi hready, hend, fun r => by rw [(ended_registers hend).1, coreS_putS]⟩

/-! ## Predicate instructions and FMT -/

theorem predOp_ready {s : State} {i : Instr} {c : CoreId} (hready : kernelReady s c i = true) {d a b : BitVec 3} (f : W64 → W64 → W64) :
    predOp s i c d a b f =
      .next (retire (modCore s c (fun _ => putP (getCore s c) d (f (coreP (getCore s c) a) (coreP (getCore s c) b)))) c 1) :=
  issue_ready _ _ _ _ hready

theorem exec_predicate {s : State} {i : Instr} {c : CoreId} {d : BitVec 3} {x : W64} (h : predOf s i = some (c, d, x))
    (hready : kernelReady s c i = true) : exec i s = .next (retire (modCore s c (fun _ => putP (getCore s c) d x)) c 1) := by
  unfold predOf at h
  split at h <;> cases h
  · exact predOp_ready hready (fun x y => x &&& y)
  · exact predOp_ready hready (fun x y => x ||| y)
  · exact predOp_ready hready (fun x y => x ^^^ y)
  · next a b => exact predOp_ready (a := a) (b := b) hready (fun x _ => ~~~x)
  · next a b => exact predOp_ready (a := a) (b := b) hready (fun _ _ => BitVec.allOnes 64)
  · next a b => exact predOp_ready (a := a) (b := b) hready (fun _ _ => 0)

theorem predicateInstructions : PredicateInstructions := by
  intro s i c d x hi ⟨hready, h4, hl⟩
  have hend := ended_retire s c 1 (fun _ => putP (getCore s c) d x) (fun k => putP k d x) h4 hl rfl (putP_keepsRun _ _ _)
  exact ⟨_, exec_predicate hi hready, hend, fun r => by rw [(ended_registers hend).2, coreP_putP]⟩

theorem formatRegister : FormatRegister := by
  intro s c v ⟨hready, h4, hl⟩
  have hrun := (show exec (.csrw c v 1) s = execCsrw c v 1 s from rfl).trans (issue_ready s c _ _ hready)
  rw [if_neg (by decide)] at hrun
  refine ⟨fun hok => ?taken, fun hbad => ?refused⟩
  case taken =>
    rw [if_pos hok] at hrun
    exact ⟨_, hrun, ended_retire s c 1 _ _ h4 hl rfl ⟨rfl, rfl, rfl, rfl⟩⟩
  case refused =>
    rw [if_neg (by simp [hbad])] at hrun
    exact hrun

/-- Settles O2: each scalar instruction writes its value (`exec_scalar`), each predicate instruction its own (`exec_predicate`), and a write of
FMT is checked first. -/
theorem scalarInstructionsComputeTheirTable : Obligations.ScalarInstructionsComputeTheirTable := ⟨computed, predicateInstructions, formatRegister⟩

end Sys2Proof.Machine

/-! PROOFS. Integer, fp32, RTOS and STOR vector instructions, VSEL, the comparisons and the vector instructions with a scalar (R239, R245, R249):
each one's result element by element; O3 and O5 from them. -/

namespace Sys2Proof.Machine

open Sys2Proof.Said

/-! ## Element by element -/

/-- An instruction that takes more cycles takes at least fewer. -/
theorem ended_fewer {s t : State} {c : CoreId} {m n pc : Nat} {f : Core → Core} (h : Ended s c n f pc t) (hmn : m ≤ n) : Ended s c m f pc t := by
  obtain ⟨k, hk, ht⟩ := h
  exact ⟨k, Nat.le_trans hmn hk, ht⟩

/-- Instruction `i` writes to vd, in one issue cycle or more, elements that are those of `g` in the width of the view. -/
def RunsElements (s : State) (i : Instr) (c : CoreId) (f : VrFields) (g : Nat → Nat → Nat → Nat) : Prop :=
  ∃ n g', 1 ≤ n ∧ exec i s = .next (retire (modCore s c (fun _ => putV (getCore s c) f.vd (vecResult (getCore s c) f g'))) c n) ∧
    ∀ j o a b, g' j o a b % 2 ^ viewBits f.w = g o a b % 2 ^ viewBits f.w

section Ready
variable {s : State} {i : Instr} {c : CoreId} (hready : kernelReady s c i = true)
include hready

theorem vecOp_ready {f : VrFields} {n : Nat} (g : Nat → Nat → Nat → Nat → Nat) :
    vecOp s i c f n g = .next (retire (modCore s c (fun _ => putV (getCore s c) f.vd (vecResult (getCore s c) f g))) c n) :=
  issue_ready _ _ _ _ hready

/-- An integer instruction. -/
theorem runsElements_of_vecOp {f : VrFields} {g : Nat → Nat → Nat → Nat} (g' : Nat → Nat → Nat → Nat → Nat) (hrun : exec i s = vecOp s i c f 1 g')
    (hg : ∀ j o a b, g' j o a b % 2 ^ viewBits f.w = g o a b % 2 ^ viewBits f.w) : RunsElements s i c f g :=
  ⟨1, g', Nat.le_refl 1, hrun.trans (vecOp_ready hready g'), hg⟩

/-- RTOS and STOR, under an FMT that fits. -/
theorem runsElements_of_mapPart {f : VrFields} {g : Nat → Nat → Nat → Nat} (g' : Core → Nat → Nat) (hfits : elementOf.cvtFits s c f = true)
    (hrun : exec i s = cvtOp s i c f 0 (fun k => mapPart s c f k (g' k)))
    (hg : ∀ o a b, g' (getCore s c) a % 2 ^ viewBits f.w = g o a b % 2 ^ viewBits f.w) : RunsElements s i c f g := by
  simp only [elementOf.cvtFits, Bool.and_eq_true, bne_iff_ne, beq_iff_eq] at hfits
  exact ⟨1, _, Nat.le_refl 1, hrun.trans (cvtOp_part hready hfits.1 hfits.2 (by simp)), fun _ => hg⟩

end Ready

/-! ## fp32 -/

/-- The fp32 instructions with their number, issue cycles and value (R249, Table 09.5). -/
def fpInstr : Instr → Option (CoreId × VrFields × Nat × Nat × (Nat → Nat → Nat → Nat))
  | .vfadd c f => some (c, f, 0, 1, fun _ a b => fpAdd a b)
  | .vfsub c f => some (c, f, 1, 1, fun _ a b => fpSub a b)
  | .vfmul c f => some (c, f, 2, 1, fun _ a b => fpMul a b)
  | .vffma c f => some (c, f, 3, 1, fun d a b => fpFma a b d)
  | .vfdiv c f => some (c, f, 4, 16, fun _ a b => fpDiv a b)
  | .vfsqrt c f => some (c, f, 5, 16, fun _ a _ => fpSqrt a)
  | .vfmin c f => some (c, f, 6, 1, fun _ a b => fpMin a b)
  | .vfmax c f => some (c, f, 7, 1, fun _ a b => fpMax a b)
  | .vfabs c f => some (c, f, 8, 1, fun _ a _ => fpAbs a)
  | .vfneg c f => some (c, f, 9, 1, fun _ a _ => fpNeg a)
  | _ => none

/-- The elements that an fp32 instruction computes: with w = 0 they are free values. -/
def fpElement (w : Bool) (fn : Nat) (g : Nat → Nat → Nat → Nat) (_ d a b : Nat) : Nat := if w then g d a b else Config.fpWide fn a b d % 2 ^ 64

theorem exec_fp {s : State} {i : Instr} {c : CoreId} {f : VrFields} {fn n : Nat} {g : Nat → Nat → Nat → Nat} (h : fpInstr i = some (c, f, fn, n, g)) :
    1 ≤ n ∧ exec i s = vecOp s i c f n (fpElement f.w fn g) := by
  unfold fpInstr at h
  split at h <;> cases h <;> exact ⟨by decide, rfl⟩

theorem runsElements_fp {s : State} {i : Instr} {c : CoreId} {f : VrFields} (hready : kernelReady s c i = true) {fn n : Nat}
    {g : Nat → Nat → Nat → Nat} (h : fpInstr i = some (c, f, fn, n, g)) (hw : f.w = true) : RunsElements s i c f g := by
  obtain ⟨hn, hrun⟩ := exec_fp (s := s) h
  exact ⟨n, _, hn, hrun.trans (vecOp_ready hready _), fun j o a b => by rw [fpElement, if_pos hw]⟩

/-! ## The statement on elements -/

/-- Each instruction of format VR that names its elements writes them. -/
theorem runsElements_of_elementOf {s : State} {i : Instr} {c : CoreId} {f : VrFields} {g : Nat → Nat → Nat → Nat}
    (h : elementOf s i = some (c, f, g)) (hready : kernelReady s c i = true) : RunsElements s i c f g := by
  unfold elementOf at h
  split at h
  case h_11 | h_12 | h_13 | h_14 | h_15 | h_16 | h_17 | h_18 | h_19 | h_20 =>
    split at h
    · next hw =>
      cases h
      exact runsElements_fp hready rfl hw
    · cases h
  case h_21 =>
    split at h
    · next hfits =>
      cases h
      exact runsElements_of_mapPart hready (fun k a => wrapInt (viewBits f.w) (fmtSigned k a)) hfits rfl (fun _ _ _ => rfl)
    · cases h
  case h_22 =>
    split at h
    · next hfits =>
      cases h
      exact runsElements_of_mapPart hready (fun k a => (signed (viewBits f.w) a % ((fmtRingOf k.fmt.toNat).m : Int)).toNat) hfits rfl
        (fun _ _ _ => rfl)
    · cases h
  all_goals cases h
  · exact runsElements_of_vecOp hready (fun _ _ a b => (a + b) % 2 ^ viewBits f.w) rfl (fun _ _ _ _ => Nat.mod_mod _ _)
  · exact runsElements_of_vecOp hready (fun _ _ a b => (a + 2 ^ viewBits f.w - b) % 2 ^ viewBits f.w) rfl (fun _ _ _ _ => Nat.mod_mod _ _)
  · exact runsElements_of_vecOp hready (fun _ _ a b => a * b % 2 ^ viewBits f.w) rfl (fun _ _ _ _ => Nat.mod_mod _ _)
  · exact runsElements_of_vecOp hready (fun _ _ a b => a * b / 2 ^ viewBits f.w) rfl (fun _ _ _ _ => rfl)
  · exact runsElements_of_vecOp hready (fun _ _ a b => Nat.land a b) rfl (fun _ _ _ _ => rfl)
  · exact runsElements_of_vecOp hready (fun _ _ a b => Nat.lor a b) rfl (fun _ _ _ _ => rfl)
  · exact runsElements_of_vecOp hready (fun _ _ a b => Nat.xor a b) rfl (fun _ _ _ _ => rfl)
  · exact runsElements_of_vecOp hready (fun _ _ a b => a * 2 ^ shiftOf f.w b % 2 ^ viewBits f.w) rfl (fun _ _ _ _ => Nat.mod_mod _ _)
  · exact runsElements_of_vecOp hready (fun _ _ a b => a / 2 ^ shiftOf f.w b) rfl (fun _ _ _ _ => rfl)
  · exact runsElements_of_vecOp hready (fun _ _ a b => wrapInt (viewBits f.w) (signed (viewBits f.w) a / 2 ^ shiftOf f.w b)) rfl
      (fun _ _ _ _ => rfl)

/-- An fp32 instruction with w = 0 is one of those with a value. -/
theorem fpInstr_of_wideFpOf {i : Instr} {c : CoreId} {f : VrFields} (h : wideFpOf i = some (c, f)) :
    f.w = false ∧ ∃ fn n g, fpInstr i = some (c, f, fn, n, g) := by
  unfold wideFpOf at h
  split at h
  case h_11 => cases h
  all_goals
    split at h
    · cases h
    · next hw =>
      cases h
      exact ⟨by simpa using hw, _, _, _, rfl⟩

/-- Settles O3: the elements are those of `runsElements_of_elementOf`, read back by `velem_vecResult`; an fp32 instruction with w = 0 keeps those
that its predicate does not enable. -/
theorem vectorInstructionsActElementwise : Obligations.VectorInstructionsActElementwise := by
  refine ⟨fun s i c f g hi ⟨hready, h4, hl⟩ => ?elements, fun s i c f hi ⟨hready, h4, hl⟩ => ?wide⟩
  case elements =>
    obtain ⟨n, g', hn, hrun, hg⟩ := runsElements_of_elementOf hi hready
    refine ⟨_, _, hrun, ended_fewer (ended_retire s c n _ _ h4 hl rfl (putV_keepsRun _ _ _)) hn, fun j hj => ?_⟩
    dsimp only
    rw [velem_vecResult _ _ _ _ hj]
    exact if_congr Iff.rfl (hg _ _ _ _) rfl
  case wide =>
    obtain ⟨hw, fn, n, g, hfp⟩ := fpInstr_of_wideFpOf hi
    obtain ⟨hn, hrun⟩ := exec_fp (s := s) hfp
    refine ⟨_, _, hrun.trans (vecOp_ready hready _), ended_fewer (ended_retire s c n _ _ h4 hl rfl (putV_keepsRun _ _ _)) hn, fun j hj hp => ?_⟩
    have hview : viewSize f.w = 8 := by rw [hw]; rfl
    have helem := velem_vecResult (getCore s c) f (fpElement f.w fn g) j (by rw [hview]; exact hj)
    rwa [hview, if_neg (by simp [hp])] at helem

end Sys2Proof.Machine

/-! PROOFS. VSEL, the comparisons and the vector instructions with a scalar (R239, R245): the register or predicate that each one writes, element by
element; O5 from them. -/

namespace Sys2Proof.Machine

open Sys2Proof.Said

theorem viewSize_views (w : Bool) : viewSize w = 2 ∨ viewSize w = 4 ∨ viewSize w = 8 := .inr (viewSize_cases w)

/-- Element `j` of a register packed from a value for each place. -/
theorem velem_viewPack_map (w : Bool) (g : Nat → Nat) (j : Nat) (hj : j < vcount (viewSize w)) :
    velem (viewSize w) (viewPack (viewSize w) ((List.range (vcount (viewSize w))).map g)) j = g j % 2 ^ viewBits w := by
  rw [velem_viewPack _ (viewSize_views w) _ _ hj]
  simp only [List.getD_eq_getElem?_getD, List.getElem?_map, List.getElem?_range hj, Option.map_some, Option.getD_some]
  rfl

/-! ## VSEL -/

/-- The register that VSEL writes. -/
def selectedReg (k : Core) (f : VrFields) : Vector W64 32 :=
  viewPack (viewSize f.w) (predElems (coreP k f.pr) (viewElems (viewSize f.w) (coreV k f.vb)) (viewElems (viewSize f.w) (coreV k f.va)))

theorem velem_selectedReg (k : Core) (f : VrFields) (j : Nat) (hj : j < vcount (viewSize f.w)) :
    velem (viewSize f.w) (selectedReg k f) j = velem (viewSize f.w) (coreV k (if (coreP k f.pr).getLsbD j then f.va else f.vb)) j := by
  rw [selectedReg, viewElems_eq_map_velem _ (viewSize_views f.w), viewElems_eq_map_velem _ (viewSize_views f.w), predElems_map_range,
    velem_viewPack_map _ _ _ hj]
  split <;> exact Nat.mod_eq_of_lt (velem_lt _ _ _)

theorem vectorSelect : VectorSelect := by
  intro s c f ⟨hready, h4, hl⟩
  have hrun := (show exec (.vsel c f) s = execVsel c f s from rfl).trans (issue_ready s c _ _ hready)
  exact ⟨selectedReg (getCore s c) f, _, hrun, ended_retire s c 1 _ _ h4 hl rfl (putV_keepsRun _ _ _), fun j hj => velem_selectedReg _ f j hj⟩

/-! ## Comparisons -/

/-- The bits of a number that is built from a list of bits, the first the lowest. -/
theorem testBit_foldr_bits (l : List Bool) (j : Nat) : (l.foldr (fun x acc => 2 * acc + b2n x) 0).testBit j = l.getD j false := by
  induction l generalizing j with
  | nil => simp
  | cons x t ih =>
    rw [List.foldr_cons]
    cases j with
    | zero => cases x <;> simp [b2n, Nat.testBit_zero]
    | succ j =>
      have hhalf : (2 * t.foldr (fun x acc => 2 * acc + b2n x) 0 + b2n x) / 2 = t.foldr (fun x acc => 2 * acc + b2n x) 0 := by
        have hbit : b2n x ≤ 1 := by cases x <;> decide
        omega
      rw [Nat.testBit_succ, hhalf, ih, List.getD_cons_succ]

/-- The predicate that a comparison writes. -/
def comparedBits (k : Core) (f : VrFields) (cond : Nat → Nat → Bool) : W64 :=
  word64 ((((viewElems (viewSize f.w) (coreV k f.va)).zip (viewElems (viewSize f.w) (coreV k f.vb))).mapIdx (fun i e =>
    if (coreP k f.pr).getLsbD i then cond e.1 e.2 else (coreP k (f.vd.truncate 3)).getLsbD i)).foldr (fun x acc => 2 * acc + b2n x) 0)

theorem getLsbD_comparedBits (k : Core) (f : VrFields) (cond : Nat → Nat → Bool) (j : Nat) (hj : j < 64) :
    (comparedBits k f cond).getLsbD j = if vcount (viewSize f.w) ≤ j then false
      else if (coreP k f.pr).getLsbD j then cond (velem (viewSize f.w) (coreV k f.va) j) (velem (viewSize f.w) (coreV k f.vb) j)
      else (coreP k (f.vd.truncate 3)).getLsbD j := by
  have hbits : (((List.range (vcount (viewSize f.w))).map (velem (viewSize f.w) (coreV k f.va))).zip
      ((List.range (vcount (viewSize f.w))).map (velem (viewSize f.w) (coreV k f.vb)))).mapIdx
        (fun i e => if (coreP k f.pr).getLsbD i then cond e.1 e.2 else (coreP k (f.vd.truncate 3)).getLsbD i) =
      (List.range (vcount (viewSize f.w))).map (fun j => if (coreP k f.pr).getLsbD j then
        cond (velem (viewSize f.w) (coreV k f.va) j) (velem (viewSize f.w) (coreV k f.vb) j) else (coreP k (f.vd.truncate 3)).getLsbD j) := by
    apply List.ext_getElem <;> simp
  rw [comparedBits, word64, BitVec.getLsbD_ofNat, testBit_foldr_bits, viewElems_eq_map_velem _ (viewSize_views f.w),
    viewElems_eq_map_velem _ (viewSize_views f.w), hbits, List.getD_eq_getElem?_getD]
  by_cases hcount : vcount (viewSize f.w) ≤ j
  · simp [hcount]
  · rw [if_neg hcount, List.getElem?_map, List.getElem?_range (Nat.lt_of_not_le hcount), decide_eq_true hj]
    rfl

/-- The signed value of an element is that of its bit vector. -/
theorem signed_eq_toInt (w x : Nat) (hw : 0 < w) : signed w x = (BitVec.ofNat w x).toInt := by
  obtain ⟨v, rfl⟩ := Nat.exists_eq_succ_of_ne_zero (Nat.pos_iff_ne_zero.1 hw)
  have hpow : 2 ^ (v + 1) = 2 * 2 ^ v := by rw [Nat.pow_succ, Nat.mul_comm]
  rw [signed, BitVec.toInt_eq_toNat_cond, BitVec.toNat_ofNat, Nat.succ_eq_add_one, Nat.add_sub_cancel]
  by_cases h : x % 2 ^ (v + 1) < 2 ^ v
  · rw [if_pos h, if_pos (by omega)]
    push_cast
    rfl
  · rw [if_neg h, if_neg (by omega)]
    push_cast
    rfl

theorem viewBits_pos (w : Bool) : 0 < viewBits w := by cases w <;> decide

theorem cmpOp_ready {s : State} {i : Instr} {c : CoreId} {f : VrFields} (hready : kernelReady s c i = true) {cond : Nat → Nat → Bool}
    (cond' : Nat → Nat → Bool) (hcond : cond' = cond) :
    cmpOp s i c f cond' = .next (retire (modCore s c (fun _ => putP (getCore s c) (f.vd.truncate 3) (comparedBits (getCore s c) f cond))) c 1) :=
  hcond ▸ issue_ready _ _ _ _ hready

theorem exec_compare {s : State} {i : Instr} {c : CoreId} {f : VrFields} {cond : Nat → Nat → Bool} (h : compareOf i = some (c, f, cond))
    (hready : kernelReady s c i = true) :
    exec i s = .next (retire (modCore s c (fun _ => putP (getCore s c) (f.vd.truncate 3) (comparedBits (getCore s c) f cond))) c 1) := by
  unfold compareOf at h
  split at h <;> cases h
  · exact cmpOp_ready hready (fun a b => a == b) rfl
  · exact cmpOp_ready hready (fun a b => a != b) rfl
  · exact cmpOp_ready hready (fun a b => a < b) rfl
  · exact cmpOp_ready hready (fun a b => b ≤ a) rfl
  · exact cmpOp_ready hready (fun a b => signed (viewBits f.w) a < signed (viewBits f.w) b) (by
      simp only [signed_eq_toInt _ _ (viewBits_pos f.w), BitVec.slt_eq_decide])
  · exact cmpOp_ready hready (fun a b => signed (viewBits f.w) b ≤ signed (viewBits f.w) a) (by
      simp only [signed_eq_toInt _ _ (viewBits_pos f.w), BitVec.sle_eq_decide])
  · exact cmpOp_ready hready fpLt rfl
  · exact cmpOp_ready hready fpEq rfl
  · exact cmpOp_ready hready fpUn rfl

theorem vectorComparisons : VectorComparisons := by
  intro s i c f cond hi ⟨hready, h4, hl⟩
  exact ⟨comparedBits (getCore s c) f cond, _, exec_compare hi hready, ended_retire s c 1 _ _ h4 hl rfl (putP_keepsRun _ _ _),
    fun j hj => getLsbD_comparedBits _ f cond j hj⟩

/-! ## Vector with a scalar -/

/-- The register that an instruction of format VS writes. -/
def scalarReg (k : Core) (f : VsFields) (g : Nat → Nat → Nat → Nat) : Vector W64 32 :=
  viewPack (viewSize f.w) (predElems (coreP k f.pr) (viewElems (viewSize f.w) (coreV k f.vd))
    ((viewElems (viewSize f.w) (coreV k f.va)).mapIdx (fun i e => g i e (coreS k f.sa).toNat % 2 ^ viewBits f.w)))

theorem velem_scalarReg (k : Core) (f : VsFields) (g : Nat → Nat → Nat → Nat) (j : Nat) (hj : j < vcount (viewSize f.w)) :
    velem (viewSize f.w) (scalarReg k f g) j = if (coreP k f.pr).getLsbD j then
      g j (velem (viewSize f.w) (coreV k f.va) j) (coreS k f.sa).toNat % 2 ^ viewBits f.w else velem (viewSize f.w) (coreV k f.vd) j := by
  have hnew : (((List.range (vcount (viewSize f.w))).map (velem (viewSize f.w) (coreV k f.va))).mapIdx
      (fun i e => g i e (coreS k f.sa).toNat % 2 ^ viewBits f.w)) =
      (List.range (vcount (viewSize f.w))).map (fun j => g j (velem (viewSize f.w) (coreV k f.va) j) (coreS k f.sa).toNat % 2 ^ viewBits f.w) := by
    apply List.ext_getElem <;> simp
  rw [scalarReg, viewElems_eq_map_velem _ (viewSize_views f.w), viewElems_eq_map_velem _ (viewSize_views f.w), hnew, predElems_map_range,
    velem_viewPack_map _ _ _ hj]
  split
  · exact Nat.mod_mod _ _
  · exact Nat.mod_eq_of_lt (velem_lt _ _ _)

theorem vecScalar_ready {s : State} {i : Instr} {c : CoreId} {f : VsFields} (hready : kernelReady s c i = true) (g : Nat → Nat → Nat → Nat) :
    vecScalar s i c f g = .next (retire (modCore s c (fun _ => putV (getCore s c) f.vd (scalarReg (getCore s c) f g))) c 1) :=
  issue_ready _ _ _ _ hready

theorem exec_withScalar {s : State} {i : Instr} {c : CoreId} {f : VsFields} {g : Nat → Nat → Nat → Nat} (h : withScalarOf i = some (c, f, g))
    (hready : kernelReady s c i = true) :
    exec i s = .next (retire (modCore s c (fun _ => putV (getCore s c) f.vd (scalarReg (getCore s c) f g))) c 1) := by
  unfold withScalarOf at h
  split at h <;> cases h
  · exact vecScalar_ready hready (fun _ _ x => x)
  · exact vecScalar_ready hready (fun _ a x => a + x)
  · exact vecScalar_ready hready (fun _ a x => a * 2 ^ (x % 64))
  · exact vecScalar_ready hready (fun _ a x => a / 2 ^ (x % 64))
  · exact vecScalar_ready hready (fun _ a x => wrapInt (viewBits f.w) (signed (viewBits f.w) a / 2 ^ (x % 64)))
  · exact vecScalar_ready hready (fun j _ x => x + j)

theorem vectorWithScalar : VectorWithScalar := by
  intro s i c f g hi ⟨hready, h4, hl⟩
  exact ⟨scalarReg (getCore s c) f g, _, exec_withScalar hi hready, ended_retire s c 1 _ _ h4 hl rfl (putV_keepsRun _ _ _),
    fun j hj => velem_scalarReg _ f g j hj⟩

/-- Settles O5: VSEL writes `selectedReg`, a comparison `comparedBits`, an instruction with a scalar `scalarReg`. -/
theorem selectsAndComparisonsFollowPredicates : Obligations.SelectsAndComparisonsFollowPredicates :=
  ⟨vectorSelect, vectorComparisons, vectorWithScalar⟩

end Sys2Proof.Machine

/-! PROOFS. The local store (R27, R167, R240, R245, R247, R252): what reads and writes of it do byte by byte, loads and stores; O7 from them. -/

namespace Sys2Proof.Machine

open Sys2Proof.Said

/-! ## Bytes of numbers -/

theorem leBytes_getD (n x i : Nat) (hi : i < n) : (leBytes n x).getD i 0 = byteOf (x / 256 ^ i) := by
  induction n generalizing x i with
  | zero => omega
  | succ n ih =>
    cases i with
    | zero => simp [leBytes]
    | succ i => rw [leBytes, List.getD_cons_succ, ih _ _ (by omega), Nat.div_div_eq_div_mul, Nat.pow_succ, Nat.mul_comm]

theorem ofLe_byte (bs : List Byte) (i : Nat) : ofLe bs / 256 ^ i % 256 = (bs.getD i 0).toNat := by
  induction bs generalizing i with
  | nil => simp [ofLe]
  | cons b t ih =>
    have hb := b.isLt
    cases i with
    | zero =>
      rw [ofLe, Nat.pow_zero, Nat.div_one, List.getD_cons_zero]
      omega
    | succ i =>
      have hdrop : ofLe (b :: t) / 256 = ofLe t := by
        rw [ofLe]
        omega
      rw [Nat.pow_succ, Nat.mul_comm, ← Nat.div_div_eq_div_mul, hdrop, ih, List.getD_cons_succ]

/-- Byte `j` of a word that is read from bytes. -/
theorem extractLsb'_word64_ofLe (bs : List Byte) (j : Nat) (hj : j < 8) : (word64 (ofLe bs)).extractLsb' (8 * j) 8 = bs.getD j 0 := by
  have h256 : (2 : Nat) ^ (8 * j) = 256 ^ j := by rw [Nat.pow_mul]
  have hdvd : 256 ^ j * 256 ∣ 2 ^ 64 := by
    rw [← Nat.pow_succ, show (2 : Nat) ^ 64 = 256 ^ 8 from rfl]
    exact Nat.pow_dvd_pow _ hj
  apply BitVec.eq_of_toNat_eq
  rw [← ofLe_byte, BitVec.extractLsb'_toNat, word64, BitVec.toNat_ofNat, Nat.shiftRight_eq_div_pow, h256,
    ← Nat.mod_mul_right_div_self, Nat.mod_mod_of_dvd _ hdvd, Nat.mod_mul_right_div_self]

/-! ## Reading the local store -/

/-- A byte that a read hides is on a closed line. -/
theorem hideClosed_getD (spans : List (Nat × Nat)) (a : Nat) (bs : List Byte) (i : Nat) :
    (hideClosed spans a bs).getD i 0 = if inSpans spans (lineAddr (a + i)) then 0 else bs.getD i 0 := by
  unfold hideClosed
  split
  · rw [List.getD_eq_getElem?_getD, List.getElem?_mapIdx]
    cases h : bs[i]? <;> simp [h]
  · next hnone =>
    split
    · next hclosed =>
      by_cases hi : i < bs.length
      · refine absurd ?_ hnone
        simp only [inSpans, List.any_eq_true, Bool.and_eq_true, decide_eq_true_eq] at hclosed ⊢
        obtain ⟨p, hp, hlo, hhi⟩ := hclosed
        unfold lineAddr at *
        exact ⟨p, hp, by omega, by omega⟩
      · simp [Nat.le_of_not_lt hi]
    · rfl

/-- A read of the local store gives the bytes that the core reads. -/
theorem localGet_eq (s : State) (c : CoreId) (a n : Nat) (h : Memory.wf (getCore s c).ls) :
    localGet s c (getCore s c) a n = (List.range n).map (fun i => lsByte s c (a + i)) := by
  have hlen : (localGet s c (getCore s c) a n).length = n := by
    unfold localGet hideClosed
    split
    · rw [List.length_mapIdx, memRead_length]
    · exact memRead_length _ _ _
  apply List.ext_getElem
  · simp [hlen]
  · intro i hi _
    have hin : i < n := hlen ▸ hi
    rw [List.getElem_map, List.getElem_range, ← List.getD_eq_getElem _ 0 hi, localGet, hideClosed_getD, memRead_getD _ _ _ _ h hin]
    rfl

/-! ## Writing it -/

/-- `k'` is `k` after stores of the bytes that `bytes` names, each on a line that is then written. -/
def Stores (k k' : Core) (bytes : Nat → Option Byte) : Prop :=
  k' = { k with ls := k'.ls, lsWritten := k'.lsWritten } ∧ (∀ x, memGet k'.ls x = (bytes x).getD (memGet k.ls x)) ∧
    ∀ l, l ∈ k'.lsWritten ↔ l ∈ k.lsWritten ∨ ∃ x, (bytes x).isSome ∧ x / 64 = l

theorem Stores.none (k : Core) : Stores k k (fun _ => Option.none) := ⟨rfl, fun _ => rfl, fun _ => by simp⟩

theorem Stores.congr {k k' : Core} {f g : Nat → Option Byte} (h : Stores k k' f) (hfg : ∀ x, f x = g x) : Stores k k' g := funext hfg ▸ h

/-- Stores in turn: the later bytes lie over the earlier ones. -/
theorem Stores.trans {k k1 k2 : Core} {f g : Nat → Option Byte} (hf : Stores k k1 f) (hg : Stores k1 k2 g) :
    Stores k k2 (fun x => (g x).or (f x)) := by
  obtain ⟨hrest1, hbytes1, hlines1⟩ := hf
  obtain ⟨hrest2, hbytes2, hlines2⟩ := hg
  refine ⟨by rw [hrest2, hrest1], fun x => ?_, fun l => ?_⟩
  · rw [hbytes2, hbytes1]
    show _ = ((g x).or (f x)).getD _
    cases g x <;> rfl
  · rw [hlines2, hlines1, or_assoc, ← exists_or]
    refine or_congr Iff.rfl (exists_congr fun x => ?_)
    show _ ↔ ((g x).or (f x)).isSome ∧ _
    cases g x <;> cases f x <;> simp

/-- The bytes of a string that is stored at `a`. -/
def bytesAt (a : Nat) (bs : List Byte) (x : Nat) : Option Byte := if a ≤ x ∧ x < a + bs.length then some (bs.getD (x - a) 0) else none

theorem mem_markLines (w : List Nat) (l n m : Nat) : m ∈ markLines w l n ↔ m ∈ w ∨ l ≤ m ∧ m < l + n := by
  simp only [markLines, List.mem_append, List.mem_filter, List.mem_range'_1, decide_eq_true_eq]
  by_cases hm : m ∈ w
  · simp only [hm, true_and, true_or, iff_true]
    omega
  · simp only [hm, false_and, false_or, or_false]

/-- The lines of a span are those of its bytes. -/
theorem line_of_span (a n l : Nat) : (a / 64 ≤ l ∧ l < a / 64 + lineCount a n) ↔ ∃ x, (a ≤ x ∧ x < a + n) ∧ x / 64 = l := by
  unfold lineCount
  split
  · next h0 =>
    subst h0
    exact ⟨fun h => by omega, fun ⟨x, hx, _⟩ => by omega⟩
  · next h0 =>
    constructor
    · intro h
      by_cases hl : l = a / 64
      · exact ⟨a, by omega, hl.symm⟩
      · exact ⟨64 * l, by omega, by omega⟩
    · rintro ⟨x, hx, rfl⟩
      omega

theorem stores_localWrite (k : Core) (a : Nat) (bs : List Byte) : Stores k (localWrite k a bs) (bytesAt a bs) := by
  refine ⟨rfl, fun x => ?_, fun l => ?_⟩
  · rw [localWrite, memGet_memWrite, bytesAt]
    split <;> rfl
  · rw [localWrite, mem_markLines, line_of_span]
    refine or_congr Iff.rfl (exists_congr fun x => and_congr ?_ Iff.rfl)
    unfold bytesAt
    split
    · next hin => simp [hin]
    · next hout => simp [hout]

theorem bytesAt_outside (a : Nat) (bs : List Byte) (x : Nat) (h : x < a ∨ a + bs.length ≤ x) : bytesAt a bs x = none := if_neg (by omega)

/-- A string is its first `n` bytes and the others behind them. -/
theorem bytesAt_split (a : Nat) (bs : List Byte) (n x : Nat) :
    bytesAt a bs x = if x < a + n then bytesAt a (bs.take n) x else bytesAt (a + n) (bs.drop n) x := by
  unfold bytesAt
  simp only [List.length_take, List.length_drop]
  by_cases hx : x < a + n
  · rw [if_pos hx]
    by_cases hin : a ≤ x ∧ x < a + bs.length
    · rw [if_pos hin, if_pos (by omega), List.getD_eq_getElem?_getD, List.getD_eq_getElem?_getD, List.getElem?_take_of_lt (by omega)]
    · rw [if_neg hin, if_neg (by omega)]
  · rw [if_neg hx]
    by_cases hin : a ≤ x ∧ x < a + bs.length
    · rw [if_pos hin, if_pos (by omega), List.getD_eq_getElem?_getD, List.getD_eq_getElem?_getD, List.getElem?_drop,
        show n + (x - (a + n)) = x - a from by omega]
    · rw [if_neg hin, if_neg (by omega)]

/-- A string that is cut at the borders of lines, with the pieces on closed lines left out. -/
theorem stores_linePieces (spans : List (Nat × Nat)) (fuel : Nat) (k : Core) (a : Nat) (bs : List Byte) (hfuel : bs.length < fuel) :
    Stores k (((linePieces fuel a bs).filter (fun p => !inSpans spans (lineAddr p.1))).foldl (fun k p => localWrite k p.1 p.2) k)
      (fun x => if inSpans spans (lineAddr x) then none else bytesAt a bs x) := by
  induction fuel generalizing k a bs with
  | zero => omega
  | succ fuel ih =>
    unfold linePieces
    by_cases hnil : bs = []
    · subst hnil
      rw [if_pos rfl]
      exact (Stores.none k).congr fun x => by simp [bytesAt]
    · have hpos : 0 < bs.length := List.length_pos_iff.2 hnil
      have hrest := fun k => ih k (a + (64 - a % 64)) (bs.drop (64 - a % 64)) (by simp only [List.length_drop]; omega)
      have hline : ∀ x, a ≤ x → x < a + (64 - a % 64) → lineAddr x = lineAddr a := fun x h1 h2 => by
        unfold lineAddr
        omega
      rw [if_neg hnil, List.filter_cons]
      by_cases hclosed : inSpans spans (lineAddr a) = true
      · rw [if_neg (by simp [hclosed])]
        refine (hrest k).congr fun x => ?_
        by_cases hx : inSpans spans (lineAddr x) = true
        · rw [if_pos hx, if_pos hx]
        · rw [if_neg hx, if_neg hx, bytesAt_split a bs (64 - a % 64)]
          by_cases hfirst : x < a + (64 - a % 64)
          · have hbelow : ¬ a ≤ x := fun hle => hx (hline x hle hfirst ▸ hclosed)
            rw [if_pos hfirst, bytesAt, bytesAt, if_neg (by omega), if_neg (by omega)]
          · rw [if_neg hfirst]
      · rw [if_pos (by simpa using hclosed), List.foldl_cons]
        refine ((stores_localWrite k a _).trans (hrest _)).congr fun x => ?_
        have hopen : x < a + (64 - a % 64) → a ≤ x → ¬ inSpans spans (lineAddr x) = true := fun h1 h2 => hline x h2 h1 ▸ hclosed
        dsimp only
        rw [bytesAt_split a bs (64 - a % 64)]
        by_cases hfirst : x < a + (64 - a % 64)
        · rw [if_pos hfirst, bytesAt_outside (a + (64 - a % 64)) _ _ (.inl hfirst), ite_self, Option.none_or]
          by_cases hbelow : x < a
          · rw [bytesAt_outside a _ _ (.inl hbelow), ite_self]
          · rw [if_neg (hopen hfirst (by omega))]
        · rw [if_neg hfirst, bytesAt_outside a (bs.take _) _ (.inr (by simp only [List.length_take]; omega)), Option.or_none]

/-- A kernel's write to its local store: the bytes on open lines. -/
theorem stores_localPut (s : State) (c : CoreId) (k : Core) (a : Nat) (bs : List Byte) :
    Stores k (localPut s c k a bs) (fun x => if lsClosed s c x then none else bytesAt a bs x) := by
  unfold localPut openPieces
  split
  · exact stores_linePieces _ _ _ _ _ (Nat.lt_succ_self _)
  · next hnone =>
    refine (stores_localWrite k a bs).congr fun x => ?_
    split
    · next hclosed =>
      refine bytesAt_outside _ _ _ ?_
      by_contra hin
      refine hnone ?_
      unfold lsClosed at hclosed
      simp only [inSpans, List.any_eq_true, Bool.and_eq_true, decide_eq_true_eq] at hclosed ⊢
      obtain ⟨p, hp, hlo, hhi⟩ := hclosed
      unfold lineAddr at *
      exact ⟨p, hp, by omega, by omega⟩
    · rfl

/-! ## Loads -/

/-- A load that is aligned, inside, and free of DMA reads its bytes. -/
theorem loadOp_ready {s : State} {i : Instr} {c : CoreId} (hready : kernelReady s c i = true) {sa : BitVec 6} {off : W64} {n : Nat}
    (halign : (coreS (getCore s c) sa + off).toNat % n = 0) (hin : (coreS (getCore s c) sa + off).toNat + n ≤ localSize)
    (hdma : dmaWritesLs (getCore s c) (coreS (getCore s c) sa + off).toNat n = false) (hwf : Memory.wf (getCore s c).ls)
    (f : Core → List Byte → Core) :
    loadOp s i c sa off n f = .next (retire (modCore s c (fun _ =>
      f (getCore s c) ((List.range n).map (fun j => lsByte s c ((coreS (getCore s c) sa + off).toNat + j))))) c 1) := by
  rw [loadOp, issue_ready _ _ _ _ hready]
  dsimp only
  rw [lsAccess, if_neg (not_not_intro halign), if_neg (Nat.not_lt.2 hin), if_neg (Bool.eq_false_iff.1 hdma), localGet_eq _ _ _ _ hwf]

/-- LD and LW put the number that their bytes spell into their register. -/
theorem exec_load {s : State} {i : Instr} {c : CoreId} {d : BitVec 6} {a : W64} {n : Nat} (h : loadOf s i = some (c, d, a, n))
    (hready : kernelReady s c i = true) (halign : a.toNat % n = 0) (hin : a.toNat + n ≤ localSize)
    (hdma : dmaWritesLs (getCore s c) a.toNat n = false) (hwf : Memory.wf (getCore s c).ls) :
    exec i s = .next (retire (modCore s c (fun _ => putS (getCore s c) d
      (word64 (ofLe ((List.range n).map (fun j => lsByte s c (a.toNat + j))))))) c 1) := by
  unfold loadOf at h
  split at h <;> cases h <;> exact loadOp_ready hready halign hin hdma hwf (fun k b => putS k d (word64 (ofLe b)))

theorem vmOff_eq (imm : BitVec 10) : vmOff imm = 256 * imm.signExtend 64 := by
  unfold vmOff
  rw [BitVec.shiftLeft_eq_mul_twoPow, BitVec.mul_comm]
  rfl

theorem chunks_eq_map_range (n m : Nat) (hn : 0 < n) (l : List α) (hl : l.length = n * m) :
    chunks n l = (List.range m).map (fun i => (l.drop (n * i)).take n) := by
  apply List.ext_getElem
  · rw [chunks_length n m hn l hl, List.length_map, List.length_range]
  · intro i hi _
    rw [List.getElem_map, List.getElem_range, ← getD_chunks n hn l i, List.getD_eq_getElem _ _ hi]

/-- A byte of a register is a byte of its element in the 64-bit view. -/
theorem velem_byte (x : Vector W64 32) (j : Nat) : velem 1 x j = velem 8 x (j / 8) / 256 ^ (j % 8) % 256 := by
  have hword := (x.toList.getD (j / 8) 0).isLt
  unfold velem
  rw [Nat.div_one, Nat.div_self (by decide), Nat.mod_one, Nat.div_one, Nat.mul_zero, Nat.pow_zero, Nat.div_one, Nat.mod_eq_of_lt hword, Nat.mul_one,
    Nat.pow_mul]
  rfl

/-- The register that VLD loads from the bytes that `g` names. -/
theorem velem_loadedReg (p : W64) (old : Vector W64 32) (g : Nat → Byte) (j : Nat) (hj : j < 256) :
    velem 1 (viewPack 8 (predElems p (viewElems 8 old) ((chunks 8 ((List.range 256).map g)).map ofLe))) j =
      if p.getLsbD (j / 8) then (g j).toNat else velem 1 old j := by
  have hview : (8 : Nat) = 2 ∨ (8 : Nat) = 4 ∨ (8 : Nat) = 8 := .inr (.inr rfl)
  have hj8 : j / 8 < vcount 8 := by
    show j / 8 < 32
    omega
  have hnew : (chunks 8 ((List.range 256).map g)).map ofLe =
      (List.range (vcount 8)).map (fun i => ofLe ((((List.range 256).map g).drop (8 * i)).take 8)) := by
    rw [chunks_eq_map_range 8 32 (by decide) _ (by simp), List.map_map]
    rfl
  rw [velem_byte, viewElems_eq_map_velem 8 hview, hnew, predElems_map_range, velem_viewPack 8 hview _ _ hj8,
    List.getD_eq_getElem?_getD, List.getElem?_map, List.getElem?_range hj8, Option.map_some, Option.getD_some]
  split
  · rw [take_drop_map_range _ _ _ _ (by omega), show (2 : Nat) ^ (8 * 8) = 256 ^ (j % 8) * (256 * 256 ^ (7 - j % 8)) from ?_,
      Nat.mod_mul_right_div_self, Nat.mod_mod_of_dvd _ ⟨_, rfl⟩, ofLe_byte]
    · rw [List.getD_eq_getElem?_getD, List.getElem?_map, List.getElem?_range (by omega), Option.map_some, Option.getD_some, Nat.div_add_mod]
    · rw [← Nat.pow_succ', ← Nat.pow_add, show j % 8 + (7 - j % 8 + 1) = 8 from by omega]
      rfl
  · rw [Nat.mod_eq_of_lt (velem_lt 8 old _), velem_byte old]

theorem localLoads : LocalLoads := by
  refine ⟨fun s i c d a n hi ⟨hready, h4, hl⟩ halign hin hdma hwf => ?scalar, fun s c v sa imm pr ⟨hready, h4, hl⟩ => ?vector⟩
  case scalar =>
    refine ⟨_, _, exec_load hi hready halign hin hdma hwf, ended_retire s c 1 _ _ h4 hl rfl (putS_keepsRun _ _ _), fun j hj => ?_⟩
    rw [extractLsb'_word64_ofLe _ _ hj, List.getD_eq_getElem?_getD, List.getElem?_map]
    by_cases hjn : j < n
    · rw [List.getElem?_range hjn, if_pos hjn]
      rfl
    · rw [List.getElem?_eq_none (by simpa using hjn), if_neg hjn]
      rfl
  case vector =>
    intro a halign hin hdma hwf
    rw [show a = (coreS (getCore s c) sa + vmOff imm).toNat from by rw [vmOff_eq]] at *
    have hrun := (show exec (.vld c v sa imm pr) s = execVld c v sa imm pr s from rfl).trans
      (loadOp_ready hready halign hin hdma hwf (fun k b => putV k v (viewPack 8 (predElems (coreP k pr) (viewElems 8 (coreV k v)) ((chunks 8 b).map ofLe)))))
    exact ⟨_, _, hrun, ended_retire s c 1 _ _ h4 hl rfl (putV_keepsRun _ _ _), fun j hj => velem_loadedReg _ _ _ j hj⟩

/-! ## Stores -/

/-- A store that is aligned, inside, no code, and free of DMA changes its core. -/
theorem storeOp_ready {s : State} {i : Instr} {c : CoreId} (hready : kernelReady s c i = true) {sa : BitVec 6} {off : W64} {n : Nat}
    (halign : (coreS (getCore s c) sa + off).toNat % n = 0) (hin : (coreS (getCore s c) sa + off).toNat + n ≤ localSize)
    (hcode : codeHit (getCore s c) (coreS (getCore s c) sa + off).toNat n = false)
    (hdma : dmaReadsLs (getCore s c) (coreS (getCore s c) sa + off).toNat n = false) (f : Core → Nat → Core) :
    storeOp s i c sa off n f = .next (retire (modCore s c (fun _ => f (getCore s c) (coreS (getCore s c) sa + off).toNat)) c 1) := by
  rw [storeOp, issue_ready _ _ _ _ hready]
  dsimp only
  rw [lsAccess, if_neg (not_not_intro halign), if_neg (Nat.not_lt.2 hin), if_neg (Bool.eq_false_iff.1 hcode), if_neg (Bool.eq_false_iff.1 hdma)]

/-- The bytes of a register that SD and SW store. -/
theorem bytesAt_leBytes (a n x : Nat) (v : W64) :
    bytesAt a (leBytes n v.toNat) x = if a ≤ x ∧ x < a + n then some (v.extractLsb' (8 * (x - a)) 8) else none := by
  have hlen : (leBytes n v.toNat).length = n := leBytes_length n v.toNat
  unfold bytesAt
  rw [hlen]
  by_cases hx : a ≤ x ∧ x < a + n
  · rw [if_pos hx, if_pos hx, leBytes_getD _ _ _ (by omega)]
    congr 1
    apply BitVec.eq_of_toNat_eq
    rw [byteOf, BitVec.toNat_ofNat, BitVec.extractLsb'_toNat, Nat.shiftRight_eq_div_pow, Nat.pow_mul]
  · rw [if_neg hx, if_neg hx]

theorem stores_leBytes (s : State) (c : CoreId) (k : Core) (a n : Nat) (v : W64) :
    Stores k (localPut s c k a (leBytes n v.toNat)) (fun x => if lsClosed s c x then none else
      if a ≤ x ∧ x < a + n then some (v.extractLsb' (8 * (x - a)) 8) else none) :=
  (stores_localPut s c k a _).congr fun x => by rw [bytesAt_leBytes]

/-- The bytes that VST has stored at `a` once it is through with the first `m` elements. -/
def storedElems (a m : Nat) (p : W64) (v : Vector W64 32) (y : Nat) : Option Byte :=
  if a ≤ y ∧ y < a + 8 * m ∧ p.getLsbD ((y - a) / 8) then some (BitVec.ofNat 8 (velem 1 v (y - a))) else none

/-- The next element adds its own bytes. -/
theorem storedElems_succ (a m : Nat) (p : W64) (v : Vector W64 32) (y : Nat) :
    storedElems a (m + 1) p v y =
      (if p.getLsbD m then bytesAt (a + 8 * m) (leBytes 8 (velem 8 v m)) y else none).or (storedElems a m p v y) := by
  unfold storedElems bytesAt
  rw [leBytes_length]
  by_cases hnew : a + 8 * m ≤ y ∧ y < a + 8 * m + 8
  · have hm : (y - a) / 8 = m := by omega
    have hpos : y - (a + 8 * m) = (y - a) % 8 := by omega
    rw [if_neg (by omega : ¬ (a ≤ y ∧ y < a + 8 * m ∧ p.getLsbD ((y - a) / 8) = true)), Option.or_none, if_pos hnew, hm,
      leBytes_getD _ _ _ (by omega), hpos, velem_byte, hm]
    by_cases hp : p.getLsbD m = true
    · rw [if_pos ⟨by omega, by omega, hp⟩, if_pos hp]
      congr 1
      apply BitVec.eq_of_toNat_eq
      simp [byteOf]
    · rw [if_neg (fun h => hp h.2.2), if_neg hp]
  · rw [if_neg hnew, ite_self, Option.none_or]
    refine if_congr ⟨fun ⟨h1, h2, h3⟩ => ⟨h1, by omega, h3⟩, fun ⟨h1, h2, h3⟩ => ⟨h1, by omega, h3⟩⟩ rfl rfl

/-- VST's change of its core, over the elements `es` with their places. -/
def vstStored (s : State) (c : CoreId) (pr : BitVec 3) (a : Nat) (es : List (Nat × Nat)) (k : Core) : Core :=
  es.foldl (fun k e => if (coreP k pr).getLsbD e.2 then localPut s c k (a + 8 * e.2) (leBytes 8 e.1) else k) k

theorem Stores.coreP_eq {k k' : Core} {f : Nat → Option Byte} (h : Stores k k' f) (r : BitVec 3) : coreP k' r = coreP k r := by
  rw [h.1]
  rfl

theorem stores_vstStored (s : State) (c : CoreId) (pr : BitVec 3) (a : Nat) (v : Vector W64 32) (m : Nat) (k : Core) :
    Stores k (vstStored s c pr a ((List.range m).map (fun i => (velem 8 v i, i))) k)
      (fun y => if lsClosed s c y then none else storedElems a m (coreP k pr) v y) := by
  induction m with
  | zero =>
    refine (Stores.none k).congr fun y => ?_
    have hnone : storedElems a 0 (coreP k pr) v y = none := if_neg (by omega)
    rw [hnone, ite_self]
  | succ m ih =>
    have hlast : ∀ k', Stores k' (if (coreP k' pr).getLsbD m then localPut s c k' (a + 8 * m) (leBytes 8 (velem 8 v m)) else k')
        (fun y => if lsClosed s c y then none else
          if (coreP k' pr).getLsbD m then bytesAt (a + 8 * m) (leBytes 8 (velem 8 v m)) y else none) := by
      intro k'
      by_cases hp : (coreP k' pr).getLsbD m = true
      · simp only [hp, if_true]
        exact stores_localPut s c k' _ _
      · simp only [hp, Bool.false_eq_true, if_false, ite_self]
        exact Stores.none k'
    rw [List.range_succ, List.map_append, vstStored, List.foldl_append]
    refine (ih.trans (hlast _)).congr fun y => ?_
    rw [storedElems_succ, ih.coreP_eq]
    split <;> rfl

theorem execVst_ready {s : State} {c : CoreId} {v : BitVec 5} {sa : BitVec 6} {imm : BitVec 10} {pr : BitVec 3}
    (hready : kernelReady s c (.vst c v sa imm pr) = true) (halign : (coreS (getCore s c) sa + vmOff imm).toNat % 256 = 0)
    (hin : (coreS (getCore s c) sa + vmOff imm).toNat + 256 ≤ localSize)
    (hcode : codeHit (getCore s c) (coreS (getCore s c) sa + vmOff imm).toNat 256 = false)
    (hdma : dmaReadsLs (getCore s c) (coreS (getCore s c) sa + vmOff imm).toNat 256 = false) :
    execVst c v sa imm pr s = .next (retire (modCore s c (fun _ => vstStored s c pr
      (coreS (getCore s c) sa + vmOff imm).toNat ((List.range 32).map (fun i => (velem 8 (coreV (getCore s c) v) i, i))) (getCore s c))) c 1) := by
  have helems : (viewElems 8 (coreV (getCore s c) v)).zipIdx = (List.range 32).map (fun i => (velem 8 (coreV (getCore s c) v) i, i)) := by
    rw [viewElems_eq_map_velem 8 (.inr (.inr rfl))]
    apply List.ext_getElem
    · simp [vcount]
    · intro i _ _
      simp
  rw [← helems]
  exact storeOp_ready hready halign hin hcode hdma (fun k a => vstStored s c pr a (viewElems 8 (coreV k v)).zipIdx k)

/-- Each store changes its core by the bytes that it names. -/
theorem exec_store {s : State} {i : Instr} {c : CoreId} {a n : Nat} {bytes : Nat → Option Byte} (h : storeOf s i = some (c, a, n, bytes))
    (hready : kernelReady s c i = true) (halign : a % n = 0) (hin : a + n ≤ localSize) (hcode : codeHit (getCore s c) a n = false)
    (hdma : dmaReadsLs (getCore s c) a n = false) :
    ∃ k', exec i s = .next (retire (modCore s c (fun _ => k')) c 1) ∧
      Stores (getCore s c) k' (fun x => if lsClosed s c x then none else bytes x) := by
  unfold storeOf at h
  split at h <;> cases h
  case h_1 v sa imm =>
    exact ⟨_, storeOp_ready hready halign hin hcode hdma (fun k a => localPut s c k a (leBytes 8 (coreS k v).toNat)), stores_leBytes s c _ _ 8 _⟩
  case h_2 v sa imm =>
    exact ⟨_, storeOp_ready hready halign hin hcode hdma (fun k a => localPut s c k a (leBytes 4 (coreS k v).toNat)), stores_leBytes s c _ _ 4 _⟩
  case h_3 v sa imm pr =>
    rw [← vmOff_eq] at *
    exact ⟨_, execVst_ready hready halign hin hcode hdma, stores_vstStored s c pr _ _ 32 _⟩

theorem localStores : LocalStores := by
  intro s i c a n bytes hi ⟨hready, h4, hl⟩ halign hin hcode hdma
  obtain ⟨k', hrun, hrest, hbytes, hlines⟩ := exec_store hi hready halign hin hcode hdma
  have hkeep : KeepsRun (getCore s c) { getCore s c with ls := k'.ls, lsWritten := k'.lsWritten } := ⟨rfl, rfl, rfl, rfl⟩
  refine ⟨k'.ls, k'.lsWritten, _, hrun,
    ended_retire s c 1 _ (fun k => { k with ls := k'.ls, lsWritten := k'.lsWritten }) h4 hl hrest hkeep, fun x => ?_, fun l => ?_⟩
  · rw [hbytes]
    dsimp only
    cases lsClosed s c x <;> rfl
  · rw [hlines]
    refine or_congr Iff.rfl (exists_congr fun x => ?_)
    dsimp only
    cases lsClosed s c x <;> simp

/-- Settles O7: a load spells the bytes that its core reads (`localGet_eq`), and a store lays its bytes over the local store (`Stores`). -/
theorem loadsAndStoresTouchTheNamedBytes : Obligations.LoadsAndStoresTouchTheNamedBytes := ⟨localLoads, localStores⟩

end Sys2Proof.Machine

/-! PROOFS. Kernel errors (R79, R244, R254, R258): what the markers of a firing that ends leave of the core and of memory, what the error itself
does, and what is one; O9 from them. -/

namespace Sys2Proof.Machine

open Sys2Proof.Said

/-! ## Memory that an update leaves -/

theorem sameMemoryBut_of_eq (but : BayId → Nat → Prop) {s t : State} (hmem : ∀ b : BayId, t.bays[b].mem = s.bays[b].mem)
    (hcores : ∀ d : CoreId, (getCore t d).ls = (getCore s d).ls) : sameMemoryBut but s t := fun b =>
  ⟨fun a => by rw [hmem], fun a _ => by rw [hmem], fun k a => congrArg (fun m => memGet m a) (hcores ⟨b, k⟩)⟩

theorem sameMemoryBut_trans {but : BayId → Nat → Prop} {s t u : State} (h : sameMemoryBut but s t) (h' : sameMemoryBut but t u) :
    sameMemoryBut but s u := by
  intro b
  obtain ⟨hdram, hstore, hlocal⟩ := h b
  obtain ⟨hdram', hstore', hlocal'⟩ := h' b
  exact ⟨fun a => (hdram' a).trans (hdram a), fun a hn => (hstore' a hn).trans (hstore a hn), fun k a => (hlocal' k a).trans (hlocal k a)⟩

theorem sameMemoryBut_modCore (but : BayId → Nat → Prop) (s : State) (c : CoreId) (f : Core → Core) (h : (f (getCore s c)).ls = (getCore s c).ls) :
    sameMemoryBut but s (modCore s c f) := by
  refine sameMemoryBut_of_eq but (modCore_mem s c f) fun d => ?_
  by_cases hd : d = c
  · rw [hd, getCore_modCore, h]
  · rw [getCore_modCore_other _ _ _ _ hd]

/-- The update of a station changes of a core at most its own. -/
theorem getCore_modSt (s : State) (r : StationRef) (f : Station → Station) (d : CoreId) :
    ∃ x, getCore (modSt s r f) d = { getCore s d with ctl := x } := by
  obtain ⟨b, k⟩ | c | _ | _ := r
  case bay => exact ⟨(getCore s d).ctl, by cases k <;> exact getCore_modBay s b _ d fun _ => rfl⟩
  case core =>
    by_cases hd : d = c
    · subst hd
      exact ⟨_, getCore_modCore s d _⟩
    · exact ⟨(getCore s d).ctl, getCore_modCore_other s c d _ hd⟩
  case trn | red => exact ⟨(getCore s d).ctl, rfl⟩

theorem hdrBytes_length (h : TileHdr) : (hdrBytes h).length = 64 := by simp [hdrBytes, leBytes_length]

/-- How many bytes a tile's slot takes: a marker's is its header line (R64). -/
def slotBytes (t : Tile) : Nat := if t.hdr.marker then 64 else 65600

theorem slotBytes_le (t : Tile) : slotBytes t ≤ 65600 := by
  unfold slotBytes
  split <;> omega

/-- A slot's write leaves the bytes around it, and the stack. -/
theorem slotWrite_outside (m : BayMem) (a : Nat) (t : Tile) (x : Nat) (h : ¬ (a ≤ x ∧ x < a + slotBytes t)) :
    memGet (slotWrite m a t).store x = memGet m.store x := by
  unfold slotWrite slotBytes at *
  split
  · next hmarker =>
    rw [if_pos hmarker] at h
    rw [storeWrite, memGet_memWrite, hdrBytes_length, if_neg h]
  · next hdata =>
    rw [if_neg hdata] at h
    have hlen : (hdrBytes t.hdr ++ t.payload.take 65536).length ≤ 65600 := by
      rw [List.length_append, hdrBytes_length, List.length_take]
      omega
    rw [memGet_memWrite, if_neg (by omega), memGet_memZero, if_neg h]

theorem slotWrite_dram (m : BayMem) (a : Nat) (t : Tile) : (slotWrite m a t).dram = m.dram := by
  unfold slotWrite
  split <;> rfl

/-! ## What the outputs and credits of a core's firing leave -/

/-- `t` has of core `c` all but its station, leads its outputs to the same slots, keeps memory but for `but`, and adds entries to the daybook. -/
structure PortsMoved (but : BayId → Nat → Prop) (c : CoreId) (s t : State) : Prop where
  core : ∃ x, getCore t c = { getCore s c with ctl := x }
  cons : ∀ n, (getOut t (.core c) n).cons = (getOut s (.core c) n).cons
  slots : ∀ q p k, slotAddr (getIn t q p) k = slotAddr (getIn s q p) k
  mem : sameMemoryBut but s t
  log : ∃ l, t.dbkIn = s.dbkIn ++ l

section Moved
variable {but : BayId → Nat → Prop} {c : CoreId}

theorem PortsMoved.refl (s : State) : PortsMoved but c s s :=
  ⟨⟨_, rfl⟩, fun _ => rfl, fun _ _ _ => rfl, fun _ => ⟨fun _ => rfl, fun _ _ => rfl, fun _ _ => rfl⟩, [], (List.append_nil _).symm⟩

theorem PortsMoved.trans {s t u : State} (h : PortsMoved but c s t) (h' : PortsMoved but c t u) : PortsMoved but c s u where
  core := by
    obtain ⟨x, hx⟩ := h.core
    obtain ⟨y, hy⟩ := h'.core
    exact ⟨y, by rw [hy, hx]⟩
  cons n := (h'.cons n).trans (h.cons n)
  slots q p k := (h'.slots q p k).trans (h.slots q p k)
  mem := sameMemoryBut_trans h.mem h'.mem
  log := by
    obtain ⟨l, hl⟩ := h.log
    obtain ⟨l', hl'⟩ := h'.log
    exact ⟨l ++ l', by rw [hl', hl, List.append_assoc]⟩

/-- A run over a list, each of whose steps moves the ports. -/
theorem PortsMoved.foldl {α : Type} {s : State} (g : State → α → State) (l : List α)
    (hstep : ∀ t, PortsMoved but c s t → ∀ h ∈ l, PortsMoved but c t (g t h)) {t : State} (ht : PortsMoved but c s t) :
    PortsMoved but c s (l.foldl g t) := by
  induction l generalizing t with
  | nil => exact ht
  | cons h l ih => exact ih (fun t ht k hk => hstep t ht k (List.mem_cons_of_mem _ hk)) (ht.trans (hstep t ht h List.mem_cons_self))

/-- The update of a station that leaves where its outputs lead and where its pools lie. -/
theorem portsMoved_modSt (s : State) (r : StationRef) (f : Station → Station) (houts : ∀ x (n : PortId), (f x).outs[n].cons = x.outs[n].cons)
    (hins : ∀ x (p : PortId), (f x).ins[p].poolBase = x.ins[p].poolBase) : PortsMoved but c s (modSt s r f) where
  core := getCore_modSt s r f c
  cons n := getSt_modSt_keeps s r _ f (fun x => x.outs[n].cons) fun x => houts x n
  slots q p k := congrArg (fun base => base * 64 + k * 65600) (getSt_modSt_keeps s r q f (fun x => x.ins[p].poolBase) fun x => hins x p)
  mem := sameMemoryBut_of_eq but (modSt_mem s r f) fun d => by
    obtain ⟨x, hx⟩ := getCore_modSt s r f d
    rw [hx]
  log := ⟨[], by rw [modSt_dbkIn, List.append_nil]⟩

theorem portsMoved_modOut (s : State) (r : StationRef) (n : PortId) (f : OutPort → OutPort) (hf : ∀ x, (f x).cons = x.cons) :
    PortsMoved but c s (modOut s r n f) := by
  refine portsMoved_modSt s r _ (fun x m => ?_) fun _ _ => rfl
  rw [vmod_get]
  split
  · next h => rw [hf, h]
  · rfl

theorem portsMoved_modIn (s : State) (r : StationRef) (p : PortId) (f : InPort → InPort) (hf : ∀ x, (f x).poolBase = x.poolBase) :
    PortsMoved but c s (modIn s r p f) := by
  refine portsMoved_modSt s r _ (fun _ _ => rfl) fun x m => ?_
  rw [vmod_get]
  split
  · next h => rw [hf, h]
  · rfl

theorem portsMoved_logOutCause (s : State) (r : StationRef) (n : PortId) (t : Tile) (cause d3 : Nat) :
    PortsMoved but c s (logOutCause s r n t cause d3) := by
  unfold logOutCause
  dsimp only
  split
  · exact .refl s
  · refine PortsMoved.trans (t := logStream s r cause (8 + n.1) _ _ _ d3) ?_ (portsMoved_modOut _ r n _ fun _ => rfl)
    exact ⟨⟨_, rfl⟩, fun _ => rfl, fun _ _ _ => rfl, fun _ => ⟨fun _ => rfl, fun _ _ => rfl, fun _ _ => rfl⟩, _, rfl⟩

theorem portsMoved_returnSlot (s : State) (r : StationRef) (p : PortId) (k : Nat) : PortsMoved but c s (returnSlot s r p k) := by
  unfold returnSlot
  split
  · exact portsMoved_modIn s r p _ fun _ => rfl
  · exact ⟨⟨_, rfl⟩, fun _ => rfl, fun _ _ _ => rfl, fun _ => ⟨fun _ => rfl, fun _ _ => rfl, fun _ _ => rfl⟩, [], (List.append_nil _).symm⟩

theorem portsMoved_returnIns (s : State) (f : CoreFiring) : PortsMoved but c s (returnIns s c f) := by
  refine PortsMoved.foldl _ _ (fun t _ h _ => ?_) (.refl s)
  split
  · exact portsMoved_returnSlot t _ _ _
  · exact .refl t

/-- A slot's write is among `but`. -/
theorem portsMoved_fillSlot (s : State) (r q : StationRef) (p : PortId) (k : Token)
    (hbut : ∀ b a, stBay q = some b → slotAddr (getIn s q p) k.slot ≤ a → a < slotAddr (getIn s q p) k.slot + slotBytes k.tile → but b a) :
    PortsMoved but c s (fillSlot s r q p k) := by
  have hst := getSt_fillSlot s r q p k
  have hlog := fillSlot_dbkIn s r q p k
  obtain hfill | ⟨b, hbay, hfill⟩ := fillSlot_cases s r q p k
  · rw [hfill]
    exact .refl s
  · refine ⟨⟨(getCore s c).ctl, ?core⟩, fun n => by rw [getOut, hst]; rfl, fun q p k => by rw [getIn, hst]; rfl, ?mem, [], by rw [hlog, List.append_nil]⟩
    case core =>
      rw [hfill]
      exact getCore_modBay s b _ c fun _ => rfl
    case mem =>
      rw [hfill]
      intro d
      by_cases hd : d = b
      · subst hd
        rw [modMem_same]
        refine ⟨fun a => by rw [slotWrite_dram], fun a hout => ?_, fun _ _ => rfl⟩
        exact slotWrite_outside _ _ _ _ fun ⟨hlo, hhi⟩ => hout (hbut d a hbay hlo hhi)
      · rw [modMem_other _ _ _ _ hd]
        exact ⟨fun _ => rfl, fun _ _ => rfl, fun _ _ => rfl⟩

theorem portsMoved_passTok (s : State) (n : PortId) (k : Token)
    (hbut : ∀ q p b a, (getOut s (.core c) n).cons = some (q, p) → stBay q = some b → slotAddr (getIn s q p) k.slot ≤ a →
      a < slotAddr (getIn s q p) k.slot + slotBytes k.tile → but b a) : PortsMoved but c s (passTok s (.core c) n k) := by
  have hcount : PortsMoved but c s (modOut s (.core c) n (countPassed k)) := portsMoved_modOut s _ n _ fun _ => rfl
  unfold passTok
  dsimp only
  split
  · next q p hcons =>
    refine hcount.trans (PortsMoved.trans (portsMoved_fillSlot (modOut s (.core c) n (countPassed k)) (.core c) q p k fun b a hb hlo hhi => ?_) ?_)
    · rw [hcount.slots] at hlo hhi
      exact hbut q p b a hcons hb hlo hhi
    · exact ⟨⟨_, rfl⟩, fun _ => rfl, fun _ _ _ => rfl, fun _ => ⟨fun _ => rfl, fun _ _ => rfl, fun _ _ => rfl⟩, [], (List.append_nil _).symm⟩
  · exact hcount

theorem portsMoved_passHeld (s : State) (h : HeldSlot) (t : Tile)
    (hbut : ∀ k : PortId, h.port - 8 = k.1 → ∀ q p b a, (getOut s (.core c) k).cons = some (q, p) → stBay q = some b →
      slotAddr (getIn s q p) h.token.slot ≤ a → a < slotAddr (getIn s q p) h.token.slot + slotBytes t → but b a) :
    PortsMoved but c s (passHeld s c h t) := by
  unfold passHeld finOpt
  split
  · exact .refl s
  · next n hn =>
    have hport : h.port - 8 = n.1 := by
      split at hn <;> cases hn
      rfl
    have hstamp : PortsMoved but c s (stampOut s (.core c) n t).2 := by
      unfold stampOut
      dsimp only
      exact portsMoved_modOut s _ n _ fun _ => rfl
    refine hstamp.trans (portsMoved_passTok _ n _ fun q p b a hcons hb hlo hhi => ?_)
    rw [hstamp.cons] at hcons
    rw [hstamp.slots] at hlo hhi
    exact hbut n hport q p b a hcons hb hlo hhi

/-- A slot that a firing of `s` holds for output is passed into the first `n` bytes of the held slots. -/
theorem portsMoved_passHeld_held {s t : State} {f : CoreFiring} {n : Nat} (hf : (getCore s c).firing = some f)
    (hst : PortsMoved (heldOut s c n) c s t) (h : HeldSlot) (hh : h ∈ firingOuts f) (tl : Tile) (hn : slotBytes tl ≤ n) :
    PortsMoved (heldOut s c n) c t (passHeld t c h tl) := by
  obtain ⟨hmem, hout⟩ := List.mem_filter.1 hh
  have h8 : 8 ≤ h.port := by simpa [isOutSlot] using hout
  refine portsMoved_passHeld t h tl fun k hk q p b a hcons hb hlo hhi => ?_
  rw [hst.cons] at hcons
  rw [hst.slots] at hlo hhi
  exact ⟨f, h, k, q, p, hf, hmem, by omega, hcons, hb, hlo, by omega⟩

end Moved

/-! ## The held slots after a change of the core -/

theorem getSt_modCore (s : State) (c : CoreId) (f : Core → Core) (h : (f (getCore s c)).ctl = (getCore s c).ctl) (q : StationRef) :
    getSt (modCore s c f) q = getSt s q := by
  obtain ⟨b, k⟩ | d | _ | _ := q
  case bay =>
    have hkeep : ∀ g : Bay → Station, (∀ y v, g { y with cores := v } = g y) → g (modCore s c f).bays[b] = g s.bays[b] :=
      fun g hg => modBay_keeps g (fun y => hg y _) s c.bay b
    cases k
    case bin => exact hkeep Bay.bin fun _ _ => rfl
    case msk => exact hkeep Bay.msk fun _ _ => rfl
    case shr => exact hkeep Bay.shr fun _ _ => rfl
    case lat => exact hkeep Bay.lat fun _ _ => rfl
    case nse => exact hkeep Bay.nse fun _ _ => rfl
    case rls => exact hkeep Bay.rls fun _ _ => rfl
  case core =>
    by_cases hd : d = c
    · subst hd
      show (getCore (modCore s d f) d).ctl = _
      rw [getCore_modCore, h]
      rfl
    · exact congrArg Core.ctl (getCore_modCore_other s c d f hd)
  case trn | red => rfl

theorem heldOut_iff (s : State) (c : CoreId) (n : Nat) (b : BayId) (a : Nat) :
    heldOut s c n b a ↔ ∃ h ∈ heldSlots (getCore s c), ∃ k q p, h.port = 8 + Fin.val (n := 8) k ∧ (getOut s (.core c) k).cons = some (q, p) ∧
      stBay q = some b ∧ slotAddr (getIn s q p) h.token.slot ≤ a ∧ a < slotAddr (getIn s q p) h.token.slot + n := by
  unfold heldOut heldSlots
  cases (getCore s c).firing <;> simp

/-- A change of the core that keeps its station and the slots its firing holds leaves the same slots held. -/
theorem heldOut_modCore (s : State) (c : CoreId) (f : Core → Core) (n : Nat) (hctl : (f (getCore s c)).ctl = (getCore s c).ctl)
    (hslots : heldSlots (f (getCore s c)) = heldSlots (getCore s c)) : heldOut (modCore s c f) c n = heldOut s c n := by
  funext b a
  refine propext ((heldOut_iff _ c n b a).trans (Iff.trans ?_ (heldOut_iff s c n b a).symm))
  simp only [getIn, getOut, getSt_modCore s c f hctl, getCore_modCore, hslots]

/-! ## The markers of a firing that ends -/

/-- The header of a marker in a held output slot. -/
def heldHeader (s : State) (c : CoreId) (f : CoreFiring) (h : HeldSlot) : TileHdr := { slotHeader s c f h with noised := firingNoised f }

/-- The error's cause is noted at the port of a held output slot. -/
def heldNoted (c : CoreId) (f : CoreFiring) (cause : Nat) (s : State) (h : HeldSlot) : State :=
  match finOpt 8 (h.port - 8) with
  | some n => logOutCause s (.core c) n { hdr := heldHeader s c f h } cause 0
  | none => s

/-- A marker leaves in a held output slot. -/
def heldMarked (c : CoreId) (f : CoreFiring) (cause shown : Nat) (s : State) (h : HeldSlot) : State :=
  passHeld (heldNoted c f cause s h) c h (markerOf (heldHeader s c f h) shown)

/-- The firing's outputs leave as markers, and its inputs' slots are returned. -/
def firingMarked (s : State) (c : CoreId) (f : CoreFiring) (cause : Nat) : State :=
  returnIns ((firingOuts f).foldl (heldMarked c f cause ((pickCause (copiedOf f) (f.made ++ [cause])).getD cause)) s) c f

theorem portsMoved_firingMarked (s : State) (c : CoreId) (f : CoreFiring) (cause : Nat) (hf : (getCore s c).firing = some f) :
    PortsMoved (heldOut s c 64) c s (firingMarked s c f cause) := by
  refine PortsMoved.trans (PortsMoved.foldl _ _ (fun t ht h hh => ?_) (.refl s)) (portsMoved_returnIns _ f)
  have hnoted : PortsMoved (heldOut s c 64) c t (heldNoted c f cause t h) := by
    unfold heldNoted
    split
    · exact portsMoved_logOutCause t _ _ _ _ _
    · exact .refl t
  exact hnoted.trans (portsMoved_passHeld_held hf (ht.trans hnoted) h hh _ (Nat.le_of_eq rfl))

/-- The firing of `s` is closed in `t`. -/
def FiringClosed (c : CoreId) (s t : State) : Prop :=
  (∃ x, getCore t c = { getCore s c with ctl := x, firing := none }) ∧ sameMemoryBut (heldOut s c 64) s t ∧ ∃ l, t.dbkIn = s.dbkIn ++ l

theorem firingClosed_markFiring (s : State) (c : CoreId) (cause : Nat) : FiringClosed c s (markFiring s c cause) := by
  cases hf : (getCore s c).firing with
  | none =>
    have hsame : markFiring s c cause = s := by rw [markFiring, hf]
    rw [hsame]
    exact ⟨⟨(getCore s c).ctl, by rw [← hf]⟩, fun _ => ⟨fun _ => rfl, fun _ _ => rfl, fun _ _ => rfl⟩, [], (List.append_nil _).symm⟩
  | some f =>
    have hmarked : markFiring s c cause = modSt (modCore (firingMarked s c f cause) c (fun k => { k with firing := none })) (.core c)
        (fun x => { x with st := afterFiring x }) := by
      rw [markFiring, hf]
      rfl
    obtain ⟨⟨x, hcore⟩, -, -, hmem, l, hlog⟩ := portsMoved_firingMarked s c f cause hf
    rw [hmarked]
    refine ⟨⟨{ x with st := afterFiring x }, ?_⟩, ?_, l, ?_⟩
    · show getCore (modCore (modCore (firingMarked s c f cause) c _) c _) c = _
      rw [getCore_modCore, getCore_modCore, hcore]
    · exact sameMemoryBut_trans (sameMemoryBut_trans hmem (sameMemoryBut_modCore _ _ _ _ rfl)) (sameMemoryBut_modCore _ _ _ _ rfl)
    · rw [modSt_dbkIn, ← hlog]
      rfl

/-! ## A kernel error -/

/-- A core as an error counts it, before its firing ends. -/
def faultCounted (reason : Nat) (k : Core) : Core := { k with dma := vmap k.dma (fun q => q.take 1), kerr := k.kerr + 1, kerrLast := reason }

/-- What a kernel error leaves of core, memory and daybook. -/
theorem kernelError_leaves (s : State) (c : CoreId) (reason : Nat) :
    (∃ x, getCore (kernelError s c reason) c = resetRegs { faultCounted reason (getCore s c) with ctl := x, firing := none }) ∧
      sameMemoryBut (heldOut s c 64) s (kernelError s c reason) ∧
      ∃ l, (kernelError s c reason).dbkIn = (logK s c codeKernelFault reason (getCore s c).pc (firstOrdinal (getCore s c)) 0).dbkIn ++ l := by
  have hcounted := getCore_modCore (logK s c codeKernelFault reason (getCore s c).pc (firstOrdinal (getCore s c)) 0) c (faultCounted reason)
  have hmem : sameMemoryBut (heldOut s c 64) s
      (modCore (logK s c codeKernelFault reason (getCore s c).pc (firstOrdinal (getCore s c)) 0) c (faultCounted reason)) :=
    sameMemoryBut_modCore (heldOut s c 64) (logK s c codeKernelFault reason (getCore s c).pc (firstOrdinal (getCore s c)) 0) c _ rfl
  obtain ⟨⟨x, hcore⟩, hmarked, l, hlog⟩ := firingClosed_markFiring
    (modCore (logK s c codeKernelFault reason (getCore s c).pc (firstOrdinal (getCore s c)) 0) c (faultCounted reason)) c codeKernel
  have hrun : kernelError s c reason = modCore (markFiring
    (modCore (logK s c codeKernelFault reason (getCore s c).pc (firstOrdinal (getCore s c)) 0) c (faultCounted reason)) c codeKernel) c resetRegs := rfl
  rw [hrun]
  refine ⟨⟨x, by rw [getCore_modCore, hcore, hcounted]; rfl⟩, ?_, l, hlog⟩
  rw [heldOut_modCore _ _ _ _ rfl rfl] at hmarked
  exact sameMemoryBut_trans (sameMemoryBut_trans hmem hmarked) (sameMemoryBut_modCore _ _ _ _ rfl)

theorem severityOf_kernelFault (d0 : Nat) : severityOf codeKernelFault d0 = 4 := rfl

theorem kernelError_spec : KernelError := by
  intro s c reason
  obtain ⟨⟨x, hcore⟩, hmem, l, hlog⟩ := kernelError_leaves s c reason
  rw [logK, logEv, severityOf_kernelFault, List.append_assoc] at hlog
  dsimp only
  rw [hcore]
  refine ⟨rfl, rfl, rfl, rfl, rfl, fun r => ?_, fun r => ?_, fun r => ?_, rfl, fun b hb => ?_, fun ch => ?_, hmem, l, hlog⟩
  · simp [coreS, resetRegs]
  · simp [coreP, resetRegs]
  · simp [resetRegs]
  · have hbind : (faultCounted reason (getCore s c)).bind = some b := hb
    simp [resetRegs, hbind]
  · show ((vmap (getCore s c).dma fun q => q.take 1)[ch]).length ≤ 1
    rw [vmap_get, List.length_take]
    exact Nat.min_le_left _ _

/-! ## What is one -/

theorem illegalAndWatchdog : IllegalAndWatchdog := by
  refine ⟨fun s c w hissues hfetch hnone => ?illegal, fun s c hfiring hrun hstop => ?watchdog⟩
  case illegal =>
    show execIllegalInstruction c w s = _
    rw [execIllegalInstruction, if_pos (by simp [hissues, hfetch, hnone])]
  case watchdog =>
    show execWatchdog c s = _
    rw [execWatchdog, if_neg (by simp [Option.isSome_iff_ne_none.1 hfiring, hrun, hstop])]

section Access
variable {s : State} {i : Instr} {c : CoreId} (hready : kernelReady s c i = true)
include hready

theorem loadOp_misaligned {sa : BitVec 6} {off : W64} {n : Nat} (f : Core → List Byte → Core)
    (hbad : (coreS (getCore s c) sa + off).toNat % n ≠ 0) : loadOp s i c sa off n f = .next (kernelError s c 2) := by
  rw [loadOp, issue_ready _ _ _ _ hready]
  dsimp only
  rw [lsAccess, if_pos hbad]

theorem loadOp_range {sa : BitVec 6} {off : W64} {n : Nat} (f : Core → List Byte → Core)
    (halign : (coreS (getCore s c) sa + off).toNat % n = 0) (hbad : localSize < (coreS (getCore s c) sa + off).toNat + n) :
    loadOp s i c sa off n f = .next (kernelError s c 3) := by
  rw [loadOp, issue_ready _ _ _ _ hready]
  dsimp only
  rw [lsAccess, if_neg (not_not_intro halign), if_pos hbad]

/-- What a store that does not end as `storeOp_ready` says answers. -/
theorem storeOp_error {sa : BitVec 6} {off : W64} {n a : Nat} (f : Core → Nat → Core) (ha : (coreS (getCore s c) sa + off).toNat = a) :
    (a % n ≠ 0 → storeOp s i c sa off n f = .next (kernelError s c 2)) ∧
    (a % n = 0 → localSize < a + n → storeOp s i c sa off n f = .next (kernelError s c 3)) ∧
    (a % n = 0 → a + n ≤ localSize → codeHit (getCore s c) a n = true → storeOp s i c sa off n f = .next (kernelError s c 10)) := by
  subst ha
  rw [storeOp, issue_ready _ _ _ _ hready]
  dsimp only
  rw [lsAccess]
  refine ⟨fun hbad => by rw [if_pos hbad], fun halign hbad => by rw [if_neg (not_not_intro halign), if_pos hbad], fun halign hin hcode => ?_⟩
  rw [if_neg (not_not_intro halign), if_neg (Nat.not_lt.2 hin), if_pos hcode]

end Access

theorem localStoreErrors : LocalStoreErrors := by
  refine ⟨fun s i c d a n hi hready => ?load, fun s i c a n bytes hi hready => ?store⟩
  case load =>
    unfold loadOf at hi
    split at hi <;> cases hi
    · exact ⟨loadOp_misaligned hready (fun k b => putS k _ (word64 (ofLe b))), loadOp_range hready (fun k b => putS k _ (word64 (ofLe b)))⟩
    · exact ⟨loadOp_misaligned hready (fun k b => putS k _ (word64 (ofLe b))), loadOp_range hready (fun k b => putS k _ (word64 (ofLe b)))⟩
  case store =>
    unfold storeOf at hi
    split at hi <;> cases hi
    case h_1 v sa imm => exact storeOp_error hready (fun k a => localPut s c k a (leBytes 8 (coreS k v).toNat)) rfl
    case h_2 v sa imm => exact storeOp_error hready (fun k a => localPut s c k a (leBytes 4 (coreS k v).toNat)) rfl
    case h_3 v sa imm pr =>
      exact storeOp_error hready (off := vmOff imm) (fun k a => vstStored s c pr a (viewElems 8 (coreV k v)).zipIdx k) (by rw [vmOff_eq])

/-- Settles O9: a kernel error counts and notes itself, ends the firing with markers (`firingClosed_markFiring`) and resets the registers; an access
out of place, an illegal word and a firing that is too long are one. -/
theorem kernelErrorsResetTheRegisters : Obligations.KernelErrorsResetTheRegisters := ⟨localStoreErrors, kernelError_spec, illegalAndWatchdog⟩

end Sys2Proof.Machine

/-! PROOFS. MLD (R39, R247): the four words of a descriptor and its checks; O8 from them. -/

namespace Sys2Proof.Machine

open Sys2Proof.Said

/-- A little-endian field of eight bytes that are given place by place. -/
theorem u64_map_range (g : Nat → Byte) (n q : Nat) (h : q + 8 ≤ n) : u64 ((List.range n).map g) q = ofLe ((List.range 8).map (fun i => g (q + i))) := by
  rw [u64, fieldN, bslice, take_drop_map_range g n q 8 h]

theorem word64_ofLe_toNat (bs : List Byte) (h : bs.length = 8) : (word64 (ofLe bs)).toNat = ofLe bs := by
  have hlt := ofLe_lt bs
  rw [h] at hlt
  rw [word64, BitVec.toNat_ofNat, Nat.mod_eq_of_lt (by simpa using hlt)]

/-- The checks of R39 and R247, as bounds on the modulus. -/
theorem modulusFits_iff (w : Bool) (m mprime : Nat) : modulusFits w m mprime = true ↔
    m % 2 = 1 ∧ 2 ^ 27 ≤ m ∧ m < (if w then 2 ^ 31 else 2 ^ 61) ∧ m * mprime % (if w then 2 ^ 32 else 2 ^ 64) = (if w then 2 ^ 32 else 2 ^ 64) - 1 := by
  by_cases hm : m = 0
  · subst hm
    simp [modulusFits]
  have hlow : 28 ≤ Nat.log2 m + 1 ↔ 2 ^ 27 ≤ m := by rw [← Nat.le_log2 hm]; omega
  have hhigh : Nat.log2 m + 1 ≤ 61 ↔ m < 2 ^ 61 := by rw [← Nat.log2_lt hm]; omega
  simp only [modulusFits, Bool.and_eq_true, beq_iff_eq, decide_eq_true_eq, Bool.or_eq_true, hlow, hhigh]
  cases w
  · simp only [Bool.not_false, Bool.false_eq_true, if_false, true_or, and_true, and_assoc]
  · simp only [Bool.not_true, Bool.false_eq_true, if_true, false_or]
    constructor
    · rintro ⟨⟨⟨⟨hodd, hge⟩, -⟩, hinv⟩, hlt⟩
      exact ⟨hodd, hge, hlt, hinv⟩
    · rintro ⟨hodd, hge, hlt, hinv⟩
      exact ⟨⟨⟨⟨hodd, hge⟩, by omega⟩, hinv⟩, hlt⟩

/-- Word `j` of the descriptor at `a`, as core `c` reads it. -/
def descriptorWord (s : State) (c : CoreId) (a j : Nat) : W64 := word64 (ofLe ((List.range 8).map (fun i => lsByte s c (a + 8 * j + i))))

theorem u64_localGet (s : State) (c : CoreId) (a j : Nat) (hj : j < 4) (hwf : Memory.wf (getCore s c).ls) :
    u64 (localGet s c (getCore s c) a 32) (8 * j) = (descriptorWord s c a j).toNat := by
  rw [descriptorWord, word64_ofLe_toNat _ (by simp), localGet_eq _ _ _ _ hwf, u64_map_range _ _ _ (by omega)]
  simp only [Nat.add_assoc]

/-- An aligned MLD inside the local store, with no DMA to wait for, loads or refuses its descriptor. -/
theorem execMld_ready {s : State} {c : CoreId} {md : BitVec 3} {w : Bool} {sa : BitVec 6} {imm : BitVec 14}
    (hready : kernelReady s c (.mld c md w sa imm) = true) {a : Nat} (ha : (coreS (getCore s c) sa + imm.signExtend 64).toNat = a)
    (halign : a % 32 = 0) (hin : a + 32 ≤ localSize) (hdma : dmaWritesLs (getCore s c) a 32 = false) (hwf : Memory.wf (getCore s c).ls) :
    exec (.mld c md w sa imm) s = .next (if modulusFits w (descriptorWord s c a 0).toNat (descriptorWord s c a 1).toNat then
      retire (modCore s c (fun k => { k with m := vmod k.m (predIx md) (fun _ =>
        { m := descriptorWord s c a 0, mprime := descriptorWord s c a 1, mu := descriptorWord s c a 2, r2 := descriptorWord s c a 3,
          valid := true, w32 := w }) })) c 1
      else kernelError (modCore s c (fun k => { k with m := vmod k.m (predIx md) (fun r => { r with valid := false }) })) c 6) := by
  have hword : ∀ j, j < 4 → word64 (descriptorWord s c a j).toNat = descriptorWord s c a j := fun j _ => BitVec.eq_of_toNat_eq (by simp [word64])
  have hrun := (show exec (.mld c md w sa imm) s = execMld c md w sa imm s from rfl).trans (issue_ready s c _ _ hready)
  rw [ha] at hrun
  dsimp only at hrun
  rw [lsAccess, if_neg (not_not_intro halign), if_neg (Nat.not_lt.2 hin), if_neg (Bool.eq_false_iff.1 hdma),
    show u64 (localGet s c (getCore s c) a 32) 0 = _ from u64_localGet s c a 0 (by decide) hwf,
    show u64 (localGet s c (getCore s c) a 32) 8 = _ from u64_localGet s c a 1 (by decide) hwf,
    show u64 (localGet s c (getCore s c) a 32) 16 = _ from u64_localGet s c a 2 (by decide) hwf,
    show u64 (localGet s c (getCore s c) a 32) 24 = _ from u64_localGet s c a 3 (by decide) hwf] at hrun
  simp only [hword 0 (by decide), hword 1 (by decide), hword 2 (by decide), hword 3 (by decide)] at hrun
  exact hrun

/-- Settles O8: MLD reads the four words of its descriptor (`u64_localGet`) and its checks are the bounds stated (`modulusFits_iff`); a refusal is a
kernel error, which leaves no modulus register VALID. -/
theorem modulusLoadChecksItsDescriptor : Obligations.ModulusLoadChecksItsDescriptor := by
  intro s c md w sa imm ⟨hready, h4, hl⟩ a word halign hin hdma hwf r ok
  have hrun := execMld_ready hready rfl halign hin hdma hwf
  refine ⟨fun hok => ?loads, fun hbad => ?refuses⟩
  case loads =>
    have hfits : modulusFits w (descriptorWord s c a 0).toNat (descriptorWord s c a 1).toNat = true := (modulusFits_iff w _ _).2 hok
    rw [if_pos hfits] at hrun
    exact ⟨_, hrun, ended_retire s c 1 _ _ h4 hl rfl ⟨rfl, rfl, rfl, rfl⟩⟩
  case refuses =>
    have hunfit : ¬ modulusFits w (descriptorWord s c a 0).toNat (descriptorWord s c a 1).toNat = true :=
      fun hfits => hbad ((modulusFits_iff w _ _).1 hfits)
    rw [if_neg hunfit] at hrun
    obtain ⟨⟨x, hcore⟩, -⟩ := kernelError_leaves
      (modCore s c (fun k => { k with m := vmod k.m (predIx md) (fun r => { r with valid := false }) })) c 6
    rw [getCore_modCore] at hcore
    refine ⟨_, hrun, ?_, ?_, ?_⟩ <;> rw [hcore]
    · simp [resetRegs]
    · rfl
    · rfl

end Sys2Proof.Machine

/-! PROOFS. Firings of the bay cores (R255, R256, R428): FIRE, TSLOT, TPOIS, TEND and BRK, the claim of tokens and slots, and the firing's end; O10
from them. -/

namespace Sys2Proof.Machine

open Sys2Proof.Said

/-! ## FIRE, TEND, TSLOT, TPOIS and BRK -/

theorem firingInstructions : FiringInstructions := by
  refine ⟨fun s c masks b hready hbind => ?fire, fun s c hready => ?tend, fun s c d port f ⟨hready, h4, hl⟩ hf => ?tslot,
    fun s c ⟨hready, h4, hl⟩ => ?tpois⟩
  case fire =>
    have hrun := (show exec (.fire c masks) s = execFire c masks s from rfl).trans (issue_ready s c _ _ hready)
    simp only [hbind] at hrun
    intro i o fits
    refine ⟨fun hfits => ?_, fun hbad => ?_⟩
    · obtain ⟨hnone, hmasks, hin, hout⟩ := hfits
      rw [if_neg (by rintro (hopen | hzero | hi | ho); exacts [by simp [hnone] at hopen, hmasks hzero, hi hin, ho hout])] at hrun
      exact hrun
    · rw [if_pos (by
        by_contra hall
        simp only [not_or, not_not] at hall
        obtain ⟨hnone, hmasks, hin, hout⟩ := hall
        exact hbad ⟨by simpa using hnone, hmasks, hin, hout⟩)] at hrun
      exact hrun
  case tend =>
    have hrun := (show exec (.tend c) s = execTend c s from rfl).trans (issue_ready s c _ _ hready)
    refine ⟨fun hopen => ?_, fun hnone => ?_⟩
    · rw [if_neg (by simpa using Option.isSome_iff_ne_none.1 hopen)] at hrun
      exact hrun
    · rw [if_pos (by simp [hnone])] at hrun
      exact hrun
  case tslot =>
    have hrun := (show exec (.tslot c d port) s = execTslot c d port s from rfl).trans (issue_ready s c _ _ hready)
    simp only [hf, Option.bind_some] at hrun
    refine ⟨fun h hfind => ?_, fun hnone => ?_⟩
    · simp only [hfind] at hrun
      exact ⟨_, hrun, ended_retire s c 1 _ _ h4 hl rfl (putS_keepsRun _ _ _)⟩
    · rw [List.find?_eq_none.2 (by simpa using hnone)] at hrun
      exact hrun
  case tpois =>
    have hrun := (show exec (.tpois c) s = execTpois c s from rfl).trans (issue_ready s c _ _ hready)
    exact ⟨_, hrun, ended_retire s c 1 _ _ h4 hl rfl ⟨rfl, rfl, rfl, Option.isSome_map⟩⟩

/-- A change of the core that comes after the instruction has ended is part of what the instruction did. -/
theorem ended_halted {s t : State} {c : CoreId} {n pc : Nat} {f : Core → Core} (h : Ended s c n f pc t) :
    Ended s c n (fun k => { f k with halted := true }) pc (modCore t c (fun k => { k with halted := true })) := by
  obtain ⟨m, hle, rfl⟩ := h
  exact ⟨m, hle, modCore_modCore _ _ _ _⟩

theorem breakpoint : Breakpoint := by
  intro s c ⟨hready, h4, hl⟩
  have hrun := (show exec (.brk c) s = execBrk c s from rfl).trans (issue_ready s c _ _ hready)
  refine ⟨fun hopen => ?_, fun hclosed => ?_⟩
  · rw [if_pos hopen] at hrun
    have hend : Ended s c 1 id ((getCore s c).pc + 4) (retire s c 1) := ended_retireTo_id s c 1 _ (by omega) hl
    exact ⟨_, hrun, ended_halted hend⟩
  · rw [if_neg (Bool.eq_false_iff.1 hclosed)] at hrun
    exact hrun

/-! ## Claiming input tokens -/

/-- Entries of the daybook alone. -/
theorem portsMoved_logged (but : BayId → Nat → Prop) (c : CoreId) (s : State) (l : List (PartId × Entry)) :
    PortsMoved but c s { s with dbkIn := s.dbkIn ++ l } :=
  ⟨⟨_, rfl⟩, fun _ => rfl, fun _ _ _ => rfl, fun _ => ⟨fun _ => rfl, fun _ _ => rfl, fun _ _ => rfl⟩, l, rfl⟩

/-- Entries on an input stream change the daybook and the port's note of them. -/
theorem logCauses_eq (s : State) (r : StationRef) (p : PortId) (t : Tile) (causes : List Nat) :
    ∃ (l : List (PartId × Entry)) (v : InPort → List Nat), logCauses s r p t causes = modIn { s with dbkIn := s.dbkIn ++ l } r p (fun x => { x with logged := v x }) := by
  unfold logCauses
  dsimp only
  generalize hlogged : List.foldl _ s _ = a
  obtain ⟨l, rfl⟩ : ∃ l, a = { s with dbkIn := s.dbkIn ++ l } := by
    rw [← hlogged]
    refine foldl_keeps _ (fun a : State => ∃ l, a = { s with dbkIn := s.dbkIn ++ l }) ?_ _ s ⟨[], by rw [List.append_nil]⟩
    rintro _ cause ⟨l, rfl⟩
    exact ⟨_, by rw [logStream, logEv]; dsimp only; rw [List.append_assoc]⟩
  exact ⟨l, _, rfl⟩

theorem getIn_modIn_held (s : State) (r : StationRef) (p q : PortId) (f : InPort → InPort) (held : List Token) (hf : ∀ x, (f x).held = held) :
    (getIn (modIn s r p f) r q).held = if q = p then held else (getIn s r q).held := by
  rw [getIn_modIn]
  split
  · exact hf _
  · rfl

/-- The front token of an input port is claimed. -/
theorem claimIn_front (but : BayId → Nat → Prop) (s : State) (c : CoreId) (p : PortId) (tok : Token) (rest : List Token)
    (hheld : (getIn s (.core c) p).held = tok :: rest) :
    ∃ h made t, claimIn s c p = some (h, made, t) ∧ h.port = p.1 ∧ PortsMoved but c s t ∧ SameCredits s t ∧
      ∀ q, (getIn t (.core c) q).held = if q = p then rest else (getIn s (.core c) q).held := by
  unfold claimIn
  dsimp only
  rw [hheld]
  dsimp only [List.head?_cons]
  generalize portCauses s (.core c) p tok.tile ++ _ = made
  obtain ⟨l, v, hlogged⟩ := logCauses_eq s (.core c) p tok.tile made
  have hfront := (logCauses_port s (.core c) p tok.tile made).1.trans hheld
  rw [takeTok_some _ _ _ _ _ hfront, hlogged]
  refine ⟨_, _, _, rfl, rfl, ?moved, ?credits, fun q => ?held⟩
  case moved =>
    exact (portsMoved_logged but c s l).trans ((portsMoved_modIn _ _ _ _ fun _ => by rfl).trans (portsMoved_modIn _ _ _ _ fun _ => by rfl))
  case credits =>
    have hentries : SameCredits s { s with dbkIn := s.dbkIn ++ l } := .of_getSt fun _ => by rfl
    exact hentries.trans ((sameCredits_modIn _ _ _ fun _ => by rfl).trans (sameCredits_modIn _ _ _ fun _ => by rfl))
  case held =>
    rw [getIn_modIn_held _ _ _ _ _ rest fun _ => rfl]
    split
    · rfl
    · next hne =>
      rw [getIn_modIn, if_neg hne]
      rfl

theorem claimIns_spec (but : BayId → Nat → Prop) (c : CoreId) (l : List PortId) (s : State) (hnodup : l.Nodup)
    (hheld : ∀ p ∈ l, (getIn s (.core c) p).held ≠ []) :
    (claimIns c l s).1.map (·.port) = l.map (·.1) ∧ PortsMoved but c s (claimIns c l s).2.2 ∧ SameCredits s (claimIns c l s).2.2 ∧
      ∀ q, (getIn (claimIns c l s).2.2 (.core c) q).held =
        if q ∈ l then (getIn s (.core c) q).held.tail else (getIn s (.core c) q).held := by
  induction l generalizing s with
  | nil => exact ⟨rfl, .refl s, .of_getSt fun _ => rfl, fun q => (if_neg List.not_mem_nil).symm⟩
  | cons p l ih =>
    obtain ⟨tok, rest, hfront⟩ := List.exists_cons_of_ne_nil (hheld p List.mem_cons_self)
    obtain ⟨hp, hnodup⟩ := List.nodup_cons.1 hnodup
    obtain ⟨h, made, t, hclaim, hport, hmoved, hcredits, hrest⟩ := claimIn_front but s c p tok rest hfront
    obtain ⟨hports', hmoved', hcredits', hheld'⟩ := ih t hnodup fun q hq => by
      rw [hrest q, if_neg fun heq : q = p => hp (heq ▸ hq)]
      exact hheld q (List.mem_cons_of_mem _ hq)
    simp only [claimIns, hclaim]
    refine ⟨by rw [List.map_cons, List.map_cons, hports', hport], hmoved.trans hmoved', hcredits.trans hcredits', fun q => ?_⟩
    rw [hheld', hrest]
    by_cases hq : q = p
    · subst hq
      rw [if_neg hp, if_pos rfl, if_pos List.mem_cons_self, hfront, List.tail_cons]
    · simp only [hq, if_false, List.mem_cons, false_or]

/-! ## Claiming output slots -/

theorem PortsMoved.mono {but but' : BayId → Nat → Prop} {c : CoreId} {s t : State} (h : PortsMoved but c s t) (hle : ∀ b a, but b a → but' b a) :
    PortsMoved but' c s t := by
  refine ⟨h.core, h.cons, h.slots, fun b => ?_, h.log⟩
  obtain ⟨hdram, hstore, hlocal⟩ := h.mem b
  exact ⟨hdram, fun a hout => hstore a fun hin => hout (hle b a hin), hlocal⟩

/-- The bytes of the slots that a core claims for output, in its own bay. -/
def inSlots (c : CoreId) (l : List HeldSlot) (b : BayId) (a : Nat) : Prop := b = c.bay ∧ ∃ h ∈ l, h.addr ≤ a ∧ a < h.addr + 65600

/-- A slot that is claimed reads zero, and all other memory as before. -/
theorem portsMoved_storeClear (s : State) (c : CoreId) (h : HeldSlot) :
    PortsMoved (inSlots c [h]) c s (modMem s c.bay (fun m => storeClear m h.addr 65600)) := by
  have hst := fun q => getSt_modMem s c.bay (fun m => storeClear m h.addr 65600) q
  refine ⟨⟨(getCore s c).ctl, getCore_modBay s c.bay _ c fun _ => rfl⟩, fun n => by rw [getOut, hst]; rfl, fun q p k => by rw [getIn, hst]; rfl,
    fun b => ?_, [], (List.append_nil _).symm⟩
  rw [modMem_mem]
  by_cases hb : b = c.bay
  · subst hb
    rw [if_pos rfl, modMem_same]
    refine ⟨fun _ => rfl, fun a hout => ?_, fun _ _ => rfl⟩
    rw [storeClear, memGet_memZero, if_neg fun hin => hout ⟨rfl, h, List.mem_singleton_self h, hin⟩]
  · rw [if_neg hb, modMem_other _ _ _ _ hb]
    exact ⟨fun _ => rfl, fun _ _ => rfl, fun _ _ => rfl⟩

theorem getIn_modIn_other (s : State) (r q : StationRef) (p m : PortId) (f : InPort → InPort) (h : (q, m) ≠ (r, p)) :
    getIn (modIn s r p f) q m = getIn s q m := by
  by_cases hq : q = r
  · subst hq
    rw [getIn_modIn, if_neg fun hm => h (by rw [hm])]
  · exact congrArg (fun x : Station => x.ins[m]) (getSt_modSt_other s r q _ hq)

/-- The slot that is claimed of the pool at port `p` of station `q`, for output port `n`. -/
def claimedSlot (s : State) (n : PortId) (q : StationRef) (p : PortId) : HeldSlot where
  port := 8 + n.1
  addr := slotAddr (getIn s q p) (spendSlot s q p).1
  token := { tile := {}, slot := (spendSlot s q p).1 }

/-- The state with that slot claimed: its credit is spent and its lines read zero. -/
def slotClaimed (s : State) (c : CoreId) (n : PortId) (q : StationRef) (p : PortId) : State :=
  modMem (spendSlot s q p).2 c.bay (fun m => storeClear m (claimedSlot s n q p).addr 65600)

theorem claimOuts_cons (s : State) (c : CoreId) (n : PortId) (l : List PortId) {q : StationRef} {p : PortId}
    (hcons : (getOut s (.core c) n).cons = some (q, p)) (hcredit : outCredits s (.core c) n ≠ 0) :
    claimOuts c (n :: l) s = (claimedSlot s n q p :: (claimOuts c l (slotClaimed s c n q p)).1, (claimOuts c l (slotClaimed s c n q p)).2) := by
  have havail : (getIn s q p).avail ≠ 0 := by rwa [outCredits, hcons] at hcredit
  simp only [claimOuts, spendCredit_some s (.core c) n (q, p) hcons havail, hcons]
  rfl

theorem portsMoved_slotClaimed (s : State) (c : CoreId) (n : PortId) (q : StationRef) (p : PortId) :
    PortsMoved (inSlots c [claimedSlot s n q p]) c s (slotClaimed s c n q p) := by
  have hfree : PortsMoved (inSlots c [claimedSlot s n q p]) c s { s with free := s.free + 1 } :=
    ⟨⟨_, rfl⟩, fun _ => rfl, fun _ _ _ => rfl, fun _ => ⟨fun _ => rfl, fun _ _ => rfl, fun _ _ => rfl⟩, [], (List.append_nil _).symm⟩
  have hspent : PortsMoved (inSlots c [claimedSlot s n q p]) c s (spendSlot s q p).2 := hfree.trans (portsMoved_modIn _ _ _ _ fun _ => by rfl)
  exact hspent.trans (portsMoved_storeClear _ c _)

/-- Spending a slot leaves what each input port holds, and the credits of all other pools. -/
theorem getIn_slotClaimed (s : State) (c : CoreId) (n : PortId) (q : StationRef) (p : PortId) (r : StationRef) (m : PortId) :
    (getIn (slotClaimed s c n q p) r m).held = (getIn s r m).held ∧
      ((r, m) ≠ (q, p) → (getIn (slotClaimed s c n q p) r m).avail = (getIn s r m).avail) := by
  have hst : getIn (slotClaimed s c n q p) r m = getIn (spendSlot s q p).2 r m := by rw [slotClaimed, getIn, getSt_modMem]; rfl
  rw [hst]
  by_cases hrm : (r, m) = (q, p)
  · cases hrm
    refine ⟨?_, fun hne => absurd rfl hne⟩
    show (getIn (modIn _ _ _ _) _ _).held = _
    rw [getIn_modIn, if_pos rfl]
    rfl
  · have hother : getIn (spendSlot s q p).2 r m = getIn s r m := getIn_modIn_other { s with free := s.free + 1 } q r p m _ hrm
    rw [hother]
    exact ⟨rfl, fun _ => rfl⟩

theorem outCredits_slotClaimed (s : State) (c : CoreId) (n m : PortId) (q : StationRef) (p : PortId)
    (hother : (getOut s (.core c) m).cons ≠ some (q, p)) : outCredits (slotClaimed s c n q p) (.core c) m = outCredits s (.core c) m := by
  rw [outCredits, outCredits, (portsMoved_slotClaimed s c n q p).cons]
  split
  · next q' p' hcons => exact (getIn_slotClaimed s c n q p q' p').2 fun heq => hother (hcons.trans (congrArg some heq))
  · rfl

theorem store_slotClaimed (s : State) (c : CoreId) (n : PortId) (q : StationRef) (p : PortId) (a : Nat) (hlo : (claimedSlot s n q p).addr ≤ a)
    (hhi : a < (claimedSlot s n q p).addr + 65600) : memGet (slotClaimed s c n q p).bays[c.bay].mem.store a = 0 := by
  rw [slotClaimed, modMem_same, storeClear, memGet_memZero, if_pos ⟨hlo, hhi⟩]

theorem claimOuts_spec (c : CoreId) (l : List PortId) (s : State) (hcredit : ∀ n ∈ l, outCredits s (.core c) n ≠ 0)
    (hnodup : (l.map (fun n => (getOut s (.core c) n).cons)).Nodup) :
    (claimOuts c l s).1.map (·.port) = l.map (fun n => 8 + n.1) ∧ PortsMoved (inSlots c (claimOuts c l s).1) c s (claimOuts c l s).2 ∧
      (∀ q, (getIn (claimOuts c l s).2 (.core c) q).held = (getIn s (.core c) q).held) ∧
      ∀ h ∈ (claimOuts c l s).1, ∀ a, h.addr ≤ a → a < h.addr + 65600 → memGet (claimOuts c l s).2.bays[c.bay].mem.store a = 0 := by
  induction l generalizing s with
  | nil => exact ⟨rfl, .refl s, fun _ => rfl, fun h hh => absurd hh List.not_mem_nil⟩
  | cons n l ih =>
    have hcredit' := hcredit n List.mem_cons_self
    obtain ⟨⟨q, p⟩, hcons⟩ : ∃ qp, (getOut s (.core c) n).cons = some qp := by
      refine Option.ne_none_iff_exists'.1 fun hnone => hcredit' ?_
      rw [outCredits, hnone]
    obtain ⟨hfirst, hnodup⟩ := List.nodup_cons.1 hnodup
    have hmoved := portsMoved_slotClaimed s c n q p
    obtain ⟨hports', hmoved', hheld', hzero'⟩ := ih (slotClaimed s c n q p) (fun m hm => by
        rw [outCredits_slotClaimed s c n m q p fun heq => hfirst (List.mem_map.2 ⟨m, hm, heq.trans hcons.symm⟩)]
        exact hcredit m (List.mem_cons_of_mem _ hm)) (by simpa only [hmoved.cons] using hnodup)
    have hzero := store_slotClaimed s c n q p
    have hheld := fun m => (getIn_slotClaimed s c n q p (.core c) m).1
    have hport : (claimedSlot s n q p).port = 8 + n.1 := rfl
    rw [claimOuts_cons s c n l hcons hcredit']
    generalize slotClaimed s c n q p = t at *
    generalize claimedSlot s n q p = h at *
    have hhead : ∀ b a, inSlots c [h] b a → inSlots c (h :: (claimOuts c l t).1) b a := fun b a ⟨hb, g, hg, hin⟩ =>
      ⟨hb, g, List.mem_singleton.1 hg ▸ List.mem_cons_self, hin⟩
    have htail : ∀ b a, inSlots c (claimOuts c l t).1 b a → inSlots c (h :: (claimOuts c l t).1) b a := fun b a ⟨hb, g, hg, hin⟩ =>
      ⟨hb, g, List.mem_cons_of_mem _ hg, hin⟩
    refine ⟨by rw [List.map_cons, List.map_cons, hports', hport], (hmoved.mono hhead).trans (hmoved'.mono htail),
      fun q => (hheld' q).trans (hheld q), fun g hg a hlo hhi => ?_⟩
    by_cases hlater : ∃ g ∈ (claimOuts c l t).1, g.addr ≤ a ∧ a < g.addr + 65600
    · obtain ⟨g, hg, hlo, hhi⟩ := hlater
      exact hzero' g hg a hlo hhi
    · obtain rfl | hin := List.mem_cons.1 hg
      · obtain ⟨-, hstore, -⟩ := hmoved'.mem c.bay
        exact (hstore a fun hin => hlater hin.2).trans (hzero a hlo hhi)
      · exact absurd ⟨g, hin, hlo, hhi⟩ hlater

/-! ## FIRE_CLAIM -/

theorem SameCredits.outCredits {s t : State} (h : SameCredits s t) (r : StationRef) (n : PortId) : outCredits t r n = outCredits s r n := by
  rw [Machine.outCredits, Machine.outCredits, h.cons]
  split
  · exact h.avail _ _
  · rfl

theorem allPorts_nodup : allPorts.Nodup := by decide

theorem maskPorts8_nodup (m : Nat) : (maskPorts8 m).Nodup := allPorts_nodup.filter _

/-- A core goes on at the next word with what the claim of its ports gave it. -/
def firingBegun (s : State) (c : CoreId) (slots : List HeldSlot) (made : List Nat) (pc : Nat) : State :=
  retireTo (modSt (modCore s c (fun k => { k with run := .running, cycles := 0, firing := some { slots := slots, made := made } })) (.core c)
    (fun x => { x with stall := false, st := if x.st == .draining then .draining else .busy })) c 0 pc

/-- What going on at another word leaves of the core, and of memory. -/
theorem retireTo_leaves (s : State) (c : CoreId) (n pc : Nat) (h4 : pc % 4 = 0) (hl : pc < localSize) :
    (∃ cycles busy, getCore (retireTo s c n pc) c =
      { getCore s c with pc := pc, cycles := cycles, busy := busy, waitDma := false, stepping := false }) ∧
    ∀ but, sameMemoryBut but s (retireTo s c n pc) := by
  obtain ⟨m, -, heq⟩ := ended_retireTo_id s c n pc h4 hl
  rw [heq]
  exact ⟨⟨_, _, getCore_modCore _ _ _⟩, fun but => sameMemoryBut_modCore but { s with free := s.free + 1 } c _ rfl⟩

theorem getCore_modSt_core (s : State) (c : CoreId) (f : Station → Station) :
    getCore (modSt s (.core c) f) c = { getCore s c with ctl := f (getCore s c).ctl } := getCore_modCore s c _

/-- What the begin of a firing leaves. -/
theorem firingBegun_leaves (s : State) (c : CoreId) (slots : List HeldSlot) (made : List Nat) (pc : Nat) (h4 : pc % 4 = 0) (hl : pc < localSize) :
    let t := firingBegun s c slots made pc
    (getCore t c).run = .running ∧ (getCore t c).pc = pc ∧ (getCore t c).firing = some { slots := slots, made := made } ∧
      (∀ p, (getIn t (.core c) p).held = (getIn s (.core c) p).held) ∧ ∀ but, sameMemoryBut but s t := by
  unfold firingBegun
  obtain ⟨⟨cycles, busy, hcore⟩, hmem⟩ := retireTo_leaves (modSt (modCore s c
    (fun k => { k with run := .running, cycles := 0, firing := some { slots := slots, made := made } })) (.core c)
    (fun x => { x with stall := false, st := if x.st == .draining then .draining else .busy })) c 0 pc h4 hl
  rw [getCore_modSt_core, getCore_modCore] at hcore
  dsimp only
  refine ⟨by rw [hcore], by rw [hcore], by rw [hcore], fun p => ?_, fun but => sameMemoryBut_trans ?_ (hmem but)⟩
  · show ((getCore _ c).ctl.ins[p]).held = _
    rw [hcore]
    rfl
  · exact sameMemoryBut_trans (sameMemoryBut_modCore but s c _ rfl) (sameMemoryBut_modCore but _ c _ rfl)

theorem fireClaims (s : State) (c : CoreId) (i o : Nat) (hrun : (getCore s c).run = .waitFire i o) (hmay : mayFire s (.core c) = true)
    (hgoing : (getCore s c).halted = false) (hmap : s.bays[c.bay].remapping = none)
    (hheld : ∀ p ∈ maskPorts8 i, (getIn s (.core c) p).held ≠ []) (hcredit : ∀ n ∈ maskPorts8 o, outCredits s (.core c) n ≠ 0) :
    exec (.fireClaim c) s = .next (firingBegun (claimOuts c (maskPorts8 o) (claimIns c (maskPorts8 i) s).2.2).2 c
      ((claimIns c (maskPorts8 i) s).1 ++ (claimOuts c (maskPorts8 o) (claimIns c (maskPorts8 i) s).2.2).1)
      (claimIns c (maskPorts8 i) s).2.1 ((getCore s c).pc + 4)) := by
  have hins : (maskPorts8 i).all (fun p => !(getIn s (.core c) p).held.isEmpty) = true :=
    List.all_eq_true.2 fun p hp => by simpa using hheld p hp
  have houts : (maskPorts8 o).all (fun n => outCredits s (.core c) n != 0) = true :=
    List.all_eq_true.2 fun n hn => by simpa using hcredit n hn
  show execFireClaim c s = _
  unfold execFireClaim
  simp only [hrun]
  rw [if_neg (by rw [hmay, hgoing, hmap, hins, houts]; decide)]
  rfl

/-- FIRE_CLAIM, as the statement says it. -/
theorem fireClaim_begins (s : State) (c : CoreId) (i o : Nat) (hrun : (getCore s c).run = .waitFire i o) (hmay : mayFire s (.core c) = true)
    (hgoing : (getCore s c).halted = false) (hmap : s.bays[c.bay].remapping = none) (h4 : (getCore s c).pc % 4 = 0)
    (hl : (getCore s c).pc + 4 < localSize) (hheld : ∀ p ∈ maskPorts8 i, (getIn s (.core c) p).held ≠ [])
    (hcredit : ∀ n ∈ maskPorts8 o, outCredits s (.core c) n ≠ 0) (hnodup : ((maskPorts8 o).map (fun n => (getOut s (.core c) n).cons)).Nodup) :
    ∃ t f, exec (.fireClaim c) s = .next t ∧ (getCore t c).run = .running ∧ (getCore t c).pc = (getCore s c).pc + 4 ∧
      (getCore t c).firing = some f ∧ f.slots.map (·.port) = (maskPorts8 i).map (·.1) ++ (maskPorts8 o).map (fun n => 8 + n.1) ∧
      (∀ p ∈ maskPorts8 i, (getIn t (.core c) p).held = (getIn s (.core c) p).held.tail) ∧
      sameMemoryBut (fun b a => b = c.bay ∧ ∃ h ∈ f.slots, 8 ≤ h.port ∧ h.addr ≤ a ∧ a < h.addr + 65600) s t ∧
      ∀ h ∈ f.slots, 8 ≤ h.port → ∀ a, h.addr ≤ a → a < h.addr + 65600 → memGet t.bays[c.bay].mem.store a = 0 := by
  obtain ⟨hinPorts, hinMoved, hinCredits, hinHeld⟩ := claimIns_spec (fun _ _ => False) c (maskPorts8 i) s (maskPorts8_nodup i) hheld
  obtain ⟨houtPorts, houtMoved, houtHeld, houtZero⟩ := claimOuts_spec c (maskPorts8 o) (claimIns c (maskPorts8 i) s).2.2
    (fun n hn => by rw [hinCredits.outCredits]; exact hcredit n hn) (by simpa only [hinMoved.cons] using hnodup)
  have hexec := fireClaims s c i o hrun hmay hgoing hmap hheld hcredit
  generalize claimIns c (maskPorts8 i) s = ins at *
  generalize claimOuts c (maskPorts8 o) ins.2.2 = outs at *
  have hinSmall : ∀ h ∈ ins.1, h.port < 8 := fun h hh => by
    obtain ⟨p, -, hp⟩ : ∃ p ∈ maskPorts8 i, p.1 = h.port := List.mem_map.1 (hinPorts ▸ List.mem_map_of_mem (f := HeldSlot.port) hh)
    exact hp ▸ p.isLt
  have houtBig : ∀ h ∈ outs.1, 8 ≤ h.port := fun h hh => by
    obtain ⟨n, -, hn⟩ : ∃ n ∈ maskPorts8 o, 8 + n.1 = h.port := List.mem_map.1 (houtPorts ▸ List.mem_map_of_mem (f := HeldSlot.port) hh)
    exact hn ▸ Nat.le_add_right 8 n.1
  obtain ⟨hgo, hpc, hfiring, hkept, hmem⟩ := firingBegun_leaves outs.2 c (ins.1 ++ outs.1) ins.2.1 ((getCore s c).pc + 4) (by omega) hl
  refine ⟨_, _, hexec, hgo, hpc, hfiring, by rw [List.map_append, hinPorts, houtPorts], fun p hp => ?held, ?memory, fun h hh h8 a hlo hhi => ?zero⟩
  case held => rw [hkept, houtHeld, hinHeld, if_pos hp]
  case memory =>
    have hclaimed := (hinMoved.mono (but' := inSlots c outs.1) fun _ _ h => h.elim).trans houtMoved
    refine sameMemoryBut_trans (hclaimed.mono fun b a ⟨hb, h, hh, hin⟩ => ?_).mem (hmem _)
    exact ⟨hb, h, List.mem_append_right _ hh, houtBig h hh, hin⟩
  case zero =>
    obtain hin | hout := List.mem_append.1 hh
    · have := hinSmall h hin
      omega
    · obtain ⟨-, hstore, -⟩ := hmem (fun _ _ => False) c.bay
      rw [hstore a id]
      exact houtZero h hout a hlo hhi

/-! ## TEND_COMPLETE -/

/-- The causes that a firing's end finds are noted at the port of a held output slot. -/
def endNoted (c : CoreId) (f : CoreFiring) (hd : TileHdr) (s : State) (h : HeldSlot) : State :=
  match finOpt 8 (h.port - 8) with
  | some n => ((firingCauses f).filter (fun x => !f.made.contains x)).foldl (fun s x => logOutCause s (.core c) n { hdr := hd } x
      (if x = codeUncorrectableMemory then f.ue.getD 0 / 64 else 0)) s
  | none => s

theorem finishSlot_eq (s : State) (c : CoreId) (f : CoreFiring) (h : HeldSlot) :
    ∃ hd t, finishSlot s c f h = passHeld (endNoted c f hd s h) c h t := ⟨_, _, rfl⟩

theorem portsMoved_finishSlot {s t : State} {c : CoreId} {f : CoreFiring} (hf : (getCore s c).firing = some f)
    (hst : PortsMoved (heldOut s c 65600) c s t) (h : HeldSlot) (hh : h ∈ firingOuts f) :
    PortsMoved (heldOut s c 65600) c t (finishSlot t c f h) := by
  obtain ⟨hd, tl, heq⟩ := finishSlot_eq t c f h
  have hnoted : PortsMoved (heldOut s c 65600) c t (endNoted c f hd t h) := by
    unfold endNoted
    split
    · exact PortsMoved.foldl _ _ (fun u _ x _ => portsMoved_logOutCause u _ _ _ _ _) (.refl t)
    · exact .refl t
  rw [heq]
  exact hnoted.trans (portsMoved_passHeld_held hf (hst.trans hnoted) h hh tl (slotBytes_le tl))

/-- The firing's outputs leave, and its inputs' slots are returned. -/
def outputsPassed (s : State) (c : CoreId) (f : CoreFiring) : State :=
  returnIns ((firingOuts f).foldl (fun s h => finishSlot s c f h) s) c f

theorem portsMoved_outputsPassed (s : State) (c : CoreId) (f : CoreFiring) (hf : (getCore s c).firing = some f) :
    PortsMoved (heldOut s c 65600) c s (outputsPassed s c f) :=
  PortsMoved.trans (PortsMoved.foldl _ _ (fun _ ht h hh => portsMoved_finishSlot hf ht h hh) (.refl s)) (portsMoved_returnIns _ f)

/-- Cycles that are spent leave the core but for its counts, and memory. -/
theorem spendCycles_leaves (s : State) (c : CoreId) (n : Nat) :
    (∃ cycles busy, getCore (spendCycles s c n) c = { getCore s c with cycles := cycles, busy := busy, waitDma := false, stepping := false }) ∧
    ∀ but, sameMemoryBut but s (spendCycles s c n) :=
  ⟨⟨_, _, getCore_modCore _ c _⟩, fun but => sameMemoryBut_modCore but { s with free := s.free + 1 } c _ rfl⟩

/-- The core after its firing has ended, before it goes on. -/
def firingCounted (k : Core) : Core := { k with firing := none, run := .running, firings := k.firings + 1, imgFirings := k.imgFirings + 1 }

/-- TEND_COMPLETE, as the statement says it. -/
theorem tendComplete_ends (s : State) (c : CoreId) (f : CoreFiring) (hrun : (getCore s c).run = .waitTend) (hf : (getCore s c).firing = some f)
    (hdma : dmaTouchesSlot (getCore s c) = false) (hstop : stopping (getCore s c).ctl = false) (h4 : (getCore s c).pc % 4 = 0)
    (hl : (getCore s c).pc + 4 < localSize) :
    ∃ t, exec (.tendComplete c) s = .next t ∧ (getCore t c).run = .running ∧ (getCore t c).firing = none ∧
      (getCore t c).firings = (getCore s c).firings + 1 ∧ (getCore t c).imgFirings = (getCore s c).imgFirings + 1 ∧
      (getCore t c).pc = (getCore s c).pc + 4 ∧ sameMemoryBut (heldOut s c 65600) s t := by
  have hexec : exec (.tendComplete c) s = .next (retireTo (modSt (modCore (spendCycles (outputsPassed s c f) c 32) c firingCounted) (.core c)
      (fun x => { x with st := afterFiring x })) c 0 ((getCore s c).pc + 4)) := by
    show execTendComplete c s = _
    unfold execTendComplete
    simp only [hf]
    rw [if_neg (by rw [hrun, hdma, hstop]; simp)]
    rfl
  obtain ⟨⟨x, hcore⟩, -, -, hmem, -⟩ := portsMoved_outputsPassed s c f hf
  generalize outputsPassed s c f = s1 at *
  obtain ⟨⟨cycles, busy, hcore'⟩, hmem'⟩ := retireTo_leaves (modSt (modCore (spendCycles s1 c 32) c firingCounted) (.core c)
      (fun x => { x with st := afterFiring x })) c 0 ((getCore s c).pc + 4) (by omega) hl
  obtain ⟨⟨cycles', busy', hspent⟩, hmem''⟩ := spendCycles_leaves s1 c 32
  rw [getCore_modSt_core, getCore_modCore, hspent, hcore] at hcore'
  refine ⟨_, hexec, by rw [hcore']; rfl, by rw [hcore']; rfl, by rw [hcore']; rfl, by rw [hcore']; rfl, by rw [hcore'], ?_⟩
  exact sameMemoryBut_trans hmem (sameMemoryBut_trans (hmem'' _) (sameMemoryBut_trans
    (sameMemoryBut_trans (sameMemoryBut_modCore _ _ c _ rfl) (sameMemoryBut_modCore _ _ c _ rfl)) (hmem' _)))

/-- Settles O10: FIRE_CLAIM takes the tokens and the slots port by port (`claimIns_spec`, `claimOuts_spec`), TEND_COMPLETE writes the held output slots
alone (`portsMoved_outputsPassed`). -/
theorem firingsClaimAndEndSlots : Obligations.FiringsClaimAndEndSlots :=
  ⟨firingInstructions, ⟨fireClaim_begins, tendComplete_ends⟩, breakpoint⟩

end Sys2Proof.Machine

/-! PROOFS. DMA of the bay cores (R251, R252, R241): an instruction that queues an operation or waits for some, and the completion of a copy inside the
local store; O11 from them. -/

namespace Sys2Proof.Machine

open Sys2Proof.Said

/-! ## The instructions -/

theorem lenField_eq (x : W64) : x.toNat % 2 ^ 21 = (x.extractLsb' 0 21).toNat := by
  rw [BitVec.extractLsb'_toNat, Nat.shiftRight_zero]

theorem ringField_eq (x : W64) : x.toNat / 2 ^ 56 = (x.extractLsb' 56 8).toNat := by
  have hx := x.isLt
  rw [BitVec.extractLsb'_toNat, Nat.shiftRight_eq_div_pow, Nat.mod_eq_of_lt (by omega)]

/-- The operation that a DMA instruction queues. -/
def queuedOp (k : Core) (op : Nat) (dst src len : BitVec 6) : DmaOp where
  op := op
  dst := (coreS k dst).toNat
  src := (coreS k src).toNat
  len := ((coreS k len).extractLsb' 0 21).toNat
  ring := ((coreS k len).extractLsb' 56 8).toNat

/-- A DMA instruction that is issued: an error, a full queue, or one more operation in it. -/
theorem dmaOp_ready {s : State} {i : Instr} {c : CoreId} (hready : kernelReady s c i = true) (op : Nat) (dst src len : BitVec 6) (ch : BitVec 2)
    (hok : dmaError s c (getCore s c) op (coreS (getCore s c) dst) (coreS (getCore s c) src) (coreS (getCore s c) len) = 0) :
    dmaOp s i c op dst src len ch = .next (if 4 ≤ ((getCore s c).dma[(⟨ch.toNat, ch.isLt⟩ : Fin 4)]).length then stallDma s c
      else retire (modCore s c (fun k => { k with dma := vmod k.dma ⟨ch.toNat, ch.isLt⟩ (fun q => q ++ [queuedOp k op dst src len]) })) c 1) := by
  rw [dmaOp, issue_ready _ _ _ _ hready]
  dsimp only
  rw [if_neg (not_not_intro hok)]
  simp only [queuedOp, ← lenField_eq, ← ringField_eq]

/-- What an issued DMA instruction without an error does. -/
theorem dmaOp_queues {s : State} {i : Instr} {c : CoreId} (hissues : Issues s c i) {op : Nat} {dst src len : BitVec 6} {ch : BitVec 2}
    (hexec : exec i s = dmaOp s i c op dst src len ch)
    (hok : dmaError s c (getCore s c) op (coreS (getCore s c) dst) (coreS (getCore s c) src) (coreS (getCore s c) len) = 0) :
    (((getCore s c).dma[(⟨ch.toNat, ch.isLt⟩ : Fin 4)]).length < 4 → ∃ t, exec i s = .next t ∧
      Ended s c 1 (fun k => { k with dma := vmod k.dma ⟨ch.toNat, ch.isLt⟩ (fun q => q ++ [queuedOp (getCore s c) op dst src len]) })
        ((getCore s c).pc + 4) t) ∧
    (4 ≤ ((getCore s c).dma[(⟨ch.toNat, ch.isLt⟩ : Fin 4)]).length → exec i s = .next (stallDma s c)) := by
  obtain ⟨hready, h4, hl⟩ := hissues
  have hrun := hexec.trans (dmaOp_ready hready op dst src len ch hok)
  refine ⟨fun hroom => ?_, fun hfull => ?_⟩
  · rw [if_neg (by omega)] at hrun
    exact ⟨_, hrun, ended_retire s c 1 _ _ h4 hl rfl ⟨rfl, rfl, rfl, rfl⟩⟩
  · rw [if_pos hfull] at hrun
    exact hrun

theorem dmaLive_eq_nil (k : Core) : dmaLive k = [] ↔ ∀ m : Fin 4, k.dma[m] = [] := by
  rw [dmaLive, List.flatten_eq_nil_iff]
  constructor
  · exact fun h m => h _ (Vector.mem_toList_iff.2 (Vector.getElem_mem m.isLt))
  · intro h q hq
    obtain ⟨m, hm, rfl⟩ := Vector.getElem_of_mem (Vector.mem_toList_iff.1 hq)
    exact h ⟨m, hm⟩

/-- An instruction that waits ends where what it waits for is over, and stalls before. -/
theorem wait_ends {s : State} {i : Instr} {c : CoreId} (hissues : Issues s c i) {P : Prop} {done : Bool} (hP : done = true ↔ P)
    (hrun : exec i s = .next (if done then retire s c 1 else stallDma s c)) :
    (P → ∃ t, exec i s = .next t ∧ Ended s c 1 id ((getCore s c).pc + 4) t) ∧ (¬ P → exec i s = .next (stallDma s c)) := by
  obtain ⟨-, h4, hl⟩ := hissues
  refine ⟨fun h => ?_, fun h => ?_⟩
  · rw [if_pos (hP.2 h)] at hrun
    exact ⟨_, hrun, ended_retireTo_id s c 1 _ (by omega) hl⟩
  · rw [if_neg fun hd => h (hP.1 hd)] at hrun
    exact hrun

theorem dmaInstructions : DmaInstructions := by
  intro s c dst src len ch k n stalled
  refine ⟨fun i op hi hissues hok => ?queue, fun hissues => ?wait, fun hissues => ?fence⟩
  case queue =>
    obtain ⟨rfl, rfl⟩ | ⟨rfl, rfl⟩ | ⟨rfl, rfl⟩ := hi
    · exact dmaOp_queues (op := 0) (dst := dst) (src := src) (len := len) (ch := ch) hissues rfl hok
    · exact dmaOp_queues (op := 1) (dst := dst) (src := src) (len := len) (ch := ch) hissues rfl hok
    · exact dmaOp_queues (op := 2) (dst := dst) (src := src) (len := len) (ch := ch) hissues rfl hok
  case wait =>
    have hrun := (show exec (.dwait c dst src len ch) s = execDwait c dst src len ch s from rfl).trans (issue_ready s c _ _ hissues.1)
    exact wait_ends (P := k.dma[n] = []) (done := (k.dma[n]).isEmpty) hissues List.isEmpty_iff hrun
  case fence =>
    have hrun := (show exec (.dfence c dst src len ch) s = execDfence c dst src len ch s from rfl).trans (issue_ready s c _ _ hissues.1)
    have hends := wait_ends (P := ∀ m : Fin 4, k.dma[m] = []) (done := (dmaLive k).isEmpty) hissues (List.isEmpty_iff.trans (dmaLive_eq_nil k)) hrun
    exact ⟨hends.1, fun ⟨m, hm⟩ => hends.2 fun hall => hm (hall m)⟩

/-! ## DMA_COMPLETE -/

/-- The core with the first operation of a channel taken off. -/
def dmaTaken (k : Core) (ch : Fin 4) (rest : List DmaOp) : Core := { k with dma := vmod k.dma ch (fun _ => rest), waitDma := false }

/-- The closed spans of the SRAM space come from a bay's bins, release regions, Mask ports and pipelines. -/
theorem closedSram_congr {s t : State} {b : BayId} (hsch : t.sch = s.sch) (howner : t.bays[b].owner = s.bays[b].owner)
    (hbins : t.bays[b].mem.bins = s.bays[b].mem.bins) (hrelease : t.bays[b].release = s.bays[b].release) (hmsk : t.bays[b].msk = s.bays[b].msk) :
    closedSram t b = closedSram s b := by
  simp only [closedSram, seedPools, pipeSpans, pipeRegions, imagePipes, runningImage, hsch, howner, hbins, hrelease, hmsk]

theorem closedLocal_congr {s t : State} {c : CoreId} (h : closedSram t c.bay = closedSram s c.bay) : closedLocal t c = closedLocal s c := by
  rw [closedLocal, h, closedLocal]

/-- A change of the bay beside its bins, release regions and Mask ports closes the same lines of the local store. -/
theorem closedLocal_modBay (s : State) (c : CoreId) (f : Bay → Bay) (howner : ∀ y, (f y).owner = y.owner) (hbins : ∀ y, (f y).mem.bins = y.mem.bins)
    (hrelease : ∀ y, (f y).release = y.release) (hmsk : ∀ y, (f y).msk = y.msk) : closedLocal (modBay s c.bay f) c = closedLocal s c :=
  closedLocal_congr (closedSram_congr rfl (by rw [modBay_same, howner]) (by rw [modBay_same, hbins]) (by rw [modBay_same, hrelease])
    (by rw [modBay_same, hmsk]))

theorem closedLocal_modCore (s : State) (c : CoreId) (f : Core → Core) : closedLocal (modCore s c f) c = closedLocal s c :=
  closedLocal_modBay s c _ (fun _ => rfl) (fun _ => rfl) (fun _ => rfl) fun _ => rfl

/-- `t` has core `c` as `k`, but for its firing's notes, and closes the same lines of its local store as `s`. -/
def OnlyNotes (c : CoreId) (k : Core) (s t : State) : Prop := (∃ g, getCore t c = { k with firing := g }) ∧ closedLocal t c = closedLocal s c

section Notes
variable {c : CoreId} {k : Core} {s t : State} (h : OnlyNotes c k s t)
include h

theorem OnlyNotes.modFiring (f : CoreFiring → CoreFiring) : OnlyNotes c k s (modFiring t c f) := by
  obtain ⟨⟨g, hcore⟩, hclosed⟩ := h
  exact ⟨⟨g.map f, by rw [Machine.modFiring, getCore_modCore, hcore]⟩, (closedLocal_modCore t c _).trans hclosed⟩

theorem OnlyNotes.logK (code reason pc ord d3 : Nat) : OnlyNotes c k s (logK t c code reason pc ord d3) := by
  obtain ⟨hcore, hclosed⟩ := h
  exact ⟨hcore, Eq.trans (closedLocal_congr (closedSram_congr rfl rfl rfl rfl rfl)) hclosed⟩

theorem OnlyNotes.noteClosed (seeds : Bool) : OnlyNotes c k s (noteClosed t c seeds) := by
  unfold Machine.noteClosed
  split
  · split
    · exact h
    · exact (h.logK _ 0 0 0 0).modFiring _
  · split
    · exact h.logK _ 0 0 0 0
    · exact h

end Notes

/-- A read of no line counts what it corrects, and no more. -/
theorem readFaults_nil (s : State) (b : BayId) (lf : LineFaults) :
    readFaults s b [] lf = modMem s b (fun m => { m with ce := m.ce + word32 lf.ce }) := by
  have hnone : ∀ x, inSpans [] x = false := fun _ => rfl
  simp [readFaults, noteFaults, hnone]

theorem onlyNotes_taken (s : State) (c : CoreId) (ch : Fin 4) (rest : List DmaOp) (lf : LineFaults) :
    OnlyNotes c (dmaTaken (getCore s c) ch rest) s (readFaults (modCore s c (fun k => dmaTaken k ch rest)) c.bay [] lf) := by
  rw [readFaults_nil]
  have hcounted : closedLocal (modMem (modCore s c (fun k => dmaTaken k ch rest)) c.bay (fun m => { m with ce := m.ce + word32 lf.ce })) c =
      closedLocal (modCore s c (fun k => dmaTaken k ch rest)) c :=
    closedLocal_modBay _ c (fun y => { y with mem := { y.mem with ce := y.mem.ce + word32 lf.ce } }) (fun _ => rfl) (fun _ => rfl) (fun _ => rfl)
      fun _ => rfl
  refine ⟨⟨(getCore s c).firing, ?_⟩, hcounted.trans (closedLocal_modCore s c _)⟩
  have hcore : getCore (modMem (modCore s c (fun k => dmaTaken k ch rest)) c.bay (fun m => { m with ce := m.ce + word32 lf.ce })) c =
      getCore (modCore s c (fun k => dmaTaken k ch rest)) c :=
    getCore_modBay _ c.bay (fun y => { y with mem := { y.mem with ce := y.mem.ce + word32 lf.ce } }) c fun _ => rfl
  rw [hcore, getCore_modCore]
  rfl

/-- The state in which a copy inside the local store moves its bytes: the operation is off its channel, and its faults are noted. -/
def copyNoted (s : State) (c : CoreId) (ch : Fin 4) (o : DmaOp) (rest : List DmaOp) (lf : LineFaults) : State :=
  let s0 := readFaults (modCore s c (fun k => dmaTaken k ch rest)) c.bay [] lf
  let s1 := if dmaClosed s0 c o.src o.len || dmaClosed s0 c o.dst o.len then
    noteClosed s0 c (dmaSeeds s0 c o.src o.len || dmaSeeds s0 c o.dst o.len) else s0
  if dmaNonCanon s1 c o then modFiring s1 c (fun f => { f with nonCanon := true }) else s1

theorem onlyNotes_copyNoted (s : State) (c : CoreId) (ch : Fin 4) (o : DmaOp) (rest : List DmaOp) (lf : LineFaults) :
    OnlyNotes c (dmaTaken (getCore s c) ch rest) s (copyNoted s c ch o rest lf) := by
  have htaken := onlyNotes_taken s c ch rest lf
  unfold copyNoted
  generalize readFaults (modCore s c fun k => dmaTaken k ch rest) c.bay [] lf = s0 at *
  dsimp only
  split
  · split
    · exact (htaken.noteClosed _).modFiring _
    · exact htaken.noteClosed _
  · split
    · exact htaken.modFiring _
    · exact htaken

theorem exec_copyInside {s : State} {c : CoreId} {ch : Fin 4} {o : DmaOp} {rest : List DmaOp} (lf : LineFaults) (hqueue : (getCore s c).dma[ch] = o :: rest)
    (htrip : s.pow.trip = false) (hawake : s.bays[c.bay].mem.selfRefresh = false) (hop : o.op = 0) (hsrc : dmaSpace o.src = 0)
    (hdst : dmaSpace o.dst = 0) :
    exec (.dmaComplete c ch lf) s = .next (modCore (copyNoted s c ch o rest lf) c (fun k => localPut (copyNoted s c ch o rest lf) c k (dmaOff o.dst)
      (localGet (copyNoted s c ch o rest lf) c (getCore (copyNoted s c ch o rest lf) c) (dmaOff o.src) o.len))) := by
  have hgoes : ¬ (s.pow.trip || (s.bays[c.bay].mem.selfRefresh && (dmaSpace o.src == 2 || dmaSpace o.dst == 2))) = true := by
    simp [htrip, show s.bays[c.bay.1].mem.selfRefresh = false from hawake]
  have hstack : ¬ dmaSpace o.src = 2 := by omega
  show execDmaComplete c ch lf s = _
  unfold execDmaComplete
  rw [hqueue]
  dsimp only
  rw [if_neg hgoes]
  simp only [if_neg hstack, if_neg (not_not_intro hop), if_pos hop, dmaRead, dmaWrite, if_pos hsrc, if_pos hdst]
  rfl

theorem dmaComplete : DmaComplete := by
  intro s c ch o rest lf hqueue htrip hawake hop hsrc hdst hwf
  have hexec := exec_copyInside lf hqueue htrip hawake hop hsrc hdst
  obtain ⟨⟨g, hcore⟩, hclosed⟩ := onlyNotes_copyNoted s c ch o rest lf
  generalize copyNoted s c ch o rest lf = s1 at *
  have hls : (getCore s1 c).ls = (getCore s c).ls := by rw [hcore]; rfl
  have hsame : ∀ x, lsClosed s1 c x = lsClosed s c x := fun x => by rw [lsClosed, hclosed, lsClosed]
  have hbyte : ∀ x, lsByte s1 c x = lsByte s c x := fun x => by rw [lsByte, hsame, hls, lsByte]
  obtain ⟨hrest, hbytes, -⟩ := stores_localPut s1 c (getCore s1 c) (dmaOff o.dst) (localGet s1 c (getCore s1 c) (dmaOff o.src) o.len)
  refine ⟨_, hexec, ?_, fun x => ?_⟩
  · rw [getCore_modCore, hrest]
    show (getCore s1 c).dma[ch] = rest
    rw [hcore]
    exact vmod_same _ _ _
  · rw [getCore_modCore, hbytes, hls]
    dsimp only
    rw [hsame, localGet_eq s1 c _ _ (hls ▸ hwf), bytesAt, List.length_map, List.length_range]
    by_cases hx : dmaOff o.dst ≤ x ∧ x < dmaOff o.dst + o.len
    · obtain ⟨hlo, hhi⟩ := hx
      have hin : x - dmaOff o.dst < o.len := by omega
      cases lsClosed s c x
      · simp [hlo, hhi, hbyte, hin]
      · simp
    · rw [if_neg hx, ite_self, if_neg fun h => hx ⟨h.1, h.2.1⟩]
      rfl

/-- Settles O11: an issued DMA instruction queues its operation (`dmaOp_queues`), and a completed copy reads through `localGet_eq` and writes through
`stores_localPut`. -/
theorem dmaOperationsMoveTheirBytes : Obligations.DmaOperationsMoveTheirBytes := ⟨dmaInstructions, dmaComplete⟩

end Sys2Proof.Machine

/-! PROOFS. Kernel instructions that name no memory (R245, R246, R249): what each of them keeps, whether it ends or is a kernel error; O12 from it. -/

namespace Sys2Proof.Machine

open Sys2Proof.Said

/-! ## Memory but for the header lines of held output slots -/

/-- `t` keeps the memory of `s`, but for the header lines of the output slots that core `c` holds in `s`. -/
def KeepsMemory (c : CoreId) (s t : State) : Prop := sameMemoryBut (heldOut s c 64) s t

theorem keepsMemory_refl (c : CoreId) (s : State) : KeepsMemory c s s := fun _ => ⟨fun _ => rfl, fun _ _ => rfl, fun _ _ => rfl⟩

theorem keepsMemory_kernelError (c : CoreId) (s : State) (reason : Nat) : KeepsMemory c s (kernelError s c reason) := (kernelError_leaves s c reason).2.1

theorem keepsMemory_retireTo (c : CoreId) (s : State) (n pc : Nat) : KeepsMemory c s (retireTo s c n pc) := by
  by_cases h4 : pc % 4 = 0
  · by_cases hl : pc < localSize
    · exact (retireTo_leaves s c n pc h4 hl).2 _
    · rw [retireTo, if_neg (not_not_intro h4), if_pos (Nat.le_of_not_lt hl)]
      exact keepsMemory_kernelError c s 3
  · rw [retireTo, if_pos h4]
    exact keepsMemory_kernelError c s 2

theorem keepsMemory_retire (c : CoreId) (s : State) (n : Nat) : KeepsMemory c s (retire s c n) := keepsMemory_retireTo c s n _

/-- A change of the core leaves its local store, its station and the slots it holds. -/
structure KeepsHeld (k k' : Core) : Prop where
  ls : k'.ls = k.ls
  ctl : k'.ctl = k.ctl
  slots : heldSlots k' = heldSlots k

theorem putS_keepsHeld (k : Core) (r : BitVec 6) (x : W64) : KeepsHeld k (putS k r x) := by
  unfold putS
  split <;> exact ⟨rfl, rfl, rfl⟩

theorem putP_keepsHeld (k : Core) (r : BitVec 3) (x : W64) : KeepsHeld k (putP k r x) := by
  unfold putP
  split <;> exact ⟨rfl, rfl, rfl⟩

theorem putV_keepsHeld (k : Core) (r : BitVec 5) (x : Vector W64 32) : KeepsHeld k (putV k r x) := ⟨rfl, rfl, rfl⟩

theorem KeepsHeld.modFiring {k k' : Core} (h : KeepsHeld k k') {f : CoreFiring → CoreFiring} (hf : ∀ x, (f x).slots = x.slots) :
    KeepsHeld k { k' with firing := k'.firing.map f } := by
  refine ⟨h.ls, h.ctl, Eq.trans ?_ h.slots⟩
  unfold heldSlots
  cases k'.firing <;> simp [hf]

section Change
variable {c : CoreId} {s : State} {f : Core → Core} (hf : KeepsHeld (getCore s c) (f (getCore s c)))
include hf

theorem KeepsMemory.afterModCore {t : State} (h : KeepsMemory c (modCore s c f) t) : KeepsMemory c s t := by
  obtain ⟨hls, hctl, hslots⟩ := hf
  unfold KeepsMemory at h
  rw [heldOut_modCore s c f 64 hctl hslots] at h
  exact sameMemoryBut_trans (sameMemoryBut_modCore _ s c f hls) h

theorem keepsMemory_modCore : KeepsMemory c s (modCore s c f) := sameMemoryBut_modCore _ s c f hf.ls

theorem keepsMemory_change (n : Nat) : KeepsMemory c s (retire (modCore s c f) c n) := .afterModCore hf (keepsMemory_retire c _ n)

theorem keepsMemory_jump (n pc : Nat) : KeepsMemory c s (retireTo (modCore s c f) c n pc) := .afterModCore hf (keepsMemory_retireTo c _ n pc)

end Change

/-! ## Each shape of instruction -/

/-- Instruction `i` runs as one of core `c`, and keeps memory when it does. -/
def Quiet (s : State) (c : CoreId) (i : Instr) (r : Res) : Prop := ∃ f, r = issue s c i f ∧ KeepsMemory c s (f (getCore s c))

section Shapes
variable (s : State) (i : Instr) (c : CoreId)

theorem aluOp_quiet (d a b : BitVec 6) (f : W64 → W64 → W64) : Quiet s c i (aluOp s i c d a b f) :=
  ⟨_, rfl, keepsMemory_change (putS_keepsHeld _ _ _) 1⟩

theorem immOp_quiet (d a : BitVec 6) (f : W64 → W64) : Quiet s c i (immOp s i c d a f) := ⟨_, rfl, keepsMemory_change (putS_keepsHeld _ _ _) 1⟩

theorem predOp_quiet (d a b : BitVec 3) (f : W64 → W64 → W64) : Quiet s c i (predOp s i c d a b f) :=
  ⟨_, rfl, keepsMemory_change (putP_keepsHeld _ _ _) 1⟩

theorem branchOp_quiet (a b : BitVec 6) (off : BitVec 14) (cond : W64 → W64 → Bool) : Quiet s c i (branchOp s i c a b off cond) := by
  refine ⟨_, rfl, ?_⟩
  split
  · exact keepsMemory_retireTo c s 3 _
  · exact keepsMemory_retire c s 1

theorem vecOp_quiet (f : VrFields) (n : Nat) (g : Nat → Nat → Nat → Nat → Nat) : Quiet s c i (vecOp s i c f n g) :=
  ⟨_, rfl, keepsMemory_change (putV_keepsHeld _ _ _) n⟩

theorem fpOp_quiet (f : VrFields) (fn n : Nat) (g : Nat → Nat → Nat → Nat) : Quiet s c i (fpOp s i c f fn n g) := vecOp_quiet s i c f n _

theorem modOp_quiet (f : VrFields) (g : MReg → Nat → Nat → Nat → Int) : Quiet s c i (modOp s i c f g) := by
  refine ⟨_, rfl, ?_⟩
  dsimp only
  split
  · exact keepsMemory_kernelError c s 6
  · exact keepsMemory_change (putV_keepsHeld _ _ _) 1

theorem cmpOp_quiet (f : VrFields) (cond : Nat → Nat → Bool) : Quiet s c i (cmpOp s i c f cond) :=
  ⟨_, rfl, keepsMemory_change (putP_keepsHeld _ _ _) 1⟩

theorem vecScalar_quiet (f : VsFields) (g : Nat → Nat → Nat → Nat) : Quiet s c i (vecScalar s i c f g) :=
  ⟨_, rfl, keepsMemory_change (putV_keepsHeld _ _ _) 1⟩

theorem cvtOp_quiet (f : VrFields) (b : Nat) (g : Core → State) (hg : KeepsMemory c s (g (getCore s c))) : Quiet s c i (cvtOp s i c f b g) := by
  refine ⟨_, rfl, ?_⟩
  dsimp only
  generalize (if f.w = true then 64 else 32) = e
  split
  · exact keepsMemory_kernelError c s 7
  · split
    · exact keepsMemory_kernelError c s 1
    · exact hg

theorem keepsMemory_encodePart (f : VrFields) (b : Nat) (widen : Nat → Nat) : KeepsMemory c s (encodePart s c f (getCore s c) b widen) := by
  unfold encodePart
  refine keepsMemory_change ?_ 1
  dsimp only
  generalize (if f.w = true then 64 else 32) = e
  split
  · exact (putV_keepsHeld _ _ _).modFiring fun _ => by rfl
  · exact putV_keepsHeld _ _ _

theorem keepsMemory_decodePart (f : VrFields) (b : Nat) : KeepsMemory c s (decodePart s c f (getCore s c) b) :=
  keepsMemory_change (putV_keepsHeld _ _ _) 1

theorem keepsMemory_mapPart (f : VrFields) (g : Nat → Nat) : KeepsMemory c s (mapPart s c f (getCore s c) g) :=
  keepsMemory_change (putV_keepsHeld _ _ _) 1

theorem wait_quiet (done : Core → Bool) : Quiet s c i (issue s c i (fun k => if done k then retire s c 1 else stallDma s c)) := by
  refine ⟨_, rfl, ?_⟩
  split
  · exact keepsMemory_retire c s 1
  · exact keepsMemory_modCore ⟨rfl, rfl, rfl⟩

end Shapes

/-! ## The instructions that have a shape of their own -/

section Single
variable (s : State) (c : CoreId)

theorem cmovnz_quiet (d a b : BitVec 6) : Quiet s c (.cmovnz c d a b) (exec (.cmovnz c d a b) s) := by
  refine ⟨_, show exec (.cmovnz c d a b) s = execCmovnz c d a b s from rfl, keepsMemory_change ?_ 1⟩
  split
  · exact ⟨rfl, rfl, rfl⟩
  · exact putS_keepsHeld _ _ _

theorem jal_quiet (d : BitVec 6) (imm : BitVec 20) : Quiet s c (.jal c d imm) (exec (.jal c d imm) s) :=
  ⟨_, show exec (.jal c d imm) s = execJal c d imm s from rfl, keepsMemory_jump (putS_keepsHeld _ _ _) 3 _⟩

theorem jalr_quiet (d a : BitVec 6) (imm : BitVec 14) : Quiet s c (.jalr c d a imm) (exec (.jalr c d a imm) s) :=
  ⟨_, show exec (.jalr c d a imm) s = execJalr c d a imm s from rfl, keepsMemory_jump (putS_keepsHeld _ _ _) 3 _⟩

theorem csrr_quiet (d : BitVec 6) (n : BitVec 14) : Quiet s c (.csrr c d n) (exec (.csrr c d n) s) :=
  ⟨_, show exec (.csrr c d n) s = execCsrr c d n s from rfl, keepsMemory_change (putS_keepsHeld _ _ _) 1⟩

theorem csrw_quiet (v : BitVec 6) (n : BitVec 14) : Quiet s c (.csrw c v n) (exec (.csrw c v n) s) := by
  refine ⟨_, show exec (.csrw c v n) s = execCsrw c v n s from rfl, ?_⟩
  split
  · exact keepsMemory_retire c s 1
  · split
    · exact keepsMemory_change ⟨rfl, rfl, rfl⟩ 1
    · exact keepsMemory_kernelError c s 7

theorem vsel_quiet (f : VrFields) : Quiet s c (.vsel c f) (exec (.vsel c f) s) :=
  ⟨_, show exec (.vsel c f) s = execVsel c f s from rfl, keepsMemory_change (putV_keepsHeld _ _ _) 1⟩

theorem fire_quiet (masks : W16) : Quiet s c (.fire c masks) (exec (.fire c masks) s) := by
  refine ⟨_, show exec (.fire c masks) s = execFire c masks s from rfl, ?_⟩
  dsimp only
  split
  · exact keepsMemory_refl c s
  · split
    · exact keepsMemory_kernelError c s 8
    · exact keepsMemory_modCore ⟨rfl, rfl, rfl⟩

theorem tslot_quiet (d : BitVec 6) (port : BitVec 4) : Quiet s c (.tslot c d port) (exec (.tslot c d port) s) := by
  refine ⟨_, show exec (.tslot c d port) s = execTslot c d port s from rfl, ?_⟩
  split
  · exact keepsMemory_kernelError c s 5
  · exact keepsMemory_change (putS_keepsHeld _ _ _) 1

theorem tend_quiet : Quiet s c (.tend c) (exec (.tend c) s) := by
  refine ⟨_, show exec (.tend c) s = execTend c s from rfl, ?_⟩
  split
  · exact keepsMemory_kernelError c s 8
  · exact keepsMemory_modCore ⟨rfl, rfl, rfl⟩

theorem tpois_quiet : Quiet s c (.tpois c) (exec (.tpois c) s) :=
  ⟨_, show exec (.tpois c) s = execTpois c s from rfl, keepsMemory_change (KeepsHeld.modFiring (k := getCore s c) ⟨rfl, rfl, rfl⟩ fun _ => by rfl) 1⟩

theorem brk_quiet : Quiet s c (.brk c) (exec (.brk c) s) := by
  refine ⟨_, show exec (.brk c) s = execBrk c s from rfl, ?_⟩
  split
  · exact sameMemoryBut_trans (keepsMemory_retire c s 1) (sameMemoryBut_modCore _ _ c _ rfl)
  · exact keepsMemory_kernelError c s 12

end Single

/-- Every kernel instruction that names no memory is one of a core, and keeps memory. -/
theorem exec_quiet (s : State) (i : Instr) (hq : touchesNoMemory i = true) : ∃ c, kernelCore i = some c ∧ Quiet s c i (exec i s) := by
  cases i with
  | add c d a b => exact ⟨c, rfl, show Quiet s c _ (execAdd c d a b s) from aluOp_quiet s _ c d a b _⟩
  | sub c d a b => exact ⟨c, rfl, show Quiet s c _ (execSub c d a b s) from aluOp_quiet s _ c d a b _⟩
  | and c d a b => exact ⟨c, rfl, show Quiet s c _ (execAnd c d a b s) from aluOp_quiet s _ c d a b _⟩
  | or c d a b => exact ⟨c, rfl, show Quiet s c _ (execOr c d a b s) from aluOp_quiet s _ c d a b _⟩
  | xor c d a b => exact ⟨c, rfl, show Quiet s c _ (execXor c d a b s) from aluOp_quiet s _ c d a b _⟩
  | sll c d a b => exact ⟨c, rfl, show Quiet s c _ (execSll c d a b s) from aluOp_quiet s _ c d a b _⟩
  | srl c d a b => exact ⟨c, rfl, show Quiet s c _ (execSrl c d a b s) from aluOp_quiet s _ c d a b _⟩
  | sra c d a b => exact ⟨c, rfl, show Quiet s c _ (execSra c d a b s) from aluOp_quiet s _ c d a b _⟩
  | mul c d a b => exact ⟨c, rfl, show Quiet s c _ (execMul c d a b s) from aluOp_quiet s _ c d a b _⟩
  | mulhu c d a b => exact ⟨c, rfl, show Quiet s c _ (execMulhu c d a b s) from aluOp_quiet s _ c d a b _⟩
  | sltu c d a b => exact ⟨c, rfl, show Quiet s c _ (execSltu c d a b s) from aluOp_quiet s _ c d a b _⟩
  | slt c d a b => exact ⟨c, rfl, show Quiet s c _ (execSlt c d a b s) from aluOp_quiet s _ c d a b _⟩
  | minu c d a b => exact ⟨c, rfl, show Quiet s c _ (execMinu c d a b s) from aluOp_quiet s _ c d a b _⟩
  | maxu c d a b => exact ⟨c, rfl, show Quiet s c _ (execMaxu c d a b s) from aluOp_quiet s _ c d a b _⟩
  | addi c d a imm => exact ⟨c, rfl, show Quiet s c _ (execAddi c d a imm s) from immOp_quiet s _ c d a _⟩
  | andi c d a imm => exact ⟨c, rfl, show Quiet s c _ (execAndi c d a imm s) from immOp_quiet s _ c d a _⟩
  | ori c d a imm => exact ⟨c, rfl, show Quiet s c _ (execOri c d a imm s) from immOp_quiet s _ c d a _⟩
  | xori c d a imm => exact ⟨c, rfl, show Quiet s c _ (execXori c d a imm s) from immOp_quiet s _ c d a _⟩
  | slli c d a sh => exact ⟨c, rfl, show Quiet s c _ (execSlli c d a sh s) from immOp_quiet s _ c d a _⟩
  | srli c d a sh => exact ⟨c, rfl, show Quiet s c _ (execSrli c d a sh s) from immOp_quiet s _ c d a _⟩
  | srai c d a sh => exact ⟨c, rfl, show Quiet s c _ (execSrai c d a sh s) from immOp_quiet s _ c d a _⟩
  | lui c d imm => exact ⟨c, rfl, show Quiet s c _ (execLui c d imm s) from immOp_quiet s _ c d 0 _⟩
  | beq c a b off => exact ⟨c, rfl, show Quiet s c _ (execBeq c a b off s) from branchOp_quiet s _ c a b off _⟩
  | bne c a b off => exact ⟨c, rfl, show Quiet s c _ (execBne c a b off s) from branchOp_quiet s _ c a b off _⟩
  | bltu c a b off => exact ⟨c, rfl, show Quiet s c _ (execBltu c a b off s) from branchOp_quiet s _ c a b off _⟩
  | bgeu c a b off => exact ⟨c, rfl, show Quiet s c _ (execBgeu c a b off s) from branchOp_quiet s _ c a b off _⟩
  | blt c a b off => exact ⟨c, rfl, show Quiet s c _ (execBlt c a b off s) from branchOp_quiet s _ c a b off _⟩
  | bge c a b off => exact ⟨c, rfl, show Quiet s c _ (execBge c a b off s) from branchOp_quiet s _ c a b off _⟩
  | pand c d a b => exact ⟨c, rfl, show Quiet s c _ (execPand c d a b s) from predOp_quiet s _ c d a b _⟩
  | por c d a b => exact ⟨c, rfl, show Quiet s c _ (execPor c d a b s) from predOp_quiet s _ c d a b _⟩
  | pxor c d a b => exact ⟨c, rfl, show Quiet s c _ (execPxor c d a b s) from predOp_quiet s _ c d a b _⟩
  | pnot c d a b => exact ⟨c, rfl, show Quiet s c _ (execPnot c d a b s) from predOp_quiet s _ c d a b _⟩
  | pset c d a b => exact ⟨c, rfl, show Quiet s c _ (execPset c d a b s) from predOp_quiet s _ c d a b _⟩
  | pclr c d a b => exact ⟨c, rfl, show Quiet s c _ (execPclr c d a b s) from predOp_quiet s _ c d a b _⟩
  | vmadd c f => exact ⟨c, rfl, show Quiet s c _ (execVmadd c f s) from modOp_quiet s _ c f _⟩
  | vmsub c f => exact ⟨c, rfl, show Quiet s c _ (execVmsub c f s) from modOp_quiet s _ c f _⟩
  | vmneg c f => exact ⟨c, rfl, show Quiet s c _ (execVmneg c f s) from modOp_quiet s _ c f _⟩
  | vmmul c f => exact ⟨c, rfl, show Quiet s c _ (execVmmul c f s) from modOp_quiet s _ c f _⟩
  | vmmac c f => exact ⟨c, rfl, show Quiet s c _ (execVmmac c f s) from modOp_quiet s _ c f _⟩
  | vmont c f => exact ⟨c, rfl, show Quiet s c _ (execVmont c f s) from modOp_quiet s _ c f _⟩
  | vmmacm c f => exact ⟨c, rfl, show Quiet s c _ (execVmmacm c f s) from modOp_quiet s _ c f _⟩
  | vtom c f => exact ⟨c, rfl, show Quiet s c _ (execVtom c f s) from modOp_quiet s _ c f _⟩
  | vfromm c f => exact ⟨c, rfl, show Quiet s c _ (execVfromm c f s) from modOp_quiet s _ c f _⟩
  | vadd c f => exact ⟨c, rfl, show Quiet s c _ (execVadd c f s) from vecOp_quiet s _ c f 1 _⟩
  | vsub c f => exact ⟨c, rfl, show Quiet s c _ (execVsub c f s) from vecOp_quiet s _ c f 1 _⟩
  | vmul c f => exact ⟨c, rfl, show Quiet s c _ (execVmul c f s) from vecOp_quiet s _ c f 1 _⟩
  | vmulhu c f => exact ⟨c, rfl, show Quiet s c _ (execVmulhu c f s) from vecOp_quiet s _ c f 1 _⟩
  | vand c f => exact ⟨c, rfl, show Quiet s c _ (execVand c f s) from vecOp_quiet s _ c f 1 _⟩
  | vor c f => exact ⟨c, rfl, show Quiet s c _ (execVor c f s) from vecOp_quiet s _ c f 1 _⟩
  | vxor c f => exact ⟨c, rfl, show Quiet s c _ (execVxor c f s) from vecOp_quiet s _ c f 1 _⟩
  | vsll c f => exact ⟨c, rfl, show Quiet s c _ (execVsll c f s) from vecOp_quiet s _ c f 1 _⟩
  | vsrl c f => exact ⟨c, rfl, show Quiet s c _ (execVsrl c f s) from vecOp_quiet s _ c f 1 _⟩
  | vsra c f => exact ⟨c, rfl, show Quiet s c _ (execVsra c f s) from vecOp_quiet s _ c f 1 _⟩
  | vcmpEq c f => exact ⟨c, rfl, show Quiet s c _ (execVcmpEq c f s) from cmpOp_quiet s _ c f _⟩
  | vcmpNe c f => exact ⟨c, rfl, show Quiet s c _ (execVcmpNe c f s) from cmpOp_quiet s _ c f _⟩
  | vcmpLtu c f => exact ⟨c, rfl, show Quiet s c _ (execVcmpLtu c f s) from cmpOp_quiet s _ c f _⟩
  | vcmpGeu c f => exact ⟨c, rfl, show Quiet s c _ (execVcmpGeu c f s) from cmpOp_quiet s _ c f _⟩
  | vcmpLt c f => exact ⟨c, rfl, show Quiet s c _ (execVcmpLt c f s) from cmpOp_quiet s _ c f _⟩
  | vcmpGe c f => exact ⟨c, rfl, show Quiet s c _ (execVcmpGe c f s) from cmpOp_quiet s _ c f _⟩
  | vcmpFlt c f => exact ⟨c, rfl, show Quiet s c _ (execVcmpFlt c f s) from cmpOp_quiet s _ c f _⟩
  | vcmpFeq c f => exact ⟨c, rfl, show Quiet s c _ (execVcmpFeq c f s) from cmpOp_quiet s _ c f _⟩
  | vcmpFun c f => exact ⟨c, rfl, show Quiet s c _ (execVcmpFun c f s) from cmpOp_quiet s _ c f _⟩
  | vbcast c f => exact ⟨c, rfl, show Quiet s c _ (execVbcast c f s) from vecScalar_quiet s _ c f _⟩
  | vadds c f => exact ⟨c, rfl, show Quiet s c _ (execVadds c f s) from vecScalar_quiet s _ c f _⟩
  | vslls c f => exact ⟨c, rfl, show Quiet s c _ (execVslls c f s) from vecScalar_quiet s _ c f _⟩
  | vsrls c f => exact ⟨c, rfl, show Quiet s c _ (execVsrls c f s) from vecScalar_quiet s _ c f _⟩
  | vsras c f => exact ⟨c, rfl, show Quiet s c _ (execVsras c f s) from vecScalar_quiet s _ c f _⟩
  | viota c f => exact ⟨c, rfl, show Quiet s c _ (execViota c f s) from vecScalar_quiet s _ c f _⟩
  | vfadd c f => exact ⟨c, rfl, show Quiet s c _ (execVfadd c f s) from fpOp_quiet s _ c f _ _ _⟩
  | vfsub c f => exact ⟨c, rfl, show Quiet s c _ (execVfsub c f s) from fpOp_quiet s _ c f _ _ _⟩
  | vfmul c f => exact ⟨c, rfl, show Quiet s c _ (execVfmul c f s) from fpOp_quiet s _ c f _ _ _⟩
  | vffma c f => exact ⟨c, rfl, show Quiet s c _ (execVffma c f s) from fpOp_quiet s _ c f _ _ _⟩
  | vfdiv c f => exact ⟨c, rfl, show Quiet s c _ (execVfdiv c f s) from fpOp_quiet s _ c f _ _ _⟩
  | vfsqrt c f => exact ⟨c, rfl, show Quiet s c _ (execVfsqrt c f s) from fpOp_quiet s _ c f _ _ _⟩
  | vfmin c f => exact ⟨c, rfl, show Quiet s c _ (execVfmin c f s) from fpOp_quiet s _ c f _ _ _⟩
  | vfmax c f => exact ⟨c, rfl, show Quiet s c _ (execVfmax c f s) from fpOp_quiet s _ c f _ _ _⟩
  | vfabs c f => exact ⟨c, rfl, show Quiet s c _ (execVfabs c f s) from fpOp_quiet s _ c f _ _ _⟩
  | vfneg c f => exact ⟨c, rfl, show Quiet s c _ (execVfneg c f s) from fpOp_quiet s _ c f _ _ _⟩
  | ftor c f => exact ⟨c, rfl, show Quiet s c _ (execFtor c f s) from cvtOp_quiet s _ c f _ _ (keepsMemory_encodePart s c f _ _)⟩
  | btor c f => exact ⟨c, rfl, show Quiet s c _ (execBtor c f s) from cvtOp_quiet s _ c f _ _ (keepsMemory_encodePart s c f _ _)⟩
  | rtof c f => exact ⟨c, rfl, show Quiet s c _ (execRtof c f s) from cvtOp_quiet s _ c f _ _ (keepsMemory_decodePart s c f _)⟩
  | rtob c f => exact ⟨c, rfl, show Quiet s c _ (execRtob c f s) from cvtOp_quiet s _ c f _ _ (keepsMemory_decodePart s c f _)⟩
  | rtos c f => exact ⟨c, rfl, show Quiet s c _ (execRtos c f s) from cvtOp_quiet s _ c f _ _ (keepsMemory_mapPart s c f _)⟩
  | stor c f => exact ⟨c, rfl, show Quiet s c _ (execStor c f s) from cvtOp_quiet s _ c f _ _ (keepsMemory_mapPart s c f _)⟩
  | dwait c dst src len ch => exact ⟨c, rfl, show Quiet s c _ (execDwait c dst src len ch s) from wait_quiet s _ c (fun k => (k.dma[(⟨ch.toNat, ch.isLt⟩ : Fin 4)]).isEmpty)⟩
  | dfence c dst src len ch => exact ⟨c, rfl, show Quiet s c _ (execDfence c dst src len ch s) from wait_quiet s _ c (fun k => (dmaLive k).isEmpty)⟩
  | cmovnz c d a b => exact ⟨c, rfl, cmovnz_quiet s c d a b⟩
  | jal c d imm => exact ⟨c, rfl, jal_quiet s c d imm⟩
  | jalr c d a imm => exact ⟨c, rfl, jalr_quiet s c d a imm⟩
  | csrr c d n => exact ⟨c, rfl, csrr_quiet s c d n⟩
  | csrw c v n => exact ⟨c, rfl, csrw_quiet s c v n⟩
  | vsel c f => exact ⟨c, rfl, vsel_quiet s c f⟩
  | fire c masks => exact ⟨c, rfl, fire_quiet s c masks⟩
  | tslot c d port => exact ⟨c, rfl, tslot_quiet s c d port⟩
  | tend c => exact ⟨c, rfl, tend_quiet s c⟩
  | tpois c => exact ⟨c, rfl, tpois_quiet s c⟩
  | brk c => exact ⟨c, rfl, brk_quiet s c⟩
  | _ => exact absurd hq Bool.false_ne_true

/-- Settles O12: such an instruction is its core's alone (`spells_of_decodeKernel`) and keeps memory when it is issued (`exec_quiet`); one that is not
issued does nothing. -/
theorem registerInstructionsKeepMemory : Obligations.RegisterInstructionsKeepMemory := by
  intro s t i hq hrun
  obtain ⟨c, hc, f, hissue, hkeeps⟩ := exec_quiet s i hq
  rw [hissue] at hrun
  refine ⟨fun d hready => ?_, fun hidle => ?_⟩
  · have hdecode : decodeKernel d (coreFetch (getCore s d)) = some i := by
      simp only [kernelReady, Bool.and_eq_true, beq_iff_eq] at hready
      exact hready.2
    obtain ⟨hd, -, -⟩ := spells_of_decodeKernel _ _ _ hdecode
    obtain rfl := Option.some.inj (hd.symm.trans hc)
    rw [issue_ready _ _ _ _ hready] at hrun
    obtain rfl := Host.Outcome.next.inj hrun
    exact hkeeps
  · rw [issue_idle _ _ _ _ (hidle c)] at hrun
    exact (Host.Outcome.next.inj hrun).symm

end Sys2Proof.Machine

/-! PROOFS. Slots, steps, SCH_HALT, SCH_PHASE and the re-map of a bay (R260, R270, R271, R281, R283): what the end of transfers, a share set and a
re-map leave of the schedule; O51 from them. -/

namespace Sys2Proof.Machine

open Sys2Proof.Said

/-! ## What the end of a transfer leaves of the schedule unit -/

theorem locModify_sch (s : State) (l : Loc) (off : Nat) (bs : List Byte) : (locModify s l off bs).sch = s.sch := by
  unfold locModify
  split <;> rfl

theorem setLocPoison_sch (s : State) (b : BayId) (l : Loc) (x : Bin) (k cause : Nat) : (setLocPoison s b l x k cause).sch = s.sch := by
  unfold setLocPoison
  split
  · exact locModify_sch s l _ _
  · rfl

/-- A run over a list, each of whose steps leaves the schedule unit. -/
theorem foldl_sch {α : Type} (f : State → α → State) (hf : ∀ t x, (f t x).sch = t.sch) (l : List α) (s : State) : (l.foldl f s).sch = s.sch :=
  foldl_keeps f (fun t : State => t.sch = s.sch) (fun t x ht => (hf t x).trans ht) l s rfl

theorem setPoison_sch (s : State) (b : BayId) (x : Bin) (k cause : Nat) : (setPoison s b x k cause).sch = s.sch :=
  foldl_sch _ (fun t l => setLocPoison_sch t b l x k cause) _ s

/-- The data positions that a failed RECV poisons. -/
def recvDataPoison (s : State) (p : TenantId) (g : Image) (x : Xfer) (r : XferRun) : State :=
  match xferBin s p x with
  | none => s
  | some (b, y) => (xferMissing x (dataTiles s p g.job x) r).foldl
      (fun s k => if x.firstPos + k < y.t then setPoison s b y (x.firstPos + k) codeAborted else s) s

theorem recvDataPoison_sch (s : State) (p : TenantId) (g : Image) (x : Xfer) (r : XferRun) : (recvDataPoison s p g x r).sch = s.sch := by
  unfold recvDataPoison
  split
  · rfl
  · refine foldl_sch _ (fun t k => ?_) _ s
    split
    · exact setPoison_sch t _ _ _ _
    · rfl

theorem recvPoison_sch (s : State) (p : TenantId) (g : Image) (x : Xfer) (r : XferRun) : (recvPoison s p g x r).sch = s.sch := by
  have hdata := recvDataPoison_sch s p g x r
  show (if _ then recvDataPoison s p g x r else _ : State).sch = _
  split
  · exact hdata
  · exact (foldl_sch _ (fun t _ => foldl_sch _ (fun u _ => setPoison_sch u _ _ _ _) _ t) _ (recvDataPoison s p g x r)).trans hdata

theorem xferEnd_sch (s : State) (p : TenantId) (g : Image) (i : Nat) (x : Xfer) (r : XferRun) : (xferEnd s p g i x r).sch = s.sch := by
  unfold xferEnd
  dsimp only
  cases x.send
  case false =>
    simp only [Bool.false_eq_true, if_false]
    split
    · rfl
    · exact recvPoison_sch (putRun s { r with ended := true }) p g x r
  case true =>
    simp only [if_true]
    split <;> rfl

theorem endRuns_sch (s : State) (p : TenantId) (test : Xfer → XferRun → Bool) : (endRuns s p test).sch = s.sch := by
  unfold endRuns
  split
  · rfl
  · refine foldl_sch _ (fun t r => ?_) _ s
    split
    · split
      · exact xferEnd_sch t p _ _ _ r
      · rfl
    · rfl

theorem applyPlan_sch (s : State) (p : TenantId) (g : Image) (off : Nat) : (applyPlan s p g off).sch = s.sch := by
  refine foldl_sch _ (fun t e => foldl_sch _ (fun u b => ?_) _ t) _ s
  split <;> rfl

/-! ## SLOT_START -/

theorem modSch_part (s : State) (p : TenantId) (f : SchPart → SchPart) : (modSch s p f).sch.parts[p] = f s.sch.parts[p] := vmod_same _ _ _

/-- The state with its slot counted. -/
def slotCounted (s : State) (p : TenantId) : State := modSch s p (fun x => { x with slot := s.sch.parts[p].slot + 1 })

/-- The state in which a slot has begun, and with the first slot of a period the next step. -/
def slotBegun (s : State) (p : TenantId) (g : Image) : State :=
  if s.sch.parts[p].slot % g.period = 0 then beginStep (slotCounted s p) p g else slotCounted s p

theorem exec_slotStart {s : State} {p : TenantId} {g : Image} (hg : slotImage s p = some g)
    (hdue : s.sch.parts[p].t0.toNat + 10000 * s.sch.parts[p].slot ≤ s.alm.t.toNat + 12) :
    ∃ t, exec (.slotStart p) s = .next t ∧ t.sch = (slotBegun s p g).sch := by
  have hexec : exec (.slotStart p) s = execSlotStart p s := rfl
  rw [hexec, execSlotStart, hg]
  dsimp only
  rw [if_neg (Nat.not_lt.2 hdue)]
  refine ⟨if (slotBegun s p g).sch.parts[p].stepping then endRuns (applyPlan (slotBegun s p g) p g (s.sch.parts[p].slot % g.period)) p
    (sendPortless (slotBegun s p g) (s.sch.parts[p].slot % g.period)) else slotBegun s p g, rfl, ?_⟩
  split
  · rw [endRuns_sch, applyPlan_sch]
  · rfl

/-- The state in which a step begins or is held: the transfers of the step before are over. -/
def stepOver (s : State) (p : TenantId) : State := modRedShare (endRuns s p (fun _ _ => true)) p (fun h => { h with rejects := [] })

theorem stepOver_sch (s : State) (p : TenantId) : (stepOver s p).sch = s.sch := endRuns_sch s p _

theorem stepFits_noSwap {x : SchPart} (h : x.swap = none) (g : Image) (t : Nat) : stepFits x g t = true := by
  rw [stepFits, h]

section Step
variable {s : State} {p : TenantId} {g : Image}

theorem beginStep_begins (hrun : s.sch.parts[p].haltPending = false) (hswap : s.sch.parts[p].swap = none) (hdomain : g.domain ≤ 1) :
    (beginStep s p g).sch.parts[p] =
      { s.sch.parts[p] with step := s.sch.parts[p].step + 1, stepping := true, timeHold := false, started := true } := by
  have hsch := stepOver_sch s p
  show (if (stepOver s p).sch.parts[p].haltPending then _ else if !stepFits (stepOver s p).sch.parts[p] g _ then _ else _ : State).sch.parts[p] = _
  rw [hsch, hrun, if_neg Bool.false_ne_true, stepFits_noSwap hswap, if_neg (by decide), if_neg fun h => by omega]
  refine (modSch_part (stepOver s p) p _).trans ?_
  show { (stepOver s p).sch.parts[p] with step := (stepOver s p).sch.parts[p].step + 1, stepping := true, timeHold := false, started := true } = _
  rw [hsch]

theorem beginStep_halts (hhalt : s.sch.parts[p].haltPending = true) (hstate : s.sch.parts[p].state = .running) :
    (beginStep s p g).sch.parts[p] = { s.sch.parts[p] with state := .halted, haltPending := false, halted := true, stepping := false } := by
  have hsch := stepOver_sch s p
  show (if (stepOver s p).sch.parts[p].haltPending then _ else _ : State).sch.parts[p] = _
  rw [hsch, hhalt, if_pos rfl]
  refine (modSch_part (stepOver s p) p _).trans ?_
  rw [hsch, hstate]
  rfl

end Step

theorem slots (s : State) (p : TenantId) (g : Image) (hg : slotImage s p = some g) :
    let x := s.sch.parts[p]
    x.t0.toNat + 10000 * x.slot ≤ s.alm.t.toNat + 12 →
    (x.slot % g.period ≠ 0 → Runs (.slotStart p) s (fun t => t.sch.parts[p] = { x with slot := x.slot + 1 })) ∧
    (x.slot % g.period = 0 → x.haltPending = false → x.swap = none → g.domain ≤ 1 → Runs (.slotStart p) s (fun t =>
      t.sch.parts[p] = { x with slot := x.slot + 1, step := x.step + 1, stepping := true, timeHold := false, started := true })) ∧
    (x.slot % g.period = 0 → x.haltPending = true → x.state = .running → Runs (.slotStart p) s (fun t =>
      t.sch.parts[p] = { x with slot := x.slot + 1, state := .halted, haltPending := false, halted := true, stepping := false })) := by
  intro x hdue
  obtain ⟨t, hrun, hsch⟩ := exec_slotStart hg hdue
  have hcount : (slotCounted s p).sch.parts[p] = { x with slot := x.slot + 1 } := modSch_part s p _
  refine ⟨fun hmid => ⟨t, hrun, ?_⟩, fun hfirst hgo hswap hdomain => ⟨t, hrun, ?_⟩, fun hfirst hhalt hstate => ⟨t, hrun, ?_⟩⟩
  · show t.sch.parts[p] = _
    rw [hsch, slotBegun, if_neg hmid, hcount]
  · show t.sch.parts[p] = _
    rw [hsch, slotBegun, if_pos hfirst, beginStep_begins (by rw [hcount]; exact hgo) (by rw [hcount]; exact hswap) hdomain, hcount]
  · show t.sch.parts[p] = _
    rw [hsch, slotBegun, if_pos hfirst, beginStep_halts (by rw [hcount]; exact hhalt) (by rw [hcount]; exact hstate), hcount]

/-! ## SCH_HALT and SCH_PHASE -/

theorem schHalt_pends {s : State} {h : CmdHdr} {p : TenantId} (hpart : h.part = tenantPart p) (hruns : runsSlots s.sch.parts[p] = true)
    (hgo : (s.sch.parts[p]).haltPending = false) : Runs (.schHalt h) s (fun t => completes s t h 0 [] ∧
      t.sch.parts[p] = { s.sch.parts[p] with haltPending := true }) := by
  have hrun : exec (.schHalt h) s = .next (complete (modSch (begun s (.schHalt h)) p (fun x => { x with haltPending := true })) h 0 []) := by
    show execSchHalt h s = _
    simp only [execSchHalt, issuer_tenant hpart, begun_sch, hruns, hgo, Bool.not_true, Bool.or_self, Bool.false_eq_true, if_false]
  refine ⟨_, hrun, completes_begun (u := modSch (begun s (.schHalt h)) p (fun x => { x with haltPending := true })) rfl h _ _, ?_⟩
  rw [complete_sch]
  exact modSch_part (begun s (.schHalt h)) p _

/-- The share set of the bays that a mask names. -/
def phaseSet (mask set : Nat) (bays : List BayId) (s : State) : State :=
  bays.foldl (fun s b => if bitOf mask b.1 then modMem s b (fun m => { m with shareSet := set }) else s) s

theorem phaseSet_shareSet (mask set : Nat) (bays : List BayId) (s : State) (b : BayId) :
    ((phaseSet mask set bays s).bays[b]).mem.shareSet = if b ∈ bays ∧ bitOf mask b.1 = true then set else (s.bays[b]).mem.shareSet := by
  induction bays generalizing s with
  | nil => simp [phaseSet]
  | cons c bays ih =>
    rw [phaseSet, List.foldl_cons, ← phaseSet, ih]
    by_cases hb : b = c
    · subst hb
      by_cases hbit : bitOf mask b.1 = true
      · simp [hbit]
      · simp [hbit]
    · have hother : ((if bitOf mask c.1 then modMem s c (fun m => { m with shareSet := set }) else s).bays[b]).mem.shareSet =
          (s.bays[b]).mem.shareSet := by
        split
        · rw [modMem_other _ _ _ _ hb]
        · rfl
      rw [hother]
      simp [hb]

theorem phaseSet_qm (mask set : Nat) (bays : List BayId) (s : State) : (phaseSet mask set bays s).qm = s.qm := by
  refine foldl_keeps _ (fun t : State => t.qm = s.qm) (fun t b ht => ?_) _ s rfl
  split <;> exact ht

theorem schPhase_sets {s : State} {h : CmdHdr} {p : TenantId} (hpart : h.part = tenantPart p) {g : Image} {mask : W16} {set : Nat}
    (hg : (s.sch.parts[p]).running = some g) (hplan : g.hasPlan = false) (hset : set ≤ 7) (hmask : mask.toNat &&& bayMask s h.part = mask.toNat) :
    Runs (.schPhase h mask set) s (fun t => completes s t h 0 [] ∧ ∀ b : BayId,
        (t.bays[b]).mem.shareSet = if bitOf mask.toNat b.1 then set else s.bays[b].mem.shareSet) := by
  have hgood : ¬ (g.hasPlan = true ∨ 7 < set ∨ mask.toNat &&& bayMask (begun s (.schPhase h mask set)) h.part ≠ mask.toNat) := by
    rintro (hp | hs | hm)
    · simp [hplan] at hp
    · omega
    · exact hm hmask
  have hrun : exec (.schPhase h mask set) s = .next (complete (phaseSet mask.toNat set allBays (begun s (.schPhase h mask set))) h 0 []) := by
    show execSchPhase h mask set s = _
    simp only [execSchPhase, issuer_tenant hpart, begun_sch, hg, if_neg hgood]
    rfl
  refine ⟨_, hrun, completes_begun (phaseSet_qm _ _ _ _) h _ _, fun b => ?_⟩
  rw [complete_bays, phaseSet_shareSet]
  simp only [mem_allBays, true_and]
  rfl

/-! ## The re-map of a bay -/

theorem addConn_keeps (s : State) (job : W32) (c : Conn) (ip : InPort) (op : OutPort) :
    (addConn s job c ip op).sch = s.sch ∧ (addConn s job c ip op).dbkIn = s.dbkIn := by
  unfold addConn
  split
  · exact ⟨rfl, rfl⟩
  · exact ⟨by rw [modOut_sch, modIn_sch], by rw [modOut_dbkIn, modIn_dbkIn]⟩

theorem dropConn_keeps (s : State) (c : Conn) : (dropConn s c).sch = s.sch ∧ (dropConn s c).dbkIn = s.dbkIn := by
  unfold dropConn
  split
  · exact ⟨rfl, rfl⟩
  · exact ⟨by rw [modOut_sch, modIn_sch], by rw [modOut_dbkIn, modIn_dbkIn]⟩

/-- A run over a list, each of whose steps leaves the schedule unit and the daybook's input. -/
theorem foldl_schAndLog {α : Type} (f : State → α → State) (hf : ∀ t x, (f t x).sch = t.sch ∧ (f t x).dbkIn = t.dbkIn) (l : List α) (s : State) :
    (l.foldl f s).sch = s.sch ∧ (l.foldl f s).dbkIn = s.dbkIn :=
  foldl_keeps f (fun t : State => t.sch = s.sch ∧ t.dbkIn = s.dbkIn)
    (fun t x ⟨hsch, hlog⟩ => ⟨(hf t x).1.trans hsch, (hf t x).2.trans hlog⟩) l s ⟨rfl, rfl⟩

theorem moveConns_keeps (s : State) (g : Image) (f : Fallback) : (moveConns s g f).sch = s.sch ∧ (moveConns s g f).dbkIn = s.dbkIn := by
  obtain ⟨hdropSch, hdropLog⟩ := foldl_schAndLog dropConn dropConn_keeps
    (g.conns.filter (fun c => isCoreEnd f.bay c.prod || isCoreEnd f.bay c.cons)) s
  rw [← hdropSch, ← hdropLog]
  refine foldl_schAndLog _ (fun t c => ?_) f.conns _
  split
  · exact addConn_keeps t _ _ _ _
  · exact addConn_keeps t _ _ _ _

theorem updWait_keeps (s : State) (r : StationRef) : (updWait s r).sch = s.sch ∧ (updWait s r).dbkIn = s.dbkIn :=
  ⟨modSt_sch s r _, modSt_dbkIn s r _⟩

/-- The core that a re-map is for. -/
def remapCore (b : BayId) (c : Nat) : CoreId := ⟨b, ⟨c % 50, Nat.mod_lt _ (by decide)⟩⟩

/-- A bay whose re-map is no longer awaited. -/
def remapGone (s : State) (b : BayId) : State := modBay s b (fun y => { y with remapping := none })

/-- The bay's cores on a fallback placement: one that runs the same binding goes on. -/
def remapBound (f : Fallback) (y : Bay) : Bay :=
  { y with cores := vmapIdx y.cores (fun i k => match f.binds.find? (fun x => x.core == i) with
    | some x => if (k.bind.map (·.raw)) = some x.raw then k else { bindCore k x with moved := true }
    | none => unbindCore k) }

/-- The partition's image and the bay on a fallback placement, before the bay looks for the next fenced core. -/
def remapMoved (s : State) (b : BayId) (p : TenantId) (g : Image) (f : Fallback) : State :=
  modSch (modBay (moveConns (remapGone s b) g f) b (remapBound f)) p (fun x => { x with running := some (fallImage g f), remapped := true })

theorem remapMoved_keeps (s : State) (b : BayId) (p : TenantId) (g : Image) (f : Fallback) :
    (remapMoved s b p g f).dbkIn = s.dbkIn ∧ ((remapMoved s b p g f).sch.parts[p]).remapped = true ∧
      ((remapMoved s b p g f).sch.parts[p]).running = some (fallImage g f) := by
  have hpart : (remapMoved s b p g f).sch.parts[p] =
      { (moveConns (remapGone s b) g f).sch.parts[p] with running := some (fallImage g f), remapped := true } := modSch_part _ p _
  exact ⟨(moveConns_keeps (remapGone s b) g f).2, by rw [hpart], by rw [hpart]⟩

section Remap
variable {s : State} {b : BayId} {c : Fin 50} (hmap : s.bays[b].remapping = some c.1) (hidle : ∀ k : Fin 50, (s.bays[b].cores[k]).firing = none)
include hidle

theorem allCores_idle : ¬ (allCores.any fun k => (s.bays[b].cores[k]).firing.isSome) = true := by
  rw [List.any_eq_true]
  rintro ⟨k, -, hk⟩
  rw [hidle k] at hk
  cases hk

include hmap

theorem exec_coreRemap_none (hnone : runningImage s s.bays[b].owner = none) :
    exec (.coreRemap b) s = .next (remapNext (logK (remapGone s b) (remapCore b c.1) codeRemapNone 0 0 0 0) b) := by
  show execCoreRemap b s = _
  rw [execCoreRemap, hmap]
  dsimp only
  rw [if_neg (allCores_idle hidle), hnone]
  rfl

theorem exec_coreRemap_some {p : TenantId} {g : Image} {f : Fallback} (howner : s.bays[b].owner = tenantPart p)
    (hg : (s.sch.parts[p]).running = some g) (hf : fallbackFor s b g c.1 = some f) :
    exec (.coreRemap b) s = .next ((bayStations b).foldl updWait
      (remapNext (logK (remapMoved s b p g f) (remapCore b c.1) codeCoreRemap 0 0 0 0) b)) := by
  have htenant : partTenant s.bays[b].owner = some p := by rw [howner, partTenant_tenantPart]
  have hrunning : runningImage s s.bays[b].owner = some g := by rw [runningImage, htenant, Option.bind_some, hg]
  show execCoreRemap b s = _
  rw [execCoreRemap, hmap]
  dsimp only
  rw [if_neg (allCores_idle hidle), hrunning, htenant, Option.bind_some, hf]
  rfl

theorem coreRemap_stays (hnone : runningImage s s.bays[b].owner = none) (hlast : s.bays[b].remapQ = []) :
    Runs (.coreRemap b) s (fun t => (t.bays[b]).remapping = none ∧ oneEntry s t 0x9005 ∧ (t.bays[b]).cores = s.bays[b].cores) := by
  refine ⟨_, exec_coreRemap_none hmap hidle hnone, ?_, ⟨_, rfl, rfl⟩, ?_⟩
  · rw [remapNext, modBay_same]
    show (nextFenced _ ((remapGone s b).bays[b]).remapQ).1 = none
    rw [remapGone, modBay_same, hlast]
    rfl
  · rw [remapNext, modBay_same]
    show ((remapGone s b).bays[b]).cores = _
    rw [remapGone, modBay_same]

theorem coreRemap_follows {d : Fin 50} (hnone : runningImage s s.bays[b].owner = none) (hqueue : s.bays[b].remapQ = [d.1])
    (hfenced : (s.bays[b].cores[d]).ctl.st = .fenced) (hbound : (s.bays[b].cores[d]).bind.isSome = true) :
    Runs (.coreRemap b) s (fun t => (t.bays[b]).remapping = some d.1 ∧ oneEntry s t 0x9005) := by
  have hplace : finOpt 50 d.1 = some d := by simp [finOpt]
  refine ⟨_, exec_coreRemap_none hmap hidle hnone, ?_, _, rfl, rfl⟩
  rw [remapNext, modBay_same]
  show (nextFenced ((remapGone s b).bays[b]) ((remapGone s b).bays[b]).remapQ).1 = some d.1
  rw [remapGone, modBay_same]
  dsimp only
  rw [hqueue, nextFenced, hplace]
  dsimp only
  rw [if_pos ⟨hfenced, hbound⟩]

theorem coreRemap_moves {p : TenantId} {g : Image} {f : Fallback} (howner : s.bays[b].owner = tenantPart p)
    (hg : (s.sch.parts[p]).running = some g) (hf : fallbackFor s b g c.1 = some f) :
    Runs (.coreRemap b) s (fun t => oneEntry s t 0x9004 ∧ (t.sch.parts[p]).remapped = true ∧
      (t.sch.parts[p]).running = some { g with conns := fallConns g f, binds := fallBinds g f }) := by
  obtain ⟨hmovedLog, hremapped, hrunning⟩ := remapMoved_keeps s b p g f
  obtain ⟨hsch, hlog⟩ := foldl_schAndLog updWait updWait_keeps (bayStations b)
    (remapNext (logK (remapMoved s b p g f) (remapCore b c.1) codeCoreRemap 0 0 0 0) b)
  obtain ⟨e, hentry, hcode⟩ : oneEntry s (logK (remapMoved s b p g f) (remapCore b c.1) codeCoreRemap 0 0 0 0) 0x9004 := by
    rw [oneEntry, ← hmovedLog]
    exact ⟨_, rfl, rfl⟩
  refine ⟨_, exec_coreRemap_some hmap hidle howner hg hf, ⟨e, hlog.trans hentry, hcode⟩, ?_, ?_⟩
  · rw [hsch]
    exact hremapped
  · rw [hsch]
    exact hrunning

end Remap

/-- Settles O51: a slot counts itself and, first of its period, begins or ends the step (`beginStep_begins`, `beginStep_halts`); a share set reaches
the bays of its mask (`phaseSet_shareSet`); a re-map moves the bay's image or says that it has none. -/
theorem slotsBeginStepsAndRemaps : Obligations.SlotsBeginStepsAndRemaps :=
  ⟨slots, fun _ _ _ hpart => ⟨schHalt_pends hpart, fun _ _ _ hg hplan hset hmask => schPhase_sets hpart hg hplan hset hmask⟩,
    fun _ _ _ hmap hidle => ⟨coreRemap_stays hmap hidle, fun _ hnone hqueue hfenced hbound => coreRemap_follows hmap hidle hnone hqueue hfenced hbound,
      fun _ _ _ howner hg hf => coreRemap_moves hmap hidle howner hg hf⟩⟩

end Sys2Proof.Machine

/-! PROOFS. What reset leaves (R238, R331, R334, R433): each part of the state at its default; O58 from it. -/

namespace Sys2Proof.Machine

open Sys2Proof.Said

theorem reset_bay (b : BayId) : State.reset.bays[b] = {} := Vector.getElem_replicate b.isLt

theorem reset_part (p : TenantId) : getPart State.reset p = {} := Vector.getElem_replicate p.isLt

theorem reset_daybook (p : PartId) : State.reset.dbk[p] = {} := Vector.getElem_replicate p.isLt

theorem reset_core (c : CoreId) : getCore State.reset c = {} := by
  rw [getCore, reset_bay]
  exact Vector.getElem_replicate c.core.isLt

/-- The registers of a core after reset: zero but for p0, and no modulus register VALID. -/
theorem default_core_registers (r : BitVec 6) (v i : Fin 32) (m : Fin 8) (p : BitVec 3) :
    coreS ({} : Core) r = 0 ∧ (({} : Core).v[v])[i] = 0 ∧ (({} : Core).m[m]).valid = false ∧
      coreP ({} : Core) p = if p = 0 then BitVec.allOnes 64 else 0 := by
  refine ⟨?_, ?_, ?_, ?_⟩
  · simp [coreS]
  · simp
  · simp
  · simp [coreP]

/-- Settles O58: reset leaves each part of the state at its default. -/
theorem resetLeavesTheStatedValues : Obligations.ResetLeavesTheStatedValues := by
  refine ⟨fun p => ?_, fun b => ?_, rfl, fun b => ?_, fun p => ?_, fun p => ?_, fun c r v i m p => ?_⟩
  · rw [reset_daybook]
    exact Nat.zero_le _
  · obtain ⟨hdram, hstore, -⟩ := reset_memories b
    rw [hdram, hstore]
    decide
  · rw [reset_bay]
  · rw [reset_part]
    exact ⟨rfl, rfl⟩
  · rw [reset_daybook]
    exact ⟨rfl, rfl, rfl⟩
  · rw [reset_core]
    exact default_core_registers r v i m p

end Sys2Proof.Machine
